-- ==== Sys2Proof/Word.lean ====
section
/-!
DEFINITION. Word types of the SP9 model and their plainest arithmetic: bytes, little-endian
conversion (R6), 48-bit counters (R72) and saturating sums.
-/
namespace Sys2Proof

/-- One byte of memory or of a message. -/
abbrev Byte := BitVec 8

/-- A 64-bit general register of a sequencer. -/
abbrev Word := BitVec 64

/-- A sparse table: pairs of key and value, keys strictly rising, no entry equal to the default. -/
abbrev Store (α : Type) := List (Nat × α)

/-- 2 to the n. -/
abbrev pow2 (n : Nat) : Nat := 2 ^ n

/-- A counter of 48 bits that wraps (R72). -/
def wrap48 (n : Nat) : Nat := n % 2 ^ 48

/-- A sum that saturates at `m`. -/
def satAdd (m a b : Nat) : Nat := min m (a + b)

end Sys2Proof
end

