-- ==== Sys2Proof/Kinds.lean ====
section
/-!
DEFINITION. The named values and small records that commands carry as operands: islands, straits,
paths, dictionary requests, and the records of the manual that software hands to the device.
-/
namespace Sys2Proof

/-- The path by which a dictionary request arrives; it decides the role (R53):
`odp` is OPERATOR, `mbx` is MANAGER, `i3c` is BMC. -/
inductive Path
  | odp | mbx | i3c
deriving DecidableEq, Repr, Inhabited

/-- How a Control Strait message fared in the network (R27). -/
inductive CsErr
  | clean | corrected | uncorrectable
deriving DecidableEq, Repr, Inhabited

/-- A flow that an engine relays through a memory island (R19), by the identifier that its chapter defines: the switch's
(R279), the collectives engine's (R279), and a network island's (chapter 10). -/
inductive RelayFlow
  | switch (ingress island vc : Nat)
  | coll (slot island : Nat)
  | net (conn : Nat)
deriving DecidableEq, Repr, Inhabited

/-- What a unit on a data strait belongs to: a stream of a tensor island's sequencer and the stacked memory that it reads or
writes (R122), an access of a peripheral island (R18), or a relayed flow (R19). -/
inductive UnitOf
  | stream (ti : Nat) (dpa : Nat)
  | access (island : Nat) (dpa : Nat)
  | relay (f : RelayFlow)
deriving DecidableEq, Repr, Inhabited

/-- A unit on a data strait; its payload is an abstract value (log entry 45). -/
structure StraitUnit where
  org  : UnitOf
  data : BitVec 64
deriving DecidableEq, Repr, Inhabited

/-- One entry of a dictionary request (Table 2-10). -/
structure DictEntry where
  idx   : BitVec 16
  sub   : BitVec 8
  whole : Bool
  typ   : BitVec 8
  value : List Byte
deriving DecidableEq, Repr, Inhabited

/-- A write that has no row of its own in the table of operations (R45): to a dictionary object
over a path, to a BAR0 register, to a glove-page register of slice `s`, or to the
host's controls in configuration space: the enables of ASPM L1 and its substates L1.1 and L1.2, of L0p and of ATS (R418, R421, R422). -/
inductive GWrite
  | object (p : Path) (idx : BitVec 16) (sub : BitVec 8) (typ : BitVec 8) (value : List Byte)
  | bar0 (off : BitVec 26) (v : BitVec 32)
  | glove (s : Fin 512) (off : BitVec 16) (v : BitVec 32)
  | config (l1 l11 l12 l0p ats : Bool)
deriving DecidableEq, Repr

/-- What the tick saw of the management core's work (R495, R496): items that ran late, by rank
index 0–5 for ranks 1–6, with their lateness in µs; periods dropped; whether work of rank 5 or 6
due in the tick had not started; whether load shedding stretched the period of the cache tiering; and the share of core
time of each rank over the last second. -/
structure TickWork where
  late      : List (Fin 6 × Nat)
  dropped   : List (Fin 6)
  unstarted : Bool
  tiering   : Bool
  shares    : List (Fin 6 × BitVec 16)
deriving DecidableEq, Repr, Inhabited

/-- A slice or firmware admin command (R427, R487): the fields of its 64-byte entry. `reserved`
is set when a reserved byte or bit of the entry is non-zero. -/
structure AdmCmd where
  op       : Nat
  flags    : BitVec 8
  slice    : BitVec 16
  tag      : BitVec 32
  pasid    : BitVec 20
  va       : BitVec 64
  count    : BitVec 64
  addr     : BitVec 64
  length   : BitVec 64
  offset   : BitVec 64
  reserved : Bool
deriving DecidableEq, Repr, Inhabited

/-- A quota record (Table 14-6). `islands` holds one byte per tensor island; `reserved` is set when
a reserved byte or flag of the record is non-zero. -/
structure Quota where
  memBytes : Nat
  queues   : Nat
  keySlots : Nat
  conns    : Nat
  handles  : Nat
  msix     : Nat
  pasids   : Nat
  restoreTarget : Bool
  cls      : Nat
  islands  : List Nat
  reserved : Bool
deriving DecidableEq, Repr, Inhabited

/-- A queue record (Table 14-9); `reserved` is set when one of its reserved bytes is non-zero. -/
structure QueueRec where
  kind     : Nat
  host     : Bool
  log2Size : Nat
  steer    : Nat
  pasid    : Nat
  ring     : Nat
  cq       : Nat
  hdr      : Nat
  reserved : Bool
deriving DecidableEq, Repr, Inhabited

/-- Where a queue command came from: slice, glove slot of its queue, and the tag echoed in its
completion (R437). -/
structure QCtx where
  slice : Fin 512
  slot  : Fin 1024
  tag   : BitVec 32
deriving DecidableEq, Repr, Inhabited

/-- What a verification of a firmware bank finds beyond what the NOR contents decide: whether every
NOR read succeeded, and whether every
payload component's digest agrees (checked for COMMIT only). -/
structure BankCheck where
  readOk  : Bool
  payloadOk : Bool
deriving DecidableEq, Repr, Inhabited

/-- A KLAUNCH command (Table 16-8); `reserved` when a reserved bit or byte is non-zero. -/
structure KCmd where
  host   : Bool
  island : BitVec 8
  addr   : BitVec 64
  arg    : BitVec 64
  argblk : BitVec 64
  endp   : BitVec 64
  seed   : Option (BitVec 64)
  nctl   : Option (BitVec 32)
  klimit : Option (BitVec 32)
  pasid  : BitVec 20
  reserved : Bool
deriving DecidableEq, Repr, Inhabited

/-- The firmware's power model for one cap period (R502, R505): for each of LINKS, MEMORY and COMPUTE
the predicted power in W at its minimum and at its ceiling settings and, in `curve`, at each 25 MHz
step above the minimum; and the predicted power of COMPUTE at minimum clocks for on-time 1/16 to
16/16. -/
structure Predict where
  lo : List Nat
  hi : List Nat
  curve : List (List Nat)
  duty : List Nat
deriving DecidableEq, Repr, Inhabited

/-- Data that the firmware reads from the source island of a NOTICE beside its argument (R522, R550). -/
structure NoticeData where
  a0 : BitVec 32
  a1 : BitVec 64
  a2 : BitVec 64
deriving DecidableEq, Repr, Inhabited

/-- What the code of a 64-byte sector finds at a read (R169–R171). -/
inductive Ecc
  | clean | corrected | uncorrectable
deriving DecidableEq, Repr, Inhabited

/-- A KV command descriptor (Table 6-3); `reserved` when a reserved byte is non-zero or, in a KV_CREATE, when `OP` is a value that
the table does not list. -/
structure KvCmd where
  srcfmt : BitVec 8
  layer  : BitVec 16
  handle : BitVec 32
  src    : BitVec 32
  pos    : BitVec 32
  count  : BitVec 32
  addr   : BitVec 64
  layers : BitVec 16
  groups : BitVec 8
  dim    : BitVec 8
  fmt    : BitVec 8
  bytes  : BitVec 64
  reserved : Bool
deriving DecidableEq, Repr, Inhabited

/-- What every Itette instruction carries beside its fields: the sequencer that executes it (0–15 the
island sequencers, 16 the management core, 17 + 8m + j near-memory sequencer j of MIm), the guard,
the cycles it waited before issue, what the code of the word finds that a load reads, and the stack
channel of that word. -/
structure Hdr where
  seq   : Fin 49
  guard : BitVec 4
  stall : BitVec 32
  ecc   : Ecc
  ch    : Fin 16
deriving DecidableEq, Repr, Inhabited

/-- What an engine met while it ran an operation: scratchpad words (by offset div 32) that their code
corrects or finds uncorrectable, stacked-memory sectors (by offset in the transfer in bytes) that
their code corrects or finds uncorrectable, on stack channel `ch`, the 256-byte lines of slice memory whose
units had landed before a transfer failed, and the cycles in which a scratchpad request lost arbitration. -/
structure Met where
  words   : List (Nat × Ecc)
  sectors : List (Nat × Ecc)
  ch      : Fin 16
  landed  : List Nat
  lost    : Nat
deriving DecidableEq, Repr, Inhabited

/-- One write of the staging DMA, whose descriptor the manual does not lay out: into the kernel region
or, through the kernel's PASID, into slice memory. -/
structure DmaWrite where
  slice : Bool
  addr  : Nat
  bytes : List Byte
deriving DecidableEq, Repr, Inhabited

/-- The Hat of an Epjor transaction without `FSEQ`, `LEN` and `FINAL` (Table 8-2). -/
structure Hat where
  ver   : BitVec 2
  typ   : BitVec 5
  vc    : BitVec 2
  dest  : BitVec 21
  src   : BitVec 21
  stag  : BitVec 9
  pasid : BitVec 20
  ttag  : BitVec 12
  enc   : Bool
  defer : Bool
  kslot : BitVec 12
  rsv   : Bool
deriving DecidableEq, Repr, Inhabited

/-- A transaction: its Hat, its body, and whether its flits kept to R238. -/
structure Txn where
  hat  : Hat
  body : List Byte
  seg  : Bool
deriving DecidableEq, Repr, Inhabited

/-- An LCTL body (Table 8-3): `ack` and `nak` where their valid bits are set. -/
structure Lctl where
  ack  : Option (BitVec 12)
  nak  : Option (BitVec 12)
  cred : List (BitVec 16)
  lreq : BitVec 8
  lanemap : BitVec 8
deriving DecidableEq, Repr, Inhabited

/-- A partner's CONFIG body (Table 8-5): credits for REQ, RSP, BULK and CTL in that order. -/
structure LinkConfig where
  proto    : BitVec 8
  role     : BitVec 8
  zero     : BitVec 16
  endpoint : BitVec 32
  cred     : List (BitVec 16)
  replay   : BitVec 16
  lanemap  : BitVec 8
deriving DecidableEq, Repr, Inhabited

/-- A collective call descriptor (Table 9-5) but `OP` and `TAG`; `root` is `ROOT_EPOCH`; `reserved` when a reserved byte is
non-zero. -/
structure CollCmd where
  mode  : BitVec 8
  fmt   : BitVec 8
  round : BitVec 8
  group : BitVec 32
  cseq  : BitVec 32
  rank  : BitVec 32
  send  : BitVec 64
  recv  : BitVec 64
  count : BitVec 64
  root  : BitVec 32
  tid   : BitVec 16
  seed  : BitVec 64
  reserved : Bool
deriving DecidableEq, Repr, Inhabited

/-- A COLL packet from another node (Table 10-10): the node it comes from, its slice and group, `SEQ`,
`CODE`, `RUN`, the subtree, `EOFF` and its data. `set` names the optimizer set that a packet of a set's
reduction serves. -/
structure CollPkt where
  slice : Fin 512
  node  : BitVec 18
  group : BitVec 32
  seq   : BitVec 32
  set   : Option (BitVec 32)
  code  : BitVec 8
  run   : BitVec 32
  lo    : BitVec 32
  n     : BitVec 32
  eoff  : BitVec 64
  data  : List Byte
deriving DecidableEq, Repr, Inhabited

/-- A connection command (Table 10-6) after `OP`; `peer` in network byte order; `reserved` when a reserved
byte or flag is non-zero. -/
structure ConnCmd where
  cls    : BitVec 8
  flags  : BitVec 8
  conn   : BitVec 32
  sq     : BitVec 16
  rq     : BitVec 16
  peer   : BitVec 128
  rdv    : BitVec 64
  pasid  : BitVec 32
  kslot  : BitVec 16
  laddr  : BitVec 16
  addr   : BitVec 64
  reserved : Bool
deriving DecidableEq, Repr, Inhabited

/-- A transport packet as received (Table 10-8) with its addresses, the island it came in on, whether
it carries CE, and its payload: where `enc` is set, the counter, the ciphertext and the tag. -/
structure XpPkt where
  ni     : Bool
  src    : BitVec 128
  dst    : BitVec 128
  ce     : Bool
  op     : BitVec 4
  final  : Bool
  first  : Bool
  last   : Bool
  enc    : Bool
  ackreq : Bool
  notify : Bool
  incarn : BitVec 8
  dconn  : BitVec 32
  psn    : BitVec 32
  msn    : BitVec 32
  addr   : BitVec 64
  aux    : BitVec 32
  kslot  : BitVec 16
  data   : List Byte
deriving DecidableEq, Repr, Inhabited

/-- A work request (Table 10-11) after `OP`; `reserved` when a reserved byte or flag is non-zero. -/
structure WrCmd where
  final  : Bool
  notify : Bool
  fence  : Bool
  laddr  : BitVec 64
  raddr  : BitVec 64
  len    : BitVec 32
  imm    : BitVec 32
  operand : BitVec 64
  compare : BitVec 64
  reserved : Bool
deriving DecidableEq, Repr, Inhabited

/-- A storage command (Table 13-3) after `OP`; `reserved` when a reserved byte is non-zero. -/
structure StorDesc where
  flags : BitVec 8
  vol   : BitVec 16
  lba   : BitVec 64
  count : BitVec 32
  buf   : BitVec 64
  reserved : Bool
deriving DecidableEq, Repr, Inhabited

/-- What a holder answers to the reads of a RESTORE: the old node, the holder's place in the order of R380 (0 BUDDY,
1 FLASH_OWN, 2 FLASH_PRED), and the serialised copy that it serves. -/
structure HolderCopy where
  node  : BitVec 32
  place : Fin 3
  image : List Byte
deriving DecidableEq, Repr, Inhabited

end Sys2Proof
end

