-- ==== Sys2Proof/Syntax.lean ====
section
/-!
DEFINITION. The commands of the SP9 block: one constructor per row of the table of operations and
events, with the operands that the row's rules name. What the surroundings decide (the result of a
self-test, the bytes a host request carries, the value a sensor reads) is an operand.
-/
namespace Sys2Proof

/-- The commands, in the order of the table. -/
inductive Instr where
  /-- VIN_RISE (R536): The 54 V input rises above 48 V, the regulators start and the module powers on as at first power-on. -/
  | vinRise
  /-- VIN_FALL (R536): The input falls below 44 V, the regulators switch off and PWR_OK goes low, with the effects of a power loss. -/
  | vinFall
  /-- PERST_N_ASSERT (R543): PERST_N is held low for at least 1 µs while PWR_OK is high, which starts a module reset. -/
  | perstNAssert
  /-- PERST_N_RELEASE (R543): PERST_N is released; MODULE_ID is sampled, the module reset completes and the SP9 enters BOOT, with MGI and HI starting. -/
  | perstNRelease (pins : BitVec 4)
  /-- REFCLK100_LOSS (R542): Loss of REFCLK100 takes the PCIe link down with the effects of a hot reset. -/
  | refclk100Loss
  /-- REFCLK100_RETURN (R542): REFCLK100 returns and the PCIe link trains again. -/
  | refclk100Return
  /-- REFCLK156_LOSS (R542): Loss of REFCLK156 takes every Epjor port DOWN with a link reset and every Ethernet logical port down. -/
  | refclk156Loss
  /-- REFCLK156_RETURN (R542): REFCLK156 returns and ports with AUTO_RETRY, and the Ethernet ports, train again. -/
  | refclk156Return
  /-- CABLE_MATE (R532): A cable is fitted at a cabled connector and its port trains again. -/
  | cableMate (k : Fin 12)
  /-- CABLE_UNMATE (R532): A cable is removed, and its port goes DOWN or leaves its link down. -/
  | cableUnmate (k : Fin 12)
  /-- BANK_VERIFY_COMPLETE (R477): The boot ROM finishes key-store and bank verification and chooses the preferred bank, the other bank, or a halt. -/
  | bankVerifyComplete (ra rb : BankCheck) (us : BitVec 32)
  /-- PROVISION_TIMEOUT (R481): The 5 s provisioning wait expires without a commit, and boot continues without an operator key. -/
  | provisionTimeout
  /-- FIRST_OPK_LO_WRITE (R481): The BMC writes the first half of the first operator key in the boot window. -/
  | firstOpkLoWrite (v : BitVec 256)
  /-- FIRST_OPK_HI_WRITE (R481): The BMC writes the second half of the first operator key in the boot window. -/
  | firstOpkHiWrite (v : BitVec 128)
  /-- FIRST_OPK_COMMIT_WRITE (R481): The BMC commits the first operator key with its identifier; a match places it in the record, and a mismatch discards both halves. -/
  | firstOpkCommitWrite (v : BitVec 64)
  /-- SELFTEST_DONE (R36): An island's self-test completes; on a pass it raises readiness, and on a failure it sets FAILED and SELFTEST_CODE. -/
  | selftestDone (n : Fin 26) (code : BitVec 32)
  /-- BRINGUP_COMPLETE (R32): Once MGI, HI and MI0–MI3 all report ready, the SP9 enters NORMAL and raises ADMIN, KV, CKPT and SLICES. -/
  | bringupComplete
  /-- RECOVERY_EXIT (R32): The firmware has isolated the fault with MGI, HI and MI0–MI3 ready, so the SP9 returns to NORMAL and the held queue indices act. -/
  | recoveryExit
  /-- RESET_CMD_WRITE (R40): A write of RESET_CMD requests an island reset, checked on arrival and again at the tick that applies it. -/
  | resetCmdWrite (p : Path) (n : Fin 26) (v : BitVec 8)
  /-- ISLAND_RESET (R38): An island clears its readiness bit, parks its straits, clears its state and self-tests again. -/
  | islandReset (n : Fin 26)
  /-- STRAIT_UNIT_RECEIVE (R20): A strait unit reaches the receiver; corrected beats are counted, and a unit with an uncorrectable beat is discarded for retransmission. -/
  | straitUnitReceive (x : Fin 104) (toMi : Bool) (u : StraitUnit) (corrected : Fin 9) (bad : Bool)
  /-- STRAIT_RETRANSMIT (R20): The sender retransmits a unit from its copy after an uncorrectable reception. -/
  | straitRetransmit (x : Fin 104) (toMi : Bool)
  /-- STRAIT_CREDIT_RETURN (R15): A freed receive slot's credit reaches the sender. -/
  | straitCreditReturn (x : Fin 104) (toMi : Bool)
  /-- CS_READY (R36): A Control Strait READY message reaches MGI, which updates 1010 and the BAR0 readiness register. -/
  | csReady (src : Fin 26) (dest : BitVec 5) (pl : BitVec 50) (err : CsErr)
  /-- CS_ERROR (R27): A Control Strait ERROR message reaches MGI for fault handling. -/
  | csError (src : Fin 26) (dest : BitVec 5) (pl : BitVec 50) (err : CsErr)
  /-- CS_BARRIER (R297): A Control Strait BARRIER message carries an arrival, release or fail between the switch island and another island. -/
  | csBarrier (src : Fin 26) (dest : BitVec 5) (pl : BitVec 50) (err : CsErr)
  /-- CS_STEP (R297): A Control Strait STEP message carries step-boundary signalling. -/
  | csStep (src : Fin 26) (dest : BitVec 5) (pl : BitVec 50) (err : CsErr)
  /-- CS_DOORBELL (R23): A Control Strait DOORBELL message is delivered to the ring's owner. -/
  | csDoorbell (src : Fin 26) (dest : BitVec 5) (pl : BitVec 50) (err : CsErr)
  /-- CS_CREDIT (R23): A Control Strait CREDIT message returns ring or queue credit. -/
  | csCredit (src : Fin 26) (dest : BitVec 5) (pl : BitVec 50) (err : CsErr)
  /-- MANAGEMENT_TICK (R495): The 1 ms tick runs the tick commit, applying TICK-boundary writes and the per-tick computations. -/
  | managementTick (w : TickWork)
  /-- TEST_ENTER (R463): Once the flush completes, the SP9 enters TEST. -/
  | testEnter
  /-- STATE_REQUEST_ENTER_TEST (R35): A write of 0x01 to 1021 asks for TEST; it is checked on arrival and becomes pending for the tick. -/
  | stateRequestEnterTest (p : Path)
  /-- STATE_REQUEST_END_TEST (R35): A write of 0x02 to 1021 asks for the end of TEST; it becomes pending for the tick. -/
  | stateRequestEndTest (p : Path)
  /-- GENERIC_WRITE (R45): A write to a dictionary object or BAR register that has no row of its own is checked and takes effect, or is buffered to its boundary. -/
  | genericWrite (w : GWrite)
  /-- ODP_REQUEST (R59): An Object Dictionary Protocol datagram arrives, is checked, and is queued, answered BUSY or discarded. -/
  | odpRequest (src : Nat) (bytes : List Byte) (serve : Bool)
  /-- MBX_GO (R65): A GO write submits the mailbox request, or sets OVERRUN while BUSY. -/
  | mbxGo (length : BitVec 16) (count : BitVec 8) (write serve : Bool)
  /-- MBX_DONE_CLEAR (R65): Writing 1 to DONE clears it and may deassert INTx. -/
  | mbxDoneClear
  /-- MBX_OVERRUN_CLEAR (R65): Writing 1 to OVERRUN clears it. -/
  | mbxOverrunClear
  /-- I3C_PRIVATE_WRITE (R62): An I3C private write carries a request, checked by CRC and queued in the I3C place. -/
  | i3cPrivateWrite (addr : BitVec 7) (bytes : List Byte) (serve : Bool)
  /-- I3C_PRIVATE_READ (R62): An I3C private read returns the response once, or BUSY. -/
  | i3cPrivateRead (addr : BitVec 7)
  /-- WMB_SEL_WRITE (R68): A write to WMB_SEL clears VALID and starts a capture of the named wide value. -/
  | wmbSelWrite (page : Option (Fin 512)) (v : BitVec 32)
  /-- WMB_CAPTURE (R68): The wide value and the tick are captured in one step, VALID is set and GEN increments. -/
  | wmbCapture (page : Option (Fin 512))
  /-- WIDE_HI_WRITE (R68): A write to the HI word of a wide value makes it take effect with the LO word last written. -/
  | wideHiWrite (page : Option (Fin 512)) (off : BitVec 16) (hi : BitVec 32)
  /-- BAR_BAD_ACCESS (R70): An access to an unimplemented location, or a narrow or misaligned BAR access, raises a bus error without any change of state. -/
  | barBadAccess (write : Bool)
  /-- BAR4_READ (R69): A BAR4 read is translated through the aperture entry and the page tables, and poisoned data is returned as EP. -/
  | bar4Read (sl : Fin 512) (off : BitVec 31) (len : BitVec 13) (ue : List (BitVec 34))
  /-- BAR4_WRITE (R69): A BAR4 write is translated through the aperture entry and written, and poisoned sectors stay unchanged. -/
  | bar4Write (sl : Fin 512) (off : BitVec 31) (bytes : List Byte) (ue : List (BitVec 34))
  /-- ADD (R143): Integer add. -/
  | add (h : Hdr) (rd ra rb : BitVec 5)
  /-- SUB (R143): Integer subtract. -/
  | sub (h : Hdr) (rd ra rb : BitVec 5)
  /-- AND (R143): Bitwise and. -/
  | and (h : Hdr) (rd ra rb : BitVec 5)
  /-- OR (R143): Bitwise or. -/
  | or (h : Hdr) (rd ra rb : BitVec 5)
  /-- XOR (R143): Bitwise exclusive or. -/
  | xor (h : Hdr) (rd ra rb : BitVec 5)
  /-- ANDN (R143): ra and not rb. -/
  | andn (h : Hdr) (rd ra rb : BitVec 5)
  /-- SHL (R143): Shift left. -/
  | shl (h : Hdr) (rd ra rb : BitVec 5)
  /-- SHR (R143): Logical shift right. -/
  | shr (h : Hdr) (rd ra rb : BitVec 5)
  /-- SRA (R143): Arithmetic shift right. -/
  | sra (h : Hdr) (rd ra rb : BitVec 5)
  /-- MIN (R143): Signed minimum. -/
  | min (h : Hdr) (rd ra rb : BitVec 5)
  /-- MAX (R143): Signed maximum. -/
  | max (h : Hdr) (rd ra rb : BitVec 5)
  /-- MINU (R143): Unsigned minimum. -/
  | minu (h : Hdr) (rd ra rb : BitVec 5)
  /-- MAXU (R143): Unsigned maximum. -/
  | maxu (h : Hdr) (rd ra rb : BitVec 5)
  /-- CLZ (R143): Count leading zeros. -/
  | clz (h : Hdr) (rd ra rb : BitVec 5)
  /-- CTZ (R143): Count trailing zeros. -/
  | ctz (h : Hdr) (rd ra rb : BitVec 5)
  /-- POPC (R143): Population count. -/
  | popc (h : Hdr) (rd ra rb : BitVec 5)
  /-- MUL (R143): Low 64 bits of the product. -/
  | mul (h : Hdr) (rd ra rb : BitVec 5)
  /-- MULH (R143): High 64 bits of the signed product. -/
  | mulh (h : Hdr) (rd ra rb : BitVec 5)
  /-- MULHU (R143): High 64 bits of the unsigned product. -/
  | mulhu (h : Hdr) (rd ra rb : BitVec 5)
  /-- DIV (R144): Signed division toward zero, with the stated results for division by zero and for −2^63 ÷ −1. -/
  | div (h : Hdr) (rd ra rb : BitVec 5)
  /-- DIVU (R144): Unsigned division. -/
  | divu (h : Hdr) (rd ra rb : BitVec 5)
  /-- REM (R144): Signed remainder. -/
  | rem (h : Hdr) (rd ra rb : BitVec 5)
  /-- REMU (R144): Unsigned remainder. -/
  | remu (h : Hdr) (rd ra rb : BitVec 5)
  /-- ADDI (R143): Add a sign-extended immediate. -/
  | addi (h : Hdr) (rd ra : BitVec 5) (imm : BitVec 11)
  /-- ANDI (R143): And with a zero-extended immediate. -/
  | andi (h : Hdr) (rd ra : BitVec 5) (imm : BitVec 11)
  /-- ORI (R143): Or with a zero-extended immediate. -/
  | ori (h : Hdr) (rd ra : BitVec 5) (imm : BitVec 11)
  /-- XORI (R143): Exclusive or with a zero-extended immediate. -/
  | xori (h : Hdr) (rd ra : BitVec 5) (imm : BitVec 11)
  /-- SHLI (R143): Shift left by an immediate. -/
  | shli (h : Hdr) (rd ra : BitVec 5) (imm : BitVec 11)
  /-- SHRI (R143): Logical shift right by an immediate. -/
  | shri (h : Hdr) (rd ra : BitVec 5) (imm : BitVec 11)
  /-- SRAI (R143): Arithmetic shift right by an immediate. -/
  | srai (h : Hdr) (rd ra : BitVec 5) (imm : BitVec 11)
  /-- MULI (R143): Multiply by a sign-extended immediate. -/
  | muli (h : Hdr) (rd ra : BitVec 5) (imm : BitVec 11)
  /-- LI (R143): Load a sign-extended immediate. -/
  | li (h : Hdr) (rd : BitVec 5) (imm : BitVec 16)
  /-- LIT (R143): Shift rd left by 16 and insert IMM16. -/
  | lit (h : Hdr) (rd : BitVec 5) (imm : BitVec 16)
  /-- CMP_EQ (R143): Compare for equality into a predicate pair. -/
  | cmpEq (h : Hdr) (pt pf : BitVec 3) (ra rb : BitVec 5)
  /-- CMP_LT (R143): Signed less-than compare. -/
  | cmpLt (h : Hdr) (pt pf : BitVec 3) (ra rb : BitVec 5)
  /-- CMP_LTU (R143): Unsigned less-than compare. -/
  | cmpLtu (h : Hdr) (pt pf : BitVec 3) (ra rb : BitVec 5)
  /-- CMP_GT (R143): Signed greater-than compare. -/
  | cmpGt (h : Hdr) (pt pf : BitVec 3) (ra rb : BitVec 5)
  /-- CMP_GTU (R143): Unsigned greater-than compare. -/
  | cmpGtu (h : Hdr) (pt pf : BitVec 3) (ra rb : BitVec 5)
  /-- CMP_TST (R143): Test ra and rb for a common set bit. -/
  | cmpTst (h : Hdr) (pt pf : BitVec 3) (ra rb : BitVec 5)
  /-- CMPI_EQ (R143): Compare with an immediate for equality. -/
  | cmpiEq (h : Hdr) (pt pf : BitVec 3) (ra : BitVec 5) (imm : BitVec 10)
  /-- CMPI_LT (R143): Signed less-than compare with an immediate. -/
  | cmpiLt (h : Hdr) (pt pf : BitVec 3) (ra : BitVec 5) (imm : BitVec 10)
  /-- CMPI_LTU (R143): Unsigned less-than compare with an immediate. -/
  | cmpiLtu (h : Hdr) (pt pf : BitVec 3) (ra : BitVec 5) (imm : BitVec 10)
  /-- CMPI_GT (R143): Signed greater-than compare with an immediate. -/
  | cmpiGt (h : Hdr) (pt pf : BitVec 3) (ra : BitVec 5) (imm : BitVec 10)
  /-- CMPI_GTU (R143): Unsigned greater-than compare with an immediate. -/
  | cmpiGtu (h : Hdr) (pt pf : BitVec 3) (ra : BitVec 5) (imm : BitVec 10)
  /-- PAND (R143): Predicate and. -/
  | pand (h : Hdr) (pd pa pb : BitVec 3) (un : BitVec 9)
  /-- POR (R143): Predicate or. -/
  | por (h : Hdr) (pd pa pb : BitVec 3) (un : BitVec 9)
  /-- PXOR (R143): Predicate exclusive or. -/
  | pxor (h : Hdr) (pd pa pb : BitVec 3) (un : BitVec 9)
  /-- PANDN (R143): Predicate and-not. -/
  | pandn (h : Hdr) (pd pa pb : BitVec 3) (un : BitVec 9)
  /-- PORN (R143): Predicate or-not. -/
  | porn (h : Hdr) (pd pa pb : BitVec 3) (un : BitVec 9)
  /-- MFP (R143): Move the predicates to a register. -/
  | mfp (h : Hdr) (rd ra rb : BitVec 5)
  /-- MTP (R143): Move a register to p1–p7. -/
  | mtp (h : Hdr) (rd ra rb : BitVec 5)
  /-- BR (R143): Relative branch. -/
  | br (h : Hdr) (off : BitVec 21)
  /-- CALL (R147): Push the return address and branch. -/
  | call (h : Hdr) (off : BitVec 21)
  /-- JR (R143): Jump to a register. -/
  | jr (h : Hdr) (rd ra rb : BitVec 5)
  /-- CALLR (R147): Push the return address and jump to a register. -/
  | callr (h : Hdr) (rd ra rb : BitVec 5)
  /-- RET (R147): Pop the return address and jump to it. -/
  | ret (h : Hdr) (rd ra rb : BitVec 5)
  /-- LDB (R141): Banked byte load, zero-extended. -/
  | ldb (h : Hdr) (rt : BitVec 5) (bs : BitVec 3) (off : BitVec 13)
  /-- LDH (R141): Banked halfword load, zero-extended. -/
  | ldh (h : Hdr) (rt : BitVec 5) (bs : BitVec 3) (off : BitVec 13)
  /-- LDW (R141): Banked word load, zero-extended. -/
  | ldw (h : Hdr) (rt : BitVec 5) (bs : BitVec 3) (off : BitVec 13)
  /-- LDD (R141): Banked doubleword load. -/
  | ldd (h : Hdr) (rt : BitVec 5) (bs : BitVec 3) (off : BitVec 13)
  /-- LDBS (R141): Banked byte load, sign-extended. -/
  | ldbs (h : Hdr) (rt : BitVec 5) (bs : BitVec 3) (off : BitVec 13)
  /-- LDHS (R141): Banked halfword load, sign-extended. -/
  | ldhs (h : Hdr) (rt : BitVec 5) (bs : BitVec 3) (off : BitVec 13)
  /-- LDWS (R141): Banked word load, sign-extended. -/
  | ldws (h : Hdr) (rt : BitVec 5) (bs : BitVec 3) (off : BitVec 13)
  /-- STB (R141): Banked byte store. -/
  | stb (h : Hdr) (rt : BitVec 5) (bs : BitVec 3) (off : BitVec 13)
  /-- STH (R141): Banked halfword store. -/
  | sth (h : Hdr) (rt : BitVec 5) (bs : BitVec 3) (off : BitVec 13)
  /-- STW (R141): Banked word store. -/
  | stw (h : Hdr) (rt : BitVec 5) (bs : BitVec 3) (off : BitVec 13)
  /-- STD (R141): Banked doubleword store. -/
  | std (h : Hdr) (rt : BitVec 5) (bs : BitVec 3) (off : BitVec 13)
  /-- LDBX (R140): Based byte load, zero-extended. -/
  | ldbx (h : Hdr) (rd ra : BitVec 5) (imm : BitVec 11)
  /-- LDHX (R140): Based halfword load, zero-extended. -/
  | ldhx (h : Hdr) (rd ra : BitVec 5) (imm : BitVec 11)
  /-- LDWX (R140): Based word load, zero-extended. -/
  | ldwx (h : Hdr) (rd ra : BitVec 5) (imm : BitVec 11)
  /-- LDDX (R140): Based doubleword load. -/
  | lddx (h : Hdr) (rd ra : BitVec 5) (imm : BitVec 11)
  /-- LDBSX (R140): Based byte load, sign-extended. -/
  | ldbsx (h : Hdr) (rd ra : BitVec 5) (imm : BitVec 11)
  /-- LDHSX (R140): Based halfword load, sign-extended. -/
  | ldhsx (h : Hdr) (rd ra : BitVec 5) (imm : BitVec 11)
  /-- LDWSX (R140): Based word load, sign-extended. -/
  | ldwsx (h : Hdr) (rd ra : BitVec 5) (imm : BitVec 11)
  /-- STBX (R140): Based byte store. -/
  | stbx (h : Hdr) (rd ra : BitVec 5) (imm : BitVec 11)
  /-- STHX (R140): Based halfword store. -/
  | sthx (h : Hdr) (rd ra : BitVec 5) (imm : BitVec 11)
  /-- STWX (R140): Based word store. -/
  | stwx (h : Hdr) (rd ra : BitVec 5) (imm : BitVec 11)
  /-- STDX (R140): Based doubleword store. -/
  | stdx (h : Hdr) (rd ra : BitVec 5) (imm : BitVec 11)
  /-- PUSH (R147): Push onto the data stack, limit-checked. -/
  | push (h : Hdr) (rd ra rb : BitVec 5)
  /-- POP (R147): Pop from the data stack, limit-checked. -/
  | pop (h : Hdr) (rd ra rb : BitVec 5)
  /-- AMOADD (R146): Indivisible 64-bit fetch-and-add. -/
  | amoadd (h : Hdr) (rd ra rb : BitVec 5)
  /-- AMOCAS (R146): Indivisible 64-bit compare-and-swap. -/
  | amocas (h : Hdr) (rd ra rb : BitVec 5)
  /-- NOP (R143): No operation. -/
  | nop (h : Hdr) (rd ra rb : BitVec 5) (other : Option (BitVec 32))
  /-- HALT (R159): Stop issue; the kernel ends once the queues and the scoreboard are empty. -/
  | halt (h : Hdr) (rd ra rb : BitVec 5)
  /-- TRAP (R155): Raise trap TRAPI with a 10-bit code. -/
  | trap (h : Hdr) (rd : BitVec 5) (code : BitVec 10)
  /-- RFT (R155): Return from a trap. -/
  | rft (h : Hdr) (rd ra rb : BitVec 5)
  /-- FENCE (R145): Stall issue until earlier stores, atomics and STREAM STOREs are acknowledged. -/
  | fence (h : Hdr) (rd ra rb : BitVec 5)
  /-- WAITEV (R143): Stall until EVCOUNT reaches the value in ra. -/
  | waitev (h : Hdr) (rd ra rb : BitVec 5)
  /-- MFS (R136): Read a special register. -/
  | mfs (h : Hdr) (rd : BitVec 5) (sr : BitVec 10)
  /-- MTS (R136): Write a special register, subject to the SREG checks. -/
  | mts (h : Hdr) (rd : BitVec 5) (sr : BitVec 10)
  /-- MTB (R143): Move a register to a bank register. -/
  | mtb (h : Hdr) (rd ra rb : BitVec 5)
  /-- MFB (R143): Move a bank register to a register. -/
  | mfb (h : Hdr) (rd ra rb : BitVec 5)
  /-- SETB (R143): Set a bank register's page and space. -/
  | setb (h : Hdr) (bn : BitVec 3) (sp : BitVec 2) (imm : BitVec 16)
  /-- PFX (R139): Prefix that extends the immediate of the next word into a two-word pair. -/
  | pfx (h : Hdr) (x : BitVec 21)
  /-- MMA (R113): Issue a matrix multiply-accumulate to a matrix core. -/
  | mma (h : Hdr) (core : BitVec 4) (ta tb : BitVec 6) (plane clr : Bool) (fold : BitVec 3)
  /-- MDRAIN (R116): Issue a drain of an accumulator plane into a tile. -/
  | mdrain (h : Hdr) (core : BitVec 4) (tc : BitVec 6) (plane : Bool) (ra un : BitVec 5)
  /-- MZERO (R111): Issue setting a plane to +0. -/
  | mzero (h : Hdr) (core : BitVec 4) (plane : Bool) (un : BitVec 16)
  /-- TDSET (R110): Write a tile descriptor. -/
  | tdset (h : Hdr) (td : BitVec 6) (ra rb un : BitVec 5)
  /-- VOP_FADD (R117): Vector FP32 add. -/
  | vopFadd (h : Hdr) (ve : BitVec 2) (vd va vb : BitVec 5)
  /-- VOP_FSUB (R117): Vector FP32 subtract. -/
  | vopFsub (h : Hdr) (ve : BitVec 2) (vd va vb : BitVec 5)
  /-- VOP_FMUL (R117): Vector FP32 multiply. -/
  | vopFmul (h : Hdr) (ve : BitVec 2) (vd va vb : BitVec 5)
  /-- VOP_FMIN (R117): Vector FP32 minimum. -/
  | vopFmin (h : Hdr) (ve : BitVec 2) (vd va vb : BitVec 5)
  /-- VOP_FMAX (R117): Vector FP32 maximum. -/
  | vopFmax (h : Hdr) (ve : BitVec 2) (vd va vb : BitVec 5)
  /-- VOP_IADD (R117): Vector integer add. -/
  | vopIadd (h : Hdr) (ve : BitVec 2) (vd va vb : BitVec 5)
  /-- VOP_ISUB (R117): Vector integer subtract. -/
  | vopIsub (h : Hdr) (ve : BitVec 2) (vd va vb : BitVec 5)
  /-- VOP_IMUL (R117): Vector integer multiply, low 32 bits. -/
  | vopImul (h : Hdr) (ve : BitVec 2) (vd va vb : BitVec 5)
  /-- VOP_AND (R117): Vector and. -/
  | vopAnd (h : Hdr) (ve : BitVec 2) (vd va vb : BitVec 5)
  /-- VOP_OR (R117): Vector or. -/
  | vopOr (h : Hdr) (ve : BitVec 2) (vd va vb : BitVec 5)
  /-- VOP_XOR (R117): Vector exclusive or. -/
  | vopXor (h : Hdr) (ve : BitVec 2) (vd va vb : BitVec 5)
  /-- VOP_SHL (R117): Vector shift left. -/
  | vopShl (h : Hdr) (ve : BitVec 2) (vd va vb : BitVec 5)
  /-- VOP_SHR (R117): Vector shift right. -/
  | vopShr (h : Hdr) (ve : BitVec 2) (vd va vb : BitVec 5)
  /-- VOP_FRSUM (R117): Cross-lane canonical-tree sum. -/
  | vopFrsum (h : Hdr) (ve : BitVec 2) (vd va vb : BitVec 5)
  /-- VOP_FRMAX (R117): Cross-lane maximum. -/
  | vopFrmax (h : Hdr) (ve : BitVec 2) (vd va vb : BitVec 5)
  /-- VOP_FCMPLT (R117): Lane-wise less-than mask. -/
  | vopFcmplt (h : Hdr) (ve : BitVec 2) (vd va vb : BitVec 5)
  /-- VFMA (R117): Vector fused multiply-add. -/
  | vfma (h : Hdr) (ve : BitVec 2) (vd va vb : BitVec 5) (un : BitVec 4)
  /-- VLD (R117): Vector load from local space. -/
  | vld (h : Hdr) (ve : BitVec 2) (vd ga : BitVec 5) (rm : BitVec 2) (un : BitVec 3)
  /-- VST (R117): Vector store to local space. -/
  | vst (h : Hdr) (ve : BitVec 2) (vd ga : BitVec 5) (rm : BitVec 2) (un : BitVec 3)
  /-- VLDC (R151): Vector load that decodes blocks to FP32 lanes. -/
  | vldc (h : Hdr) (ve : BitVec 2) (vd ga : BitVec 5) (rm : BitVec 2) (un : BitVec 3)
  /-- VSTC (R151): Vector store that encodes FP32 lanes under the chosen rounding. -/
  | vstc (h : Hdr) (ve : BitVec 2) (vd ga : BitVec 5) (rm : BitVec 2) (un : BitVec 3)
  /-- VBCAST (R117): Broadcast a register's low word to every lane. -/
  | vbcast (h : Hdr) (ve : BitVec 2) (vd ga : BitVec 5) (rm : BitVec 2) (un : BitVec 3)
  /-- VMOVG (R117): Move lane 0 to a general register. -/
  | vmovg (h : Hdr) (ve : BitVec 2) (vd ga : BitVec 5) (rm : BitVec 2) (un : BitVec 3)
  /-- VSFU_EXP2 (R118): Special-function base-2 exponential. -/
  | vsfuExp2 (h : Hdr) (ve : BitVec 2) (vd va : BitVec 5) (un : BitVec 6)
  /-- VSFU_EXP (R118): Special-function exponential. -/
  | vsfuExp (h : Hdr) (ve : BitVec 2) (vd va : BitVec 5) (un : BitVec 6)
  /-- VSFU_LOG2 (R118): Special-function base-2 logarithm. -/
  | vsfuLog2 (h : Hdr) (ve : BitVec 2) (vd va : BitVec 5) (un : BitVec 6)
  /-- VSFU_RCP (R118): Special-function reciprocal. -/
  | vsfuRcp (h : Hdr) (ve : BitVec 2) (vd va : BitVec 5) (un : BitVec 6)
  /-- VSFU_RSQRT (R118): Special-function reciprocal square root. -/
  | vsfuRsqrt (h : Hdr) (ve : BitVec 2) (vd va : BitVec 5) (un : BitVec 6)
  /-- VSFU_TANH (R118): Special-function hyperbolic tangent. -/
  | vsfuTanh (h : Hdr) (ve : BitVec 2) (vd va : BitVec 5) (un : BitVec 6)
  /-- VSFU_SIGMOID (R118): Special-function sigmoid. -/
  | vsfuSigmoid (h : Hdr) (ve : BitVec 2) (vd va : BitVec 5) (un : BitVec 6)
  /-- CIPHER_GCM_ENCRYPT (R471): Island-cipher GCM encryption under a key slot. -/
  | cipherGcmEncrypt (h : Hdr) (ra : BitVec 5) (kslot : BitVec 12)
  /-- CIPHER_GCM_DECRYPT (R471): Island-cipher GCM decryption with a tag check. -/
  | cipherGcmDecrypt (h : Hdr) (ra : BitVec 5) (kslot : BitVec 12)
  /-- DIGEST_SHA384 (R471): SHA-384 digest of a scratchpad range. -/
  | digestSha384 (h : Hdr) (ra : BitVec 5) (kslot : BitVec 12)
  /-- DIGEST_HMAC_SHA384 (R471): HMAC-SHA-384 under a key slot. -/
  | digestHmacSha384 (h : Hdr) (ra : BitVec 5) (kslot : BitVec 12)
  /-- COLL_DOORBELL (R283): A kernel rings the doorbell of a COLL member queue. -/
  | collDoorbell (h : Hdr) (ra : BitVec 5) (queue : BitVec 14)
  /-- COLL_ARRIVE (R160): A kernel arrives at the step boundary, carrying out R127. -/
  | collArrive (h : Hdr) (ra : BitVec 5) (queue : BitVec 14)
  /-- COLL_BARRIER (R295): A kernel arrives at a group barrier epoch. -/
  | collBarrier (h : Hdr) (ra : BitVec 5) (queue : BitVec 14)
  /-- STREAM (R119): Issue a 64-byte stream or staging-DMA descriptor. -/
  | stream (h : Hdr) (ra : BitVec 5) (un : BitVec 16)
  /-- COP_OP_START (R125): A queued coprocessor operation starts once its hazards have cleared and it heads its queue. -/
  | copOpStart (q : Fin 49) (num : Nat)
  /-- MATRIX_OP_COMPLETE (R115): A matrix operation completes, with its status or an error mark. -/
  | matrixOpComplete (q : Fin 49) (num : Nat) (met : Met)
  /-- VECTOR_OP_COMPLETE (R117): A vector-engine operation completes. -/
  | vectorOpComplete (q : Fin 49) (num : Nat) (met : Met)
  /-- SFU_RESULT (R118): Special-function results return 16 cycles after issue. -/
  | sfuResult (q : Fin 49) (num : Nat)
  /-- STREAM_DESC_COMPLETE (R123): A stream descriptor completes once every unit is acknowledged, or with MEMERR or STRAIT. -/
  | streamDescComplete (q : Fin 49) (num : Nat) (met : Met) (dma : List DmaWrite) (status : BitVec 8)
  /-- CIPHER_OP_COMPLETE (R472): A cipher or digest operation completes with a CI status. -/
  | cipherOpComplete (q : Fin 49) (num : Nat) (met : Met)
  /-- WATCHDOG (R158): CYCLE reaches KLIMIT and the WATCHDOG trap is taken once. -/
  | watchdog (q : Fin 49) (stalled : BitVec 32)
  /-- WATCHDOG_END (R158): A kernel still running 65,536 cycles after the watchdog is ended with cause WATCHDOG. -/
  | watchdogEnd (q : Fin 49) (stalled : BitVec 32)
  /-- KERNEL_END (R159): After HALT or end_kernel the kernel ends once empty, and the firmware reports its status. -/
  | kernelEnd (n : Fin 16)
  /-- TI_BOUNDARY_SIGNAL (R127): A sequencer at a step boundary signals arrival once its queues, STOREs and scoreboard are empty. -/
  | tiBoundarySignal (q : Fin 49)
  /-- TIMESHARE_SLICE_SWITCH (R128): A time-shared island changes slice between kernels under the weight rounds. -/
  | timeshareSliceSwitch (n : Fin 16) (next : Option (Fin 512)) (us : BitVec 32)
  /-- MEM_SECTOR_ACCESS (R167): A stack controller serves a sector access, checking ECC and writing back corrections. -/
  | memSectorAccess (a : BitVec 48) (w : Option (List Byte)) (ecc : Ecc) (ch : Fin 16)
  /-- STACK_REFRESH (R168): A stack is refreshed as HBM4 requires. -/
  | stackRefresh (st : Fin 16)
  /-- SCRUB_READ (R173): The patrol scrubber reads the sector at its position in each stack and advances. -/
  | scrubRead (m : Fin 4) (ecc : List Ecc) (ch : Fin 16)
  /-- SCRUB_RATE_LOOP (R174): Once per minute, the loop sets each memory island's scrub level from its correction count. -/
  | scrubRateLoop
  /-- STACK_RETRAIN_WINDOW (R176): A stack is retrained in its slot, and after three failures it is marked FAILED. -/
  | stackRetrainWindow (st : Fin 16) (ok : Option Bool)
  /-- FRAME_RETIRE (R172): The firmware enters a qualifying frame in the retired list, as pending if it is mapped. -/
  | frameRetire (frame : Fin 376832)
  /-- KV_CREATE (R187): Create a sequence handle. -/
  | kvCreate (q : QCtx) (d : List Byte)
  /-- KV_FORK (R191): Fork a handle, sharing its prefix blocks. -/
  | kvFork (q : QCtx) (d : List Byte)
  /-- KV_APPEND (R188): Append positions to one layer, encoding keys and completed V groups. -/
  | kvAppend (q : QCtx) (d : List Byte)
  /-- KV_TRUNCATE (R187): Shorten one layer or all layers. -/
  | kvTruncate (q : QCtx) (d : List Byte)
  /-- KV_PIN (R194): Pin blocks, bringing flash-resident ones back. -/
  | kvPin (q : QCtx) (d : List Byte)
  /-- KV_UNPIN (R187): Clear pins. -/
  | kvUnpin (q : QCtx) (d : List Byte)
  /-- KV_RELEASE (R187): Drop a handle and its references. -/
  | kvRelease (q : QCtx) (d : List Byte)
  /-- KV_QUERY (R187): Write the 64-byte record of a sequence. -/
  | kvQuery (q : QCtx) (d : List Byte)
  /-- KV_SETCEIL (R193): Set the slice's KV resident ceiling. -/
  | kvSetceil (q : QCtx) (d : List Byte)
  /-- TIER_PERIOD (R196): The tiering loop demotes blocks over HIGH_MARK down to LOW_MARK and refreshes the victim lists. -/
  | tierPeriod (late : Bool)
  /-- KV_DEMOTE_WRITTEN (R196): The flash write of a demoted block completes and its storage is freed. -/
  | kvDemoteWritten (b : Nat)
  /-- KV_BLOCK_FETCHED (R198): A flash read of a block completes; it stays resident or is marked LOST. -/
  | kvBlockFetched (b : Nat) (ok : Bool)
  /-- EPJOR_ATTEND (R204): An ATTEND arrives; lengths are captured, checked, chunks queued and fetches started. -/
  | epjorAttend (p : Fin 9) (t : Txn)
  /-- ATTEND_CHUNK_START (R214): A chunk starts once all its blocks are readable. -/
  | attendChunkStart (i : Fin 2048) (c : Nat)
  /-- ATTEND_CHUNK_COMPLETE (R206): A chunk's partial is finished on its island. -/
  | attendChunkComplete (i : Fin 2048) (c : Nat)
  /-- ATTEND_DEADLINE (R215): The DEADLINE passes with a block not yet readable, and the ATTEND completes AT_DEFERRED. -/
  | attendDeadline (i : Fin 2048) (ready : BitVec 32)
  /-- ATTEND_COMPLETE (R207): Chunk partials merge, O is converted and the response is sent. -/
  | attendComplete (i : Fin 2048)
  /-- DEFER_HOLD_EXPIRE (R216): A fetched block leaves the floor DEFER_HOLD after its arrival. -/
  | deferHoldExpire (b : Nat)
  /-- OPT_REGISTER (R217): Register an optimizer set. -/
  | optRegister (q : QCtx) (d : List Byte)
  /-- OPT_SETHYPER (R217): Replace HYPER from the next step boundary. -/
  | optSethyper (q : QCtx) (d : List Byte)
  /-- OPT_SKIP (R226): Mark a generation to commit as skipped. -/
  | optSkip (q : QCtx) (d : List Byte)
  /-- OPT_QUERY (R554): Write the 64-byte set record. -/
  | optQuery (q : QCtx) (d : List Byte)
  /-- OPT_RELEASE (R217): Destroy a set after its units in progress. -/
  | optRelease (q : QCtx) (d : List Byte)
  /-- OPT_LOAD (R231): Load an S-profile tenant kernel. -/
  | optLoad (q : QCtx) (d : List Byte)
  /-- OPT_UNLOAD (R217): Free a tenant kernel. -/
  | optUnload (q : QCtx) (d : List Byte)
  /-- EPJOR_GRAD (R221): A GRAD contribution is checked and enters the reduction, or is refused. -/
  | epjorGrad (p : Fin 9) (t : Txn)
  /-- OPT_UNIT_DISPATCH (R222): A unit whose reduction is complete is launched on an idle near-memory sequencer. -/
  | optUnitDispatch (q : Fin 32)
  /-- OPT_UNIT_HALT (R230): A unit kernel ends; its new copy is written and its values emitted, or the fault is recorded. -/
  | optUnitHalt (q : Fin 32)
  /-- LAMB_RATIO_READY (R224): The all-reduced LAMB norms give the ratio handed to pass 2. -/
  | lambRatioReady (i : Fin 4096) (others : List (BitVec 64 × BitVec 32 × BitVec 32))
  /-- PORT_DETECT_POLL (R263): Each 1 ms in DETECT the receivers are probed, moving to EQUALISE on signal. -/
  | portDetectPoll (p : Fin 8) (signal : BitVec 8)
  /-- EQUALISE_COMPLETE (R263): Equalisation ends, leading to ALIGN or back to DETECT. -/
  | equaliseComplete (p : Fin 8) (failed : BitVec 8)
  /-- ALIGN_COMPLETE (R263): Lock on the trained lanes is reached, leading to CONFIG. -/
  | alignComplete (p : Fin 8)
  /-- ALIGN_TIMEOUT (R263): ALIGN passes 1 ms and returns to DETECT. -/
  | alignTimeout (p : Fin 8)
  /-- CONFIG_FLIT_SEND (R263): A CONFIG flit is sent every 1 µs in CONFIG. -/
  | configFlitSend (p : Fin 8)
  /-- CONFIG_FLIT_RECEIVE (R245): A CONFIG flit is checked, and the port enters ACTIVE or goes DOWN with a cause. -/
  | configFlitReceive (p : Fin 8) (block : List Byte)
  /-- CONFIG_TIMEOUT (R305): CONFIG passes 1 ms and the port goes DOWN, with cause ENDPOINT when SELF_EP is not valid. -/
  | configTimeout (p : Fin 8)
  /-- RETRAIN_COMPLETE (R243): RETRAIN ends, resuming ACTIVE with replay or going DOWN. -/
  | retrainComplete (p : Fin 8) (ok : Bool) (failed : BitVec 8)
  /-- DOWN_HOLD_EXPIRE (R263): DOWN_HOLD elapses and the port with AUTO_RETRY goes to DETECT. -/
  | downHoldExpire (p : Fin 8)
  /-- LANE_LOCK_LOSS (R264): A lane loses lock, sending the port to RETRAIN. -/
  | laneLockLoss (p : Fin 8) (lane : Fin 8)
  /-- LANE_SYMBOL_LIMIT (R264): A lane shows more than 2^20 corrected symbols in one second. -/
  | laneSymbolLimit (p : Fin 8) (lane : Fin 8)
  /-- REQ_RETRAIN_RETRAIN (R268): REQ_RETRAIN 0x01 retrains the port in place. -/
  | reqRetrainRetrain (path : Path) (p : Fin 8)
  /-- REQ_RETRAIN_LINK_RESET (R268): REQ_RETRAIN 0x02 resets the link, restoring excluded lanes. -/
  | reqRetrainLinkReset (path : Path) (p : Fin 8)
  /-- NUMBERED_FLIT_RECEIVE (R241): A numbered flit is accepted in order, or discarded with a NAK. -/
  | numberedFlitReceive (p : Fin 8) (block : List Byte)
  /-- LCTL_FLIT_RECEIVE (R240): An LCTL flit updates ACK and credits, and may start a replay or an LREQ action. -/
  | lctlFlitReceive (p : Fin 8) (block : List Byte)
  /-- IDLE_FLIT_RECEIVE (R236): An IDLE flit is received and may be discarded for clock compensation. -/
  | idleFlitReceive (p : Fin 8) (block : List Byte)
  /-- LCTL_SEND (R242): An LCTL flit is sent after an ACK or credit change, or periodically. -/
  | lctlSend (p : Fin 8)
  /-- FLIT_SLOT_TRANSMIT (R246): The transmitter fills a flit slot by strict priority. -/
  | flitSlotTransmit (p : Fin 8)
  /-- REPLAY_TIMEOUT (R241): The oldest unacknowledged flit waits 2 µs, and the buffer is replayed. -/
  | replayTimeout (p : Fin 8)
  /-- EPJOR_READ (R252): A terminated READ is checked, translated and answered with data or ERROR. -/
  | epjorRead (p : Fin 9) (t : Txn)
  /-- EPJOR_WRITE (R253): A terminated WRITE is carried out and acknowledged once visible. -/
  | epjorWrite (p : Fin 9) (t : Txn)
  /-- EPJOR_WRITE_FINAL (R253): A WRITE_FINAL takes effect after the earlier writes of its stream. -/
  | epjorWriteFinal (p : Fin 9) (t : Txn)
  /-- EPJOR_ATOMIC_FADD (R253): A terminated atomic fetch-and-add. -/
  | epjorAtomicFadd (p : Fin 9) (t : Txn)
  /-- EPJOR_ATOMIC_CAS (R253): A terminated atomic compare-and-swap. -/
  | epjorAtomicCas (p : Fin 9) (t : Txn)
  /-- EPJOR_SYNC_BARRIER (R295): A SYNC of KIND 0 is an arrival at a group barrier. -/
  | epjorSyncBarrier (p : Fin 9) (t : Txn)
  /-- EPJOR_SYNC_STEP_ARRIVE (R299): A SYNC of KIND 1 is a step arrival. -/
  | epjorSyncStepArrive (p : Fin 9) (t : Txn)
  /-- EPJOR_DOORBELL (R256): A posted DOORBELL sets a queue's producer index, or is dropped. -/
  | epjorDoorbell (p : Fin 9) (t : Txn)
  /-- EPJOR_EVENT (R257): A posted EVENT from an accelerator is placed in the slice's event ring. -/
  | epjorEvent (p : Fin 9) (t : Txn)
  /-- EPJOR_ANSWER_RECEIVE (R251): An answer to an SP9 request arrives, or is discarded as an orphan. -/
  | epjorAnswerReceive (p : Fin 8) (t : Txn)
  /-- EPJOR_RSP_TIMEOUT (R251): An awaited answer misses RSP_TIMEOUT; the operation fails with LINK and the tag is quarantined. -/
  | epjorRspTimeout (p : Fin 8) (tag : BitVec 12)
  /-- TAG_QUARANTINE_END (R251): A quarantined tag becomes free again. -/
  | tagQuarantineEnd (p : Fin 8) (tag : BitVec 12)
  /-- EPJOR_FORWARD (R273): A transaction for another endpoint is checked, routed and forwarded, or refused with UNREACH. -/
  | epjorForward (p : Fin 9) (t : Txn)
  /-- BIND_WRITE (R269): A write of a port binding is checked for uniqueness and slice ownership. -/
  | bindWrite (path : Path) (p : Fin 8) (i : Fin 16) (v : BitVec 32)
  /-- ROUTE_BLOCK_WRITE (R274): A write replaces 256 remote route entries in one step and drops them from the cache. -/
  | routeBlockWrite (p : Path) (bytes : List Byte)
  /-- GROUP_CREATE (R282): Register a collective group and open its connections. -/
  | groupCreate (q : QCtx) (d : List Byte)
  /-- GROUP_DESTROY (R282): Destroy a group once its calls have ended. -/
  | groupDestroy (q : QCtx) (d : List Byte)
  /-- GROUP_REGISTERED (R282): Every node has registered the GROUP_ID, and GROUP_CREATE completes. -/
  | groupRegistered (k : Fin 4096)
  /-- GROUP_CREATE_TIMEOUT (R282): Registration does not finish within the timeout, and the create fails with COLL_TIMEOUT. -/
  | groupCreateTimeout (k : Fin 4096)
  /-- ALL_REDUCE (R287): Post an all-reduce call. -/
  | allReduce (q : QCtx) (d : List Byte)
  /-- REDUCE_SCATTER (R287): Post a reduce-scatter call. -/
  | reduceScatter (q : QCtx) (d : List Byte)
  /-- ALL_GATHER (R290): Post an all-gather call. -/
  | allGather (q : QCtx) (d : List Byte)
  /-- BROADCAST (R290): Post a broadcast call. -/
  | broadcast (q : QCtx) (d : List Byte)
  /-- ALL_TO_ALL (R290): Post an all-to-all call. -/
  | allToAll (q : QCtx) (d : List Byte)
  /-- CALL_BARRIER (R295): A BARRIER call is posted as a barrier arrival. -/
  | callBarrier (q : QCtx) (d : List Byte)
  /-- CALL_ARRIVE (R299): An ARRIVE call is posted as a step arrival. -/
  | callArrive (q : QCtx) (d : List Byte)
  /-- COLL_CALL_START (R284): A call starts once every local rank has posted it, or fails COLL_MISMATCH. -/
  | collCallStart (k : Fin 4096) (c : BitVec 32)
  /-- COLL_CALL_COMPLETE (R285): A call ends and each rank receives its completion. -/
  | collCallComplete (k : Fin 4096) (c : BitVec 32)
  /-- COLL_CALL_TIMEOUT (R285): A call does not end within the group's timeout of its start and fails. -/
  | collCallTimeout (k : Fin 4096) (c : BitVec 32)
  /-- COLL_PKT_ARRIVE (R338): A COLL ARRIVE packet carries a barrier-tree arrival. -/
  | collPktArrive (p : CollPkt)
  /-- COLL_PKT_RELEASE (R338): A COLL RELEASE packet carries a barrier release down the tree. -/
  | collPktRelease (p : CollPkt)
  /-- COLL_PKT_FAIL (R338): A COLL FAIL packet carries a barrier failure. -/
  | collPktFail (p : CollPkt)
  /-- COLL_PKT_EXPBYTES (R289): A COLL packet carries EXACT exponent bytes. -/
  | collPktExpbytes (p : CollPkt)
  /-- COLL_PKT_PARTIAL (R288): A COLL packet carries a subtree partial to its run owner. -/
  | collPktPartial (p : CollPkt)
  /-- COLL_PKT_LANES (R289): A COLL packet carries EXACT integer lane partials. -/
  | collPktLanes (p : CollPkt)
  /-- COLL_PKT_RESULT (R290): A COLL packet carries converted results. -/
  | collPktResult (p : CollPkt)
  /-- COLL_PKT_INCOMPLETE (R300): A COLL packet marks a run as not contributed. -/
  | collPktIncomplete (p : CollPkt)
  /-- COLL_PKT_FAILMARK (R285): A COLL packet carries a failure mark in place of data. -/
  | collPktFailmark (p : CollPkt)
  /-- BARRIER_EPOCH_COMPLETE (R295): Every member has arrived at the root, and the epoch advances and releases. -/
  | barrierEpochComplete (k : Fin 4096)
  /-- BARRIER_EPOCH_TIMEOUT (R296): The root's timeout passes without completion; members are released with TIMEOUT and the group is FAILED. -/
  | barrierEpochTimeout (k : Fin 4096)
  /-- STEP_ARRIVAL_RAISE (R300): The SP9 raises its own step arrival once all its conditions hold. -/
  | stepArrivalRaise (k : Fin 4096)
  /-- STEP_RELEASE (R303): The release of a step epoch commits sets, applies STEP writes, takes a cut and releases holds. -/
  | stepRelease (k : Fin 4096)
  /-- ETH_FRAME_RECEIVE (R308): A frame is MAC-filtered, parsed, classified, metered and delivered, or sent to the exception ring or transport. -/
  | ethFrameReceive (l : Fin 32) (frame : List Byte) (corrected uncorrected now : Nat)
  /-- EXCEPTION_PACKET_SERVE (R316): The firmware serves an exception packet, answering ARP, ND and echo, or dropping it. -/
  | exceptionPacketServe (now : Nat)
  /-- ETH_LINK_UP (R307): An Ethernet logical port's link comes up and becomes usable. -/
  | ethLinkUp (l : Fin 32)
  /-- ETH_LINK_DOWN (R346): A logical port goes down and its queue contents are discarded. -/
  | ethLinkDown (l : Fin 32)
  /-- CLS_WRITE (R315): Write a classification entry whole, refused with BUSY if it is valid. -/
  | clsWrite (p : Path) (bytes : List Byte)
  /-- CLS_VALID (R315): Set or clear an entry's VALID bit. -/
  | clsValid (p : Path) (v : BitVec 32)
  /-- SPREAD (R317): Install the slice's spreading record. -/
  | spread (sl : Fin 512) (d : List Byte)
  /-- CONN_OPEN (R322): Open a connection and start sending CONNECT. -/
  | connOpen (q : QCtx) (d : List Byte) (now : Nat)
  /-- CONN_LISTEN (R323): Put a connection in LISTEN. -/
  | connListen (q : QCtx) (d : List Byte) (now : Nat)
  /-- CONN_CLOSE (R322): Close a connection. -/
  | connClose (q : QCtx) (d : List Byte) (now : Nat)
  /-- CONN_RESET (R325): Reset a connection into ERROR. -/
  | connReset (q : QCtx) (d : List Byte) (now : Nat)
  /-- CONN_QUERY (R322): Write a connection's 64-byte state. -/
  | connQuery (q : QCtx) (d : List Byte)
  /-- CONN_MODIFY (R322): Change a connection's class and ALLOW flags. -/
  | connModify (q : QCtx) (d : List Byte)
  /-- CONNECT_RETRY (R322): Each 1 ms in CONNECTING, CONNECT is resent, up to the 16th, which leads to ERROR. -/
  | connectRetry (k : Fin 131072) (now : Nat)
  /-- CLOSING_TIMEOUT (R322): 4 × RTO after entering CLOSING, the connection goes to CLOSED. -/
  | closingTimeout (k : Fin 131072)
  /-- XP_CONNECT (R323): A CONNECT is matched against listeners and answered with ACCEPT or REFUSE. -/
  | xpConnect (p : XpPkt) (now : Nat)
  /-- XP_ACCEPT (R322): An ACCEPT establishes a connecting connection. -/
  | xpAccept (p : XpPkt)
  /-- XP_REFUSE (R322): A REFUSE sends a connecting connection to ERROR. -/
  | xpRefuse (p : XpPkt) (now : Nat)
  /-- XP_RESET_PACKET (R325): A received RESET sends the connection to ERROR. -/
  | xpResetPacket (p : XpPkt) (now : Nat)
  /-- XP_CLOSE (R322): A received CLOSE advances CLOSING. -/
  | xpClose (p : XpPkt) (now : Nat)
  /-- XP_WRITE (R336): A WRITE packet is checked, placed, notified on FINAL, and acknowledged. -/
  | xpWrite (p : XpPkt) (now : Nat)
  /-- XP_READ_REQ (R335): A READ_REQ is checked and answered with READ_RSP or ERR_RSP. -/
  | xpReadReq (p : XpPkt) (now : Nat)
  /-- XP_READ_RSP (R336): READ_RSP data is placed locally. -/
  | xpReadRsp (p : XpPkt) (now : Nat)
  /-- XP_ATOMIC (R336): An ATOMIC packet is executed once and answered. -/
  | xpAtomic (p : XpPkt) (now : Nat)
  /-- XP_ATOMIC_RSP (R336): An ATOMIC_RSP delivers the old value. -/
  | xpAtomicRsp (p : XpPkt) (now : Nat)
  /-- XP_SEND (R336): A SEND fills the next receive buffer, or is dropped when none is posted. -/
  | xpSend (p : XpPkt) (now : Nat)
  /-- XP_EPJOR (R337): A tunnelled Epjor transaction is handed to the switch in MSN order. -/
  | xpEpjor (p : XpPkt) (now : Nat)
  /-- XP_ACK (R333): An ACK advances CUM and SACK, adjusts the rate on CE, and may trigger retransmission or a hold. -/
  | xpAck (p : XpPkt) (now : Nat)
  /-- XP_ERR_RSP (R325): An ERR_RSP fails the request and sends the connection to ERROR. -/
  | xpErrRsp (p : XpPkt) (now : Nat)
  /-- ACK_DELAY_EXPIRE (R330): ACK_DELAY after an unacknowledged packet, an ACK is sent. -/
  | ackDelayExpire (k : Fin 131072) (now : Nat)
  /-- REORDER_EXPIRE (R331): A missing PSN is retransmitted once REORDER_US has passed. -/
  | reorderExpire (k : Fin 131072) (now : Nat)
  /-- RTO_EXPIRE (R331): The RTO passes without an advance; outstanding PSNs are retransmitted, the rate halves, and the retry limit leads to ERROR. -/
  | rtoExpire (k : Fin 131072) (now : Nat)
  /-- AI_INTERVAL_EXPIRE (R333): An AI_INTERVAL without CE raises the rate by AI_STEP. -/
  | aiIntervalExpire (k : Fin 131072)
  /-- TUNNEL_IDLE_EXPIRE (R337): A tunnel device connection idle for TUNNEL_IDLE is closed. -/
  | tunnelIdleExpire (k : Fin 131072) (now : Nat)
  /-- WR_WRITE (R336): Post a WRITE work request. -/
  | wrWrite (q : QCtx) (d : List Byte)
  /-- WR_READ (R336): Post a READ work request. -/
  | wrRead (q : QCtx) (d : List Byte)
  /-- WR_ATOMIC_FADD (R336): Post an atomic fetch-and-add work request. -/
  | wrAtomicFadd (q : QCtx) (d : List Byte)
  /-- WR_ATOMIC_CAS (R336): Post an atomic compare-and-swap work request. -/
  | wrAtomicCas (q : QCtx) (d : List Byte)
  /-- WR_SEND (R336): Post a SEND work request. -/
  | wrSend (q : QCtx) (d : List Byte)
  /-- RECV_POST (R336): Post a receive buffer. -/
  | recvPost (q : QCtx) (addr : BitVec 64) (len : BitVec 32)
  /-- WR_COMPLETE (R336): A work request completes in posting order once acknowledged or placed. -/
  | wrComplete (k : Fin 131072) (now : Nat)
  /-- XP_PACKET_ENQUEUE (R348): A gated packet enters its transmit queue once pacing, the slice bucket and QLIMIT allow. -/
  | xpPacketEnqueue (k : Fin 131072) (now : Nat)
  /-- TX_OPPORTUNITY (R343): At a transmit opportunity the scheduler picks a queue by tier and finish tag and sends its packet. -/
  | txOpportunity (l : Fin 32) (now : Nat)
  /-- Q_CONFIG_WRITE (R350): A queue record write is checked against the guarantee sum. -/
  | qConfigWrite (p : Path) (bytes : List Byte)
  /-- SS_CONFIG_WRITE (R349): A slice shaper record write, buffered to TICK. -/
  | ssConfigWrite (p : Path) (bytes : List Byte)
  /-- POL_CONFIG_WRITE (R355): A policer record write that refills its buckets at the tick. -/
  | polConfigWrite (p : Path) (bytes : List Byte)
  /-- QUEUE_SAMPLE (R356): Every 64 µs each queue's depth and head delay are sampled. -/
  | queueSample (now : Nat)
  /-- SAMPLE_WINDOW_END (R356): At a window end, min, mean and max are latched into Q_STATS. -/
  | sampleWindowEnd
  /-- CK_JOB (R359): Bind the STEP group as a job, or rebind it during recovery. -/
  | ckJob (q : QCtx) (d : List Byte)
  /-- CK_REGION (R361): Add a checkpoint region. -/
  | ckRegion (q : QCtx) (d : List Byte)
  /-- CK_UNREGION (R358): Remove a region from the next cut. -/
  | ckUnregion (q : QCtx) (d : List Byte)
  /-- CK_RESTORE (R379): Restore generation G onto the registered boxes from holders or an import. -/
  | ckRestore (q : QCtx) (d : List Byte)
  /-- CK_RESTORE_COMPLETE (R380): The restore reads finish with CK_OK or a failure status. -/
  | ckRestoreComplete (sl : Fin 512) (answers : List HolderCopy)
  /-- CK_EXPORT (R382): Write this node's committed copy as an image. -/
  | ckExport (q : QCtx) (d : List Byte) (host : Bool) (answers : List HolderCopy)
  /-- CK_RESUME (R372): Release a STOPPED job. -/
  | ckResume (q : QCtx) (d : List Byte)
  /-- CK_LEAVE (R358): End the job and release its buddy area. -/
  | ckLeave (q : QCtx) (d : List Byte)
  /-- CK_QUERY (R358): Write the JOB_STATUS record. -/
  | ckQuery (q : QCtx) (d : List Byte) (host : Bool)
  /-- NOTICE_WRITE (R362): A checkpoint notice written through 5000:01. -/
  | noticeWrite (p : Path) (bytes : List Byte)
  /-- ADMIN_NOTICE (R362): A checkpoint notice posted on the admin ring. -/
  | adminNotice (d : List Byte) (b : Option (List Byte))
  /-- COHORT_HEARTBEAT (R375): A heartbeat keeps a census link live. -/
  | cohortHeartbeat (b : List Byte)
  /-- COHORT_NOTICE (R363): A notice travels up the tree to node 0. -/
  | cohortNotice (b : List Byte)
  /-- COHORT_NOTICE_ACK (R363): Node 0's acknowledgement of a notice. -/
  | cohortNoticeAck (b : List Byte)
  /-- COHORT_MARK (R363): MARK names the epoch to be cut. -/
  | cohortMark (b : List Byte)
  /-- COHORT_MARK_ACK (R363): Acknowledgement of MARK. -/
  | cohortMarkAck (b : List Byte)
  /-- COHORT_COPIED (R369): A COPIED report travels up the tree. -/
  | cohortCopied (b : List Byte)
  /-- COHORT_COMMIT (R369): COMMIT(G) records G as committed and starts the drain. -/
  | cohortCommit (b : List Byte)
  /-- COHORT_SECURED (R370): A SECURED report travels up the tree. -/
  | cohortSecured (b : List Byte)
  /-- COHORT_SECURED_ALL (R372): SECURED_ALL completes the generation's notice. -/
  | cohortSecuredAll (b : List Byte)
  /-- COHORT_CENSUS (R375): A census view is merged and forwarded when it changes. -/
  | cohortCensus (b : List Byte)
  /-- COHORT_FAIL (R366): FAIL abandons the generation with CK_NOQUOTA. -/
  | cohortFail (b : List Byte)
  /-- HEARTBEAT_SEND (R375): Every HEARTBEAT_MS a heartbeat is sent on each census link. -/
  | heartbeatSend (sl : Fin 512)
  /-- NEIGHBOUR_SILENT (R374): A neighbour silent for FAIL_MS is a job fault. -/
  | neighbourSilent (sl : Fin 512) (node : Nat)
  /-- CENSUS_QUIET_EXPIRE (R376): A view unchanged for CENSUS_QUIET_MS fixes the side, which continues or fences. -/
  | censusQuietExpire (sl : Fin 512)
  /-- BUDDY_COPY_START (R367): Once the previous generation is SECURED, the node serialises its shards to the successor. -/
  | buddyCopyStart (sl : Fin 512)
  /-- BUDDY_COPY_RECEIVED (R369): The holder verifies the received copy and reports COPIED, or abandons the generation. -/
  | buddyCopyReceived (sl : Fin 512)
  /-- FLASH_DRAIN_FLUSHED (R370): The drain's FLUSH completes and the node reports SECURED. -/
  | flashDrainFlushed (sl : Fin 512)
  /-- UNFENCE_WRITE (R378): UNFENCE drops a fenced job to NONE. -/
  | unfenceWrite (p : Path) (v : BitVec 16)
  /-- RELEASE_JOB_WRITE (R385): Discard the flash copies of a job that no slice holds. -/
  | releaseJobWrite (p : Path) (bytes : List Byte)
  /-- STOR_WRITE (R391): A storage WRITE command into the write buffer. -/
  | storWrite (q : QCtx) (d : List Byte) (host : Option (List Byte))
  /-- STOR_WRITE_COMPLETE (R391): Every block of a WRITE is in the buffer after waiting for room. -/
  | storWriteComplete (id : Nat)
  /-- STOR_READ (R392): A storage READ command, suspending an erase if needed. -/
  | storRead (q : QCtx) (d : List Byte) (host : Bool)
  /-- STOR_READ_COMPLETE (R409): A media read finishes, with retries or SQ_MEDIA_ERR. -/
  | storReadComplete (id : Nat) (bad : List Nat) (corrected : List (Fin 64 × Nat)) (retries : List (Fin 16 × Nat))
  /-- STOR_FLUSH (R394): A storage FLUSH command for a volume. -/
  | storFlush (q : QCtx) (d : List Byte)
  /-- STOR_TRIM (R395): Make blocks unwritten. -/
  | storTrim (q : QCtx) (d : List Byte)
  /-- STOR_QUERY (R396): Write the 64-byte volume record. -/
  | storQuery (q : QCtx) (d : List Byte) (host : Bool)
  /-- BUFFER_UNIT_PROGRAMMED (R403): A drained unit's program completes and its MAP record is added. -/
  | bufferUnitProgrammed (unit page : Nat) (ok : Bool) (verify : Option Bool)
  /-- JOURNAL_TIMER (R402): Every 1 ms with records waiting, a journal checkpoint is programmed. -/
  | journalTimer
  /-- JOURNAL_PERSISTED (R402): A journal checkpoint is persisted, releasing buffer space and completing covered FLUSHes. -/
  | journalPersisted (ok : Bool)
  /-- MAP_SNAPSHOT (R402): Every 10 ms one map segment is written as a snapshot. -/
  | mapSnapshot
  /-- GC_UNIT_RELOCATE (R404): Garbage collection relocates a unit through copy, RELOCATE and map update. -/
  | gcUnitRelocate (unit page : Nat) (ok : Bool)
  /-- ERASE_COMPLETE (R407): An erase completes and ERASE_DONE is recorded. -/
  | eraseComplete (blk : Nat) (ok : Bool)
  /-- FLASH_MOUNT (R406): Mount starts once MI0–MI3 are ready, or after a switch or TEST. -/
  | flashMount
  /-- FLASH_MOUNT_COMPLETE (R406): Mount finishes, setting RW, READ_ONLY or FAILED and raising FLASH. -/
  | flashMountComplete (ok : Bool) (ms : Nat) (replayed : Bool) (torn : List Nat) (mix : List (Nat × List Byte))
  /-- COLUMN_SCAN (R410): The column-health scan reads calibration pages and declares bit-line faults. -/
  | columnScan (col : Nat) (stuck : List Nat) (opposite : Bool) (dest : List Nat)
  /-- READ_DISTURB_SCAN (R411): A block at 100,000 reads is verified and relocated if weak. -/
  | readDisturbScan (blk : Nat) (weak : Bool) (dest : List Nat)
  /-- WEAR_LEVEL (R412): Static wear levelling moves cold units when the erase-count spread exceeds WL_SPREAD. -/
  | wearLevel (units dest : List Nat)
  /-- MAP_REBUILD (R414): A map segment with an uncorrectable sector is rebuilt from snapshot and journal. -/
  | mapRebuild (seg : Option Nat) (lost : List Nat)
  /-- VOL_CONFIG_WRITE (R417): A volume record write, checked and applied at the tick. -/
  | volConfigWrite (p : Path) (bytes : List Byte)
  /-- KV_SPACE_WRITE (R417): Set the KV spill space for the next switch. -/
  | kvSpaceWrite (p : Path) (v : BitVec 64)
  /-- CKPT_SPACE_WRITE (R417): Set the checkpoint space for the next switch. -/
  | ckptSpaceWrite (p : Path) (v : BitVec 64)
  /-- PCIE_LINK_TRAINED (R420): The PCIe link trains and reports its rate and width. -/
  | pcieLinkTrained (rate : BitVec 8) (width : BitVec 5) (flit : Bool)
  /-- PCIE_HOT_RESET (R425): Queues halt, kernels end, rings reset and slices survive. -/
  | pcieHotReset
  /-- PCIE_LINK_DOWN (R425): The link going down acts as a hot reset. -/
  | pcieLinkDown
  /-- FLR_PF0 (R425): An FLR of PF0 resets the admin rings and the mailbox. -/
  | flrPf0
  /-- FLR_PF1 (R425): An FLR of PF1 destroys every slice. -/
  | flrPf1
  /-- ATS_INVALIDATION (R423): An ATS invalidation is answered once the accesses that used it are done. -/
  | atsInvalidation (pasid : BitVec 20) (vpage : BitVec 52)
  /-- ASPM_L1_ENTRY (R421): After L1_IDLE_US of idleness the link enters L1. -/
  | aspmL1Entry (sub : Fin 3)
  /-- L0P_NARROW (R421): After 1 ms below 35 % transmit use, the link narrows to ×8. -/
  | l0pNarrow
  /-- L0P_WIDEN (R421): The link widens when the transmit queue exceeds 16 KiB. -/
  | l0pWiden
  /-- MSIX_MODE_CHANGE (R424): A change of interrupt mode signals pending entries in the new mode. -/
  | msixModeChange (pf1 msix intxDisable fnMask : Bool) (masked : List Nat)
  /-- STEER_PENDING_CLEAR (R424): Clearing PENDING may deassert INTx. -/
  | steerPendingClear (sl : Fin 512) (i : Fin 256)
  /-- STEER_MOD_EXPIRE (R424): At the end of MOD_US, merged signals are sent. -/
  | steerModExpire (sl : Fin 512) (i : Fin 256)
  /-- SLICE_CREATE (R428): Create a slice with its quotas. -/
  | sliceCreate (d : List Byte) (q : Option (List Byte))
  /-- SLICE_DESTROY (R433): Destroy a slice in order and free its quotas. -/
  | sliceDestroy (d : List Byte)
  /-- MAP (R430): Map free frames into the slice page tables. -/
  | map (d : List Byte)
  /-- UNMAP (R180): Unmap frames after cache drops, drain and zeroing. -/
  | unmap (d : List Byte)
  /-- PASID_BIND (R431): Bind a PASID to a slice. -/
  | pasidBind (d : List Byte)
  /-- PASID_UNBIND (R431): Unbind a PASID that nothing names. -/
  | pasidUnbind (d : List Byte)
  /-- FREEZE (R439): Start freezing a slice, holding its doorbells. -/
  | freeze (d : List Byte)
  /-- SLICE_FROZEN (R439): No started work remains; the slice is FROZEN and FREEZE completes. -/
  | sliceFrozen (sl : Fin 512)
  /-- THAW (R439): Return a FROZEN slice to ACTIVE. -/
  | thaw (d : List Byte)
  /-- SAVE (R440): Write a range of the frozen slice's blob. -/
  | save (d : List Byte) (blobId : BitVec 64) (reach : Bool)
  /-- RESTORE (R442): Take the next range of a blob into a RESTORING slice. -/
  | restore (d : List Byte) (bytes : Option (List Byte))
  /-- CHAN_NOTIFY (R438): Write CHAN_IN and signal steering entry 1. -/
  | chanNotify (d : List Byte)
  /-- SLICE_QUERY (R427): Write the slice record. -/
  | sliceQuery (d : List Byte) (reach : Bool)
  /-- CHAN_DB_WRITE (R438): Queue a CHAN notification to the manager, merging while one is unwritten. -/
  | chanDbWrite (sl : Fin 512) (v : BitVec 32)
  /-- HELLO (R489): Check the tenant driver's interface version. -/
  | hello (sl : Fin 512) (d : List Byte)
  /-- QUEUE_CREATE (R436): Create a hardware queue. -/
  | queueCreate (sl : Fin 512) (d : List Byte)
  /-- QUEUE_DESTROY (R436): Destroy a hardware queue. -/
  | queueDestroy (sl : Fin 512) (d : List Byte)
  /-- QUEUE_RESET (R426): Return a HALTED queue to RUN with its indices zeroed. -/
  | queueReset (sl : Fin 512) (d : List Byte)
  /-- KEY_QUERY (R470): Write a key slot's state record. -/
  | keyQuery (sl : Fin 512) (d : List Byte)
  /-- KLAUNCH (R490): Queue a kernel on a tensor island. -/
  | klaunch (sl : Fin 512) (d : List Byte) (reach : Bool)
  /-- KLAUNCH_START (R490): A queued kernel is loaded into the window and entered. -/
  | klaunchStart (n : Fin 16) (image : List Byte)
  /-- QUEUE_DOORBELL (R437): A glove doorbell sets a queue's producer index, and descriptors start. -/
  | queueDoorbell (sl : Fin 512) (slot : Fin 1024) (v : BitVec 32)
  /-- SWITCH_REQUEST_WRITE (R454): A switch request, checked and pending for the tick. -/
  | switchRequestWrite (p : Path) (v : BitVec 8)
  /-- NEXT_SECRET_WRITE (R451): Stage a wrapped compartment secret. -/
  | nextSecretWrite (p : Path) (bytes : List Byte)
  /-- NEXT_OPK_WRITE (R450): Stage a wrapped operator key for the next module reset. -/
  | nextOpkWrite (p : Path) (bytes : List Byte)
  /-- DRAIN_STAGE_END (R455): Stage 1 ends once all tenant work is stopped, and stage 2 begins. -/
  | drainStageEnd (us : BitVec 32)
  /-- CLEAR_STAGE_END (R456): Hardware clearing of SRAM and state ends, and stage 3 begins. -/
  | clearStageEnd (us : BitVec 32)
  /-- ZERO_STAGE_END (R456): Stacked memory is zeroed, and the media-key stage begins. -/
  | zeroStageEnd (us : BitVec 32)
  /-- MEDIA_KEY_COMMIT (R457): The key store commits the new compartment and MK, and the protection reboot starts. -/
  | mediaKeyCommit (us : BitVec 32) (mk : BitVec 512)
  /-- FIRMWARE_REVERIFY_END (R460): Stage 6 ends; SWITCH writes apply and the SP9 enters NORMAL or RECOVERY. -/
  | firmwareReverifyEnd (us : BitVec 32)
  /-- KEY_SLOT_INSTALL (R466): Install the staged key words, FIXED and LIMIT in one step. -/
  | keySlotInstall (sl : Fin 512) (j : Fin 256)
  /-- KEY_SLOT_ERASE (R466): Empty a key slot. -/
  | keySlotErase (sl : Fin 512) (j : Fin 256)
  /-- RNG_HEALTH_FAIL (R449): The noise-source health test fails and key generation stops. -/
  | rngHealthFail
  /-- ADM_ENABLE (R484): Start the admin ring's version check. -/
  | admEnable
  /-- ADM_RESET (R485): Reset the admin ring pair. -/
  | admReset
  /-- ADMIN_SQ_DOORBELL (R485): An SQ_TAIL write starts admin entries. -/
  | adminSqDoorbell (tail : BitVec 32)
  /-- ADMIN_CQ_HEAD_WRITE (R485): Advancing CQ_HEAD frees completions and may deassert INTx. -/
  | adminCqHeadWrite (head : BitVec 32)
  /-- IDENTIFY (R487): Write the identity record. -/
  | identify (d : List Byte) (reach : Bool)
  /-- CTRL_RING (R488): Install a slice's control ring. -/
  | ctrlRing (d : List Byte) (q : Option (List Byte))
  /-- STAGE_BEGIN (R492): Erase the inactive bank to start staging. -/
  | stageBegin (p : Path)
  /-- STAGE_COMMIT (R492): Start verification of the staged bank. -/
  | stageCommit (p : Path)
  /-- STAGE_ABORT (R492): Return staging to IDLE. -/
  | stageAbort (p : Path)
  /-- STAGE_ACTIVATE_RESET (R493): Record a pending activation for the next module reset. -/
  | stageActivateReset (p : Path)
  /-- STAGE_ACTIVATE_ANY (R493): Record a pending activation for any reboot. -/
  | stageActivateAny (p : Path)
  /-- STAGE_CANCEL (R493): Clear a pending activation. -/
  | stageCancel (p : Path)
  /-- STAGE_DATA_WRITE (R492): Program 1,024 bytes of the staged bank and advance the offset. -/
  | stageDataWrite (p : Path) (bytes : List Byte)
  /-- STAGE_ERASE_DONE (R492): The erase finishes and staging enters LOADING. -/
  | stageEraseDone
  /-- STAGE_VERIFY_DONE (R492): Verification ends in STAGED or FAILED. -/
  | stageVerifyDone (chk : BankCheck)
  /-- SVN_ADVANCE_WRITE (R494): Raise the fused SVN_MIN irreversibly. -/
  | svnAdvanceWrite (p : Path) (v : BitVec 8)
  /-- MGMT_CORE_STOP (R497): A DOUBLE trap or an unhandled fault stops the management core and asserts ALERT_N. -/
  | mgmtCoreStop
  /-- CAP_WRITE (R501): A cap write, applied at TICK. -/
  | capWrite (p : Path) (v : BitVec 16)
  /-- CAP_PERIOD (R502): The cap loop sets class clocks, or descends through duty, memory and links. -/
  | capPeriod (pr : Predict)
  /-- RAIL_READING (R499): Each millisecond the rails are read over PMBus. -/
  | railReading (r : List (Option (BitVec 16 × BitVec 16)))
  /-- DUTY_WINDOW_START (R506): Each 64 µs window applies the current duty to the staggered slots. -/
  | dutyWindowStart
  /-- THERMAL_SAMPLE (R514): Every 100 µs an island's sensors are read and its throttle applied or released. -/
  | thermalSample (n : Fin 26) (t : Int)
  /-- EVENT_TALLY (R522): A TALLY adds its count to a histogram bin. -/
  | eventTally (src : Fin 26) (pl : BitVec 50) (err : CsErr)
  /-- EVENT_NOTICE (R522): A NOTICE becomes an event to its recipients. -/
  | eventNotice (src : Fin 26) (pl : BitVec 50) (err : CsErr) (a : NoticeData)
  /-- HIST_SAMPLE (R523): Once per second the temperature and power histograms are sampled. -/
  | histSample
  /-- INTERVAL_END (R525): The accumulation closes into the pending record and restarts. -/
  | intervalEnd
  /-- RECORD_WRITE (R526): The pending record is written to the log with NEXT_SEQ. -/
  | recordWrite
  /-- RECORDER_FREEZE_WRITE (R528): Set or clear FREEZE, writing the merged record on clearing. -/
  | recorderFreezeWrite (p : Path) (v : BitVec 8)
  /-- FREEZE_MAX_EXPIRE (R528): FREEZE returns to zero after FREEZE_MAX_MIN. -/
  | freezeMaxExpire
  /-- LOG_CLEAR_WRITE (R528): Start erasing the log while frozen. -/
  | logClearWrite (p : Path) (v : BitVec 8)
  /-- LOG_CLEAR_DONE (R528): The log is erased and RECORDER rises. -/
  | logClearDone
  /-- REC_SELECT_WRITE (R530): Select a log record, or capture the live accumulation. -/
  | recSelectWrite (p : Path) (v : BitVec 32)
  /-- SLICE_COUNTER_LATCH (R519): Every 10 µs the glove usage counters are latched. -/
  | sliceCounterLatch
  /-- GLOVE_COUNTER_WRITE (R520): A zero write clears a usage counter at the tick; other writes are dropped. -/
  | gloveCounterWrite (sl : Fin 512) (i : Fin 512) (v : BitVec 64)
  /-- PWR_OK_RISE (R543): The internal rails come into tolerance up to 25 ms after VIN passes 48 V and PWR_OK is released high. -/
  | pwrOkRise
  /-- PERST_N_DEEMED_RELEASE (R543): When PERST_N is already high as PWR_OK rises, the module acts as if PERST_N were released 100 ms later. -/
  | perstNDeemedRelease (pins : BitVec 4)
  /-- RAIL_TOLERANCE_LOSS (R543): An internal rail leaves tolerance and PWR_OK goes low within 1 ms. -/
  | railToleranceLoss
  /-- SIDEBAND_BIAS_LOSS (R543): VIN falls below 20 V, the sideband bias goes, and the latch that holds THERMTRIP_N low releases. -/
  | sidebandBiasLoss
  /-- ASPM_L1_EXIT (R421): The PCIe link leaves L1 because a TLP is to be sent by the host or by the device, and waiting accesses proceed. -/
  | aspmL1Exit
  /-- HOST_COMPLETION_RECEIVE (R422): A completion for a request that HI issued to host memory arrives and finishes or fails the access, or is discarded and counted as unexpected when that request was abandoned. -/
  | hostCompletionReceive (id : Nat) (ok : Bool) (head : BitVec 32)
  /-- HOST_COMPLETION_TIMEOUT (R422): A request that HI issued to host memory gets no completion within the completion timeout, and the access fails back to its engine. -/
  | hostCompletionTimeout (id : Nat)
  /-- SLICE_DESTROY_COMPLETE (R433): Once the ending of a slice's work, the zeroing of its frames under R180 and the return of its quotas are done, the slice leaves DESTROYING for FREE. -/
  | sliceDestroyComplete (sl : Fin 512)
deriving DecidableEq, Repr

end Sys2Proof
end

