-- ==== Sys2Proof/Decode.lean ====
section
/-!
DEFINITION. The command that a word of the table's bits spells. The table of this block gives no row any bits (commands are
register accesses, bus operations and events, not words), so no word spells a command.
-/
namespace Sys2Proof

/-- The command spelt by a word: none, since no row of the table has bits. -/
def decodeTableWord (_nbits _w : Nat) : Option Instr := none

end Sys2Proof
end

