-- ==== Sys2Proof/Machine/Store.lean ====
section
/-!
DEFINITION. Sparse tables and byte strings: reading and writing a table in its canonical form, and
little-endian (R6) and big-endian conversion.
-/
namespace Sys2Proof.Machine
variable {α : Type}

/-- Whether an index lies in a range. -/
def within (idx lo hi : Nat) : Bool := decide (lo ≤ idx) && decide (idx ≤ hi)

/-- The entry of key `k`, or `d` where the table lists none. -/
def look (d : α) : Store α → Nat → α
  | [], _ => d
  | (j, v) :: m, k => if j = k then v else look d m k

/-- The table without entries of key `k`. -/
def drop1 : Store α → Nat → Store α
  | [], _ => []
  | (j, v) :: m, k => if j = k then drop1 m k else (j, v) :: drop1 m k

/-- The table with `v` at key `k`, keys kept rising. -/
def ins : Store α → Nat → α → Store α
  | [], k, v => [(k, v)]
  | (j, w) :: m, k, v =>
    if k < j then (k, v) :: (j, w) :: m
    else if k = j then (k, v) :: m
    else (j, w) :: ins m k v

/-- Write `v` at `k`, where an unlisted key reads as `d`: writing `d` removes the entry. -/
def put [DecidableEq α] (d : α) (m : Store α) (k : Nat) (v : α) : Store α :=
  if v = d then drop1 m k else ins m k v

/-- The entry of `k` in a table whose unlisted keys read as the type's default record. -/
def sget [Inhabited α] (m : Store α) (k : Nat) : α := look default m k

/-- Write into a table whose unlisted keys read as the type's default record. -/
def sput [Inhabited α] [DecidableEq α] (m : Store α) (k : Nat) (v : α) : Store α := put default m k v

/-- Change one entry in place. -/
def smod [Inhabited α] [DecidableEq α] (m : Store α) (k : Nat) (f : α → α) : Store α :=
  sput m k (f (sget m k))

/-- Apply a change to every listed entry. -/
def smapAll [Inhabited α] [DecidableEq α] (m : Store α) (f : Nat → α → α) : Store α :=
  m.foldl (fun acc e => smod acc e.1 (f e.1)) m

/-- Whether the keys rise strictly and no entry equals the default `d`: the canonical form. -/
def canonical [DecidableEq α] (d : α) : Store α → Bool
  | [] => true
  | [(_, v)] => decide (v ≠ d)
  | (j, v) :: (k, w) :: m => decide (j < k) && decide (v ≠ d) && canonical d ((k, w) :: m)

/-- The `n` low bytes of `v`, least significant first (R6). -/
def leBytes : Nat → Nat → List Byte
  | 0, _ => []
  | n + 1, v => BitVec.ofNat 8 v :: leBytes n (v / 256)

/-- The number whose bytes these are, least significant first (R6). -/
def leNat : List Byte → Nat
  | [] => 0
  | b :: bs => b.toNat + 256 * leNat bs

/-- The `n` low bytes of `v`, most significant first. -/
def beBytes (n v : Nat) : List Byte := (leBytes n v).reverse

/-- The number whose bytes these are, most significant first. -/
def beNat (bs : List Byte) : Nat := leNat bs.reverse

/-- `n` bytes from offset `o`, absent bytes read as zero. -/
def bytesAt (bs : List Byte) (o n : Nat) : List Byte :=
  let t := (bs.drop o).take n
  t ++ List.replicate (n - t.length) 0

/-- The little-endian field of `n` bytes at offset `o`. -/
def fieldAt (bs : List Byte) (o n : Nat) : Nat := leNat ((bs.drop o).take n)

/-- The bit field [`hi`:`lo`] of `v`. -/
def bits (v hi lo : Nat) : Nat := (v / 2 ^ lo) % 2 ^ (hi + 1 - lo)

/-- Bit `i` of `v`. -/
def bit (v i : Nat) : Bool := (v / 2 ^ i) % 2 = 1

/-- `v` with bit `i` set to `b`. -/
def setBit (v i : Nat) (b : Bool) : Nat :=
  if bit v i then (if b then v else v - 2 ^ i) else (if b then v + 2 ^ i else v)

/-- The two's-complement reading of the low `w` bits of `v`. -/
def signed (w v : Nat) : Int :=
  let u := v % 2 ^ w
  if u < 2 ^ (w - 1) then (u : Int) else (u : Int) - (2 ^ w : Nat)

/-- The low `w` bits of an integer in two's complement. -/
def unsigned (w : Nat) (z : Int) : Nat := (z % ((2 ^ w : Nat) : Int)).toNat

/-- One if true, zero if false. -/
def b2n (b : Bool) : Nat := if b then 1 else 0

/-- Replace the elements of a list from position `o` by those of another list. -/
def splice (l : List α) (o : Nat) (r : List α) : List α :=
  l.take o ++ r ++ l.drop (o + r.length)

/-- The elements of a list with `f` applied to the one at position `i`. -/
def modAt (l : List α) (i : Nat) (f : α → α) : List α := l.modify i f

/-- Add `v` to a list kept in rising order without repeats. -/
def insSet : List Nat → Nat → List Nat
  | [], v => [v]
  | x :: xs, v => if v < x then v :: x :: xs else if v = x then x :: xs else x :: insSet xs v

end Sys2Proof.Machine
end

