-- ==== Sys2Proof/Machine/Objects.lean ====
section
/-!
DEFINITION. The objects of the dictionary (R42–R44): one row per object or run of objects of the
manual's object tables (Tables 1-2, 2-5, 4-x, 6-x … 18-6), with type, access right, default and
boundary as the tables give them. A default of "—", "per module" or "per island" stands as 0
here; such values are computed by the dictionary's view of the state or named by Config.
-/
namespace Sys2Proof.Machine

/-- Object types (Table 2-1). `u n`: unsigned of n bytes. -/
inductive OType
  | u (n : Nat) | i32 | bool | enum | octets (n : Nat) | str (n : Nat)
deriving DecidableEq, Repr

/-- Access rights (Table 2-2). -/
inductive Access
  | ro | rw | wo | rwb | bl
deriving DecidableEq, Repr

/-- Application boundaries (Table 2-3); `none` is "—". -/
inductive Boundary
  | none | packet | step | tick | interval | switch | boot
deriving DecidableEq, Repr, Inhabited

/-- A row of an object table: indices `base` to `base + count - 1`, subindices `sub` to
`sub + subs - 1`, the default as a number and the range a written value must lie in. -/
structure ObjRow where
  base : Nat
  count : Nat
  sub : Nat
  subs : Nat
  typ : OType
  acc : Access
  dflt : Nat
  bnd : Boundary
  lo : Nat
  hi : Nat
deriving DecidableEq, Repr

/-- Objects of the chapter numbered 01. -/
def rowsIslands : List ObjRow := [
  ⟨0x2000, 26, 0x1, 1, .enum, .ro, 0, .none, 0, 6⟩ /- KIND -/,
  ⟨0x2000, 26, 0x2, 1, .u 1, .ro, 0, .none, 0, 255⟩ /- INSTANCE -/,
  ⟨0x2000, 26, 0x3, 1, .u 4, .ro, 0, .none, 0, 4294967295⟩ /- CLK_NOMINAL -/,
  ⟨0x2000, 26, 0x4, 1, .u 4, .ro, 0, .none, 0, 4294967295⟩ /- CLK_SET -/,
  ⟨0x2000, 26, 0x5, 1, .u 4, .ro, 0, .none, 0, 4294967295⟩ /- CLK_MIN -/,
  ⟨0x2000, 26, 0x6, 1, .u 4, .ro, 0, .none, 0, 4294967295⟩ /- CLK_MAX -/,
  ⟨0x2000, 26, 0x7, 1, .bool, .ro, 0, .none, 0, 1⟩ /- READY -/,
  ⟨0x2000, 26, 0x8, 1, .enum, .ro, 0, .none, 0, 4⟩ /- ISTATE -/,
  ⟨0x2000, 26, 0x9, 1, .u 8, .ro, 0, .none, 0, 18446744073709551615⟩ /- STRAITS_UP -/,
  ⟨0x2000, 26, 0xA, 1, .u 4, .ro, 0, .none, 0, 4294967295⟩ /- RESET_COUNT -/,
  ⟨0x2000, 26, 0xB, 1, .u 4, .ro, 0, .none, 0, 4294967295⟩ /- SELFTEST_CODE -/,
  ⟨0x2000, 26, 0xC, 1, .u 1, .wo, 0, .tick, 0, 255⟩ /- RESET_CMD -/,
  ⟨0x2000, 26, 0xD, 1, .u 8, .ro, 0, .none, 0, 18446744073709551615⟩ /- CS_DISCARDS -/,
  ⟨0x2000, 26, 0xE, 1, .u 8, .ro, 0, .none, 0, 18446744073709551615⟩ /- STRAIT_CORRECTED -/,
  ⟨0x2000, 26, 0xF, 1, .u 8, .ro, 0, .none, 0, 18446744073709551615⟩ /- STRAIT_RETRIES -/,
  ⟨0x2000, 26, 0x17, 1, .u 8, .ro, 0, .none, 0, 18446744073709551615⟩ /- CS_BAD_DEST -/]

/-- Objects of the chapter numbered 02. -/
def rowsIdentity1 : List ObjRow := [
  ⟨0x1000, 1, 0x0, 1, .u 4, .ro, 1247281161, .none, 0, 4294967295⟩ /- DEVICE_TYPE -/,
  ⟨0x1008, 1, 0x0, 1, .str 16, .ro, 17737752180347354100710666323, .none, 0, 0⟩ /- DEVICE_NAME -/,
  ⟨0x1009, 1, 0x0, 1, .u 2, .ro, 176, .none, 0, 65535⟩ /- STEPPING -/,
  ⟨0x100A, 1, 0x1, 1, .u 1, .ro, 0, .none, 0, 255⟩ /- FW_VERSION.MAJOR -/,
  ⟨0x100A, 1, 0x2, 1, .u 1, .ro, 0, .none, 0, 255⟩ /- FW_VERSION.MINOR -/,
  ⟨0x100A, 1, 0x3, 1, .u 2, .ro, 0, .none, 0, 65535⟩ /- FW_VERSION.PATCH -/,
  ⟨0x100A, 1, 0x4, 1, .enum, .ro, 0, .none, 0, 1⟩ /- FW_VERSION.BANK -/,
  ⟨0x100B, 1, 0x1, 1, .u 1, .ro, 0, .none, 0, 255⟩ /- HIF_VERSION.MAJOR -/,
  ⟨0x100B, 1, 0x2, 1, .u 1, .ro, 0, .none, 0, 255⟩ /- HIF_VERSION.MINOR -/,
  ⟨0x100B, 1, 0x3, 1, .u 2, .ro, 0, .none, 0, 65535⟩ /- HIF_VERSION.PATCH -/,
  ⟨0x1010, 1, 0x1, 1, .u 4, .ro, 0, .none, 0, 4294967295⟩ /- READY_ISLANDS -/,
  ⟨0x1010, 1, 0x2, 1, .u 4, .ro, 0, .none, 0, 4294967295⟩ /- READY_FUNCTIONS -/,
  ⟨0x1018, 1, 0x1, 1, .u 4, .ro, 19032, .none, 0, 4294967295⟩ /- VENDOR -/,
  ⟨0x1018, 1, 0x2, 1, .str 16, .ro, 5561164132028078154, .none, 0, 0⟩ /- PRODUCT -/,
  ⟨0x1018, 1, 0x3, 1, .octets 16, .ro, 0, .none, 0, 0⟩ /- SERIAL -/,
  ⟨0x1018, 1, 0x4, 1, .u 1, .ro, 0, .none, 0, 255⟩ /- MODULE_ID -/,
  ⟨0x1020, 1, 0x0, 1, .enum, .ro, 0, .none, 0, 5⟩ /- SERVICE_STATE -/,
  ⟨0x1021, 1, 0x0, 1, .u 1, .wo, 0, .tick, 0, 255⟩ /- STATE_REQUEST -/,
  ⟨0x1030, 1, 0x0, 1, .u 8, .ro, 0, .none, 0, 18446744073709551615⟩ /- TICK -/,
  ⟨0x1040, 1, 0x1, 1, .u 8, .ro, 0, .none, 0, 18446744073709551615⟩ /- ODP_ACCEPTED -/,
  ⟨0x1040, 1, 0x2, 1, .u 8, .ro, 0, .none, 0, 18446744073709551615⟩ /- ODP_BAD_TAG -/,
  ⟨0x1040, 1, 0x3, 1, .u 8, .ro, 0, .none, 0, 18446744073709551615⟩ /- ODP_REPLAY -/,
  ⟨0x1040, 1, 0x4, 1, .u 8, .ro, 0, .none, 0, 18446744073709551615⟩ /- ODP_MALFORMED -/,
  ⟨0x1040, 1, 0x5, 1, .u 8, .ro, 0, .none, 0, 18446744073709551615⟩ /- ODP_BUSY -/]

/-- Objects of the chapter numbered 02. -/
def rowsIdentity2 : List ObjRow := [
  ⟨0x1040, 1, 0x6, 1, .u 8, .ro, 0, .none, 0, 18446744073709551615⟩ /- ODP_UNSERVED -/,
  ⟨0x1040, 1, 0x7, 1, .u 8, .ro, 0, .none, 0, 18446744073709551615⟩ /- MBX_OVERRUN -/,
  ⟨0x1040, 1, 0x8, 1, .u 8, .ro, 0, .none, 0, 18446744073709551615⟩ /- ODP_NOKEY -/,
  ⟨0x1048, 1, 0x1, 1, .octets 6, .ro, 0, .none, 0, 0⟩ /- MGMT_MAC -/,
  ⟨0x1048, 1, 0x2, 1, .octets 16, .rwb, 0, .boot, 0, 0⟩ /- MGMT_ADDR -/,
  ⟨0x1048, 1, 0x3, 1, .u 1, .rwb, 64, .boot, 1, 128⟩ /- MGMT_PREFIX -/,
  ⟨0x1048, 1, 0x4, 1, .u 2, .rwb, 7347, .boot, 1, 65535⟩ /- ODP_PORT -/]

/-- Objects of the chapter numbered 04. -/
def rowsTensor : List ObjRow := [
  ⟨0x2000, 16, 0x10, 1, .u 8, .ro, 0, .none, 0, 18446744073709551615⟩ /- SP_CORRECTED -/,
  ⟨0x2000, 16, 0x11, 1, .u 8, .ro, 0, .none, 0, 18446744073709551615⟩ /- SP_UNCORRECTABLE -/,
  ⟨0x2000, 16, 0x12, 1, .u 8, .ro, 0, .none, 0, 18446744073709551615⟩ /- BANK_CONFLICTS -/,
  ⟨0x2000, 16, 0x13, 1, .u 8, .ro, 0, .none, 0, 18446744073709551615⟩ /- MC_STEPS -/,
  ⟨0x2000, 16, 0x14, 1, .u 8, .ro, 0, .none, 0, 18446744073709551615⟩ /- STREAM_IN -/,
  ⟨0x2000, 16, 0x15, 1, .u 8, .ro, 0, .none, 0, 18446744073709551615⟩ /- STREAM_OUT -/,
  ⟨0x2000, 16, 0x16, 1, .u 8, .ro, 0, .none, 0, 18446744073709551615⟩ /- OP_ERRORS -/]

/-- Objects of the chapter numbered 06. -/
def rowsMemory1 : List ObjRow := [
  ⟨0x4000, 1, 0x1, 1, .u 8, .ro, 824633720832, .none, 0, 18446744073709551615⟩ /- STACKED_BYTES -/,
  ⟨0x4000, 1, 0x2, 1, .u 8, .ro, 790273982464, .none, 0, 18446744073709551615⟩ /- RESERVE_BASE -/,
  ⟨0x4000, 1, 0x3, 1, .u 8, .ro, 790273982464, .none, 0, 18446744073709551615⟩ /- POOL_BYTES -/,
  ⟨0x4000, 1, 0x4, 1, .u 8, .ro, 0, .none, 0, 18446744073709551615⟩ /- POOL_FREE -/,
  ⟨0x4000, 1, 0x5, 1, .u 4, .ro, 0, .none, 0, 4294967295⟩ /- RETIRED_FRAMES -/,
  ⟨0x4000, 1, 0x6, 1, .u 1, .rwb, 25, .tick, 10, 50⟩ /- PERIPH_SHARE -/,
  ⟨0x4000, 1, 0x7, 1, .u 2, .rwb, 16, .tick, 0, 65535⟩ /- RETIRE_CE -/,
  ⟨0x4010, 4, 0x1, 1, .u 8, .ro, 0, .none, 0, 18446744073709551615⟩ /- CE -/,
  ⟨0x4010, 4, 0x2, 1, .u 8, .ro, 0, .none, 0, 18446744073709551615⟩ /- UE -/,
  ⟨0x4010, 4, 0x3, 1, .u 4, .ro, 0, .none, 0, 4294967295⟩ /- POISONED -/,
  ⟨0x4010, 4, 0x4, 1, .u 8, .ro, 0, .none, 0, 18446744073709551615⟩ /- RETRAINS -/,
  ⟨0x4010, 4, 0x5, 1, .u 4, .ro, 0, .none, 0, 4294967295⟩ /- RETRAIN_FAILS -/,
  ⟨0x4010, 4, 0x6, 1, .u 2, .ro, 0, .none, 0, 65535⟩ /- STACK_STATE -/,
  ⟨0x4100, 1, 0x1, 1, .u 4, .ro, 262144, .none, 0, 4294967295⟩ /- HANDLES_TOTAL -/,
  ⟨0x4100, 1, 0x2, 1, .u 4, .ro, 262144, .none, 0, 4294967295⟩ /- HANDLES_FREE -/,
  ⟨0x4100, 1, 0x3, 1, .u 8, .ro, 0, .none, 0, 18446744073709551615⟩ /- BLOCKS_HBM -/,
  ⟨0x4100, 1, 0x4, 1, .u 8, .ro, 0, .none, 0, 18446744073709551615⟩ /- BLOCKS_FLASH -/,
  ⟨0x4100, 1, 0x5, 1, .u 2, .rwb, 10, .tick, 1, 1000⟩ /- TIER_PERIOD -/,
  ⟨0x4100, 1, 0x6, 1, .u 1, .rwb, 15, .tick, 0, 255⟩ /- MASS_WEIGHT -/,
  ⟨0x4100, 1, 0x7, 1, .u 1, .rwb, 95, .tick, 50, 99⟩ /- HIGH_MARK -/,
  ⟨0x4100, 1, 0x8, 1, .u 1, .rwb, 90, .tick, 40, 98⟩ /- LOW_MARK -/,
  ⟨0x4100, 1, 0x9, 1, .u 8, .ro, 0, .none, 0, 18446744073709551615⟩ /- DEMOTED -/,
  ⟨0x4100, 1, 0xA, 1, .u 8, .ro, 0, .none, 0, 18446744073709551615⟩ /- PROMOTED -/,
  ⟨0x4100, 1, 0xB, 1, .u 8, .ro, 0, .none, 0, 18446744073709551615⟩ /- FETCH_STALLS -/]

/-- Objects of the chapter numbered 06. -/
def rowsMemory2 : List ObjRow := [
  ⟨0x4100, 1, 0xC, 1, .u 8, .ro, 0, .none, 0, 18446744073709551615⟩ /- LOST_BLOCKS -/,
  ⟨0x4100, 1, 0xD, 1, .u 8, .ro, 0, .none, 0, 18446744073709551615⟩ /- COW_COPIES -/,
  ⟨0x4100, 1, 0xE, 1, .u 8, .ro, 0, .none, 0, 18446744073709551615⟩ /- POLICY_LATE -/,
  ⟨0x4200, 1, 0x1, 1, .u 1, .rwb, 24, .tick, 12, 72⟩ /- PASS_HOURS -/,
  ⟨0x4200, 1, 0x2, 1, .u 4, .rwb, 100, .tick, 1, 1048576⟩ /- CE_THRESHOLD -/,
  ⟨0x4200, 1, 0x3, 1, .u 1, .rwb, 24, .tick, 1, 168⟩ /- CLEAN_HOURS -/,
  ⟨0x4210, 4, 0x1, 1, .enum, .ro, 0, .none, 0, 1⟩ /- LEVEL -/,
  ⟨0x4210, 4, 0x2, 1, .u 2, .ro, 0, .none, 0, 65535⟩ /- CLEAN_RUN -/,
  ⟨0x4210, 4, 0x3, 1, .u 8, .ro, 0, .none, 0, 18446744073709551615⟩ /- PASSES -/,
  ⟨0x4210, 4, 0x4, 1, .u 1, .ro, 0, .none, 0, 255⟩ /- PASS_POSITION -/,
  ⟨0x4210, 4, 0x5, 1, .u 8, .ro, 0, .none, 0, 18446744073709551615⟩ /- LAST_PASS_TICK -/,
  ⟨0x4210, 4, 0x6, 1, .u 8, .ro, 0, .none, 0, 18446744073709551615⟩ /- SCRUB_CORRECTED -/]

/-- Objects of the chapter numbered 07. -/
def rowsKernels : List ObjRow := [
  ⟨0x4140, 1, 0x1, 1, .u 4, .ro, 0, .none, 0, 4294967295⟩ /- ATT_INFLIGHT -/,
  ⟨0x4140, 1, 0x2, 1, .u 4, .ro, 2048, .none, 0, 4294967295⟩ /- ATT_MAX -/,
  ⟨0x4140, 1, 0x3, 1, .u 2, .rwb, 50, .tick, 0, 1000⟩ /- DEFER_HOLD -/,
  ⟨0x4140, 1, 0x4, 1, .u 8, .ro, 0, .none, 0, 18446744073709551615⟩ /- ATTENDS -/,
  ⟨0x4140, 1, 0x5, 1, .u 8, .ro, 0, .none, 0, 18446744073709551615⟩ /- ATT_DEFERRED -/,
  ⟨0x4140, 1, 0x6, 1, .u 8, .ro, 0, .none, 0, 18446744073709551615⟩ /- ATT_FAILED -/,
  ⟨0x4140, 1, 0x7, 1, .u 8, .ro, 0, .none, 0, 18446744073709551615⟩ /- CHUNKS_MOVED -/,
  ⟨0x4300, 1, 0x1, 1, .u 4, .ro, 4096, .none, 0, 4294967295⟩ /- SETS_MAX -/,
  ⟨0x4300, 1, 0x2, 1, .u 4, .ro, 0, .none, 0, 4294967295⟩ /- SETS_ACTIVE -/,
  ⟨0x4300, 1, 0x3, 1, .u 8, .ro, 0, .none, 0, 18446744073709551615⟩ /- UNITS_APPLIED -/,
  ⟨0x4300, 1, 0x4, 1, .u 8, .ro, 0, .none, 0, 18446744073709551615⟩ /- COMMITS -/,
  ⟨0x4300, 1, 0x5, 1, .u 8, .ro, 0, .none, 0, 18446744073709551615⟩ /- SKIPS -/,
  ⟨0x4300, 1, 0x6, 1, .u 8, .ro, 0, .none, 0, 18446744073709551615⟩ /- STALLS -/,
  ⟨0x4300, 1, 0x7, 1, .u 8, .ro, 0, .none, 0, 18446744073709551615⟩ /- KERNEL_FAULTS -/,
  ⟨0x4300, 1, 0x8, 1, .u 8, .ro, 0, .none, 0, 18446744073709551615⟩ /- GRAD_REFUSED -/,
  ⟨0x4300, 1, 0x9, 1, .u 8, .ro, 0, .none, 0, 18446744073709551615⟩ /- NONFINITE_UNITS -/,
  ⟨0x4300, 1, 0xA, 1, .u 4, .ro, 0, .none, 0, 4294967295⟩ /- TENANT_KERNELS -/]

/-- Objects of the chapter numbered 08. -/
def rowsEpjor1 : List ObjRow := [
  ⟨0x3000, 8, 0x1, 1, .enum, .ro, 0, .none, 0, 7⟩ /- PSTATE -/,
  ⟨0x3000, 8, 0x2, 1, .bool, .rwb, 1, .tick, 0, 1⟩ /- ENABLE -/,
  ⟨0x3000, 8, 0x3, 1, .u 4, .rwb, 2097151, .tick, 0, 4294967295⟩ /- PARTNER_EP -/,
  ⟨0x3000, 8, 0x4, 1, .u 1, .ro, 0, .none, 0, 255⟩ /- LANES_ACTIVE -/,
  ⟨0x3000, 8, 0x5, 1, .u 1, .wo, 0, .tick, 0, 255⟩ /- REQ_RETRAIN -/,
  ⟨0x3000, 8, 0x6, 1, .u 4, .rwb, 100, .tick, 10, 100000⟩ /- RSP_TIMEOUT -/,
  ⟨0x3000, 8, 0x7, 1, .u 2, .rwb, 100, .tick, 1, 60000⟩ /- DOWN_HOLD -/,
  ⟨0x3000, 8, 0x8, 1, .bool, .rwb, 1, .tick, 0, 1⟩ /- AUTO_RETRY -/,
  ⟨0x3000, 8, 0x9, 1, .enum, .ro, 0, .none, 0, 8⟩ /- DOWN_CAUSE -/,
  ⟨0x3000, 8, 0xA, 1, .u 2, .ro, 0, .none, 0, 65535⟩ /- TAGS_INFLIGHT -/,
  ⟨0x3000, 8, 0xB, 1, .u 8, .ro, 0, .none, 0, 18446744073709551615⟩ /- FLITS_TX -/,
  ⟨0x3000, 8, 0xC, 1, .u 8, .ro, 0, .none, 0, 18446744073709551615⟩ /- FLITS_RX -/,
  ⟨0x3000, 8, 0xD, 1, .u 8, .ro, 0, .none, 0, 18446744073709551615⟩ /- FEC_CORRECTED -/,
  ⟨0x3000, 8, 0xE, 1, .u 8, .ro, 0, .none, 0, 18446744073709551615⟩ /- CRC_ERRORS -/,
  ⟨0x3000, 8, 0xF, 1, .u 8, .ro, 0, .none, 0, 18446744073709551615⟩ /- REPLAYS -/,
  ⟨0x3000, 8, 0x10, 1, .u 8, .ro, 0, .none, 0, 18446744073709551615⟩ /- RETRAINS -/,
  ⟨0x3000, 8, 0x11, 1, .u 4, .ro, 0, .none, 0, 4294967295⟩ /- TRAIN_FAILS -/,
  ⟨0x3000, 8, 0x12, 1, .u 8, .ro, 0, .none, 0, 18446744073709551615⟩ /- SRC_MISMATCH -/,
  ⟨0x3000, 8, 0x13, 1, .u 8, .ro, 0, .none, 0, 18446744073709551615⟩ /- TAG_DUP -/,
  ⟨0x3000, 8, 0x14, 1, .u 8, .ro, 0, .none, 0, 18446744073709551615⟩ /- RSP_ORPHAN -/,
  ⟨0x3000, 8, 0x15, 1, .u 8, .ro, 0, .none, 0, 18446744073709551615⟩ /- AUTH_FAILS -/,
  ⟨0x3000, 8, 0x16, 1, .u 8, .ro, 0, .none, 0, 18446744073709551615⟩ /- ERRORS_TX -/,
  ⟨0x3000, 8, 0x17, 1, .u 8, .ro, 0, .none, 0, 18446744073709551615⟩ /- ERRORS_RX -/,
  ⟨0x3000, 8, 0x18, 1, .u 8, .ro, 0, .none, 0, 18446744073709551615⟩ /- DB_REFUSED -/]

/-- Objects of the chapter numbered 08. -/
def rowsEpjor2 : List ObjRow := [
  ⟨0x3000, 8, 0x20, 16, .u 4, .rwb, 0, .tick, 0, 4294967295⟩ /- BIND0–BIND15 -/]

/-- Objects of the chapter numbered 09. -/
def rowsSwitch : List ObjRow := [
  ⟨0x3100, 1, 0x1, 1, .u 4, .rwb, 0, .boot, 0, 4294967295⟩ /- SELF_EP -/,
  ⟨0x3100, 1, 0x2, 1, .u 4, .rw, 0, .none, 0, 4294967295⟩ /- ROUTE_INDEX -/,
  ⟨0x3100, 1, 0x3, 1, .octets 1024, .rw, 0, .none, 0, 0⟩ /- ROUTE_BLOCK -/,
  ⟨0x3100, 1, 0x4, 1, .u 4, .ro, 0, .none, 0, 4294967295⟩ /- ROUTE_VALID -/,
  ⟨0x3100, 1, 0x5, 1, .u 8, .ro, 0, .none, 0, 18446744073709551615⟩ /- FORWARDED -/,
  ⟨0x3100, 1, 0x6, 1, .u 8, .ro, 0, .none, 0, 18446744073709551615⟩ /- UNREACH_COUNT -/,
  ⟨0x3100, 1, 0x7, 1, .u 8, .ro, 0, .none, 0, 18446744073709551615⟩ /- SLICE_REFUSED -/,
  ⟨0x3100, 1, 0x8, 1, .u 8, .ro, 0, .none, 0, 18446744073709551615⟩ /- ROUTE_MISSES -/,
  ⟨0x3100, 1, 0x9, 1, .u 8, .ro, 0, .none, 0, 18446744073709551615⟩ /- DISCARDED_POSTED -/,
  ⟨0x3200, 1, 0x1, 1, .u 4, .ro, 4096, .none, 0, 4294967295⟩ /- GROUPS_MAX -/,
  ⟨0x3200, 1, 0x2, 1, .u 4, .ro, 0, .none, 0, 4294967295⟩ /- GROUPS_ACTIVE -/,
  ⟨0x3200, 1, 0x3, 1, .u 4, .rwb, 1048576, .tick, 65536, 16777216⟩ /- SEG_BYTES -/,
  ⟨0x3200, 1, 0x4, 1, .u 4, .rwb, 1000, .tick, 1, 60000⟩ /- BARRIER_TIMEOUT -/,
  ⟨0x3200, 1, 0x5, 1, .u 8, .ro, 0, .none, 0, 18446744073709551615⟩ /- CALLS_DONE -/,
  ⟨0x3200, 1, 0x6, 1, .u 8, .ro, 0, .none, 0, 18446744073709551615⟩ /- CALLS_FAILED -/,
  ⟨0x3200, 1, 0x7, 1, .u 8, .ro, 0, .none, 0, 18446744073709551615⟩ /- BARRIERS -/,
  ⟨0x3200, 1, 0x8, 1, .u 8, .ro, 0, .none, 0, 18446744073709551615⟩ /- BARRIER_TIMEOUTS -/,
  ⟨0x3200, 1, 0x9, 1, .u 8, .ro, 0, .none, 0, 18446744073709551615⟩ /- STEPS -/,
  ⟨0x3200, 1, 0xA, 1, .u 8, .ro, 0, .none, 0, 18446744073709551615⟩ /- HELD -/,
  ⟨0x3200, 1, 0xB, 1, .u 8, .ro, 0, .none, 0, 18446744073709551615⟩ /- STAGE_USED -/]

/-- Objects of the chapter numbered 10. -/
def rowsScaleout1 : List ObjRow := [
  ⟨0x3400, 8, 0x1, 1, .bool, .rwb, 1, .tick, 0, 1⟩ /- ENABLE -/,
  ⟨0x3400, 8, 0x2, 1, .enum, .rwb, 0, .tick, 0, 2⟩ /- MODE -/,
  ⟨0x3400, 8, 0x3, 1, .enum, .rwb, 1, .tick, 0, 1⟩ /- MEDIA -/,
  ⟨0x3400, 8, 0x4, 1, .u 2, .rwb, 9216, .tick, 1518, 9216⟩ /- MAX_FRAME -/,
  ⟨0x3400, 8, 0x5, 1, .u 1, .ro, 0, .none, 0, 255⟩ /- LINK_UP -/,
  ⟨0x3400, 8, 0x6, 4, .octets 6, .rwb, 0, .tick, 0, 0⟩ /- NEXTHOP_MAC0–3 -/,
  ⟨0x3400, 8, 0x10, 13, .u 8, .ro, 0, .none, 0, 18446744073709551615⟩ /- port counters, subport 0 -/,
  ⟨0x3400, 8, 0x20, 13, .u 8, .ro, 0, .none, 0, 18446744073709551615⟩ /- port counters, subport 1 -/,
  ⟨0x3400, 8, 0x30, 13, .u 8, .ro, 0, .none, 0, 18446744073709551615⟩ /- port counters, subport 2 -/,
  ⟨0x3400, 8, 0x40, 13, .u 8, .ro, 0, .none, 0, 18446744073709551615⟩ /- port counters, subport 3 -/,
  ⟨0x3500, 1, 0x1, 1, .u 2, .rwb, 6940, .tick, 1, 65535⟩ /- UDP_PORT -/,
  ⟨0x3500, 1, 0x2, 1, .octets 16, .rwb, 0, .boot, 0, 0⟩ /- FABRIC_PREFIX -/,
  ⟨0x3500, 1, 0x3, 1, .u 2, .rwb, 0, .boot, 0, 65535⟩ /- FABRIC_VLAN -/,
  ⟨0x3500, 1, 0x4, 1, .octets 6, .ro, 0, .none, 0, 0⟩ /- MAC_BASE -/,
  ⟨0x3500, 1, 0x5, 1, .u 4, .ro, 131072, .none, 0, 4294967295⟩ /- CONNS_TOTAL -/,
  ⟨0x3500, 1, 0x6, 1, .u 4, .ro, 0, .none, 0, 4294967295⟩ /- CONNS_FREE -/,
  ⟨0x3500, 1, 0x7, 1, .u 4, .rwb, 8192, .boot, 1024, 32768⟩ /- TUNNEL_CONNS -/,
  ⟨0x3500, 1, 0x8, 1, .u 2, .rwb, 100, .tick, 1, 60000⟩ /- TUNNEL_IDLE -/,
  ⟨0x3500, 1, 0x9, 1, .u 2, .rw, 0, .none, 0, 1023⟩ /- ADDR_INDEX -/,
  ⟨0x3500, 1, 0xA, 1, .octets 32, .rw, 0, .packet, 0, 0⟩ /- ADDR_ENTRY -/,
  ⟨0x3500, 1, 0xB, 1, .u 4, .rwb, 50000, .tick, 1000, 1000000⟩ /- EXC_RATE -/,
  ⟨0x3500, 1, 0xC, 1, .u 2, .rwb, 1000, .tick, 1, 4096⟩ /- EXC_BURST -/,
  ⟨0x3500, 1, 0x10, 1, .u 8, .ro, 0, .none, 0, 18446744073709551615⟩ /- EXC_DROPPED -/,
  ⟨0x3500, 1, 0x11, 1, .u 8, .ro, 0, .none, 0, 18446744073709551615⟩ /- EXC_RING_FULL -/]

/-- Objects of the chapter numbered 10. -/
def rowsScaleout2 : List ObjRow := [
  ⟨0x3500, 1, 0x12, 1, .u 8, .ro, 0, .none, 0, 18446744073709551615⟩ /- STALE_INCARN -/,
  ⟨0x3500, 1, 0x13, 1, .u 8, .ro, 0, .none, 0, 18446744073709551615⟩ /- XP_MALFORMED -/,
  ⟨0x3500, 1, 0x14, 1, .u 8, .ro, 0, .none, 0, 18446744073709551615⟩ /- CHECKSUM_DROPS -/,
  ⟨0x3500, 1, 0x15, 1, .u 8, .ro, 0, .none, 0, 18446744073709551615⟩ /- WINDOW_DROPS -/,
  ⟨0x3500, 1, 0x16, 1, .u 8, .ro, 0, .none, 0, 18446744073709551615⟩ /- RETRANSMITS -/,
  ⟨0x3500, 1, 0x17, 1, .u 8, .ro, 0, .none, 0, 18446744073709551615⟩ /- TIMEOUTS -/,
  ⟨0x3500, 1, 0x18, 1, .u 8, .ro, 0, .none, 0, 18446744073709551615⟩ /- WRAP_STALLS -/,
  ⟨0x3500, 1, 0x19, 1, .u 8, .ro, 0, .none, 0, 18446744073709551615⟩ /- RATE_DECREASES -/,
  ⟨0x3500, 1, 0x1A, 1, .u 8, .ro, 0, .none, 0, 18446744073709551615⟩ /- RNR_DROPS -/,
  ⟨0x3500, 1, 0x1B, 1, .u 8, .ro, 0, .none, 0, 18446744073709551615⟩ /- AUTH_FAILS -/,
  ⟨0x3500, 1, 0x1C, 1, .u 8, .ro, 0, .none, 0, 18446744073709551615⟩ /- CONN_ERRORS -/,
  ⟨0x3510, 16, 0x1, 1, .u 4, .rwb, 100000, .tick, 0, 4294967295⟩ /- RATE_INIT -/,
  ⟨0x3510, 16, 0x2, 1, .u 4, .rwb, 100, .tick, 10, 4294967295⟩ /- RATE_MIN -/,
  ⟨0x3510, 16, 0x3, 1, .u 4, .rwb, 400000, .tick, 0, 400000⟩ /- RATE_MAX -/,
  ⟨0x3510, 16, 0x4, 1, .u 1, .rwb, 64, .tick, 1, 255⟩ /- MD -/,
  ⟨0x3510, 16, 0x5, 1, .u 2, .rwb, 50, .tick, 0, 65535⟩ /- MD_INTERVAL -/,
  ⟨0x3510, 16, 0x6, 1, .u 4, .rwb, 1000, .tick, 0, 4294967295⟩ /- AI_STEP -/,
  ⟨0x3510, 16, 0x7, 1, .u 2, .rwb, 50, .tick, 0, 65535⟩ /- AI_INTERVAL -/,
  ⟨0x3510, 16, 0x8, 1, .u 4, .rwb, 200, .tick, 10, 1000000⟩ /- RTO -/,
  ⟨0x3510, 16, 0x9, 1, .u 1, .rwb, 7, .tick, 1, 15⟩ /- RETRY_LIMIT -/,
  ⟨0x3510, 16, 0xA, 1, .u 2, .rwb, 8, .tick, 1, 1000⟩ /- REORDER_US -/,
  ⟨0x3510, 16, 0xB, 1, .u 1, .rwb, 4, .tick, 0, 31⟩ /- SPRAY_SHIFT -/,
  ⟨0x3510, 16, 0xC, 1, .u 4, .rwb, 65536, .tick, 256, 65536⟩ /- WINDOW -/,
  ⟨0x3510, 16, 0xD, 1, .u 1, .rwb, 8, .tick, 1, 64⟩ /- ACK_EVERY -/]

/-- Objects of the chapter numbered 10. -/
def rowsScaleout3 : List ObjRow := [
  ⟨0x3510, 16, 0xE, 1, .u 2, .rwb, 4, .tick, 1, 1000⟩ /- ACK_DELAY -/,
  ⟨0x3510, 16, 0xF, 1, .u 1, .rwb, 0, .tick, 0, 63⟩ /- DSCP -/,
  ⟨0x3510, 16, 0x10, 1, .u 2, .rwb, 0, .tick, 0, 2047⟩ /- TXQ -/,
  ⟨0x3600, 1, 0x1, 1, .u 4, .ro, 8192, .none, 0, 4294967295⟩ /- CLS_ENTRIES -/,
  ⟨0x3600, 1, 0x2, 1, .u 2, .rwb, 256, .boot, 0, 8192⟩ /- OP_ENTRIES -/,
  ⟨0x3600, 1, 0x3, 1, .octets 140, .wo, 0, .packet, 0, 0⟩ /- CLS_WRITE -/,
  ⟨0x3600, 1, 0x4, 1, .u 4, .wo, 0, .packet, 0, 4294967295⟩ /- CLS_VALID -/,
  ⟨0x3600, 1, 0x5, 1, .u 2, .rw, 0, .none, 0, 65535⟩ /- CLS_READ_INDEX -/,
  ⟨0x3600, 1, 0x6, 1, .octets 148, .ro, 0, .none, 0, 0⟩ /- CLS_READ -/,
  ⟨0x3600, 1, 0x7, 1, .u 8, .ro, 0, .none, 0, 18446744073709551615⟩ /- CLS_MISSES -/]

/-- Objects of the chapter numbered 11. -/
def rowsSched : List ObjRow := [
  ⟨0x3700, 1, 0x1, 1, .u 4, .rw, 0, .none, 0, 4294967295⟩ /- Q_SELECT -/,
  ⟨0x3700, 1, 0x2, 1, .octets 32, .rwb, 0, .tick, 0, 0⟩ /- Q_CONFIG -/,
  ⟨0x3700, 1, 0x3, 1, .octets 64, .ro, 0, .none, 0, 0⟩ /- Q_STATS -/,
  ⟨0x3700, 1, 0x4, 1, .u 2, .rw, 0, .none, 0, 65535⟩ /- SS_SELECT -/,
  ⟨0x3700, 1, 0x5, 1, .octets 16, .rwb, 0, .tick, 0, 0⟩ /- SS_CONFIG -/,
  ⟨0x3700, 1, 0x6, 1, .octets 16, .ro, 0, .none, 0, 0⟩ /- SS_STATE -/,
  ⟨0x3700, 1, 0x7, 1, .u 2, .rwb, 1000, .tick, 1, 60000⟩ /- SAMPLE_WINDOW -/,
  ⟨0x3710, 8, 0x1, 1, .i32, .rwb, 20, .tick, 0, 4294967295⟩ /- OVERHEAD -/,
  ⟨0x3710, 8, 0x2, 1, .u 4, .ro, 0, .none, 0, 4294967295⟩ /- LINK_LIMIT -/,
  ⟨0x3710, 8, 0x3, 1, .u 4, .ro, 65536, .none, 0, 4294967295⟩ /- GUAR_FACTOR -/,
  ⟨0x3710, 8, 0x4, 1, .u 4, .ro, 5000, .none, 0, 4294967295⟩ /- GUAR_SUM0 -/,
  ⟨0x3710, 8, 0x5, 1, .u 4, .ro, 0, .none, 0, 4294967295⟩ /- GUAR_SUM1 -/,
  ⟨0x3710, 8, 0x6, 1, .u 8, .ro, 0, .none, 0, 18446744073709551615⟩ /- SCALE_EVENTS -/,
  ⟨0x3800, 1, 0x1, 1, .u 2, .rw, 0, .none, 0, 4094⟩ /- POL_SELECT -/,
  ⟨0x3800, 1, 0x2, 1, .octets 32, .rwb, 0, .tick, 0, 0⟩ /- POL_CONFIG -/,
  ⟨0x3800, 1, 0x3, 1, .octets 48, .ro, 0, .none, 0, 0⟩ /- POL_STATS -/,
  ⟨0x3800, 1, 0x4, 1, .octets 16, .rwb, 0, .tick, 0, 0⟩ /- COLOUR_MAP -/]

/-- Objects of the chapter numbered 12. -/
def rowsCkpt : List ObjRow := [
  ⟨0x5000, 1, 0x1, 1, .octets 16, .wo, 0, .none, 0, 0⟩ /- NOTICE -/,
  ⟨0x5000, 1, 0x2, 1, .u 4, .rwb, 12000, .tick, 1000, 24000⟩ /- DRAIN_RATE -/,
  ⟨0x5000, 1, 0x3, 1, .u 1, .rwb, 2, .tick, 1, 15⟩ /- COPY_CLASS -/,
  ⟨0x5000, 1, 0x4, 1, .octets 8, .wo, 0, .none, 0, 0⟩ /- RELEASE_JOB -/,
  ⟨0x5000, 1, 0x5, 1, .u 2, .rw, 0, .none, 0, 65535⟩ /- JOB_SELECT -/,
  ⟨0x5000, 1, 0x6, 1, .octets 64, .ro, 0, .none, 0, 0⟩ /- JOB_STATUS -/,
  ⟨0x5000, 1, 0x7, 1, .u 8, .ro, 0, .none, 0, 18446744073709551615⟩ /- CUTS -/,
  ⟨0x5000, 1, 0x8, 1, .u 8, .ro, 0, .none, 0, 18446744073709551615⟩ /- COMMITS -/,
  ⟨0x5000, 1, 0x9, 1, .u 8, .ro, 0, .none, 0, 18446744073709551615⟩ /- ABANDONED -/,
  ⟨0x5000, 1, 0xA, 1, .u 8, .ro, 0, .none, 0, 18446744073709551615⟩ /- CKPT_WAITS -/,
  ⟨0x5000, 1, 0xB, 1, .u 8, .ro, 0, .none, 0, 18446744073709551615⟩ /- DIGEST_FAILS -/,
  ⟨0x5000, 1, 0xC, 1, .u 8, .ro, 0, .none, 0, 18446744073709551615⟩ /- STAGING_USED -/,
  ⟨0x5100, 1, 0x1, 1, .u 2, .rwb, 10, .tick, 1, 1000⟩ /- HEARTBEAT_MS -/,
  ⟨0x5100, 1, 0x2, 1, .u 2, .rwb, 200, .tick, 20, 60000⟩ /- FAIL_MS -/,
  ⟨0x5100, 1, 0x3, 1, .u 2, .rwb, 50, .tick, 10, 10000⟩ /- CENSUS_QUIET_MS -/,
  ⟨0x5100, 1, 0x4, 1, .octets 32, .ro, 0, .none, 0, 0⟩ /- CENSUS -/,
  ⟨0x5100, 1, 0x5, 1, .u 2, .wo, 0, .none, 0, 65535⟩ /- UNFENCE -/,
  ⟨0x5100, 1, 0x6, 1, .u 4, .rw, 0, .none, 0, 4294967295⟩ /- MISSING_INDEX -/,
  ⟨0x5100, 1, 0x7, 1, .octets 1024, .ro, 0, .none, 0, 0⟩ /- MISSING_LIST -/,
  ⟨0x5100, 1, 0x8, 1, .u 8, .ro, 0, .none, 0, 18446744073709551615⟩ /- INCIDENTS -/,
  ⟨0x5100, 1, 0x9, 1, .u 8, .ro, 0, .none, 0, 18446744073709551615⟩ /- FENCES -/,
  ⟨0x5200, 1, 0x1, 1, .u 2, .rw, 0, .none, 0, 65535⟩ /- MAN_SELECT -/,
  ⟨0x5200, 1, 0x2, 1, .octets 64, .ro, 0, .none, 0, 0⟩ /- MAN_HEADER -/]

/-- Objects of the chapter numbered 13. -/
def rowsFlash1 : List ObjRow := [
  ⟨0x6000, 1, 0x1, 1, .u 8, .ro, 70368744177664, .none, 0, 18446744073709551615⟩ /- RAW_BYTES -/,
  ⟨0x6000, 1, 0x2, 1, .u 8, .ro, 52776558133248, .none, 0, 18446744073709551615⟩ /- USABLE_BYTES -/,
  ⟨0x6000, 1, 0x3, 1, .enum, .ro, 0, .none, 0, 4⟩ /- TIER_STATE -/,
  ⟨0x6000, 1, 0x4, 1, .u 8, .rwb, 13194139533312, .switch, 0, 18446744073709551615⟩ /- KV_SPACE -/,
  ⟨0x6000, 1, 0x5, 1, .u 8, .rwb, 13194139533312, .switch, 0, 18446744073709551615⟩ /- CKPT_SPACE -/,
  ⟨0x6000, 1, 0x6, 1, .u 8, .ro, 26388279066624, .none, 0, 18446744073709551615⟩ /- VOL_SPACE -/,
  ⟨0x6000, 1, 0x7, 1, .u 8, .ro, 0, .none, 0, 18446744073709551615⟩ /- BUF_USED -/,
  ⟨0x6000, 1, 0x8, 1, .u 4, .ro, 0, .none, 0, 4294967295⟩ /- SPARE_BLOCKS -/,
  ⟨0x6000, 1, 0x9, 1, .u 1, .rwb, 20, .tick, 5, 50⟩ /- GC_LOW -/,
  ⟨0x6000, 1, 0xA, 1, .u 2, .rwb, 200, .tick, 50, 2000⟩ /- WL_SPREAD -/,
  ⟨0x6000, 1, 0xB, 1, .u 1, .rwb, 24, .tick, 1, 168⟩ /- COLSCAN_HOURS -/,
  ⟨0x6000, 1, 0xC, 1, .u 4, .ro, 3000, .none, 0, 4294967295⟩ /- PE_LIMIT -/,
  ⟨0x6000, 1, 0xD, 1, .u 4, .ro, 0, .none, 0, 4294967295⟩ /- PE_MAX -/,
  ⟨0x6000, 1, 0xE, 1, .u 4, .ro, 0, .none, 0, 4294967295⟩ /- MOUNT_MS -/,
  ⟨0x6000, 1, 0x10, 1, .u 8, .ro, 0, .none, 0, 18446744073709551615⟩ /- HOST_WRITE_BYTES -/,
  ⟨0x6000, 1, 0x11, 1, .u 8, .ro, 0, .none, 0, 18446744073709551615⟩ /- MEDIA_WRITE_BYTES -/,
  ⟨0x6000, 1, 0x12, 1, .u 8, .ro, 0, .none, 0, 18446744073709551615⟩ /- READ_BYTES -/,
  ⟨0x6000, 1, 0x13, 1, .u 8, .ro, 0, .none, 0, 18446744073709551615⟩ /- ECC_CORRECTED -/,
  ⟨0x6000, 1, 0x14, 1, .u 8, .ro, 0, .none, 0, 18446744073709551615⟩ /- UNCORRECTABLE -/,
  ⟨0x6000, 1, 0x15, 1, .u 8, .ro, 0, .none, 0, 18446744073709551615⟩ /- ERASE_SUSPENDS -/,
  ⟨0x6000, 1, 0x16, 1, .u 8, .ro, 0, .none, 0, 18446744073709551615⟩ /- ERASE_OPEN_FOUND -/,
  ⟨0x6000, 1, 0x17, 1, .u 4, .ro, 0, .none, 0, 4294967295⟩ /- COLUMNS_SKIPPED -/,
  ⟨0x6000, 1, 0x18, 1, .u 4, .ro, 0, .none, 0, 4294967295⟩ /- BLOCKS_RETIRED -/,
  ⟨0x6000, 1, 0x19, 1, .u 8, .ro, 0, .none, 0, 18446744073709551615⟩ /- ORPHANS_DISCARDED -/]

/-- Objects of the chapter numbered 13. -/
def rowsFlash2 : List ObjRow := [
  ⟨0x6000, 1, 0x1A, 1, .u 8, .ro, 0, .none, 0, 18446744073709551615⟩ /- READ_DISTURB_RELOC -/,
  ⟨0x6000, 1, 0x1B, 1, .u 8, .ro, 0, .none, 0, 18446744073709551615⟩ /- FLUSHES -/,
  ⟨0x6000, 1, 0x1C, 1, .u 8, .ro, 0, .none, 0, 18446744073709551615⟩ /- MAP_REBUILDS -/,
  ⟨0x6100, 1, 0x1, 1, .u 2, .rw, 0, .none, 0, 1023⟩ /- VOL_SELECT -/,
  ⟨0x6100, 1, 0x2, 1, .octets 16, .rwb, 0, .tick, 0, 0⟩ /- VOL_CONFIG -/,
  ⟨0x6100, 1, 0x3, 1, .octets 32, .ro, 0, .none, 0, 0⟩ /- VOL_STATE -/,
  ⟨0x6100, 1, 0x4, 1, .u 2, .ro, 0, .none, 0, 65535⟩ /- VOLS_VALID -/]

/-- Objects of the chapter numbered 14. -/
def rowsSlices : List ObjRow := [
  ⟨0xA000, 1, 0x1, 1, .u 2, .ro, 512, .none, 0, 65535⟩ /- SLICES_MAX -/,
  ⟨0xA000, 1, 0x2, 1, .u 2, .ro, 0, .none, 0, 65535⟩ /- SLICES_ACTIVE -/,
  ⟨0xA000, 1, 0x3, 1, .u 8, .ro, 790273982464, .none, 0, 18446744073709551615⟩ /- FREE_MEM -/,
  ⟨0xA000, 1, 0x4, 1, .u 2, .ro, 14336, .none, 0, 65535⟩ /- FREE_QUEUES -/,
  ⟨0xA000, 1, 0x5, 1, .u 4, .ro, 0, .none, 0, 4294967295⟩ /- FREE_CONNS -/,
  ⟨0xA000, 1, 0x6, 1, .u 4, .ro, 262144, .none, 0, 4294967295⟩ /- FREE_HANDLES -/,
  ⟨0xA000, 1, 0x7, 1, .u 2, .ro, 4096, .none, 0, 65535⟩ /- FREE_KEYS -/,
  ⟨0xA000, 1, 0x8, 1, .u 2, .ro, 2016, .none, 0, 65535⟩ /- FREE_MSIX -/,
  ⟨0xA000, 1, 0x9, 1, .u 2, .ro, 0, .none, 0, 65535⟩ /- FREE_CLS -/,
  ⟨0xA000, 1, 0xA, 1, .octets 16, .ro, 0, .none, 0, 0⟩ /- ISLAND_FREE -/,
  ⟨0xA000, 1, 0xB, 1, .u 2, .rwb, 100, .tick, 10, 10000⟩ /- L1_IDLE_US -/,
  ⟨0xA000, 1, 0xC, 1, .u 4, .ro, 0, .none, 0, 4294967295⟩ /- LINK_STATUS -/,
  ⟨0xA000, 1, 0xD, 1, .u 8, .ro, 0, .none, 0, 18446744073709551615⟩ /- CHAN_MERGED -/,
  ⟨0xA100, 512, 0x1, 1, .enum, .ro, 0, .none, 0, 5⟩ /- STATE -/,
  ⟨0xA100, 512, 0x2, 1, .octets 128, .ro, 0, .none, 0, 0⟩ /- QUOTA -/,
  ⟨0xA100, 512, 0x3, 1, .u 8, .ro, 0, .none, 0, 18446744073709551615⟩ /- MEM_MAPPED -/,
  ⟨0xA100, 512, 0x4, 1, .u 2, .ro, 0, .none, 0, 65535⟩ /- QUEUES_USED -/,
  ⟨0xA100, 512, 0x5, 1, .u 8, .ro, 0, .none, 0, 18446744073709551615⟩ /- DROPPED_RX -/,
  ⟨0xA100, 512, 0x6, 1, .u 8, .ro, 0, .none, 0, 18446744073709551615⟩ /- DB_DROPPED -/]

/-- Objects of the chapter numbered 15. -/
def rowsCompart1 : List ObjRow := [
  ⟨0x7000, 1, 0x1, 1, .u 8, .bl, 0, .none, 0, 18446744073709551615⟩ /- COMP_ID -/,
  ⟨0x7000, 1, 0x2, 1, .str 32, .bl, 0, .none, 0, 0⟩ /- COMP_NAME -/,
  ⟨0x7000, 1, 0x3, 1, .octets 8, .bl, 0, .none, 0, 0⟩ /- CKV -/,
  ⟨0x7000, 1, 0x4, 1, .u 4, .bl, 0, .none, 0, 4294967295⟩ /- MEDIA_EPOCH -/,
  ⟨0x7000, 1, 0x5, 1, .u 8, .bl, 0, .none, 0, 18446744073709551615⟩ /- ENTERED_TICK -/,
  ⟨0x7000, 1, 0x6, 1, .bool, .ro, 0, .none, 0, 1⟩ /- LATCH -/,
  ⟨0x7100, 1, 0x1, 1, .enum, .bl, 0, .none, 0, 1⟩ /- DRS_STATE -/,
  ⟨0x7100, 1, 0x2, 1, .octets 8, .bl, 0, .none, 0, 0⟩ /- OPK_ID -/,
  ⟨0x7100, 1, 0x3, 1, .bool, .bl, 0, .none, 0, 1⟩ /- CS_PRESENT -/,
  ⟨0x7100, 1, 0x4, 1, .bool, .bl, 0, .none, 0, 1⟩ /- MK_PRESENT -/,
  ⟨0x7100, 1, 0x5, 1, .enum, .ro, 0, .none, 0, 1⟩ /- RNG_STATE -/,
  ⟨0x7100, 1, 0x6, 1, .u 2, .ro, 0, .none, 0, 65535⟩ /- SLOTS_ACTIVE -/,
  ⟨0x7100, 1, 0x7, 1, .u 8, .ro, 0, .none, 0, 18446744073709551615⟩ /- KEY_WARNINGS -/,
  ⟨0x7100, 1, 0x8, 1, .u 8, .ro, 0, .none, 0, 18446744073709551615⟩ /- KEY_EXHAUSTIONS -/,
  ⟨0x7200, 1, 0x1, 1, .u 1, .wo, 0, .tick, 0, 255⟩ /- SWITCH_REQUEST -/,
  ⟨0x7200, 1, 0x2, 1, .octets 68, .wo, 0, .none, 0, 0⟩ /- NEXT_SECRET -/,
  ⟨0x7200, 1, 0x3, 1, .u 8, .ro, 0, .none, 0, 18446744073709551615⟩ /- NEXT_COMP_ID -/,
  ⟨0x7200, 1, 0x4, 1, .octets 8, .ro, 0, .none, 0, 0⟩ /- NEXT_CKV -/,
  ⟨0x7200, 1, 0x5, 1, .str 32, .rw, 0, .none, 0, 0⟩ /- NEXT_NAME -/,
  ⟨0x7200, 1, 0x6, 1, .octets 76, .wo, 0, .boot, 0, 0⟩ /- NEXT_OPK -/,
  ⟨0x7200, 1, 0x7, 1, .enum, .ro, 0, .none, 0, 3⟩ /- SWITCH_STATUS -/,
  ⟨0x7200, 1, 0x8, 1, .u 1, .ro, 0, .none, 0, 255⟩ /- SWITCH_STAGE -/,
  ⟨0x7200, 1, 0x9, 1, .octets 24, .ro, 0, .none, 0, 0⟩ /- SWITCH_TIMES -/,
  ⟨0x7200, 1, 0xA, 1, .u 8, .ro, 0, .none, 0, 18446744073709551615⟩ /- SWITCHES -/]

/-- Objects of the chapter numbered 15. -/
def rowsCompart2 : List ObjRow := [
  ⟨0x7200, 1, 0xB, 1, .u 8, .ro, 0, .none, 0, 18446744073709551615⟩ /- SWITCH_OVERRUNS -/]

/-- Objects of the chapter numbered 16. -/
def rowsFirmware1 : List ObjRow := [
  ⟨0xB000, 1, 0x1, 1, .u 1, .wo, 0, .none, 0, 255⟩ /- STAGE_CMD -/,
  ⟨0xB000, 1, 0x2, 1, .u 4, .rw, 0, .none, 0, 4294967295⟩ /- STAGE_OFFSET -/,
  ⟨0xB000, 1, 0x3, 1, .octets 1024, .wo, 0, .none, 0, 0⟩ /- STAGE_DATA -/,
  ⟨0xB000, 1, 0x4, 1, .enum, .ro, 0, .none, 0, 5⟩ /- STAGE_STATE -/,
  ⟨0xB000, 1, 0x5, 1, .u 1, .ro, 0, .none, 0, 255⟩ /- STAGE_RESULT -/,
  ⟨0xB010, 1, 0x1, 1, .enum, .ro, 0, .none, 0, 1⟩ /- BOOTED_BANK -/,
  ⟨0xB010, 1, 0x2, 1, .enum, .ro, 0, .none, 0, 1⟩ /- PREFERRED -/,
  ⟨0xB010, 1, 0x3, 1, .enum, .ro, 0, .none, 0, 2⟩ /- PENDING -/,
  ⟨0xB010, 1, 0x4, 1, .enum, .ro, 0, .none, 0, 3⟩ /- BANK_A_STATE -/,
  ⟨0xB010, 1, 0x5, 1, .enum, .ro, 0, .none, 0, 3⟩ /- BANK_B_STATE -/,
  ⟨0xB010, 1, 0x6, 1, .u 8, .ro, 0, .none, 0, 18446744073709551615⟩ /- BANK_A_VERSION -/,
  ⟨0xB010, 1, 0x7, 1, .u 8, .ro, 0, .none, 0, 18446744073709551615⟩ /- BANK_B_VERSION -/,
  ⟨0xB010, 1, 0x8, 1, .u 1, .ro, 0, .none, 0, 255⟩ /- SVN_MIN -/,
  ⟨0xB010, 1, 0x9, 1, .u 1, .wo, 0, .none, 0, 255⟩ /- SVN_ADVANCE -/,
  ⟨0xB020, 1, 0x1, 1, .u 2, .ro, 0, .none, 0, 65535⟩ /- ROM_VERSION -/,
  ⟨0xB020, 1, 0x2, 1, .enum, .ro, 0, .none, 0, 7⟩ /- BOOT_PHASE -/,
  ⟨0xB020, 1, 0x3, 1, .u 1, .ro, 0, .none, 0, 255⟩ /- RESULT_A -/,
  ⟨0xB020, 1, 0x4, 1, .u 1, .ro, 0, .none, 0, 255⟩ /- RESULT_B -/,
  ⟨0xB020, 1, 0x5, 1, .u 4, .ro, 0, .none, 0, 4294967295⟩ /- BOOT_MS -/,
  ⟨0xB020, 1, 0x6, 1, .u 4, .ro, 0, .none, 0, 4294967295⟩ /- BOOTS -/,
  ⟨0xB030, 1, 0x1, 1, .octets 32, .wo, 0, .none, 0, 0⟩ /- FIRST_OPK_LO -/,
  ⟨0xB030, 1, 0x2, 1, .octets 16, .wo, 0, .none, 0, 0⟩ /- FIRST_OPK_HI -/,
  ⟨0xB030, 1, 0x3, 1, .octets 8, .wo, 0, .none, 0, 0⟩ /- FIRST_OPK_COMMIT -/,
  ⟨0xB040, 1, 0x1, 1, .u 8, .ro, 0, .none, 0, 18446744073709551615⟩ /- OVERLOAD_TICKS -/]

/-- Objects of the chapter numbered 16. -/
def rowsFirmware2 : List ObjRow := [
  ⟨0xB041, 6, 0x1, 1, .u 8, .ro, 0, .none, 0, 18446744073709551615⟩ /- LATE -/,
  ⟨0xB041, 6, 0x2, 1, .u 8, .ro, 0, .none, 0, 18446744073709551615⟩ /- DROPPED -/,
  ⟨0xB041, 6, 0x3, 1, .u 4, .ro, 0, .none, 0, 4294967295⟩ /- MAX_LATE_US -/,
  ⟨0xB041, 6, 0x4, 1, .u 2, .ro, 0, .none, 0, 65535⟩ /- SHARE -/]

/-- Objects of the chapter numbered 17. -/
def rowsPower : List ObjRow := [
  ⟨0x8000, 1, 0x1, 1, .u 2, .rwb, 2600, .tick, 600, 2600⟩ /- CAP -/,
  ⟨0x8000, 1, 0x2, 1, .u 4, .ro, 0, .none, 0, 4294967295⟩ /- POWER -/,
  ⟨0x8000, 1, 0x3, 1, .octets 16, .ro, 0, .none, 0, 0⟩ /- CLASS_POWER -/,
  ⟨0x8000, 1, 0x4, 1, .enum, .ro, 0, .none, 0, 5⟩ /- CAP_STATE -/,
  ⟨0x8000, 1, 0x5, 1, .u 1, .ro, 16, .none, 0, 255⟩ /- TI_DUTY -/,
  ⟨0x8000, 1, 0x6, 1, .u 1, .ro, 16, .none, 0, 255⟩ /- MEM_LIMIT -/,
  ⟨0x8000, 1, 0x7, 1, .u 2, .rwb, 2000, .tick, 600, 2300⟩ /- TI_CLK_CEILING -/,
  ⟨0x8000, 1, 0x8, 1, .u 4, .ro, 0, .none, 0, 4294967295⟩ /- INPUT_MV -/,
  ⟨0x8000, 1, 0x9, 1, .u 8, .ro, 0, .none, 0, 18446744073709551615⟩ /- CAP_UNMET_TICKS -/,
  ⟨0x8000, 1, 0xA, 1, .u 8, .ro, 0, .none, 0, 18446744073709551615⟩ /- GUARD_ACTIONS -/,
  ⟨0x8000, 1, 0xB, 1, .u 8, .ro, 0, .none, 0, 18446744073709551615⟩ /- RAIL_FAILS -/,
  ⟨0x8100, 1, 0x1, 1, .enum, .rwb, 0, .tick, 0, 5⟩ /- ORDER -/,
  ⟨0x8200, 1, 0x1, 1, .u 1, .ro, 105, .none, 0, 255⟩ /- THROTTLE_C -/,
  ⟨0x8200, 1, 0x2, 1, .u 1, .ro, 125, .none, 0, 255⟩ /- TRIP_C -/,
  ⟨0x8200, 1, 0x3, 1, .u 4, .ro, 0, .none, 0, 4294967295⟩ /- THROTTLED -/,
  ⟨0x8200, 1, 0x4, 1, .i32, .ro, 0, .none, 0, 4294967295⟩ /- TJ_HOTTEST -/,
  ⟨0x8200, 1, 0x5, 1, .u 1, .ro, 0, .none, 0, 255⟩ /- ALERT_CAUSE -/,
  ⟨0x8210, 26, 0x1, 1, .i32, .ro, 0, .none, 0, 4294967295⟩ /- TJ -/,
  ⟨0x8210, 26, 0x2, 1, .i32, .ro, 0, .none, 0, 4294967295⟩ /- TJ_PEAK -/,
  ⟨0x8210, 26, 0x3, 1, .u 8, .ro, 0, .none, 0, 18446744073709551615⟩ /- THROTTLE_EVENTS -/,
  ⟨0x8210, 26, 0x4, 1, .u 8, .ro, 0, .none, 0, 18446744073709551615⟩ /- THROTTLE_US -/]

/-- Objects of the chapter numbered 18. -/
def rowsTelemetry : List ObjRow := [
  ⟨0x9000, 1, 0x1, 1, .u 2, .rw, 0, .none, 0, 65535⟩ /- CTR_SELECT -/,
  ⟨0x9000, 1, 0x2, 1, .octets 512, .ro, 0, .none, 0, 0⟩ /- CTR_BLOCK -/,
  ⟨0x9000, 1, 0x3, 1, .u 8, .ro, 0, .none, 0, 18446744073709551615⟩ /- TALLIES -/,
  ⟨0x9000, 1, 0x4, 1, .u 8, .ro, 0, .none, 0, 18446744073709551615⟩ /- TALLY_BAD -/,
  ⟨0x9100, 1, 0x1, 1, .u 2, .rwb, 60, .interval, 1, 1080⟩ /- INTERVAL_MIN -/,
  ⟨0x9100, 1, 0x2, 1, .bool, .rw, 0, .none, 0, 1⟩ /- FREEZE -/,
  ⟨0x9100, 1, 0x3, 1, .u 2, .rwb, 60, .tick, 1, 1440⟩ /- FREEZE_MAX_MIN -/,
  ⟨0x9100, 1, 0x4, 1, .u 2, .ro, 0, .none, 0, 65535⟩ /- REC_COUNT -/,
  ⟨0x9100, 1, 0x5, 1, .u 4, .ro, 0, .none, 0, 4294967295⟩ /- NEXT_SEQ -/,
  ⟨0x9100, 1, 0x6, 1, .u 4, .rw, 0, .none, 0, 4294967295⟩ /- REC_SELECT -/,
  ⟨0x9100, 1, 0x7, 4, .octets 1024, .ro, 0, .none, 0, 0⟩ /- REC_DATA0–3 -/,
  ⟨0x9100, 1, 0xB, 1, .u 1, .wo, 0, .none, 0, 255⟩ /- LOG_CLEAR -/,
  ⟨0x9100, 1, 0xC, 1, .u 8, .ro, 0, .none, 0, 18446744073709551615⟩ /- SKIPPED -/,
  ⟨0x9100, 1, 0xD, 1, .u 8, .ro, 0, .none, 0, 18446744073709551615⟩ /- MERGES -/,
  ⟨0x9100, 1, 0xE, 1, .u 8, .ro, 0, .none, 0, 18446744073709551615⟩ /- LOST_INTERVALS -/,
  ⟨0x9200, 1, 0x1, 1, .u 4, .ro, 0, .none, 0, 4294967295⟩ /- POWER_W -/,
  ⟨0x9200, 1, 0x2, 1, .u 1, .ro, 0, .none, 0, 255⟩ /- TJ_C -/,
  ⟨0x9200, 1, 0x3, 1, .u 1, .ro, 50, .none, 0, 255⟩ /- POWER_STEP_W -/,
  ⟨0x9200, 1, 0x4, 1, .u 1, .ro, 5, .none, 0, 255⟩ /- TEMP_STEP_C -/,
  ⟨0x9200, 1, 0x5, 1, .u 1, .ro, 10, .none, 0, 255⟩ /- SLICE_LATCH_US -/]

/-- Every object of the dictionary. -/
def objRows : List ObjRow :=
  rowsIslands ++ rowsIdentity1 ++ rowsIdentity2 ++ rowsTensor ++ rowsMemory1 ++ rowsMemory2 ++ rowsKernels ++ rowsEpjor1 ++ rowsEpjor2 ++ rowsSwitch ++ rowsScaleout1 ++ rowsScaleout2 ++ rowsScaleout3 ++ rowsSched ++ rowsCkpt ++ rowsFlash1 ++ rowsFlash2 ++ rowsSlices ++ rowsCompart1 ++ rowsCompart2 ++ rowsFirmware1 ++ rowsFirmware2 ++ rowsPower ++ rowsTelemetry

end Sys2Proof.Machine
end

