-- ==== Sys2Proof/Machine/StateModule.lean ====
section
/-!
DEFINITION. The state of the module and its frame: input power and sideband pins (chapter 19),
islands, straits and the Control Strait, service state (chapter 1), and the control surfaces:
object dictionary, mailbox, I3C target and wide mailboxes (chapter 2).
-/
namespace Sys2Proof.Machine

/-! ### Islands (Tables 1-1, 1-2) -/

/-- Kind of island n: 0 TI, 1 MI, 2 SWI, 3 NI, 4 HI, 5 FI, 6 MGI (Table 1-2). -/
def islandKind (n : Nat) : Nat :=
  if n < 16 then 0 else if n < 20 then 1 else if n = 20 then 2 else if n < 23 then 3
  else if n = 23 then 4 else if n = 24 then 5 else 6

/-- Nominal clock, least and greatest clock of island n in MHz (Table 1-1). -/
def islandClock (n : Nat) : Nat × Nat × Nat :=
  match islandKind n with
  | 0 => (2000, 600, 2300)
  | 1 => (1600, 1000, 1600)
  | 2 => (2000, 1000, 2000)
  | 3 => (1600, 1200, 1600)
  | 4 => (1000, 1000, 1000)
  | 5 => (1000, 500, 1000)
  | _ => (1200, 1200, 1200)

/-- Service states in the order of object `1020` (R5). -/
inductive Service
  | boot | bringup | normal | test | recovery | switching
deriving DecidableEq, Repr, Inhabited

/-- Island states in the order of `ISTATE` (Table 1-2). -/
inductive IState
  | off | selftest | ready | failed | resetting
deriving DecidableEq, Repr, Inhabited

/-- Module input power, sideband pins and cables (R532–R544). -/
structure Pins where
  bias    : Bool          -- sideband bias: VIN above 20 V
  regs    : Bool          -- regulators on
  rails   : Bool          -- every internal rail in tolerance
  pwrOk   : Bool          -- PWR_OK high
  perst   : Bool          -- PERST_N high
  inReset : Bool          -- a module reset has started and PERST_N is not yet released
  thermtrip : Bool        -- THERMTRIP_N held low by its latch
  ref100  : Bool          -- REFCLK100 present
  ref156  : Bool          -- REFCLK156 present
  cables  : Nat           -- bit k: a cable is fitted at CCk
deriving DecidableEq, Repr, Inhabited

/-- One island (Table 1-2, R11, R36–R38, R514). -/
structure Island where
  ready   : Bool          -- readiness bit
  istate  : IState
  code    : Nat           -- SELFTEST_CODE, 32 bits
  resets  : Nat           -- RESET_COUNT, 32 bits, saturating
  risen   : Bool          -- has raised readiness since its last reset
  clk     : Nat           -- power controller's clock setting, MHz
  ceiling : Nat           -- thermal ceiling, MHz
  onTime  : Nat           -- thermal on-time in sixteenths
  throttled : Bool
  tj      : Int           -- last temperature, hundredths of °C
  tjShown : Int           -- `TJ` as of the last tick
  peak    : Int           -- TJ_PEAK
  inRem   : Nat           -- bytes moved that STREAM_IN and STREAM_OUT, in units of 256, do not count yet
  outRem  : Nat
deriving DecidableEq, Repr, Inhabited

/-- What a read of an island descriptor returns: its values as of the last management tick (R13). -/
structure IslandView where
  ready   : Bool          -- READY
  istate  : IState        -- ISTATE
  straits : Nat           -- STRAITS_UP
  resets  : Nat           -- RESET_COUNT
  code    : Nat           -- SELFTEST_CODE
  clk     : Nat           -- CLK_SET
  counts  : List Nat      -- CS_DISCARDS, STRAIT_CORRECTED, STRAIT_RETRIES, CS_BAD_DEST
deriving DecidableEq, Repr, Inhabited

/-- A unit placed on a strait and not yet delivered: how often in a row it arrived with an uncorrectable beat, and whether
a clean copy stands at the receiver and waits for the units sent before it (R17, R20). -/
structure StraitCopy where
  unit  : StraitUnit
  fails : Nat
  here  : Bool
deriving DecidableEq, Repr, Inhabited

/-- One direction of a data strait: the units not yet delivered in the order sent, the receive slots of delivered units
that are not yet freed, and the credits in use of the 32 (R15, R17, R20). -/
structure StraitDir where
  copies : List StraitCopy
  held   : Nat
  used   : Nat
deriving DecidableEq, Repr, Inhabited

/-- A data strait (R14, R21, R551). `down`: declared down and neither end reset since. -/
structure Strait where
  up    : Bool
  down  : Bool
  toMi  : StraitDir
  fromMi : StraitDir
deriving DecidableEq, Repr, Inhabited

/-- A Control Strait message (Table 1-6). -/
structure CsMsg where
  dest    : Nat
  src     : Nat
  cls     : Nat
  payload : Nat
  d0      : Nat             -- data the firmware reads beside a NOTICE (R522)
  d1      : Nat
  d2      : Nat
deriving DecidableEq, Repr, Inhabited

/-- Recipients of an event (Table 18-7). -/
inductive Recipient
  | operator | manager | slice (s : Nat)
deriving DecidableEq, Repr

/-- What MGI's Control Strait port holds while the management core is absent (R28): a message, or the NOTICE of an event with
its recipient and data. -/
inductive HeldMsg
  | msg (m : CsMsg)
  | notice (r : Recipient) (code a0 a1 a2 : Nat)
deriving DecidableEq, Repr

/-- A request accepted through `1021` or `7200:01` and pending for the tick (R35). -/
inductive SvcReq
  | enterTest | endTest | switch
deriving DecidableEq, Repr, Inhabited

/-- The module's service state and frame (chapter 1). -/
structure Module where
  svc       : Service
  fns       : Nat              -- 1010:02, function readiness bits
  islands   : List Island      -- 26 entries
  straits   : Store Strait     -- 104 data straits
  shown     : List IslandView  -- the island descriptors as of the last tick, 26 entries (R13)
  readyCopy : Nat              -- 1010:01 and the BAR0 register, as MGI last updated them
  holding   : Bool             -- the hold of R28 is on
  inbox     : List CsMsg       -- Control Strait inbox in MGI SRAM, oldest first (R479)
  req       : Option SvcReq
  resetReq  : Nat              -- pending RESET_CMD writes, bit n for island n
  bootFault : Bool             -- fault recorded by the boot ROM (R27)
  swFault   : Bool             -- fault recorded during a switch (R34)
  flushing  : Bool             -- the flush before TEST is running (R463)
  testEnding : Bool            -- the clearing stages that end TEST are running
  jumped    : Bool             -- the firmware runs (step 7 of Table 16-1 done since ROM entry)
  stopped   : Bool             -- the management core has stopped (R497)
  tick      : Nat              -- 1030
deriving DecidableEq, Repr, Inhabited

/-- A buffered write waiting for its boundary (R46). `sel` names the record where the object is
reached through a selector. -/
structure PendWrite where
  bnd   : Boundary
  key   : Nat
  sel   : Nat
  value : Nat
deriving DecidableEq, Repr, Inhabited

/-- A dictionary request waiting in the server's queue (R54). -/
structure DictReq where
  path    : Path
  write   : Bool
  reqId   : Nat
  seq     : Nat
  src     : Nat            -- source address and port of an ODP datagram
  entries : List DictEntry
  bad     : Bool           -- a request that is answered TYPE and not carried out (R62, R65)
deriving DecidableEq, Repr, Inhabited

/-- The dictionary mailbox registers (Table 2-13). -/
structure Mbx where
  length  : Nat
  count   : Nat
  kindW   : Bool
  busy    : Bool
  done    : Bool
  overrun : Bool
  status  : Nat
  fail    : Nat            -- FAIL_ENTRY, reset 0xFFFF
  respLen : Nat
  buf     : List Byte      -- MBX_BUF, bytes not listed are zero
deriving DecidableEq, Repr, Inhabited

/-- A wide mailbox (Table 2-14). -/
structure Wmb where
  sel    : Nat
  run    : Bool            -- a capture is under way
  valid  : Bool
  badsel : Bool
  gen    : Nat
  data   : Nat             -- WMB_DATA1 : WMB_DATA0
  tick   : Nat             -- WMB_DATA3 : WMB_DATA2
deriving DecidableEq, Repr, Inhabited

/-- The object dictionary and the register surfaces (chapter 2). -/
structure Dict where
  obj     : Store Nat          -- object values that differ from their defaults; key index·256 + subindex
  pend    : List PendWrite
  queue   : List DictReq
  odpHigh : Option Nat         -- highest accepted SEQ (R60)
  odpSeen : Nat                -- bit d: SEQ high - d accepted, d below 64
  mbx     : Mbx
  i3cBusy : Bool               -- an I3C request is queued or being carried out (R62)
  i3cResp : Option (List Byte) -- response ready and not yet read
  wmb     : Store Wmb          -- key 0 for BAR0, 1 + s for glove page s
  wideLo  : Store Nat          -- LO words last written; key (0 or 1 + s)·65536 + offset
deriving DecidableEq, Repr, Inhabited

end Sys2Proof.Machine
end

