-- ==== Sys2Proof/Machine/StateKeys.lean ====
section
/-!
DEFINITION. The state of the key store, compartments, tenant switch and key slots (chapter 15), of
the NOR flash and the firmware's banks (chapter 16), of the power controller (chapter 17) and of
the event recorder (chapter 18).
-/
namespace Sys2Proof.Machine

/-- Key-slot states in the order of R470. -/
inductive SlotState
  | empty | active | exhausted | needsKey
deriving DecidableEq, Repr, Inhabited

/-- A replay window of one receive direction (R467): the highest counter accepted, and a mask of
those accepted at and below it. -/
structure Replay where
  any  : Bool
  high : Nat
  seen : Nat
deriving DecidableEq, Repr, Inhabited

/-- A cipher key slot with its write-only registers (Tables 15-7, 15-8). -/
structure KeySlot where
  st    : SlotState
  key   : Nat              -- 256 bits, byte 0 least significant
  fixed : Nat
  limit : Nat              -- L
  inv   : Nat              -- I
  win0  : Replay
  win1  : Replay
  words : Store Nat        -- KEY0–KEY7 as written, 0–7
  fixedReg : Nat
  limitReg : Nat
deriving DecidableEq, Repr, Inhabited

/-- A record of the key store: compartment and keys (R453, R457). -/
structure KeyRec where
  seq    : Nat
  compId : Nat
  name   : Nat             -- 32 ASCII bytes
  cs     : Option Nat      -- compartment secret, 256 bits
  media  : Option Nat      -- media key MK, 512 bits
  epoch  : Nat             -- MEDIA_EPOCH
  opk    : Option Nat      -- operator key, 384 bits
deriving DecidableEq, Repr, Inhabited

/-- The key store, the protection set-up and the tenant switch (chapter 15). -/
structure Keys where
  copyA    : KeyRec        -- the two copies of the committed record
  copyB    : KeyRec
  setup    : Option KeyRec -- protection set-up written by boot code in this boot
  latch    : Bool
  entered  : Nat           -- ENTERED_TICK
  opkLo    : Option Nat    -- FIRST_OPK_LO, 32 bytes
  opkHi    : Option Nat    -- FIRST_OPK_HI, 16 bytes
  rngBad   : Bool
  secret   : Option (Nat × Nat)  -- staged compartment identifier and secret
  nextOpk  : Option Nat    -- staged operator key for the next module reset
  committed : Bool         -- stage 4 of the running switch has committed
  stage    : Nat           -- stage in progress, 0 none
  times    : List Nat      -- SWITCH_TIMES, stages 1–6
  slots    : Store KeySlot -- device key slots 0–4095
deriving DecidableEq, Repr, Inhabited

/-- A record of the event recorder (Table 18-5). Bins are keyed histogram·64 + bin. -/
structure Rec where
  merged   : Bool
  part     : Bool
  switched : Bool
  live     : Bool
  seq      : Nat
  intervals : Nat
  lastMin  : Nat           -- INTERVAL_MIN
  startTick : Nat
  endTick  : Nat
  boot     : Nat
  fw       : Nat
  comp     : Nat
  sat      : Store Bool    -- saturated bins
  bins     : Store Nat
  tjMax    : Store Int     -- per island, hundredths of °C
  railMin  : Store Nat     -- per rail, 65,535 minus the least mV read
  railMax  : Store Nat
  qdelay   : Store Nat     -- per physical port, ns
  powerMax : Nat
  powerMin : Nat           -- 65,535 minus the least reading
  totals   : Store Nat
deriving DecidableEq, Repr, Inhabited

/-- The non-volatile NOR flash beside the key store's records: firmware banks, persisted
BOOT-boundary writes, bank choice, fused counters and the recorder log (R48, R477, R526). -/
structure Nor where
  bankA    : Store Byte
  bankB    : Store Byte
  stateA   : Nat           -- 0 UNKNOWN, 1 VALID, 2 INVALID, 3 STAGED
  stateB   : Nat
  prefB    : Bool          -- PREFERRED is bank B
  pendKind : Nat           -- 0 none, 1 RESET, 2 ANY
  pendB    : Bool          -- the pending activation names bank B
  svnMin   : Nat
  keyDigest : List Byte      -- the fused SHA-384 digest of the firmware signing key (R476)
  boots    : Nat
  bootVals : Store Nat     -- 1 + persisted value of a BOOT-boundary object, by key
  retired  : List (Nat × Bool)  -- retired frames; true while pending (R172)
  log      : List Rec      -- records by log index
  nextSeq  : Nat
deriving DecidableEq, Repr, Inhabited

/-- Stages of a firmware update (B000:04). -/
inductive StageState
  | idle | erasing | loading | verifying | staged | failed
deriving DecidableEq, Repr, Inhabited

/-- Boot phases (B020:02). -/
inductive BootPhase
  | start | keystore | provisionWait | verifyA | verifyB | setup | firmware | halted
deriving DecidableEq, Repr, Inhabited

/-- The firmware's boot status and update staging (chapter 16). -/
structure Firm where
  phase   : BootPhase
  bootedB : Bool
  resA    : Nat
  resB    : Nat
  other   : Bool           -- the other bank booted (state RECOVERY)
  stage   : StageState
  stageRes : Nat
  stageDone : Store Bool   -- kilobytes of the staged bank already programmed
deriving DecidableEq, Repr, Inhabited

/-- One rail's readings (R499, R500). -/
structure Rail where
  mw    : Nat              -- power taken to be drawn, W
  mv    : Nat              -- voltage, mV
  high  : Nat              -- highest power reported since the module reset
  fails : Nat              -- failed readings in a row
deriving DecidableEq, Repr, Inhabited

/-- The power controller and thermal protection (chapter 17). -/
structure PowerCtl where
  rails    : Store Rail    -- 31 rails in the order of Table 17-1
  capState : Nat           -- CAP_STATE
  duty     : Nat           -- TI_DUTY
  dutyNow  : Nat           -- duty applied from the last window start
  memLimit : Nat           -- MEM_LIMIT
  linkStep : Nat           -- sixteenths of the nominal rate left to each port; 16 none
  guard    : Nat           -- consecutive high readings without a completed period
  alert    : Nat           -- ALERT_CAUSE
  secSum   : Nat           -- sum of VIN readings in the current second
  secCnt   : Nat
  secMean  : Nat           -- mean over the last complete second
  clsSum   : List Nat      -- sums of the class powers in the current second
  clsMean  : List Nat      -- their means over the last complete second
  window   : Nat           -- duty windows started since the module reset
deriving DecidableEq, Repr, Inhabited

/-- The event recorder's memory in MGI and its read-out (chapter 18). -/
structure Recorder where
  acc     : Rec
  accOk   : Bool           -- the accumulation and the pending record pass their checks (R529)
  pending : Option Rec
  freeze  : Bool
  freezeTick : Nat
  erasing : Bool
  lastTick : Nat           -- last tick before the module reset
  sel     : Option Rec     -- selection of REC_SELECT
deriving DecidableEq, Repr, Inhabited

end Sys2Proof.Machine
end

