-- ==== Sys2Proof/Machine/StateHost.lean ====
section
/-!
DEFINITION. The state of the host endpoint, its functions and interrupts, the slices and their
hardware queues (chapter 14), and the admin and control rings of the firmware (chapter 16).
-/
namespace Sys2Proof.Machine

/-- Slice states in the order of Table 14-7. -/
inductive SliceState
  | free | active | freezing | frozen | restoring | destroying
deriving DecidableEq, Repr, Inhabited

/-- An interrupt steering entry (Table 14-3). -/
structure Steer where
  vector  : Nat
  ports   : Nat
  enable  : Bool
  pending : Bool
  modUs   : Nat
  quiet   : Bool            -- within MOD_US of the last signal
deriving DecidableEq, Repr, Inhabited

/-- A completion that is to be written (R427). -/
structure Compl where
  status : Nat
  result : Nat
  len    : Nat
  tag    : Nat
deriving DecidableEq, Repr, Inhabited

/-- A hardware queue of a slice (R436, R437). -/
structure Queue where
  used   : Bool
  cfg    : QueueRec
  dev    : Nat              -- device queue number
  prod   : Nat              -- producer index
  dqHead : Nat
  cqTail : Nat
  cqHead : Nat              -- last value read from the header
  halted : Bool
  held   : Option Nat       -- producer index held while the slice does not act on doorbells
  inflight : Nat             -- commands started and not completed
  waiting : List Compl       -- completions that wait while the ring is full
  ending : Bool              -- halted by a fault; its commands in progress end at the next tick
deriving DecidableEq, Repr, Inhabited

/-- A page-table leaf of a slice (R178): 2 MiB page `vpn` of `pasid`, frame number, write
permission, and whether it belongs to the KV window. -/
structure Page where
  pasid : Nat
  vpn   : Nat
  frame : Nat
  write : Bool
  kv    : Bool
deriving DecidableEq, Repr, Inhabited

/-- A page of slice page tables in the reserve (R178): its 512 entries of 64 bits, and the slice whose walks reach it. -/
structure PTab where
  used  : Bool
  slice : Nat
  ents  : Store Nat
deriving DecidableEq, Repr, Inhabited

/-- An entry of a slice's event ring (R435). -/
structure EvEntry where
  code : Nat
  a0 : Nat
  a1 : Nat
  a2 : Nat
  tick : Nat
deriving DecidableEq, Repr, Inhabited

/-- One slice: quotas, page tables, glove page and channel (chapter 14). -/
structure Slice where
  st       : SliceState
  quota    : Quota
  keyBase  : Nat
  msixBase : Nat
  clsBase  : Nat
  windows  : Store Nat        -- island n: 1 + offset of its scratchpad window in MiB
  pasids   : List Nat
  pages    : List Page        -- the mappings, in the order in which they were made
  roots    : Store Nat        -- by PASID: 1 + number of its top-level table (R178)
  memUsed  : Nat              -- bytes mapped
  evHead   : Nat
  evTail   : Nat
  evLost   : Nat
  ring     : Store EvEntry    -- 120 entries
  chanDb   : Option Nat       -- CHAN notification not yet written
  chanIn   : Nat
  steer    : Store Steer      -- 256 entries
  apert    : Store Nat        -- 1,024 aperture entries (R69)
  queues   : Store Queue      -- by glove slot; slot 0 is the control ring
  hello    : Bool             -- HELLO has passed (R489)
  freezeTag : Option Nat      -- tag of the FREEZE in progress
  destroyTag : Option Nat     -- tag of the SLICE_DESTROY in progress
  blob     : List Byte        -- bytes taken by RESTORE so far
  blobId   : Option Nat       -- identifier of the blob that the SAVEs of this FROZEN state give (R440, R441)
  blobBad  : Bool             -- a RESTORE failed with unpredictable contents
  live     : Store Nat        -- usage counters 0–22 (Table 18-1)
  latched  : Store Nat        -- their values at the last 10 µs boundary
deriving DecidableEq, Repr, Inhabited

/-- A request of HI to host memory that has no completion yet (R422). -/
structure HostReq where
  id    : Nat
  slice : Nat
  slot  : Nat              -- queue whose descriptor it fetches
  index : Nat              -- the descriptor's index
  pasid : Nat
  page  : Nat              -- host page of the translation it uses
  head  : Bool             -- it reads `CQ_HEAD` in the header of a full ring instead (R437)
  abandoned : Bool
deriving DecidableEq, Repr, Inhabited

/-- One PCI Express function's modes (R418, R424). -/
structure PciFn where
  msixEnable  : Bool
  intxDisable : Bool
  intx        : Bool         -- INTx asserted by message
  fnMask      : Bool         -- MSI-X Function Mask
  masked      : List Nat     -- vectors whose mask bit is set
  pba         : List Nat     -- MSI-X pending bits: vectors that a mask holds back
deriving DecidableEq, Repr, Inhabited

/-- Power states of the PCIe link: L0, L0p, ASPM L1 and its substates L1.1 and L1.2 (Table 14-1). -/
inductive LinkPower
  | l0 | l0p | l1 | l11 | l12
deriving DecidableEq, Repr, Inhabited

/-- The host endpoint (chapter 14). -/
structure HostSide where
  up       : Bool
  rate     : Nat             -- GT/s
  width    : Nat
  flit     : Bool
  power    : LinkPower
  l1Enable : Bool            -- the host has enabled L1 in Link Control
  l11Enable : Bool           -- and the substates L1.1
  l12Enable : Bool           -- and L1.2
  l0pEnable : Bool
  ats      : Bool            -- ATS enabled by the host
  atsCache : List (Nat × Nat)  -- translations held: PASID and host page
  pf0      : PciFn
  pf1      : PciFn
  reqs     : List HostReq
  invals   : List (Nat × Nat)  -- ATS invalidations not yet answered
  unexpected : Nat           -- completions discarded as unexpected (R455)
  slices   : Store Slice
  tables   : Store PTab      -- the slices' page tables, by number
deriving DecidableEq, Repr, Inhabited

/-- States of the admin ring pair (Table 16-5). -/
inductive AdmState
  | off | running | refused
deriving DecidableEq, Repr, Inhabited

/-- The admin page and ring pair of PF0 (R484–R486). Submission entries are 64-byte records of
bytes; completion entries are 128-bit numbers. -/
structure Admin where
  version : Nat
  st      : AdmState
  code    : Nat
  enabling : Bool            -- an ENABLE write waits for the ADMIN bit
  sqTail  : Nat
  sqHead  : Nat
  cqTail  : Nat
  cqHead  : Nat
  sub     : Store Nat        -- submission ring, by 32-bit word number 0–511
  comp    : Store Nat        -- completion ring, by entry number 0–31
  waiting : List Nat         -- completions and unsolicited entries held while the ring is full
  started : List Nat         -- tags of commands started and not completed
  discard : List Nat         -- tags of commands whose completions are discarded (Table 14-4)
deriving DecidableEq, Repr, Inhabited

/-- A kernel queued or running under a KLAUNCH (R490). -/
structure Launch where
  slice  : Nat
  island : Nat
  tag    : Nat
  pasid  : Nat
  host   : Bool
  addr   : Nat
  arg    : Nat
  argblk : Nat
  endp   : Nat
  seed   : Option Nat
  nctl   : Option Nat
  klimit : Option Nat
  running : Bool
deriving DecidableEq, Repr, Inhabited

end Sys2Proof.Machine
end

