-- ==== Sys2Proof/Machine/StateMem.lean ====
section
/-!
DEFINITION. The state of the memory islands' stacks and scrubbers, and of the KV cache manager
(chapter 6).
-/
namespace Sys2Proof.Machine

/-- States of a stack as `STACK_STATE` shows them. -/
inductive StackState
  | ok | retraining | failed
deriving DecidableEq, Repr, Inhabited

/-- One memory island's stacks and scrubber (R172–R177). -/
structure MemIsland where
  stackSt   : List StackState  -- four local stacks
  trainFails : List Nat       -- consecutive failed windows of each
  scrubPos : Nat              -- pass position p, bytes
  doubled  : Bool             -- LEVEL
  cleanRun : Nat
  ceNow    : Nat              -- corrections since the last minute
  ceHist   : List Nat         -- corrections of the preceding minutes, latest first, at most 60
  minutes  : Nat              -- minutes counted by the loop
  frameCe  : Store Nat        -- corrections per frame in this pass
deriving DecidableEq, Repr, Inhabited

/-- Where a KV block lies (R196–R198): `fetched` is read back and waits for the captures that asked for
it to end. -/
inductive BlockLoc
  | hbm | demoting | flash | fetching | fetched | lost
deriving DecidableEq, Repr, Inhabited

/-- A KV block (R181, R191, R194, R195). While resident, or while storage waits for it, its four planes lie in the slice's KV
window at `va`; `lba` and `copy` are its place in the KV spill space and the ciphertext there (R199). -/
structure KvBlock where
  slice  : Nat
  size   : Nat                -- bytes; 0 where the number names no block
  refs   : Nat
  va     : Nat                -- window address; 0 where it has no storage
  lba    : Nat                -- 1 + first logical block in the KV spill space; 0 where it has none there
  copy   : List Byte
  tick   : Nat
  mu     : Nat
  pins   : List Nat           -- handle indices that pin it
  caught : Nat                -- ATTENDs that captured it and have not read it
  cut    : Bool               -- truncated under a capture
  loc    : BlockLoc
  hold   : Bool               -- held in the floor for DEFER_HOLD (R216)
  defer  : Bool               -- wanted by an ATTEND that was deferred
deriving DecidableEq, Repr, Inhabited

/-- A sequence (R184, R185). `blocks` maps (layer·64 + group)·16,384 + block index to 1 + block
number; `tails` maps layer·64 + group to the window address of the tail, 32 rows of FP32; `pages` are the window addresses of the
4 KiB pages that hold its block table, 256 entries each. -/
structure Seq where
  live   : Bool
  gen    : Nat
  slice  : Nat
  layers : Nat
  groups : Nat
  dim    : Nat                -- 0, 1, 2 for 64, 128, 256
  elem   : Nat                -- ELEM code
  lens   : Store Nat
  blocks : Store Nat
  tails  : Store Nat
  pages  : List Nat
deriving DecidableEq, Repr, Inhabited

/-- A PIN that waits for flash-resident blocks (R194). -/
structure PinWait where
  q      : QCtx
  idx    : Nat
  result : Nat                -- handle as echoed
  len    : Nat
  waits  : List Nat           -- block numbers still awaited
  fresh  : List Nat           -- block numbers that the command pinned anew
  dem    : List (Nat × Nat)   -- demotions that it abandoned: block number and place in the spill space
  lost   : Bool
deriving DecidableEq, Repr, Inhabited

/-- The KV commands on a handle. -/
inductive KvOp
  | fork | append | truncate | pin | unpin | release | query
deriving DecidableEq, Repr, Inhabited

/-- A KV command that waits for its turn on its handle, or for a captured tail (R189, R190). -/
structure KvWait where
  q   : QCtx
  op  : KvOp
  cmd : KvCmd
deriving DecidableEq, Repr, Inhabited

/-- A tail that no sequence names any more, kept for the ATTENDs that captured it (R190). -/
structure OldTail where
  slice : Nat
  va    : Nat
  size  : Nat
deriving DecidableEq, Repr, Inhabited

/-- The KV cache manager (chapter 6). -/
structure Kv where
  seqs    : Store Seq         -- by handle index
  blocks  : Store KvBlock     -- by block number, from 1
  next    : Nat               -- last block number given
  ceil    : Store Nat         -- ceiling in bytes, by slice
  newCeil : Store Nat         -- 1 + ceiling that takes effect at the next tick
  victims : Store (List Nat)  -- up to 64 block numbers in score order, by slice
  pinning : List PinWait
  waiting : List KvWait       -- commands that wait, in the order in which they came
  oldTails : List OldTail
  stopped : Bool              -- demotion has stopped (R199)
deriving DecidableEq, Repr, Inhabited

end Sys2Proof.Machine
end

