-- ==== Sys2Proof/Machine/StateSeq.lean ====
section
/-!
DEFINITION. The state of the 49 Itette sequencers and of the engines they feed (chapters 4 and 5):
registers, stacks, traps, tile descriptors, accumulator planes, vector registers, the scoreboard and
the error marks.
-/
namespace Sys2Proof.Machine

/-- Whether a sequencer issues instructions: it runs, or its kernel has stopped issue and ends when its
engines are empty, or it has no kernel. -/
inductive RunState
  | idle | running | ending
deriving DecidableEq, Repr, Inhabited

/-- What a coprocessor operation does, with everything it captured at issue (R152). -/
inductive CopKind
  | mma (core plane fold : Nat) (clr : Bool) (ta tb : Nat)
  | mdrain (core plane tc tid idx : Nat)
  | mzero (core plane : Nat)
  | vop (f ve vd va vb : Nat)
  | vfma (ve vd va vb : Nat)
  | vld (ve vd off : Nat)
  | vst (ve vd off : Nat)
  | vldc (ve vd off hdr idx rm : Nat)
  | vstc (ve vd off hdr idx rm : Nat)
  | vbcast (ve vd v : Nat)
  | vmovg (ve vd ga : Nat)
  | sfu (f ve vd va : Nat)
  | cipher (decrypt : Bool) (kslot : Nat) (desc : List Byte) (key : KeySlot)
  | digest (hmac : Bool) (kslot : Nat) (desc : List Byte) (key : KeySlot)
  | coll (kind queue v : Nat)
  | stream (desc : List Byte) (td : Nat)
  | dma (desc : List Byte)
deriving DecidableEq, Repr, Inhabited

/-- An operation issued and not yet completed. -/
structure CopOp where
  num     : Nat            -- issue number, from 0 at kernel start
  engine  : Nat            -- Table 5-12
  kind    : CopKind
  nctl    : Nat
  seed    : Nat
  pre     : Nat            -- status found at issue: a descriptor outside the window or unreadable
  started : Bool
deriving DecidableEq, Repr, Inhabited

/-- A failure that traps: status, engine and issue number. -/
structure CopErr where
  status : Nat
  engine : Nat
  num    : Nat
deriving DecidableEq, Repr, Inhabited

/-- An accumulator plane: its last MMA's M and N, whether it holds integers, and the accumulators, by
row·256 + column, as FP32 codes or 64-bit integers. -/
structure Plane where
  set : Bool
  m   : Nat
  n   : Nat
  int : Bool
  acc : Store Nat
deriving DecidableEq, Repr, Inhabited

/-- A sequencer with its engines. -/
structure Seqr where
  run       : RunState
  pc        : Nat
  codeLo    : Nat
  codeHi    : Nat
  g         : Store Word   -- general registers
  p         : Nat          -- bits 1–7: predicates
  b         : Store Nat    -- bank registers
  cycle     : Nat
  nctl      : Nat
  seed      : Nat
  nstat     : Nat
  inTrap    : Bool
  held      : Option CopErr  -- COPEND and the held completion
  wdWait    : Bool         -- a WATCHDOG trap waits for RFT
  operr     : Nat
  evcount   : Nat
  rsp       : Nat
  rslo      : Nat
  rshi      : Nat
  dslo      : Nat
  dshi      : Nat
  rsdepth   : Nat
  stkmode   : Nat
  retq      : Nat
  rets      : Store Nat    -- hardware return entries e[0–7]
  tvbase    : Nat
  trappc    : Nat
  trapcause : Nat
  trapinfo  : Nat
  klimit    : Nat
  pasid     : Nat
  winbase   : Nat
  winsize   : Nat
  pfx       : Option Nat   -- extension of a PFX whose second word has not executed
  fired     : Option Nat   -- CYCLE when the watchdog fired
  issued    : Nat
  arriving  : Option Nat   -- COLL ARRIVE in progress: its issue number (R127, R160)
  stepHold  : Bool         -- arrived at a step boundary and not yet released (R302)
  stepEpoch : Nat          -- the epoch that it arrived for
  endCause  : Nat          -- trap cause that ended the kernel; 0 for HALT
  endCop    : Nat          -- COPERR-class status that came while HALT waited
  slice     : Nat
  tds       : Store Nat    -- tile descriptors, 128 bits
  planes    : Store Plane  -- by core·2 + plane
  vregs     : Store Nat    -- by engine·4096 + register·128 + lane
  ops       : List CopOp   -- in issue order
  marks     : List (Nat × Nat)  -- offset ranges in error, first and one past the last
  straitFail : List Nat    -- DPA lines, address / 256, of the stream units that a strait failed back (R21, R123)
  allMarked : Bool         -- marks exhausted: the whole window is in error (R126)
deriving DecidableEq, Repr, Inhabited

/-- The time-share of one tensor island (R128): the slice whose turn it is, and by how many µs each
slice's next share is shortened. -/
structure TimeShare where
  cur  : Option Nat
  excess : Store Nat
deriving DecidableEq, Repr, Inhabited

end Sys2Proof.Machine
end

