-- ==== Sys2Proof/Machine/Flags.lean ====
section
/-!
DEFINITION. Conditions, predicate operations and sticky status of the Itette sequencers (chapter 5).
-/
namespace Sys2Proof.Machine

/-- The conditions of `CMP` and `CMPI` (R143): 0 EQ, 1 LT, 2 LTU, 3 GT, 4 GTU, 5 TST. -/
def cond (cc : Nat) (a b : Word) : Bool :=
  match cc with
  | 0 => a == b
  | 1 => a.slt b
  | 2 => a.ult b
  | 3 => b.slt a
  | 4 => b.ult a
  | _ => a &&& b != 0

/-- `OPERR` with a failure recorded (R153). -/
def operrAdd (v status engine : Nat) : Nat :=
  if v % 256 = 0 then v / 65536 * 65536 + engine % 256 * 256 + status else setBit v 16 true

/-- Set sticky bits of `NSTAT` (R92). -/
def Seqr.flag (z : Seqr) (f : Nat) : Seqr := { z with nstat := z.nstat ||| f }

end Sys2Proof.Machine
end

