-- ==== Sys2Proof/Config.lean ====
section
/-!
DEFINITION. What one module or one firmware build fixes and the manual leaves open, and the free
values: constants without a body, so that no proof can rest on a value of theirs.
-/
namespace Sys2Proof.Config

/-- The device root secret fused at manufacture, 256 bits (Table 15-1). -/
opaque drs : Nat

/-- The serial number `1018:03`, 16 bytes, per module. -/
opaque serial : Nat

/-- The management MAC address `1048:01`, 6 bytes, per module. -/
opaque mgmtMac : Nat

/-- The base MAC address `3500:04`, 6 bytes, per module. -/
opaque macBase : Nat

/-- Where the firmware image holds its vector table, in units of 1 KiB, and where the return stack ends and the data stack begins
in the top 256 KiB of MGI SRAM, in doublewords (R479). -/
opaque fwVectors : Nat
opaque fwStackSplit : Nat

/-- `ROM_VERSION` (`B020:01`), which the manual does not give. -/
opaque romVersion : Nat

/-- Free values where the manual gives an effect and no value: the n-th such value. -/
opaque free : Nat → Nat

/-- Result of an FP32 minimum (false) or maximum (true) where the manual states none. -/
opaque minMaxFree : Bool → Nat → Nat → Nat

/-- Element codes and further header fields of a NaN block, which the manual does not state. -/
opaque nanBlockCode : Nat → Nat

/-- Special-function results (R118): by function and operand, the distance from the correctly rounded
value in units of the last place, reduced to the manual's bound; and results that are not stated. -/
opaque sfuError : Nat → Nat → Nat
opaque sfuFree : Nat → Nat → Nat

/-- What an accumulator reads as when an operation of the other kind (integer or FP32) accumulates into
it without clearing, which the manual does not state. -/
opaque planeMix : Nat → Nat

/-- The incarnation a connection starts from at a boot, from the key store's random generator (R323). -/
opaque incarnation : Nat → Nat → Nat

/-- The node whose shard holds a unit of an optimizer set that this SP9's own shard does not hold (R288). -/
opaque shardOwner : Nat → Nat → Nat

/-- The floor of the spare pool below which the flash tier enters READ_ONLY (R413), in blocks. -/
opaque spareFloor : Nat

/-- Header fields of frames that the SP9 sends and the manual leaves open: 0 hop limit and time to live, 1 IPv6
flow label, 2 IPv4 identification, 3 the priority and drop bits of an 802.1Q tag. -/
opaque frameField : Nat → Nat

end Sys2Proof.Config
end

