-- ==== Sys2Proof/Machine/Num.lean ====
section
/-!
DEFINITION. Number formats (chapter 3): element formats, rounding, conversion, block float and
microscaling blocks, FP32 arithmetic, and the three reduction modes. Values are exact: a sign and a
quotient of natural numbers; every narrowing rounds once.
-/
namespace Sys2Proof.Machine

/-- An exact value: NaN, a signed infinity, or a sign with the magnitude `n / d`. -/
inductive Val
  | nan | inf (neg : Bool) | fin (neg : Bool) (n d : Nat)
deriving DecidableEq, Repr, Inhabited

/-! ### Format codes (R74) -/

/-- Width of an element in bits (Table 3-1). -/
def elemWidth (e : Nat) : Nat :=
  if e = 0 || e = 1 then 4 else if e = 2 || e = 3 then 6 else if e ≤ 6 then 8
  else if e = 9 then 32 else 16

/-- Whether `ELEM` and `SCALE` form a valid code of Table 3-1. -/
def fmtValid (e sc : Nat) : Bool :=
  match sc with
  | 0 => decide (e ≤ 9)
  | 1 => decide (e ≤ 6)
  | 2 => decide (e ≤ 6) && e != 1
  | _ => false

/-- Whether an element code names an integer format. -/
def isInt (e : Nat) : Bool := e == 1 || e == 6

/-- Exponent width, mantissa width and bias of a floating-point element format (Table 3-2). -/
def fpShape (e : Nat) : Nat × Nat × Nat :=
  match e with
  | 0 => (2, 1, 1)
  | 2 => (3, 2, 3)
  | 3 => (2, 3, 1)
  | 4 => (4, 3, 7)
  | 5 => (5, 2, 15)
  | 7 => (8, 7, 127)
  | 8 => (5, 10, 15)
  | _ => (8, 23, 127)

/-- Whether the format has infinities and NaNs in the IEEE style. -/
def ieee (e : Nat) : Bool := e == 5 || e == 7 || e == 8 || e == 9

/-- Whether the format has a NaN. -/
def hasNan (e : Nat) : Bool := ieee e || e == 4

/-- The magnitude code of the largest finite value (Table 3-2); for integers the largest positive one. -/
def maxCode (e : Nat) : Nat :=
  if isInt e then 2 ^ (elemWidth e - 1) - 1
  else
    let (x, m, _) := fpShape e
    if ieee e then (2 ^ x - 1) * 2 ^ m - 1 else if e = 4 then 0x7E else 2 ^ (x + m) - 1

/-- The canonical NaN (R90). -/
def nanCode (e : Nat) : Nat :=
  let (x, m, _) := fpShape e
  if e = 4 then 0x7F else (2 ^ x - 1) * 2 ^ m + 2 ^ (m - 1)

/-- The magnitude code of infinity. -/
def infCode (e : Nat) : Nat := let (x, m, _) := fpShape e; (2 ^ x - 1) * 2 ^ m

/-- The code with its sign bit. -/
def withSign (e : Nat) (neg : Bool) (c : Nat) : Nat := if neg then c + 2 ^ (elemWidth e - 1) else c

/-- A quotient scaled by a power of two. -/
def scale2 (n d : Nat) (k : Int) : Nat × Nat :=
  if 0 ≤ k then (n * 2 ^ k.toNat, d) else (n, d * 2 ^ (-k).toNat)

/-- The magnitude of a finite floating-point code (R75). -/
def fpMag (e c : Nat) : Nat × Nat :=
  let (_, m, b) := fpShape e
  let x := c / 2 ^ m
  let f := c % 2 ^ m
  if x = 0 then scale2 f 1 (1 - b - m) else scale2 (2 ^ m + f) 1 (x - b - m)

/-- The value of an element code (R75, Table 3-2). -/
def elemVal (e c : Nat) : Val :=
  if isInt e then
    let z := signed (elemWidth e) c
    .fin (decide (z < 0)) z.natAbs 1
  else
    let w := elemWidth e
    let neg := bit c (w - 1)
    let g := c % 2 ^ (w - 1)
    if g ≤ maxCode e then let (n, d) := fpMag e g; .fin neg n d
    else if ieee e && g == infCode e then .inf neg else .nan

/-! ### Exact values -/

/-- A value scaled by `2 ^ k`. -/
def Val.scale (v : Val) (k : Int) : Val :=
  match v with
  | .fin s n d => let (a, b) := scale2 n d k; .fin s a b
  | w => w

/-- A value multiplied by `a / b`. -/
def Val.times (v : Val) (a b : Nat) : Val :=
  match v with
  | .fin s n d => .fin s (n * a) (d * b)
  | w => w

/-- Whether a value is a zero. -/
def Val.isZero : Val → Bool
  | .fin _ n _ => n == 0
  | _ => false

/-- The exact product. -/
def Val.mul (a b : Val) : Val :=
  match a, b with
  | .fin s n d, .fin t m e => .fin (s != t) (n * m) (d * e)
  | .inf s, .inf t => .inf (s != t)
  | .inf s, .fin t m _ => if m = 0 then .nan else .inf (s != t)
  | .fin s n _, .inf t => if n = 0 then .nan else .inf (s != t)
  | _, _ => .nan

/-- The exact sum; a zero sum of opposite signs is +0, as in rounding to nearest. -/
def Val.add (a b : Val) : Val :=
  match a, b with
  | .fin s n d, .fin t m e =>
    if s = t then .fin s (n * e + m * d) (d * e)
    else if n * e = m * d then .fin false 0 1
    else if m * d < n * e then .fin s (n * e - m * d) (d * e) else .fin t (m * d - n * e) (d * e)
  | .inf s, .inf t => if s = t then .inf s else .nan
  | .inf s, .fin .. => .inf s
  | .fin .., .inf t => .inf t
  | _, _ => .nan

/-- The negated value. -/
def Val.neg : Val → Val
  | .nan => .nan
  | .inf s => .inf (!s)
  | .fin s n d => .fin (!s) n d

/-- Whether `a < b`; false where either is NaN. -/
def Val.lt (a b : Val) : Bool :=
  match a, b with
  | .nan, _ => false
  | _, .nan => false
  | .inf s, .inf t => s && !t
  | .inf s, .fin .. => s
  | .fin .., .inf t => !t
  | .fin s n d, .fin t m e =>
    let x : Int := (if s then -1 else 1) * (n * e : Nat)
    let y : Int := (if t then -1 else 1) * (m * d : Nat)
    decide (x < y)

/-- The floor of the base-2 logarithm of `n / d`, for `n` not zero. -/
def flog2 (n d : Nat) : Int :=
  let e : Int := (n.log2 : Int) - d.log2
  let (a, b) := scale2 n d (-e)
  if b ≤ a then e else e - 1

/-! ### Rounding (R85–R88) -/

/-- The 32-bit draw for an element (R88). -/
def draw (seed tid idx : Nat) : Nat :=
  let c := (tid * 2 ^ 48 + idx % 2 ^ 48) % 2 ^ 64
  let mix (z : Nat) : Nat :=
    let z1 := (z ^^^ (z >>> 30)) * 0xBF58476D1CE4E5B9 % 2 ^ 64
    let z2 := (z1 ^^^ (z1 >>> 27)) * 0x94D049BB133111EB % 2 ^ 64
    z2 ^^^ (z2 >>> 31)
  mix (mix ((seed % 2 ^ 64) ^^^ (c * 0x9E3779B97F4A7C15 % 2 ^ 64))) >>> 32

/-- How a narrowing rounds: mode as `RMODE`, `OVF_NAN`, and the seed, tensor and index of the draw. -/
structure Rnd where
  mode : Nat
  ovfNan : Bool
  seed : Nat
  tid : Nat
  idx : Nat
deriving DecidableEq, Repr, Inhabited

/-- Round the quotient `num / den` to an integer; the sign decides which neighbour is the higher. -/
def roundQ (r : Rnd) (neg : Bool) (num den : Nat) : Nat :=
  let q := num / den
  let m := num % den
  if m = 0 then q
  else match r.mode with
    | 0 => if den < 2 * m || (2 * m == den && q % 2 == 1) then q + 1 else q
    | 1 => q
    | _ =>
      let w := draw r.seed r.tid r.idx
      if neg then (if w < (den - m) * 2 ^ 32 / den then q else q + 1)
      else (if w < m * 2 ^ 32 / den then q + 1 else q)

/-- Flags of `NSTAT` (R92). -/
def fInvalid : Nat := 1
def fOverflow : Nat := 2
def fUnderflow : Nat := 4

/-- Round a finite non-zero magnitude to the grid of a floating-point format with an unbounded
exponent: a multiple and the exponent of its grid. -/
def roundFp (e : Nat) (r : Rnd) (neg : Bool) (n d : Nat) : Nat × Int :=
  let (_, m, b) := fpShape e
  let lo : Int := 1 - (b : Int)
  let k : Int := max (flog2 n d) lo - m
  let (a, c) := scale2 n d (-k)
  (roundQ r neg a c, k)

/-- The magnitude code of `q * 2 ^ k` on the grid of a format, `q` at most `2 ^ (m + 1)`. -/
def fpCode (e : Nat) (q : Nat) (k : Int) : Nat :=
  let (_, m, b) := fpShape e
  if q < 2 ^ m then q
  else
    let x : Nat := (k + m + b).toNat
    if q = 2 ^ (m + 1) then (x + 1) * 2 ^ m else x * 2 ^ m + (q - 2 ^ m)

/-- What an overflow delivers (Table 3-7). -/
def overflowCode (e : Nat) (r : Rnd) (neg : Bool) : Nat :=
  if isInt e then (if neg then 2 ^ (elemWidth e - 1) else maxCode e)
  else if r.ovfNan && hasNan e then nanCode e else withSign e neg (maxCode e)

/-- Conversion of a value to an element format (R89–R91, Table 3-7): code and flags. A NaN with a
block target without a NaN is settled by the block's encoding before. -/
def convert (e : Nat) (r : Rnd) (v : Val) : Nat × Nat :=
  match v with
  | .nan => if hasNan e then (nanCode e, 0) else (0, fInvalid)
  | .inf s => if ieee e then (withSign e s (infCode e), 0) else (overflowCode e r s, fOverflow)
  | .fin s n d =>
    if n = 0 then (if isInt e then 0 else withSign e s 0, 0)
    else if isInt e then
      let q := roundQ r s n d
      let top := if s then 2 ^ (elemWidth e - 1) else maxCode e
      if top < q then (overflowCode e r s, fOverflow)
      else (unsigned (elemWidth e) (if s then -(q : Int) else q), if q = 0 then fUnderflow else 0)
    else
      let (q, k) := roundFp e r s n d
      if q = 0 then (withSign e s 0, fUnderflow)
      else
        let c := fpCode e q k
        if maxCode e < c then (overflowCode e r s, fOverflow) else (withSign e s c, 0)

/-- Round to nearest, ties to even. -/
def rne : Rnd := ⟨0, false, 0, 0, 0⟩

/-- Rounding of FP32 arithmetic (R86): to nearest, ties to even, past the largest finite value to
infinity as IEEE 754 has it (log entry 10). -/
def to32 (v : Val) : Nat :=
  match v with
  | .fin s n d =>
    if n = 0 then withSign 9 s 0
    else
      let (q, k) := roundFp 9 rne s n d
      withSign 9 s (min (infCode 9) (fpCode 9 q k))
  | .inf s => withSign 9 s (infCode 9)
  | .nan => nanCode 9

/-- FP32 addition, subtraction, multiplication and fused multiply-add on codes. -/
def add32 (a b : Nat) : Nat := to32 ((elemVal 9 a).add (elemVal 9 b))
def sub32 (a b : Nat) : Nat := to32 ((elemVal 9 a).add (elemVal 9 b).neg)
def mul32 (a b : Nat) : Nat := to32 ((elemVal 9 a).mul (elemVal 9 b))
def fma32 (a b c : Nat) : Nat := to32 (((elemVal 9 a).mul (elemVal 9 b)).add (elemVal 9 c))

/-- An FP32 code with a NaN in its canonical form (R90), which a result that the manual leaves open keeps to as well. -/
def nan32 (c : Nat) : Nat := if elemVal 9 c = .nan then nanCode 9 else c

/-- FP32 minimum and maximum; with a NaN operand, or zeros of opposite sign, the manual states no
result: a free value (log entry 11). -/
def minmax32 (mx : Bool) (a b : Nat) : Nat :=
  let x := elemVal 9 a
  let y := elemVal 9 b
  if x.lt y then (if mx then b else a)
  else if y.lt x then (if mx then a else b)
  else if a = b && x != .nan then a
  else nan32 (Config.minMaxFree mx a b % 2 ^ 32)

/-! ### Packing (R77) -/

/-- Codes of width `w` packed little-endian: 4-, 6-, 8-, 16- and 32-bit elements alike. -/
def packCodes (w : Nat) (cs : List Nat) : List Byte :=
  leBytes (cs.length * w / 8) (cs.foldr (fun c acc => c % 2 ^ w + 2 ^ w * acc) 0)

/-- The `n` codes of width `w` in a byte string. -/
def unpackCodes (w n : Nat) (bs : List Byte) : List Nat :=
  let v := leNat bs
  (List.range n).map (fun i => v / 2 ^ (w * i) % 2 ^ w)

/-! ### Blocks (R78–R84) -/

/-- A block: its 32 element codes and its header (IBF) or scale (MX). -/
structure Blk where
  codes : List Nat
  hdr   : Nat
deriving DecidableEq, Repr, Inhabited

/-- Bytes of header or scale of one block. -/
def hdrBytes (sc : Nat) (packed : Bool) : Nat :=
  match sc with
  | 0 => 0
  | 1 => if packed then 2 else 3
  | _ => 1

/-- The value of element `i` of a block (R81, R83, R84). DESIGN CHOICE (log entry 50): the element format is the descriptor's;
a header's `VAR` that differs from it, or is 0x7, is not looked at. -/
def Blk.val (b : Blk) (e sc : Nat) (packed : Bool) (i : Nat) : Val :=
  let v := elemVal e (b.codes.getD i 0)
  let x := b.hdr % 256
  match sc with
  | 0 => v
  | 1 =>
    if x = 0xFF then .nan
    else if !packed && bit b.hdr (16 + i / 8) then .fin false 0 1
    else (v.times (4 + b.hdr / 2 ^ (8 + 2 * (i / 8)) % 4) 4).scale ((x : Int) - 127)
  | _ =>
    if x = 0xFF then .nan
    else v.scale ((x : Int) - 127 - (if e = 6 then 6 else 0))

/-- The values of a block. -/
def Blk.vals (b : Blk) (e sc : Nat) (packed : Bool) : List Val := (List.range 32).map (b.val e sc packed)

/-- `mag` of R82: none for an infinite magnitude. DESIGN CHOICE (log entry 50): a NaN, for which R82 gives no `mag`, counts as 0
where the format has a NaN. -/
def magOf (e : Nat) : Val → Option (Nat × Nat)
  | .fin _ n d => some (n, d)
  | .inf _ => if e = 5 then some (0, 1) else none
  | .nan => some (0, 1)

/-- The larger of two magnitudes. -/
def magMax (a b : Option (Nat × Nat)) : Option (Nat × Nat) :=
  match a, b with
  | some x, some y => if x.1 * y.2 < y.1 * x.2 then some y else some x
  | _, _ => none

/-- Whether a magnitude is at most `n / d`. -/
def magLe (a : Option (Nat × Nat)) (n d : Nat) : Bool :=
  match a with
  | some x => decide (x.1 * d ≤ n * x.2)
  | none => false

/-- The largest magnitude of a list of values. -/
def amax (e : Nat) (vs : List Val) : Option (Nat × Nat) := (vs.map (magOf e)).foldl magMax (some (0, 1))

/-- The value M of R82: the largest finite value of the element format. -/
def maxVal (e : Nat) : Nat × Nat := if isInt e then (maxCode e, 1) else fpMag e (maxCode e)

/-- The least `x` from `lo`, counting at most `fuel` candidates, with `p x`; else `last`. -/
def leastFrom (p : Nat → Bool) (last : Nat) : Nat → Nat → Nat
  | 0, _ => last
  | f + 1, x => if p x then x else leastFrom p last f (x + 1)

/-- The header bits `VAR` and `ZMASK` of the self-describing form. -/
def selfBits (e : Nat) (codes : List Nat) : Nat :=
  e * 2 ^ 20 + ((List.range 4).map (fun j =>
    if ((codes.drop (8 * j)).take 8).all (· == 0) then 2 ^ (16 + j) else 0)).sum

/-- The low bits of a header that the packed form keeps. -/
def hdrForm (packed : Bool) (h : Nat) : Nat := if packed then h % 2 ^ 16 else h

/-- Convert the elements of a list, indices rising from `r.idx`; codes and the union of the flags. -/
def convertAll (e : Nat) (r : Rnd) : List Val → List Nat × Nat
  | [] => ([], 0)
  | v :: vs =>
    let (c, f) := convert e r v
    let (cs, g) := convertAll e { r with idx := r.idx + 1 } vs
    (c :: cs, f ||| g)

/-- A NaN block: `X` is 0xFF and the manual states no code, so the codes are free values
(log entry 12). -/
def nanBlk (e sc : Nat) (packed : Bool) : Blk :=
  let cs := (List.range 32).map (fun i => Config.nanBlockCode i % 2 ^ elemWidth e)
  ⟨cs, if sc = 1 then hdrForm packed (0xFF + 256 * (Config.nanBlockCode 32 % 256) +
    2 ^ 16 * (Config.nanBlockCode 33 % 16) + e * 2 ^ 20) else 0xFF⟩

/-- The IBF encoding of 32 values (R82): block and flags. -/
def ibfEncode (e : Nat) (packed : Bool) (r : Rnd) (vs : List Val) : Blk × Nat :=
  if vs.any (· == .nan) && !hasNan e then (nanBlk e 1 packed, 0)
  else if vs.all Val.isZero then
    (⟨List.replicate 32 0, hdrForm packed (e * 2 ^ 20 + 0xF0000)⟩, 0)
  else
    let (mn, md) := maxVal e
    let a := amax e vs
    let x := leastFrom (fun x => let (n, d) := scale2 (7 * mn) (4 * md) ((x : Int) - 127); magLe a n d) 254 255 0
    let ss := (List.range 4).map (fun j =>
      let aj := amax e ((vs.drop (8 * j)).take 8)
      leastFrom (fun k => let (n, d) := scale2 ((4 + k) * mn) (4 * md) ((x : Int) - 127); magLe aj n d) 3 4 0)
    let ws := (List.range 32).map (fun i =>
      ((vs.getD i default).scale (127 - (x : Int))).times 4 (4 + ss.getD (i / 8) 0))
    let (cs, f) := convertAll e r ws
    let h := x + 256 * ((List.range 4).map (fun j => ss.getD j 0 * 4 ^ j)).sum + selfBits e cs
    (⟨cs, hdrForm packed h⟩, f)

/-- The largest exponent of an MX element format (R84). -/
def mxEmax (e : Nat) : Int :=
  match e with
  | 0 => 2
  | 2 => 4
  | 3 => 2
  | 4 => 8
  | 5 => 15
  | _ => 0

/-- The MX encoding of 32 values (R84): block and flags. DESIGN CHOICE (log entry 50): S is 0 where amax is 0 though not every
element is a zero (infinities of E5M2, NaNs), for which the rule's logarithm is not defined. -/
def mxEncode (e : Nat) (r : Rnd) (vs : List Val) : Blk × Nat :=
  if vs.any (· == .nan) && !hasNan e then (nanBlk e 2 false, 0)
  else
    let up : Int := if e = 6 then 6 else 0
    if vs.all Val.isZero then
      let (cs, f) := convertAll e r vs
      (⟨cs, 0⟩, f)
    else
      let s : Nat := match amax e vs with
        | none => 254
        | some (n, d) => if n = 0 then 0 else (min 254 (max 0 (flog2 n d - mxEmax e + 127))).toNat
      let (cs, f) := convertAll e r (vs.map (fun v => v.scale (127 - (s : Int) + up)))
      (⟨cs, s⟩, f)

/-- Conversion of an MX block to IBF (R84): exact but for MXINT8 with a scale below 6. -/
def mxToIbf (e : Nat) (packed : Bool) (r : Rnd) (b : Blk) : Blk × Nat :=
  let s := b.hdr % 256
  if s = 0xFF then (⟨b.codes, hdrForm packed (0xFF + selfBits e b.codes)⟩, 0)
  else if e = 6 then
    if 6 ≤ s then (⟨b.codes, hdrForm packed (s - 6 + selfBits e b.codes)⟩, 0)
    else
      let (cs, f) := convertAll 6 r (b.codes.map (fun c => (elemVal 6 c).scale ((s : Int) - 6)))
      (⟨cs, hdrForm packed (selfBits e cs)⟩, f)
  else (⟨b.codes, hdrForm packed (s + selfBits e b.codes)⟩, 0)

/-- Encode 32 values under a scaling code. -/
def encodeBlk (e sc : Nat) (packed : Bool) (r : Rnd) (vs : List Val) : Blk × Nat :=
  match sc with
  | 0 => let (cs, f) := convertAll e r vs; (⟨cs, 0⟩, f)
  | 1 => ibfEncode e packed r vs
  | _ => mxEncode e r vs

/-- Conversion of a block between the forms of one element format (R84, R120). -/
def reform (e sc : Nat) (packed : Bool) (sc' : Nat) (packed' : Bool) (r : Rnd) (b : Blk) : Blk × Nat :=
  if sc = sc' && sc != 1 then (b, 0)
  else if sc = 1 && sc' = 1 then
    (if packed = packed' then b
     else if packed' then
       ⟨(List.range 32).map (fun i => if bit b.hdr (16 + i / 8) then 0 else b.codes.getD i 0), b.hdr % 2 ^ 16⟩
     else ⟨b.codes, b.hdr % 2 ^ 16 + selfBits e b.codes⟩, 0)
  else if sc = 2 && sc' = 1 then mxToIbf e packed' r b
  else if sc = 1 && sc' = 2 && b.hdr % 256 = 0xFF then (nanBlk e 2 false, 0)
  else encodeBlk e sc' packed' r (b.vals e sc packed)

/-- A block read from its element bytes and header bytes. -/
def Blk.ofBytes (e : Nat) (el hdr : List Byte) : Blk := ⟨unpackCodes (elemWidth e) 32 el, leNat hdr⟩

/-- The element bytes of a block. -/
def Blk.elBytes (b : Blk) (e : Nat) : List Byte := packCodes (elemWidth e) b.codes

/-- The header bytes of a block. -/
def Blk.hdrBytes (b : Blk) (sc : Nat) (packed : Bool) : List Byte := leBytes (Machine.hdrBytes sc packed) b.hdr

/-! ### Reductions (R95–R100) -/

/-- The canonical tree of R97 over a non-empty list. -/
def canonTree {α : Type} (add : α → α → α) (d : α) : Nat → List α → α
  | 0, l => l.headD d
  | f + 1, l =>
    if l.length ≤ 1 then l.headD d
    else
      let h := (l.length + 1) / 2
      add (canonTree add d f (l.take h)) (canonTree add d f (l.drop h))

/-- CANON over FP32 codes (R97). -/
def canon32 (l : List Nat) : Nat := canonTree add32 0 l.length l

/-- The exponent byte of one contributor for one block (R98). -/
def exactByte (vs : List Val) : Nat :=
  if vs.any (fun v => match v with | .fin .. => false | _ => true) then 0xFF
  else if vs.all Val.isZero then 0
  else match amax 9 vs with
    | some (n, d) => (min 254 (max 1 (flog2 n d + 127))).toNat
    | none => 0xFF

/-- The lane of one contribution for the global code `c` (R98): truncated toward zero. -/
def exactLane (c : Nat) (v : Val) : Int :=
  match v with
  | .fin s n d =>
    let (a, b) := scale2 n d (9 - ((c : Int) - 127))
    (if s then -1 else 1) * ((a / b : Nat) : Int)
  | _ => 0

/-- The exact value of a lane sum (R98). -/
def exactVal (c : Nat) (sum : Int) : Val :=
  if c = 0xFF then .nan
  else if c = 0 then .fin false 0 1
  else (Val.fin (decide (sum < 0)) sum.natAbs 1).scale ((c : Int) - 127 - 9)

/-- One element of an EXACT reduction, from the contributors' values of its block and its position. -/
def exactElem (blocks : List (List Val)) (i : Nat) : Val :=
  let c := (blocks.map exactByte).foldl max 0
  exactVal c ((blocks.map (fun b => exactLane c (b.getD i (.fin false 0 1)))).sum)

end Sys2Proof.Machine
end

