-- ==== Sys2Proof/Machine/Out.lean ====
section
/-!
DEFINITION. What the block gives to the outside: events, answers, interrupts, packets and writes to
host memory. `State.sent` keeps them, the latest first; the manual gives the block no such log, it
is the model's record of its outputs (log entry 2).
-/
namespace Sys2Proof.Machine

/-- Where a bus error is reported (R70). -/
inductive BusPath
  | pcieRead | pcieWrite | epjor | dict
  | device          -- an access below slice translation to a DPA that no region holds (R29)
deriving DecidableEq, Repr

/-- One output of the block. -/
inductive Out
  /-- an event with its data (R550) -/
  | event (rcpt : Recipient) (code a0 a1 a2 : Nat)
  /-- outcome of a dictionary write: abort code of Table 2-8 and failing entry -/
  | dictDone (p : Path) (status fail : Nat)
  /-- an Object Dictionary Protocol datagram to a source (R61) -/
  | odp (src : Nat) (bytes : List Byte)
  /-- acknowledgement of an I3C private write (R62) -/
  | i3cAck (ok : Bool)
  /-- bytes returned by an I3C private read -/
  | i3cRead (bytes : List Byte)
  /-- a bus error (R70) -/
  | busError (at_ : BusPath)
  /-- data of a BAR read completion, poisoned or not (R69) -/
  | barRead (data : List Byte) (poisoned : Bool)
  /-- an MSI-X vector of PF0 (false) or PF1 (true) -/
  | msix (pf1 : Bool) (vector : Nat)
  /-- Assert_INTx or Deassert_INTx of a function -/
  | intx (pf1 : Bool) (assert : Bool)
  /-- a write to host memory under a PASID (none: by PF0) -/
  | hostWrite (pasid : Option Nat) (addr : Nat) (bytes : List Byte)
  /-- a Control Strait message sent -/
  | cs (m : CsMsg)
  /-- a strait unit failed back to the engine that sent it, with that engine's error status (R21) -/
  | unitFailed (strait : Nat) (u : StraitUnit)
  /-- a completion written to the queue in a glove slot of a slice: tag, status, result, length -/
  | completion (slice slot tag status result len : Nat)
  /-- a request or answer sent on an Epjor port: type, tag, status, data -/
  | epjor (port typ tag status : Nat) (data : List Byte)
  /-- a transport packet sent for a connection on a logical port: header, counter, payload and tag -/
  | packet (conn lport : Nat) (bytes : List Byte)
  /-- an Ethernet frame sent on a logical port -/
  | frame (port : Nat) (bytes : List Byte)
  /-- a collective packet sent to a node: kind, group, call, data -/
  | coll (node kind group call : Nat) (data : List Byte)
  /-- emitted weights handed to the accelerators of a set's group: slice, set, first element (R223, R290) -/
  | emission (slice set elem : Nat) (data : List Byte)
  /-- a cohort message (Table 12-12) sent to a node of a job -/
  | cohort (node : Nat) (msg : List Byte)
  /-- a flit sent on an Epjor port, 256 bytes -/
  | flit (port : Nat) (bytes : List Byte)
  /-- what the lanes of an Epjor port carry of a flit's block (R234) -/
  | lanes (port : Nat) (bytes : List (Nat × List Byte))
  /-- an alignment marker on every active lane of an Epjor port (R234) -/
  | markers (port : Nat) (lanes : List Nat)
  /-- an ATS invalidation answered (R423) -/
  | atsAnswer (pasid page : Nat)
deriving DecidableEq, Repr

end Sys2Proof.Machine
end

