-- ==== Sys2Proof/Machine/StateLink.lean ====
section
/-!
DEFINITION. The state of the Epjor ports (chapter 8): training, link layer, transactions in flight in
both directions, and the remote route table of the switch (R274).
-/
namespace Sys2Proof.Machine

/-- Port states in the order of `PSTATE` (Table 8-7). -/
inductive LinkState
  | disabled | detect | equalise | align | config | active | retrain | down
deriving DecidableEq, Repr, Inhabited

/-- A numbered flit (R240); `tries` counts the replays that held it (R243). -/
structure Flit where
  hat   : Hat
  seq   : Nat
  body  : List Byte
  final : Bool
  tries : Nat
deriving DecidableEq, Repr, Inhabited

/-- A transaction of which flits have arrived on a virtual channel (R238): whether its tag was in flight already when its first
flit came (R249, R250), and whether its slice ended since (R266). -/
structure RxPart where
  hat   : Hat
  body  : List Byte
  flits : Nat
  bad   : Bool
  dup   : Bool
  abort : Bool
deriving DecidableEq, Repr, Inhabited

/-- A transaction that has arrived whole and is not yet served: the switch port it entered by, the binding in force at its
arrival (R269), and what `RxPart` says. -/
structure Arrival where
  txn     : Txn
  ingress : Nat
  bind    : Option Nat
  dup     : Bool
  abort   : Bool
deriving DecidableEq, Repr, Inhabited

/-- What a request of the SP9 to a partner serves: a collective buffer of a local rank, or the buffer of a
storage command (R286, R390). -/
inductive ReqOp
  | collRead (slot cseq rank off : Nat)
  | collWrite (slot cseq rank : Nat)
  | storRead (id off : Nat)
  | storWrite (id off : Nat)
deriving DecidableEq, Repr, Inhabited

/-- A request of the SP9: a READ of `len` bytes or a WRITE of `data`. -/
structure OwnReq where
  op    : ReqOp
  slice : Nat
  pasid : Nat
  addr  : Nat
  len   : Nat
  data  : Option (List Byte)
deriving DecidableEq, Repr, Inhabited

/-- A tag of the SP9's own space: free, in use, or quarantined (R251). -/
inductive OwnTag
  | free | used (r : OwnReq) | quarantined
deriving DecidableEq, Repr, Inhabited

/-- A transaction that waits for an egress: its ingress port, its flits, and whether they occupy that Epjor port's receive
buffer (R278). -/
structure Queued where
  ingress : Nat
  flits   : List Flit
  credit  : Bool
deriving DecidableEq, Repr, Inhabited

/-- The transactions that wait for one virtual channel of an egress: the flits left of the one being sent, the others, and the
ingress served last (R272, R278). -/
structure Egress where
  cur    : List Flit
  credit : Bool
  wait   : List Queued
  last   : Nat
deriving DecidableEq, Repr, Inhabited

/-- One Epjor port. Virtual channels are numbered as `VC`. -/
structure Port where
  st       : LinkState
  cause    : Nat             -- `DOWN_CAUSE`
  lanes    : Nat             -- `LANES_ACTIVE`
  excluded : Option Nat      -- lane spared
  failing  : List Nat        -- lanes to exclude at the retrain in progress
  retrains : List Nat        -- ticks of the entries to RETRAIN within the last second
  partner  : Nat             -- endpoint negotiated in CONFIG
  txSeq    : Nat
  replay   : List Flit       -- sent and not acknowledged, oldest first
  resend   : List Flit       -- of them, those to be sent again
  rxSeq    : Nat             -- FSEQ expected
  rxAny    : Bool
  nak      : Bool            -- a flit was discarded and the expected one has not arrived
  nakOwed  : Bool
  owed     : Bool            -- ACK or credits have changed since the last LCTL flit
  cred     : Store Nat       -- credits held, by channel
  seen     : Store Nat       -- the partner's cumulative credit field, by channel
  freed    : Store Nat       -- own cumulative credit field, by channel
  told     : Store Nat       -- its value in the LCTL flit sent last
  grant    : Store Nat       -- flits that the partner may send under the credit advertised to it, by channel
  part     : Store (Option RxPart)
  arrived  : List Arrival
  out      : Store Egress
  bulkNext : Bool            -- BULK is next of REQ and BULK
  busy     : Nat             -- slots since the last IDLE flit
  quiet    : Nat             -- slots since the last LCTL flit
  rxSince  : Bool            -- a numbered flit has arrived since then
  laneAt   : Nat             -- place among the active lanes of the next byte sent
  sinceMark : Nat            -- blocks sent since the last alignment marker
  tags     : List Hat        -- requests of the partner in flight
  own      : Store OwnTag
  ownWait  : List OwnReq     -- own requests that wait for a tag
deriving DecidableEq, Repr, Inhabited

end Sys2Proof.Machine
end

