-- ==== Sys2Proof/Machine/StateColl.lean ====
section
/-!
DEFINITION. The state of the collectives engine and the barrier hub (chapter 9): groups with their members,
calls and reductions in progress, barrier arrivals and the step boundary.
-/
namespace Sys2Proof.Machine

/-- A local member of a group (Table 9-4); `queue` is a device queue number. -/
structure Member where
  rank     : Nat
  accel    : Bool
  port     : Nat
  queue    : Nat
  endpoint : Nat
  pasid    : Nat
deriving DecidableEq, Repr, Inhabited

/-- Who waits for the answer to an arrival: an accelerator's SYNC, a call, or a kernel's `COLL`. -/
inductive Waiter
  | sync (p : Nat) (h : Hat)
  | call (q : QCtx)
  | cop (q num : Nat)
deriving DecidableEq, Repr

/-- A partial over `n` ranks from `lo`: one code for each element, in the pieces that have come, by the run's element that each
begins with. -/
structure CPart where
  lo   : Nat
  n    : Nat
  data : Store (List Nat)
deriving DecidableEq, Repr, Inhabited

/-- The reduction of one run of elements at this node (R287–R289): local contributions and partials in order of arrival;
under EXACT the exponent bytes and lane sums that other nodes pass on, by node and in pieces, the global bytes, the sum at the
owner, and what this node has passed on; and the nodes that marked the run incomplete. -/
structure Red where
  contrib : List (Nat × List Nat)
  parts   : List CPart
  exps    : Store (Store (List Nat))
  glob    : Store (List Nat)
  lanes   : Store (Store (List Nat))
  sum     : Option (List Nat)
  expOut  : Bool
  globOut : Bool
  laneOut : Bool
  marks   : List Nat
deriving DecidableEq, Repr, Inhabited

/-- One rank's post of a call; `late` where its queue's member of the STEP group had arrived already. -/
structure Post where
  q    : QCtx
  op   : Nat
  cmd  : CollCmd
  late : Bool
deriving DecidableEq, Repr, Inhabited

/-- A packet that waits: its kind and content. -/
structure HeldPkt where
  kind : Nat
  pkt  : CollPkt
deriving DecidableEq, Repr, Inhabited

/-- A call of a group. `send` holds the local ranks' send buffers, `want` counts reads of partners still out, `next` the runs
begun (for data that only moves, 1 once it is sent), `res` the results by run, rank or pair of ranks, in pieces by the element
each begins with, `owned` the own runs whose results have gone, `early` packets that came before the call's start here. -/
structure Call where
  cseq    : Nat
  posts   : List Post
  started : Bool
  seg     : Nat
  want    : Nat
  send    : Store (List Byte)
  next    : Nat
  reds    : Store Red
  res     : Store (Store (List Byte))
  owned   : List Nat
  early   : List HeldPkt
  writing : Bool
  writes  : Nat
  fail    : Option Nat
deriving DecidableEq, Repr, Inhabited

/-- States of a group. -/
inductive GroupState
  | free | creating | active | failed
deriving DecidableEq, Repr, Inhabited

/-- A collective group (R280–R284, R294–R296). -/
structure Group where
  st      : GroupState
  slice   : Nat
  id      : Nat
  step    : Bool
  only    : Bool            -- BARRIER_ONLY
  algo    : Nat
  ranks   : Nat             -- N
  index   : Nat             -- NODE_INDEX
  timeout : Nat
  nodes   : List (Nat × Nat)  -- endpoint and first rank of each node
  members : List Member
  stage   : Nat             -- STAGE_BYTES
  staged  : Nat             -- staging bytes in use, charged to the slice (R291)
  creator : Option QCtx     -- GROUP_CREATE in progress
  epoch   : Nat
  done    : Bool            -- at least one epoch has completed
  waiting : List (Nat × Waiter)  -- held arrivals by member
  arrived : List Nat        -- members that have arrived for the current epoch
  kids    : List Nat        -- child nodes that have arrived for it
  raised  : Bool            -- a STEP group's own arrival for it
  passed  : Bool            -- its ARRIVE has gone to the parent
  release : Option Nat      -- a step release that has come and is not yet carried out
  next    : Store Nat       -- next CSEQ, by rank
  calls   : List Call
  ended   : Nat             -- calls completed, in CSEQ order
  heldPkts : List HeldPkt   -- data packets held at the step boundary (R302)
deriving DecidableEq, Repr, Inhabited

end Sys2Proof.Machine
end

