-- ==== Sys2Proof/Machine/StateAttend.lean ====
section
/-!
DEFINITION. The state of cache-side attention and of the optimizer (chapter 7): ATTENDs in flight with what
they captured and their chunks, optimizer sets, tenant kernels and the near-memory sequencers' units.
-/
namespace Sys2Proof.Machine

/-- Life of a chunk. -/
inductive ChunkState
  | queued | running | done
deriving DecidableEq, Repr, Inhabited

/-- The partial of one row: FP32 codes of m and l, and of the elements of O (R206). -/
structure Part where
  m : Nat
  l : Nat
  o : List Nat
deriving DecidableEq, Repr, Inhabited

/-- What a row's weights on one block amount to: block index, row, sum and maximum at that block (R209). -/
structure Weight where
  grp : Nat
  blk : Nat
  row : Nat
  sum : Nat
  max : Nat
deriving DecidableEq, Repr, Inhabited

/-- A chunk (R206, R212): its group and positions, the island it is queued to, and its results by row. -/
structure Chunk where
  grp    : Nat
  lo     : Nat
  hi     : Nat
  island : Nat
  st     : ChunkState
  parts  : List Part
  stats  : List Weight
deriving DecidableEq, Repr, Inhabited

/-- An ATTEND in flight (R202–R216). `blocks` maps group·16,384 + block index to the block number captured,
`tails` a group to the window address of its captured tail. -/
structure Attend where
  port    : Nat
  hat     : Hat
  dim     : Nat              -- D
  elem    : Nat
  len     : Nat              -- captured committed length
  rows    : Nat              -- R
  heads   : Nat
  qfmt    : Nat
  scale   : Nat
  causal  : Bool
  qpos    : Nat
  deadline : Nat
  grp     : Nat
  ngrp    : Nat
  queries : List Byte
  blocks  : Store Nat
  tails   : Store Nat
  chunks  : List Chunk
deriving DecidableEq, Repr, Inhabited

/-- The last kernel fault of a set (R554). -/
structure OptFault where
  kind  : Nat
  cause : Nat
  unit  : Nat
  step  : Nat
  pc    : Nat
  info  : Nat
deriving DecidableEq, Repr, Inhabited

/-- An optimizer set (R217, R218) and its work on the generation being produced. Units of the reduction are
numbered from element 0, `grads` and everything after it by the unit's index in the shard. -/
structure OptSet where
  slice   : Nat
  pasid   : Nat
  hgen    : Nat              -- `GEN` of its handle
  id      : Nat
  kernel  : Nat
  slots   : Nat
  mode    : Nat
  gfmt    : Nat
  efmt    : Nat
  flags   : Nat
  tid     : Nat
  contrib : Nat
  elems   : Nat
  lo      : Nat
  hi      : Nat
  stateVa : Nat
  emitVa  : Nat
  gen     : Nat
  group   : Nat
  seed    : Nat
  copy    : Nat
  hyper   : List Nat
  newHyper : Option (List Nat)
  stalled : Bool
  skips   : List Nat
  fault   : OptFault
  releasing : Option QCtx    -- a RELEASE that waits for units in progress
  got     : Store (List (Nat × List Nat))  -- contributions by block of 32 elements: rank and FP32 codes
  reds    : Store Red
  marked  : Bool             -- this node has sent its INCOMPLETE marks for the generation
  grads   : Store (List Nat)
  sums    : Store (Nat × Nat)  -- norms of pass 1 (R224)
  applied : List Nat
  emitted : List Nat
  nonfin  : List Nat
  ratio   : Option Nat
deriving DecidableEq, Repr, Inhabited

/-- A unit handed to a sequencer: set index, unit, pass. -/
structure UnitRun where
  set  : Nat
  unit : Nat
  pass : Nat
deriving DecidableEq, Repr, Inhabited

/-- What the OPT engine knows of a near-memory sequencer (R229): the kernel and slice of its last unit, the
buffer set in use, and the unit it runs. -/
structure NmSeq where
  kernel : Option Nat        -- the kernel whose image is loaded; none where it must be loaded
  slice  : Option Nat        -- the slice that the region belongs to; none before its first unit and once that slice has ended
  buf    : Bool
  run    : Option UnitRun
deriving DecidableEq, Repr, Inhabited

/-- The OPT engine. -/
structure Opt where
  sets    : Store OptSet     -- by index
  gens    : Store Nat        -- `GEN` of the next handle of an index
  kernels : Store (Nat × List Byte)  -- tenant kernels by slice·256 + identifier: PASID of the queue that loaded it, image
  queue   : List UnitRun     -- units to be dispatched, in landing order
  nm      : Store NmSeq      -- near-memory sequencers 0–31
deriving DecidableEq, Repr, Inhabited

end Sys2Proof.Machine
end

