-- ==== Sys2Proof/Machine/StateNet.lean ====
section
/-!
DEFINITION. The state of the network islands (chapters 10 and 11): link states, classifier, exception ring,
connections of the transport, transmit queues, shapers, meters and samples.
-/
namespace Sys2Proof.Machine

/-- A classification entry (R312–R315); its valid bit is bit 63 of the action. -/
structure ClsEntry where
  key    : Nat
  mask   : Nat
  action : Nat
  hits   : Nat
deriving DecidableEq, Repr, Inhabited

/-- A packet in the exception ring: logical port and frame. -/
structure ExcPkt where
  lport : Nat
  frame : List Byte
deriving DecidableEq, Repr, Inhabited

/-- A receive buffer (R336). -/
structure RecvBuf where
  addr : Nat
  len  : Nat
  tag  : BitVec 32
deriving DecidableEq, Repr, Inhabited

/-- The receive buffers of a RECV queue by posting number, and how many were posted. -/
structure RecvQ where
  bufs   : Store RecvBuf
  posted : Nat
deriving DecidableEq, Repr, Inhabited

/-- Connection states (Table 10-7). -/
inductive ConnState
  | closed | listen | connecting | established | closing | error
deriving DecidableEq, Repr, Inhabited

/-- What a sequenced packet carries. WRITE, SEND and READ_RSP name their source memory, from which every
transmission reads the data (R328); `copy` is a WRITE to BUDDY space (R367). -/
inductive Body
  | write (raddr laddr len imm : Nat) (final notify first last : Bool)
  | readReq (raddr len : Nat)
  | readRsp (off laddr len : Nat) (first last : Bool)
  | atomic (raddr : Nat) (cas : Bool) (operand compare : Nat)
  | atomicRsp (old : Nat)
  | send (no off laddr len imm : Nat) (first last : Bool)
  | epjor (off : Nat) (data : List Byte) (first last : Bool)
  | copy (addr : Nat) (data : List Byte) (final : Bool)
  | coll (kind : Nat) (hdr data : List Byte)
  | cohort (no off : Nat) (data : List Byte) (first last : Bool)
deriving DecidableEq, Repr, Inhabited

/-- A sequenced packet in the replay record: its message number, transmissions so far, the time of the last,
whether the peer has marked it received, and whether it wants a transmission. -/
structure Sent where
  msn    : Nat
  body   : Body
  count  : Nat
  at_    : Nat
  acked  : Bool
  queued : Bool
deriving DecidableEq, Repr, Inhabited

/-- A work request in progress (Table 10-11), a local check's failure being done at once: bytes sent or asked
for, bytes placed. -/
structure Wr where
  q      : QCtx
  op     : Nat
  cas    : Bool
  cmd    : WrCmd
  msn    : Nat
  sent   : Nat
  got    : Nat
  done   : Bool
  status : Nat
deriving DecidableEq, Repr, Inhabited

/-- A SEND in arrival: bytes placed, total where the last packet has come, and its `IMM`. -/
structure RxSend where
  got   : Nat
  total : Nat
  imm   : Nat
deriving DecidableEq, Repr, Inhabited

/-- A transaction that waits for or travels a tunnel: ingress port and transaction (R337). -/
structure Tunnel where
  port : Nat
  txn  : Txn
  msn  : Nat
deriving DecidableEq, Repr, Inhabited

/-- A connection (R320–R336). -/
structure Conn where
  st      : ConnState
  device  : Bool
  slice   : Nat
  cls     : Nat
  enc     : Bool
  ipv4    : Bool
  anyPeer : Bool
  allow   : Nat             -- bit 0 write, 1 read, 2 atomic
  sq      : Nat
  rq      : Nat
  peer    : Nat
  rdv     : Nat
  pasid   : Nat
  kslot   : Nat
  laddr   : Nat
  incarn  : Nat
  pconn   : Nat             -- peer's connection number and incarnation
  pincarn : Nat
  starter : Bool            -- this side sent the CONNECT
  tries   : Nat             -- CONNECTs sent
  psn     : Nat             -- next PSN
  una     : Nat             -- peer's CUM
  recs    : List (Nat × Sent)  -- replay record in PSN order
  cum     : Nat
  got     : List Nat        -- PSNs above CUM received
  ce      : Nat             -- CE packets received
  unacked : Nat             -- in-order packets since the last ACK
  peerCe  : Nat
  rate    : Nat             -- MB/s
  lastCut : Nat             -- time of the last decrease, ns
  ceSeen  : Bool            -- an ACK raised CE_COUNT in this AI_INTERVAL
  pace    : Nat             -- time from which pacing lets the next packet go, ns
  timeouts : Nat            -- consecutive timeouts
  hold    : Bool            -- the peer holds (R334)
  msn     : Nat
  sendNo  : Nat
  wrs     : List Wr
  outs    : List (Nat × Body)  -- responses and transactions that have no PSN yet, with their MSN
  waited  : Bool             -- its next packet was found waiting on the slice bucket
  rqBase  : Nat              -- posting number of its first receive buffer
  rxSends : Store RxSend     -- SENDs in arrival, by number
  finals  : List XpPkt      -- FINAL packets that wait for lower PSNs
  part    : Store (List Byte)  -- EPJOR transactions in assembly, by MSN
  inMsn   : Nat             -- next MSN to hand to the switch
  ready   : Store Txn       -- assembled and waiting for an earlier MSN
  tunnels : List Tunnel
  closeRx : Bool            -- CLOSE received
  closeTx : Bool            -- CLOSE sent
  heldPsns : List Nat       -- PSNs held at a step boundary (R334)
  lastUse : Nat             -- time of the last tunnel traffic, ns
  status  : Nat             -- status of the command in progress or of the error
  opener  : Option QCtx     -- OPEN or LISTEN in progress
  group   : Option (Nat × Nat)  -- group slot and node that the collectives engine opened it for (R282)
deriving DecidableEq, Repr, Inhabited

/-- A token bucket: balance in 1/65,536 byte and the time of its last change, ns (R347). -/
structure Bucket where
  tok  : Int
  last : Nat
deriving DecidableEq, Repr, Inhabited

/-- A frame in a transmit queue: the connection and PSN of a sequenced packet, and the time of enqueue. -/
structure TxPkt where
  frame : List Byte
  seq   : Option (Nat × Nat)
  at_   : Nat
deriving DecidableEq, Repr, Inhabited

/-- Statistics of a transmit queue: over the samples of the running window since it first held a packet,
then those of the last window (R356). -/
structure QStat where
  n     : Nat
  dMin  : Nat            -- depth, bytes
  dSum  : Nat
  dMax  : Nat
  yMin  : Nat            -- head delay, ns
  ySum  : Nat
  yMax  : Nat
  latched : List Nat     -- minimum, mean and maximum of depth and of delay of the last window
  sent  : Nat
  bytes : Nat
  discards : Nat
deriving DecidableEq, Repr, Inhabited

/-- A transmit queue of a logical port (R342–R347). -/
structure TxQueue where
  pkts : List TxPkt
  tag  : Nat
  shaper : Option Bucket    -- none: full since the last module reset
  guar : Option Bucket
  stat : QStat
deriving DecidableEq, Repr, Inhabited

/-- A slice shaper in one network island (R348). -/
structure Shaper where
  bucket : Option Bucket
  waits  : Nat
deriving DecidableEq, Repr, Inhabited

/-- One island's instance of a policer (R353): none where the buckets are full. -/
structure Meter where
  c : Option Bucket
  e : Option Bucket
deriving DecidableEq, Repr, Inhabited

/-- The network islands. -/
structure Net where
  now    : Nat              -- latest time that a command told, ns since the module reset
  up     : Nat              -- bit l: logical port l is up
  cls    : Store ClsEntry
  exc    : List ExcPkt
  excDone : Nat             -- exception packets that the firmware dropped after counting them (R316)
  excTok : Option Bucket
  spread : Store (List Byte)  -- spreading records by slice
  addrs  : Store Nat        -- address table entries, 32 bytes
  recv   : Store RecvQ      -- by slice·1024 + glove slot
  conns  : Store Conn
  incarn : Store Nat        -- incarnations of connections not listed, as steps from their start
  xpIn   : List XpPkt       -- transport packets given to the engine and not yet served
  toTunnel : List Txn       -- answers of this SP9 to transactions that came through a tunnel
  qcfg   : Store Nat        -- Q_CONFIG records by port·2048 + queue, where not the default
  txq    : Store TxQueue    -- by logical port·2048 + queue
  vtime  : Store Nat        -- virtual time by logical port
  samples : Store Nat       -- samples of the running window by logical port
  winLast : Store Nat       -- samples of the last window by logical port
  winEnd : Nat              -- tick at which the last window ended
  sscfg  : Store Nat        -- SS_CONFIG records by slice + 512·island
  ss     : Store Shaper
  polcfg : Store Nat
  meters : Store Meter      -- by policer + 4,096·island
  polst  : Store Nat        -- policer counters by policer·8 + item
deriving DecidableEq, Repr, Inhabited

end Sys2Proof.Machine
end

