-- ==== Sys2Proof/Machine/StateCkpt.lean ====
section
/-!
DEFINITION. The state of checkpointing (chapter 12): jobs with their regions, notices, generations, census and
buddy areas, and the checkpoint copies on flash.
-/
namespace Sys2Proof.Machine

/-- Job states in the order of Table 12-8. -/
inductive JobState
  | none | armed | stopped | census | recovering | fenced
deriving DecidableEq, Repr, Inhabited

/-- Generation phases in the order of Table 12-5; `none` where there is no generation. -/
inductive Phase
  | none | marked | cut | copying | copied | committed | draining | secured | abandoned
deriving DecidableEq, Repr, Inhabited

/-- A registered region (Table 12-2). -/
structure CkRegion where
  id     : Nat
  fmt    : Nat
  ndims  : Nat
  va     : Nat
  pasid  : Nat
  dims   : List Nat
  start  : List Nat
  extent : List Nat
deriving DecidableEq, Repr, Inhabited

/-- A notice: whether it is a pre-emption notice, the tick of its deadline (0: none), its source (0 another node,
1 dictionary, 2 admin ring), the tag of the admin commands it answers, and whether node 0 has acknowledged it. -/
structure Notice where
  pre      : Bool
  deadline : Nat
  source   : Nat
  tags     : List (BitVec 32)
  acked    : Bool
deriving DecidableEq, Repr, Inhabited

/-- A census view (R375): nodes of the side, the two highest committed generations with the old node indices
whose copies the view's nodes hold verified. -/
structure View where
  side : List Nat
  gens : List (Nat × List Nat)
deriving DecidableEq, Repr, Inhabited

/-- A RESTORE in progress (R379–R382): its generation and the node table of the old cohort. -/
structure CkRestore where
  q      : QCtx
  gen    : Nat
  nodes  : List Nat
deriving DecidableEq, Repr, Inhabited

/-- A command of a CKPT queue that waits behind a RESTORE of its job (R189, R358): its descriptor, and what the holders of its copy
answer and where its buffer lies, for the commands that need them. -/
structure CkWait where
  q       : QCtx
  desc    : List Byte
  host    : Bool
  answers : List HolderCopy
deriving DecidableEq, Repr

/-- A job (R358–R377). `image` is this node's own serialised copy of the generation in progress and `imageC` that of the
committed one until its own FLUSH, `buddy` the area held for its predecessor, `taking` whether the predecessor's copy may be
written to it; `ups` are the nodes that each child's COPIED report counts, `secs` the same for SECURED. -/
structure Job where
  id       : Nat
  bytes    : Nat
  anchor   : Nat
  st       : JobState
  phase    : Phase
  regions  : List CkRegion
  nodes    : List Nat         -- endpoints of the cohort, by node index
  index    : Nat
  ranks    : Nat
  notice   : Option Notice    -- waits for a cut
  attached : Option Notice    -- belongs to the generation in progress
  noticeC  : Option Notice    -- belongs to the committed generation, which is not SECURED yet
  status   : Nat              -- NOTICE_STATUS
  source   : Nat
  genC     : Nat              -- GEN_COMMITTED
  genS     : Nat              -- GEN_SECURED
  genP     : Nat              -- GEN_PENDING
  cutTick  : Nat
  slotB    : Bool             -- flash slot of the next drain
  lba      : Nat              -- first logical block of its four flash slots in the checkpoint space (R386)
  image    : List Byte
  imageC   : List Byte
  unread   : List Nat         -- frames of regions that the copy engine has yet to read (R365)
  buddy    : List Byte
  buddyGen : Nat              -- generation that the area holds verified; 0 none
  taking   : Bool
  verified : Bool             -- the predecessor's copy of genP is verified
  ups      : Store Nat
  secs     : Store Nat
  mark     : Nat              -- 1 + epoch named by MARK
  acks     : List Nat         -- children that have acknowledged MARK
  incident : Nat
  decision : Nat              -- 0 none, 1 CONTINUE, 2 FENCE, 3 UNRECOVERABLE
  view     : View
  missing  : List Nat
  restoreGen : Nat
  beats    : Store Nat        -- 1 + tick of the last heartbeat from each census link
  heard    : List Nat         -- nodes that a message of this job has come from since it was bound (R359)
  restore  : Option CkRestore
  waiting  : List CkWait      -- commands behind the RESTORE, oldest first
  imports  : Store (List Byte) -- images taken from slice buffers, by old node index (R382)
  old      : List Nat         -- the node table held before a rebind (R379)
  resize   : Option Nat       -- the size that the buddy area takes at the next step boundary (R379)
  tie      : Nat              -- TIE_ANCHOR of the last committed manifest (R376)
  viewTick : Nat              -- tick of the last change of the census view
  asked    : List Nat         -- children that wait for a NOTICE_ACK
  flags    : Nat              -- BUDDY_ONLY among the SECURED reports of this node's subtree
  stopAfter : Bool            -- a pre-emption notice came during CENSUS or RECOVERING
deriving DecidableEq, Repr, Inhabited

/-- A copy on flash (R370): job, generation, own or predecessor's, slot, the first of its logical blocks in the checkpoint space, its
length, and its blocks as ciphertext (R400). -/
structure FlashCopy where
  job   : Nat
  gen   : Nat
  pred  : Bool
  slotB : Bool
  lba   : Nat
  len   : Nat
  data  : List Byte
deriving DecidableEq, Repr, Inhabited

/-- Checkpointing: jobs by slice, and what the flash tier keeps. -/
structure Ckpt where
  jobs   : Store Job
  copies : List FlashCopy
deriving DecidableEq, Repr, Inhabited

end Sys2Proof.Machine
end

