-- ==== Sys2Proof/Machine/StateFlash.lean ====
section
/-!
DEFINITION. The state of the flash tier (chapter 13): volumes, write buffer, map and journal, physical
pages and blocks, and the storage commands in progress. A block key is space·2^34 + block number, with
the space codes of Table 13-2; a unit key is a block key div 4; a physical page is named as in R401.
-/
namespace Sys2Proof.Machine

/-- Tier states in the order of `TIER_STATE`. -/
inductive Tier
  | unmounted | mounting | rw | readOnly | failed
deriving DecidableEq, Repr, Inhabited

/-- A volume (R387). -/
structure Volume where
  size   : Nat
  owner  : Nat
  valid  : Bool
  ro     : Bool
  hostWr : Nat
  rd     : Nat
deriving DecidableEq, Repr, Inhabited

/-- A block in the write buffer: data, acceptance number, whether its unit has been programmed since, and
whether a sector that held it was uncorrectable (R391, R393, R403, R414). -/
structure BufBlock where
  data : List Byte
  seq  : Nat
  old  : Nat              -- acceptance number of the oldest write of the block that no program covers yet
  prog : Bool
  bad  : Bool
deriving DecidableEq, Repr, Inhabited

/-- A map entry: 1 + physical page, and the blocks of the unit that are trimmed (R395, R401). -/
structure MapEnt where
  page : Nat
  dead : List Nat
deriving DecidableEq, Repr, Inhabited

/-- A programmed physical page: the unit it was written for, and its four blocks as ciphertext (none for
a block never written), with those that read uncorrectably (R400, R409), and whether a relocation wrote
it. -/
structure FPage where
  copy : Bool
  unit : Nat
  data : List (Option (List Byte))
  bad  : List Nat
deriving DecidableEq, Repr, Inhabited

/-- Life of a physical block. A failing block is retired once its valid units are relocated. -/
inductive PState
  | free | used | failing | eraseOpen | erasing | retired
deriving DecidableEq, Repr, Inhabited

/-- The block table's entry (R401, R407, R411, R412). -/
structure PBlk where
  st      : PState
  erases  : Nat
  reads   : Nat
  suspect : Bool
  susp    : Nat              -- suspensions of the erase in progress
  cell    : Bool             -- a cell fault raised its read-disturb priority (R410)
deriving DecidableEq, Repr, Inhabited

/-- Journal records (R402), with the acceptance number up to which each makes writes durable. -/
inductive JRec
  | map (unit page seq : Nat)
  | trim (first count seq : Nat)
  | relocate (unit src copy : Nat)
  | eraseOpen (blk : Nat)
  | eraseDone (blk : Nat)
  | columnSkip (group col : Nat)
  | retire (blk : Nat)
  | volume (v : Nat) (clear : Bool)
deriving DecidableEq, Repr, Inhabited

/-- Storage operations in progress. -/
inductive StorOp
  | write | read | flush | query | trim
deriving DecidableEq, Repr, Inhabited

/-- Where a storage buffer lies (R390). -/
inductive BufSpace
  | slice | host | accel (port : Nat)
deriving DecidableEq, Repr, Inhabited

/-- A storage command in progress: `data` holds the blocks of a WRITE, empty where they have not come; `want`
counts requests to an accelerator still out, `fail` is the status of a transfer that failed part-way, and a
`held` READ waits for an erase that can be suspended no more. -/
structure StorCmd where
  id    : Nat
  want  : Nat
  fail  : Option Nat
  held  : Bool
  q     : QCtx
  op    : StorOp
  vol   : Nat
  lba   : Nat
  count : Nat
  space : BufSpace
  buf   : Nat
  done  : Nat
  data  : List (List Byte)
  seq   : Nat               -- FLUSH: acceptance number at its start
deriving DecidableEq, Repr, Inhabited

/-- A command beyond the 65,536 in progress, which waits in its queue (R388): its descriptor, and what its buffer in host memory holds,
or that it can be reached. -/
structure StorWait where
  q    : QCtx
  desc : List Byte
  data : Option (List Byte)
  host : Bool
deriving DecidableEq, Repr

/-- The flash tier. `first`: collection takes priority over the drain (R404). `worn`: READ_ONLY, which nothing leaves (R413); `lost`: the ranges of blocks whose
content a power loss or reset left open (R397), first block and count. `map` is FI's map in the reserve; `dmap` is what replay of the persisted journal gives. -/
structure Flash where
  tier    : Tier
  worn    : Bool
  lost    : List (Nat × Nat)
  vols    : Store Volume
  buf     : Store BufBlock
  seq     : Nat
  map     : Store MapEnt
  dmap    : Store MapEnt
  pages   : Store FPage
  blks    : Store PBlk
  waiting : List JRec        -- records in FI's SRAM
  flight  : List JRec        -- records of the journal checkpoint being programmed
  jseq    : Nat              -- sequence number of the last persisted checkpoint
  snap    : Nat              -- next map segment to snapshot
  cols    : Store (List Nat) -- skipped columns, by plane and block group
  cmds    : List StorCmd
  queued  : List StorWait    -- oldest first
  first   : Bool
  spare   : Nat              -- blocks of the spare pool
deriving DecidableEq, Repr, Inhabited

end Sys2Proof.Machine
end

