-- ==== Sys2Proof/Machine/State.lean ====
section
/-!
DEFINITION. The state of the SP9 block, the reasons a step can stop, and the state after reset.
-/
namespace Sys2Proof.Machine

/-- Why a command could fault. The manual gives every command of the table an effect or an
answer, so no meaning of this model raises one. -/
inductive Fault
  /-- kept so that the type is not empty; raised by no meaning: safe -/
  | noEffect
deriving DecidableEq, Repr

/-- Why a command could be refused. -/
inductive Refusal
  /-- raised by an arm of `exec` for a command without a meaning in this model: safe -/
  | notModelled (mnemonic : String)
deriving DecidableEq, Repr

/-- Everything the manual gives the block, and the queue of commands that wait. -/
structure State where
  pins  : Pins
  mod   : Module
  dict  : Dict
  host  : HostSide
  adm   : Admin
  launches : List Launch
  keys  : Keys
  nor   : Nor
  firm  : Firm
  pow   : PowerCtl
  rcd   : Recorder
  mem   : List Host.Cell      -- bytes of the device address map that are not zero
  poison : Store Bool         -- poisoned 64-byte sectors, by DPA div 64
  mis   : List MemIsland      -- MI0–MI3
  kv    : Kv
  flash : Flash
  ports : Store Port          -- the Epjor ports 0–7
  net   : Net
  groups : Store Group        -- collective groups, by group slot
  routes : Store Nat          -- remote route entries, by endpoint (R274)
  attends : Store Attend      -- ATTENDs in flight, 0–2,047
  opt   : Opt
  ckpt  : Ckpt
  routeCache : List Nat       -- endpoints whose entries the switch holds, latest first
  spBad : Store Bool          -- uncorrectable scratchpad words, by DPA div 32 (R107)
  seqs  : Store Seqr          -- the sequencers 0–48
  share : Store TimeShare     -- by tensor island
  mgiHold : List HeldMsg      -- what MGI's port holds, in arrival order (R28)
  sent  : List Out
  fresh : Nat
  pending : List Instr
deriving DecidableEq, Repr

/-- An island right after a module reset: OFF, its clock nominal, no thermal limit (Table 1-2, R514). -/
def Island.reset (n : Nat) : Island :=
  { (default : Island) with
    clk := (islandClock n).1, ceiling := (islandClock n).2.2, onTime := 16
    istate := if n = 23 ∨ n = 25 then .selftest else .off }

/-- The module's frame after a module reset (Table 1-10, R482): BOOT, with MGI and HI in self-test. -/
def Module.reset : Module := { (default : Module) with
  islands := (List.range 26).map Island.reset
  shown := (List.range 26).map (fun n => { (default : IslandView) with clk := (islandClock n).1, counts := [0, 0, 0, 0] }) }

/-- The object dictionary with every object at its default, and the register surfaces at their reset values. -/
def Dict.reset : Dict := { (default : Dict) with mbx := { (default : Mbx) with fail := 0xFFFF } }

/-- The power controller: nothing read, nothing limited (Table 17-4). -/
def PowerCtl.reset : PowerCtl :=
  { (default : PowerCtl) with duty := 16, dutyNow := 16, memLimit := 16, linkStep := 16 }

/-- A memory island with its four stacks in order. -/
def MemIsland.reset : MemIsland :=
  { (default : MemIsland) with stackSt := List.replicate 4 .ok, trainFails := List.replicate 4 0 }

/-- The machine right after the reset of the first power-on: `PERST_N` has been released. Values that the
manual does not give are those of log entry 4. -/
def State.reset : State where
  pins := { bias := true, regs := true, rails := true, pwrOk := true, perst := true, inReset := false
            thermtrip := false, ref100 := true, ref156 := true, cables := 0xFFF }
  mod := Module.reset
  dict := Dict.reset
  host := default
  adm := default
  launches := []
  keys := { (default : Keys) with times := List.replicate 6 0 }
  nor := { (default : Nor) with boots := 1, keyDigest := List.replicate 48 0 }
  firm := default
  pow := PowerCtl.reset
  rcd := default
  mem := []
  poison := []
  mis := List.replicate 4 MemIsland.reset
  kv := default
  flash := { (default : Flash) with spare := 524288 }
  ports := []
  net := default
  groups := []
  routes := []
  attends := []
  opt := default
  ckpt := default
  routeCache := []
  spBad := []
  seqs := []
  share := []
  mgiHold := []
  sent := []
  fresh := 0
  pending := []

end Sys2Proof.Machine
end

