-- ==== Sys2Proof/Machine/Ops.lean ====
section
/-!
DEFINITION. Operations that the meanings share: outputs, dictionary values and counters, events and
their delivery, interrupts, admin completions, queue completions, islands and function bits.
-/
namespace Sys2Proof.Machine

/-- The result of a meaning. -/
abbrev Res := Host.Outcome State Fault Refusal

/-- Record an output. -/
def State.emit (s : State) (o : Out) : State := { s with sent := o :: s.sent }

/-- The next free-value index; `State.tick1` moves on from it. -/
def State.tick1 (s : State) : State := { s with fresh := s.fresh + 1 }

/-- A Control Strait message without further data. -/
def csm (dest src cls payload : Nat) : CsMsg := ⟨dest, src, cls, payload, 0, 0, 0⟩

/-! ### Dictionary values -/

/-- The row of the object tables for an index and subindex. -/
def findRow (idx sub : Nat) : Option ObjRow :=
  objRows.find? (fun r => decide (r.base ≤ idx) && decide (idx < r.base + r.count) &&
    decide (r.sub ≤ sub) && decide (sub < r.sub + r.subs))

/-- The default of an object (R42); `3510+c:10` defaults to its class number. -/
def objDflt (key : Nat) : Nat :=
  let idx := key / 256
  let sub := key % 256
  if 0x3510 ≤ idx && idx ≤ 0x351F && sub == 0x10 then idx - 0x3510
  else match findRow idx sub with
    | some r => r.dflt
    | none => 0

/-- The value of an object held in the dictionary's store. -/
def State.obj (s : State) (idx sub : Nat) : Nat :=
  look (objDflt (idx * 256 + sub)) s.dict.obj (idx * 256 + sub)

/-- Set an object of the dictionary's store. -/
def State.setObj (s : State) (idx sub v : Nat) : State :=
  { s with dict := { s.dict with
      obj := put (objDflt (idx * 256 + sub)) s.dict.obj (idx * 256 + sub) v } }

/-- Add to a 48-bit counter, which wraps (R72). -/
def State.count (s : State) (idx sub n : Nat) : State :=
  s.setObj idx sub (wrap48 (s.obj idx sub + n))

/-- Add to a counter that saturates at `m`. -/
def State.countSat (s : State) (idx sub m n : Nat) : State :=
  s.setObj idx sub (satAdd m (s.obj idx sub) n)

/-- Apply the writes pending for a boundary to the objects of the store, in one step (R46), and drop
them from the pending list. Objects with an effect of their own are applied by the tick commit. -/
def State.applyPlain (s : State) (b : Boundary) : State :=
  (s.dict.pend.filter (fun w => w.bnd == b)).foldl
    (fun t w => t.setObj (w.key / 256) (w.key % 256) w.value)
    { s with dict := { s.dict with pend := s.dict.pend.filter (fun w => w.bnd != b) } }

/-! ### Islands and function bits -/

/-- Island n. -/
def State.island (s : State) (n : Nat) : Island := s.mod.islands.getD n default

/-- Change island n. -/
def State.setIsland (s : State) (n : Nat) (f : Island → Island) : State :=
  { s with mod := { s.mod with islands := s.mod.islands.modify n f } }

/-- Whether island n has its readiness bit set. -/
def State.isReady (s : State) (n : Nat) : Bool := (s.island n).ready

/-- Whether MGI, HI and MI0–MI3 are all ready (Table 1-9). -/
def State.coreReady (s : State) : Bool := [25, 23, 16, 17, 18, 19].all s.isReady

/-- Whether function bit `b` of `1010:02` is set. -/
def State.fn (s : State) (b : Nat) : Bool := bit s.mod.fns b

/-! ### Interrupts of PF0 and the admin completion ring (R65, R485, R486) -/

/-- Bring PF0's INTx to the level that R65 gives it, sending the message of a change. -/
def State.syncPf0 (s : State) : State :=
  let p := s.host.pf0
  let want := !p.msixEnable && !p.intxDisable && (s.dict.mbx.done || s.adm.cqTail != s.adm.cqHead)
  if want = p.intx then s
  else ({ s with host := { s.host with pf0 := { p with intx := want } } }).emit (.intx false want)

/-- Send MSI-X vector `v` of PF1 or PF0; where the function or the vector is masked, its pending bit is set instead (R424). -/
def State.msixSend (s : State) (pf1 : Bool) (v : Nat) : State :=
  let p := if pf1 then s.host.pf1 else s.host.pf0
  if p.fnMask || p.masked.contains v then
    let q := { p with pba := insSet p.pba v }
    { s with host := if pf1 then { s.host with pf1 := q } else { s.host with pf0 := q } }
  else s.emit (.msix pf1 v)

/-- Signal a vector of PF0: MSI-X where enabled, else by the level of INTx. -/
def State.signalPf0 (s : State) (v : Nat) : State :=
  let t := if s.host.pf0.msixEnable then s.msixSend false v else s
  t.syncPf0

/-- A 16-byte entry of the admin completion ring (R427, R486). -/
def admEntry (lo status result tag : Nat) : Nat :=
  lo % 2 ^ 32 + 2 ^ 32 * (status % 256) + 2 ^ 64 * (result % 2 ^ 32) + 2 ^ 96 * (tag % 2 ^ 32)

/-- Whether the admin completion ring is full (R485). -/
def Admin.full (a : Admin) : Bool := (a.cqTail + 2 ^ 32 - a.cqHead) % 2 ^ 32 == 32

/-- Write an entry to the admin completion ring, advance `CQ_TAIL` and signal vector 1, or hold it
while the ring is full (R485). -/
def State.admPush (s : State) (e : Nat) : State :=
  if s.adm.full || !s.adm.waiting.isEmpty then
    { s with adm := { s.adm with waiting := s.adm.waiting ++ [e] } }
  else
    ({ s with adm := { s.adm with
        comp := put 0 s.adm.comp (s.adm.cqTail % 32) e
        cqTail := (s.adm.cqTail + 1) % 2 ^ 32 } }).signalPf0 1

/-- The completion of an admin command (R427); none where the ring was reset under it. -/
def State.admDone (s : State) (lo status result : Nat) (tag : BitVec 32) : State :=
  let t := { s with adm := { s.adm with
    started := s.adm.started.erase tag.toNat, discard := s.adm.discard.erase tag.toNat } }
  if s.adm.discard.contains tag.toNat then t
  else t.admPush (admEntry lo status result tag.toNat)

/-! ### Slices, steering and events -/

/-- Slice n. -/
def State.slice (s : State) (n : Nat) : Slice := sget s.host.slices n

/-- Change slice n. -/
def State.setSlice (s : State) (n : Nat) (f : Slice → Slice) : State :=
  { s with host := { s.host with slices := smod s.host.slices n f } }

/-- Whether slice n exists. -/
def State.sliceExists (s : State) (n : Nat) : Bool := (s.slice n).st != .free

/-- Whether the glove page of slice n answers: its slice exists and is not being destroyed (R66, R433). -/
def State.gloveThere (s : State) (n : Nat) : Bool := (s.slice n).st != .free && (s.slice n).st != .destroying

/-- Whether the queues of a slice act on doorbells now (R439, R552). -/
def State.doorbellsLive (s : State) (sl : Nat) : Bool :=
  decide ((s.slice sl).st = .active) && decide (s.mod.svc ≠ .recovery)

/-- The numbers of the slices that exist. -/
def State.sliceIds (s : State) : List Nat :=
  (s.host.slices.filter (fun e => e.2.st != .free)).map Prod.fst

/-- The count of PF1's entries with `ENABLE` and `PENDING` set (R424). -/
def State.pf1Count (s : State) : Nat :=
  (s.host.slices.map (fun e => (e.2.steer.filter (fun t => t.2.enable && t.2.pending)).length)).sum

/-- Bring PF1's INTx to the level that R424 gives it. -/
def State.syncPf1 (s : State) : State :=
  let p := s.host.pf1
  let want := !p.msixEnable && !p.intxDisable && s.pf1Count != 0
  if want = p.intx then s
  else ({ s with host := { s.host with pf1 := { p with intx := want } } }).emit (.intx true want)

/-- Change a steering entry. -/
def State.setSteer (s : State) (sl e : Nat) (f : Steer → Steer) : State :=
  s.setSlice sl (fun x => { x with steer := smod x.steer e f })

/-- Let an entry with `ENABLE` and `PENDING` set interrupt the host (R424): by MSI-X where enabled,
clearing `PENDING`, unless it signalled less than `MOD_US` ago; else by the level of INTx. -/
def State.steerFire (s : State) (sl e : Nat) : State :=
  let x := s.slice sl
  let t := sget x.steer e
  if t.enable && t.pending && !t.quiet && s.host.pf1.msixEnable then
    let u := s.setSteer sl e (fun y => { y with pending := false, quiet := decide (y.modUs ≠ 0) })
    (if t.vector < x.quota.msix then u.msixSend true (x.msixBase + t.vector) else u).syncPf1
  else s.syncPf1

/-- A source signals its steering entry (R424). -/
def State.steerSignal (s : State) (sl e : Nat) : State :=
  (s.setSteer sl e (fun t => { t with pending := true })).steerFire sl e


/-- Add to a glove usage counter of a slice (R519, Table 18-1). -/
def State.use (s : State) (sl i n : Nat) : State :=
  s.setSlice sl (fun x => { x with live := put 0 x.live i (wrap48 (look 0 x.live i + n)) })

/-! ### Queues of the Epjor ports (R238, R257, R278) -/

/-- The flits of a transaction, not yet numbered (R238). -/
def segment (h : Hat) : Nat → List Byte → List Flit
  | 0, bs => [⟨h, 0, bs, true, 0⟩]
  | k + 1, bs =>
    if bs.length ≤ 232 then [⟨h, 0, bs, true, 0⟩]
    else ⟨h, 0, bs.take 232, false, 0⟩ :: segment h k (bs.drop 232)

/-- The flits of a transaction. -/
def hatFlits (h : Hat) (body : List Byte) : List Flit := segment h (body.length / 232) body

/-- The virtual channel of a type (Table 8-4): 0 REQ, 1 RSP, 2 BULK, 3 CTL. -/
def typeVc (t : Nat) : Nat :=
  if t = 0x03 ∨ t = 0x08 then 0
  else if t = 0x05 ∨ t = 0x06 ∨ t = 0x0A ∨ t = 0x0C then 2
  else if [0x0E, 0x0F, 0x10, 0x11, 0x01, 0x02].contains t then 3
  else if t = 0 then 0
  else 1



def State.port (s : State) (p : Nat) : Port := sget s.ports p
def State.setPort (s : State) (p : Nat) (f : Port → Port) : State := { s with ports := smod s.ports p f }

/-- The object index of a port. -/
def portObj (p : Nat) : Nat := 0x3000 + p

/-- Whether a port carries traffic or keeps it (R273). -/
def Port.usable (x : Port) : Bool := x.st == .active || x.st == .retrain

/-- `SELF_EP` where valid (R305). -/
def State.selfEp (s : State) : Option Nat :=
  let v := s.obj 0x3100 1
  if bit v 31 then some (bits v 20 0) else none

/-- `PARTNER_EP` of a port. -/
def State.partnerEp (s : State) (p : Nat) : Nat := bits (s.obj (portObj p) 3) 20 0

/-- The valid bindings of a port (Table 8-9). -/
def State.binds (s : State) (p : Nat) : List Nat :=
  ((List.range 16).map (fun i => s.obj (portObj p) (0x20 + i))).filter (fun v => bit v 31)

/-- The port number that stands for the transport's tunnels: transactions from and to other SP9s (R273, R337). -/
def tunnelPort : Nat := 8

/-- An event after its position: the code and the 22 data bytes (R550). The last of the three data words takes bytes 12 to 21; an
event of the SP9 leaves 20 and 21 zero. -/
def eventBytes (code a0 a1 a2 : Nat) : List Byte :=
  leBytes 2 code ++ leBytes 4 a0 ++ leBytes 8 a1 ++ leBytes 10 a2

/-- Put a transaction into the queue of its virtual channel of a port from an ingress (R278), whose receive buffer it occupies
or not; a port out
of use takes none. What goes back through a tunnel waits for EPJOR_FORWARD. -/
def State.queueOn (s : State) (p ingress : Nat) (credit : Bool) (h : Hat) (body : List Byte) : State :=
  if p = tunnelPort then { s with net := { s.net with toTunnel := s.net.toTunnel ++ [⟨h, body, true⟩] } }
  else if !(s.port p).usable then s
  else
    s.setPort p (fun x => { x with out := smod x.out h.vc.toNat (fun e => { e with
      wait := e.wait ++ [⟨ingress, hatFlits h body, credit⟩] }) })

/-- The ingress number of what the switch island's own engines send: they sit beside the ports of Table 9-1. -/
def ownIngress : Nat := 20

/-- Queue what the SP9 itself sends. -/
def State.sendOn (s : State) (p ingress : Nat) (h : Hat) (body : List Byte) : State := s.queueOn p ingress false h body

/-- The Hat of something the SP9 sends to the partner of a port for a slice. -/
def State.hatTo (s : State) (p typ sl pasid ttag : Nat) : Hat where
  ver := 1
  typ := BitVec.ofNat 5 typ
  vc := BitVec.ofNat 2 (typeVc typ)
  dest := BitVec.ofNat 21 (s.partnerEp p)
  src := BitVec.ofNat 21 (s.selfEp.getD 0)
  stag := BitVec.ofNat 9 sl
  pasid := BitVec.ofNat 20 pasid
  ttag := BitVec.ofNat 12 ttag
  enc := false
  defer := false
  kslot := 0
  rsv := false

/-- Send an EVENT with its 24 body bytes (R257), under the PASID of the slice's first binding there. -/
def State.sendEvent (s : State) (p sl code a0 a1 a2 : Nat) : State :=
  let pasid := (((s.binds p).find? (fun v => bits v 28 20 == sl)).map (fun v => bits v 19 0)).getD 0
  (s.sendOn p ownIngress (s.hatTo p 0x11 sl pasid 0) (eventBytes code a0 a1 a2)).use sl 13 1

/-- Send an event as an Epjor EVENT on every port that entry 0 names in `PORTS` (R257, R435). -/
def State.portEvents (s : State) (sl code a0 a1 a2 : Nat) : State :=
  let ports := (sget (s.slice sl).steer 0).ports
  (List.range 8).foldl (fun t p => if bit ports p then t.sendEvent p sl code a0 a1 a2 else t) s

/-- Write an event to the ring of a slice, or count it lost where the ring holds 120 (R435). -/
def State.ringEvent (s : State) (sl code a0 a1 a2 : Nat) : State :=
  let x := s.slice sl
  if x.st = .free then s
  else
    let t :=
      if (x.evTail + 2 ^ 32 - x.evHead) % 2 ^ 32 = 120 then
        s.setSlice sl (fun y => { y with evLost := satAdd (2 ^ 32 - 1) y.evLost 1 })
      else
        (s.setSlice sl (fun y => { y with
          ring := sput y.ring (y.evTail % 120) ⟨code, a0, a1, a2, s.mod.tick⟩
          evTail := (y.evTail + 1) % 2 ^ 32 })).steerSignal sl 0
    t.portEvents sl code a0 a1 a2

/-- Deliver an event to one recipient (R550): the operator, the manager's admin ring while it runs
(R486), or a slice's event ring. While MGI's port holds messages, the NOTICE of the event waits there (R28). -/
def State.event (s : State) (r : Recipient) (code a0 a1 a2 : Nat) : State :=
  if s.mod.holding then { s with mgiHold := s.mgiHold ++ [.notice r code a0 a1 a2] }
  else
    let t := s.emit (.event r code a0 a1 a2)
    match r with
    | .operator => t
    | .manager => if s.adm.st = .running then t.admPush (admEntry 0xFFFF 0xF1 code 0xFFFFFFFF) else t
    | .slice n => t.ringEvent n code a0 a1 a2

/-- Deliver an event to every slice of a list. -/
def State.eventSlices (s : State) (l : List Nat) (code a0 a1 a2 : Nat) : State :=
  l.foldl (fun t n => t.event (.slice n) code a0 a1 a2) s

/-- Set or clear a function bit of `1010:02`; a change raises FUNCTION_CHANGED (R52). -/
def State.setFn (s : State) (b : Nat) (v : Bool) : State :=
  if s.fn b = v then s
  else
    let t := { s with mod := { s.mod with fns := setBit s.mod.fns b v } }
    (t.event .operator 0x0106 b (b2n v) 0).event .manager 0x0106 b (b2n v) 0

/-- Set or clear several function bits in order. -/
def State.setFns (s : State) (bs : List Nat) (v : Bool) : State :=
  bs.foldl (fun t b => t.setFn b v) s

/-- Set or clear a bit of `ALERT_CAUSE` (R516); `ALERT_N` is low while any bit is set. -/
def State.alert (s : State) (b : Nat) (v : Bool) : State :=
  { s with pow := { s.pow with alert := setBit s.pow.alert b v } }

/-- The level of `ALERT_N` (R516, R543): true is high, not asserted. -/
def State.alertN (s : State) : Bool := decide (s.pow.alert = 0)

/-! ### Hardware queues (R426, R437) -/

/-- The queue in a glove slot of a slice. -/
def State.queue (s : State) (sl slot : Nat) : Queue := sget (s.slice sl).queues slot

/-- Change a queue. -/
def State.setQueue (s : State) (sl slot : Nat) (f : Queue → Queue) : State :=
  s.setSlice sl (fun x => { x with queues := smod x.queues slot f })

end Sys2Proof.Machine
end

