-- ==== Sys2Proof/Machine/Operands.lean ====
section
/-!
DEFINITION. The operand forms of the Itette instructions (chapter 5): sequencers and their registers,
instruction words, based and banked addresses, and special registers.
-/
namespace Sys2Proof.Machine

/-- Whether sequencer q implements the S profile (Table 5-1). -/
def isS (q : Nat) : Bool := decide (17 ≤ q)

/-- Whether q is the management core. -/
def isMgmt (q : Nat) : Bool := q == 16

/-- The island of a sequencer (Tables 1-1, 5-2). -/
def seqIsland (q : Nat) : Nat := if q < 16 then q else if q = 16 then 25 else 16 + (q - 17) / 8

/-! ### Registers (R133–R135) -/

/-- General register r: g0 reads as zero. -/
def Seqr.gpr (z : Seqr) (r : Nat) : Word := if r = 0 then 0 else look 0 z.g r

/-- Write a general register: a write to g0 is discarded. -/
def Seqr.setGpr (z : Seqr) (r : Nat) (v : Word) : Seqr := if r = 0 then z else { z with g := put 0 z.g r v }

/-- Predicate p: p0 reads as 1. -/
def Seqr.pred (z : Seqr) (p : Nat) : Bool := p == 0 || bit z.p p

/-- Write a predicate: a write to p0 is discarded. -/
def Seqr.setPred (z : Seqr) (p : Nat) (v : Bool) : Seqr := if p = 0 then z else { z with p := setBit z.p p v }

/-- Write a bank register, held as written. -/
def Seqr.setBank (z : Seqr) (b v : Nat) : Seqr := { z with b := put 0 z.b b v }

/-! ### Instruction words (R137) -/

end Sys2Proof.Machine

namespace Sys2Proof

/-- An instruction word: guard, major and bits [20:0] (R137). -/
def Hdr.word (h : Hdr) (major low : Nat) : Nat := h.guard.toNat * 2 ^ 28 + major * 2 ^ 21 + low

end Sys2Proof

namespace Sys2Proof.Machine

def lowR (rd ra rb : BitVec 5) (fn : Nat) : Nat := rd.toNat * 65536 + ra.toNat * 2048 + rb.toNat * 64 + fn
def lowI (rd ra : BitVec 5) (imm : BitVec 11) : Nat := rd.toNat * 65536 + ra.toNat * 2048 + imm.toNat
def lowU (rd : BitVec 5) (imm : BitVec 16) : Nat := rd.toNat * 65536 + imm.toNat
def lowM (rt : BitVec 5) (bs : BitVec 3) (off : BitVec 13) : Nat := rt.toNat * 65536 + bs.toNat * 8192 + off.toNat
def lowC (pt pf : BitVec 3) (ra rb : BitVec 5) (cc : Nat) : Nat :=
  pt.toNat * 2 ^ 18 + pf.toNat * 2 ^ 15 + ra.toNat * 1024 + rb.toNat * 32 + cc
def lowCI (pt pf : BitVec 3) (ra : BitVec 5) (imm : BitVec 10) : Nat :=
  pt.toNat * 2 ^ 18 + pf.toNat * 2 ^ 15 + ra.toNat * 1024 + imm.toNat
def lowP (pd pa pb : BitVec 3) (un : BitVec 9) (fn : Nat) : Nat :=
  pd.toNat * 2 ^ 18 + pa.toNat * 2 ^ 15 + pb.toNat * 4096 + un.toNat * 8 + fn
def lowK (bn : BitVec 3) (sp : BitVec 2) (imm : BitVec 16) : Nat :=
  bn.toNat * 2 ^ 18 + sp.toNat * 65536 + imm.toNat
def lowS (rd : BitVec 5) (sr : BitVec 10) (fn : Nat) : Nat := rd.toNat * 65536 + sr.toNat * 64 + fn

/-- A pc-relative target. -/
def relTarget (pc : Nat) (off : BitVec 21) : Nat := unsigned 64 ((pc : Int) + off.toInt * 4)

/-! ### Addresses (R140–R142, R229) -/

/-- The DPA at which a sequencer's local space begins. -/
def localBase (q : Nat) : Nat :=
  if q < 16 then 0x010000000000 + q * 0x4000000
  else if q = 16 then 0
  else 0x010100000000 + (q - 17) / 8 * 0x400000 + (q - 17) % 8 * 0x40000

/-- Where an access goes: an offset of the local space, a slice virtual address, or a DPA. -/
inductive Place
  | lcl (off : Nat) | slice (va : Nat) | dpa (a : Nat)
deriving DecidableEq, Repr

/-- The place of a based address, or the trap cause (R140). -/
def basedPlace (q a z : Nat) : Nat ⊕ Place :=
  let w := if isS q then 22 else 26
  if a % z ≠ 0 then .inl 0x04
  else if isMgmt q then (if bit a 63 then .inl 0x05 else .inr (.dpa a))
  else if bit a 63 then
    (if a % 2 ^ 63 < 2 ^ w then .inr (.lcl (a % 2 ^ w)) else .inl 0x05)
  else if a < 2 ^ 57 then .inr (.slice a) else .inl 0x06

/-- The place of a banked short access of size z (R141). -/
def bankedPlace (q bank off z : Nat) : Nat ⊕ Place :=
  let a := bits bank 31 0 * 65536 + off * z
  match bits bank 33 32 with
  | 0 => .inr (if isMgmt q then .dpa a else .slice a)
  | 1 => .inr (if isMgmt q then .dpa a else .lcl a)
  | _ => .inl 0x05

/-- Whether an offset lies in the return-stack region of an island kernel (R142). -/
def Seqr.inRstack (y : Seqr) (o n : Nat) : Bool :=
  decide (o < y.rshi % 2 ^ 63) && decide (y.rslo % 2 ^ 63 < o + n)

/-- Whether a local access of n bytes at an offset is allowed (R140, R142, R229). -/
def Seqr.localOk (y : Seqr) (q o n : Nat) (store : Bool) : Bool :=
  if isS q then decide (o + n ≤ 0x40000)
  else
    decide (y.winbase ≤ o) && decide (o + n ≤ y.winbase + y.winsize) && !y.inRstack o n &&
      !(store && decide (o < y.codeHi))

/-- Whether a DPA lies in a region of Table 1-8. -/
def dpaOk (a : Nat) : Bool :=
  decide (a < 0x00C000000000) || (decide (0x010000000000 ≤ a) && decide (a < 0x010040000000)) ||
  (decide (0x010100000000 ≤ a) && decide (a < 0x010101000000)) ||
  (decide (0x010200000000 ≤ a) && decide (a < 0x010200800000)) ||
  (decide (0x011000000000 ≤ a) && decide (a < 0x01101A000000))

/-- Whether a DPA lies in an island's register space, whose layout the manual does not give. -/
def isRegSpace (a : Nat) : Bool := decide (0x011000000000 ≤ a)

/-! ### Special registers (R136, Table 5-4) -/

/-- `SEQID` (Table 5-2). -/
def seqId (q : Nat) : Nat :=
  3 + b2n (isS q) * 2 ^ 16 + (if q < 16 then 0 else if q = 16 then 1 else 2) * 2 ^ 17 +
    seqIsland q * 2 ^ 21 + (if isS q then (q - 17) % 8 else 0) * 2 ^ 26

/-- The access that Table 5-4 gives sequencer q to a special register: 0 none, 1 RO, 2 RW. -/
def srAccess (q sr : Nat) : Nat :=
  let k := if q < 16 then 0 else if q = 16 then 2 else 1
  let row (a b c : Nat) : Nat := if k = 0 then a else if k = 1 then b else c
  match sr with
  | 0x000 => 1
  | 0x001 => 1
  | 0x002 => 2
  | 0x003 => 2
  | 0x004 => 2
  | 0x005 => 1
  | 0x006 => 2
  | 0x007 => 1
  | 0x008 => row 2 0 2
  | 0x009 => row 1 0 2
  | 0x00A => row 1 0 2
  | 0x00B => row 1 0 2
  | 0x00C => row 1 0 2
  | 0x00D => row 0 1 0
  | 0x00E => row 0 2 0
  | 0x010 => row 1 1 2
  | 0x011 => 2
  | 0x012 => 1
  | 0x013 => 1
  | 0x014 => row 1 1 0
  | 0x015 => row 1 1 0
  | 0x016 => row 1 0 0
  | 0x017 => row 1 0 0
  | _ => 0

/-- The value of a special register. -/
def Seqr.special (z : Seqr) (q sr : Nat) : Nat :=
  match sr with
  | 0x000 => seqId q
  | 0x001 => z.cycle
  | 0x002 => z.nctl
  | 0x003 => z.seed
  | 0x004 => z.nstat
  | 0x005 => b2n z.inTrap + 2 * b2n z.held.isSome
  | 0x006 => z.operr
  | 0x007 => z.evcount
  | 0x008 => z.rsp
  | 0x009 => z.rslo
  | 0x00A => z.rshi
  | 0x00B => z.dslo
  | 0x00C => z.dshi
  | 0x00D => z.rsdepth
  | 0x00E => z.stkmode
  | 0x010 => z.tvbase
  | 0x011 => z.trappc
  | 0x012 => z.trapcause
  | 0x013 => z.trapinfo
  | 0x014 => z.klimit
  | 0x015 => z.pasid
  | 0x016 => z.winbase
  | _ => z.winsize

/-- Whether a write of `v` writes a reserved value (R136). -/
def Seqr.srReserved (z : Seqr) (sr v : Nat) : Bool :=
  match sr with
  | 0x002 => v % 4 == 3 || decide (8 ≤ v)
  | 0x00E => decide (1 < v)
  | 0x008 => v % 8 != 0 || decide (v < z.rslo) || decide (z.rshi < v)
  | _ => false

/-- Write a special register; any write of `OPERR` clears it. -/
def Seqr.setSpecial (z : Seqr) (sr v : Nat) : Seqr :=
  match sr with
  | 0x002 => { z with nctl := v }
  | 0x003 => { z with seed := v }
  | 0x004 => { z with nstat := v % 8 }
  | 0x006 => { z with operr := 0 }
  | 0x008 => { z with rsp := v }
  | 0x009 => { z with rslo := v }
  | 0x00A => { z with rshi := v }
  | 0x00B => { z with dslo := v }
  | 0x00C => { z with dshi := v }
  | 0x00E => { z with stkmode := v }
  | 0x010 => { z with tvbase := v }
  | 0x011 => { z with trappc := v }
  | _ => z

end Sys2Proof.Machine
end

