-- ==== Sys2Proof/Machine/Hazard.lean ====
section
/-!
DEFINITION. Tile descriptors (R108–R110), the scratchpad ranges and vector registers that each
coprocessor operation reads and writes, and when one operation must wait for another (R124–R126).
-/
namespace Sys2Proof.Machine

/-! ### Tile descriptors (Table 4-3) -/

def tdBase (d : Nat) : Nat := bits d 25 0
def tdHbase (d : Nat) : Nat := bits d 57 32
def tdElem (d : Nat) : Nat := bits d 67 64
def tdScale (d : Nat) : Nat := bits d 69 68
def tdPacked (d : Nat) : Bool := bit d 70
def tdLinear (d : Nat) : Bool := bit d 71
def tdRows (d : Nat) : Nat := bits d 80 72
def tdCols (d : Nat) : Nat := bits d 89 81
def tdSize (d : Nat) : Nat := bits d 121 96

/-- The bits of a descriptor that are held; the others read as zero. -/
def tdMask (d : Nat) : Nat :=
  tdBase d + tdHbase d * 2 ^ 32 + bits d 89 64 * 2 ^ 64 + tdSize d * 2 ^ 96

/-- Blocks of a MATRIX tile. -/
def tdBlocks (d : Nat) : Nat := tdRows d * (tdCols d / 32)

/-- Bytes of one element of a block: 32 elements of width w take 4w bytes. -/
def tdElBytes (d : Nat) : Nat := 4 * elemWidth (tdElem d)

/-- Bytes of header or scale per block. -/
def tdHdrBytes (d : Nat) : Nat := hdrBytes (tdScale d) (tdPacked d)

/-- The planes of a tile: offset and length (R109). -/
def tdRanges (d : Nat) : List (Nat × Nat) :=
  if tdLinear d then [(tdBase d, tdSize d)]
  else (tdBase d, tdBlocks d * tdElBytes d) ::
    (if tdScale d = 0 then [] else [(tdHbase d, tdBlocks d * tdHdrBytes d)])

/-! ### Stream descriptors (Table 4-7); reserved fields are not looked at (R7) -/

/-- The fields of a stream descriptor (Table 4-7). -/
def sdFmt (d : List Byte) : Nat := fieldAt d 1 1 % 128
def sdTid (d : List Byte) : Nat := fieldAt d 4 2
def sdEvent (d : List Byte) : Bool := bit (fieldAt d 6 2) 0
def sdTd (d : List Byte) : Nat := fieldAt d 2 1 % 64
def sdVaddr (d : List Byte) : Nat := fieldAt d 8 8 % 2 ^ 57
def sdHaddr (d : List Byte) : Nat := fieldAt d 16 8
def sdPasid (d : List Byte) : Nat := fieldAt d 24 4 % 2 ^ 20
def sdLen (d : List Byte) : Nat := fieldAt d 28 4
def sdCnt (d : List Byte) : Nat := fieldAt d 32 4
def sdStride (d : List Byte) : Nat := fieldAt d 40 8
def sdHstride (d : List Byte) : Nat := fieldAt d 48 8
def sdIdx (d : List Byte) : Nat := fieldAt d 56 8

/-- Whether the memory side has a header plane. -/
def sdHasHdr (d : List Byte) (td : Nat) : Bool := bits (sdFmt d) 5 4 != 0 && !(tdLinear td)

/-- Columns that a row of the transfer fills, in whole blocks. -/
def sdCols (d : List Byte) (td : Nat) : Nat :=
  min (tdCols td) (sdLen d * 8 / elemWidth (tdElem td)) / 32 * 32

/-- Rows that a transfer moves: a MATRIX tile takes as many as it has (log entry 51). -/
def sdMoved (d : List Byte) (td : Nat) : Nat := if tdLinear td then sdCnt d else min (sdCnt d) (tdRows td)

/-- Bytes of one row of the element plane that a transfer moves. -/
def sdRowLen (d : List Byte) (td r : Nat) : Nat :=
  if tdLinear td then min (sdLen d) (tdSize td - r * sdLen d) else sdCols d td / 32 * tdElBytes td

/-- The ranges of a plane that the blocks of the first n rows of g column slices fill. -/
def planeFills (base per rows n g : Nat) : List (Nat × Nat) :=
  if n = rows then [(base, g * n * per)] else (List.range g).map (fun i => (base + i * rows * per, n * per))

/-- The scratchpad ranges that a LOAD fills. -/
def sdFills (d : List Byte) (td : Nat) : List (Nat × Nat) :=
  if tdLinear td then [(tdBase td, min (sdLen d * sdCnt d) (tdSize td))]
  else
    planeFills (tdBase td) (tdElBytes td) (tdRows td) (sdMoved d td) (sdCols d td / 32) ++
      (if tdScale td = 0 then [] else planeFills (tdHbase td) (tdHdrBytes td) (tdRows td) (sdMoved d td) (sdCols d td / 32))

/-! ### Descriptors of cipher and digest operations (Table 15-9) -/

def cdSrc (d : List Byte) : Nat := fieldAt d 0 4
def cdDst (d : List Byte) : Nat := fieldAt d 4 4
def cdLen (d : List Byte) : Nat := fieldAt d 8 4
def cdAad (d : List Byte) : Nat := fieldAt d 12 4
def cdAadLen (d : List Byte) : Nat := fieldAt d 16 4
def cdFlags (d : List Byte) : Nat := fieldAt d 20 4

/-- Lanes of the vector unit of a sequencer (R117, R150). -/
def lanesOf (q : Nat) : Nat := if isS q then 32 else 128

/-- The element and header ranges of a VLDC or VSTC (R151). -/
def vcRanges (q off hdr : Nat) : List (Nat × Nat) :=
  let e := bits hdr 59 56
  let sc := bits hdr 61 60
  let n := lanesOf q
  (off, n * elemWidth e / 8) ::
    (if sc = 0 then [] else [(bits hdr 25 0, n / 32 * hdrBytes sc (bit hdr 62))])

/-- The scratchpad ranges that an operation reads. -/
def CopKind.reads (k : CopKind) (q : Nat) : List (Nat × Nat) :=
  match k with
  | .mma _ _ _ _ ta tb => tdRanges ta ++ tdRanges tb
  | .vld _ _ off => [(off, 4 * lanesOf q)]
  | .vldc _ _ off hdr _ _ => vcRanges q off hdr
  | .cipher dec _ d _ => [(cdSrc d, cdLen d + (if dec then 24 else 0)), (cdAad d, cdAadLen d)]
  | .digest _ _ d _ => [(cdSrc d, cdLen d)]
  | .stream d td => if fieldAt d 0 1 = 1 then tdRanges td else []
  | _ => []

/-- The scratchpad ranges that an operation writes. -/
def CopKind.writes (k : CopKind) (q : Nat) : List (Nat × Nat) :=
  match k with
  | .mdrain _ _ tc _ _ => tdRanges tc
  | .vst _ _ off => [(off, 4 * lanesOf q)]
  | .vstc _ _ off hdr _ _ => vcRanges q off hdr
  | .cipher dec _ d _ => [(cdDst d, cdLen d + (if dec then 0 else 24))]
  | .digest _ _ d _ => [(cdDst d, 48)]
  | .stream d td => if fieldAt d 0 1 = 0 then tdRanges td else []
  | _ => []

/-- The scratchpad ranges that an operation has written whole once it succeeds: a LOAD may fill less than its tile. -/
def CopKind.fills (k : CopKind) (q : Nat) : List (Nat × Nat) :=
  match k with
  | .stream d td => if fieldAt d 0 1 = 0 then sdFills d td else []
  | _ => k.writes q

/-- Whether two ranges overlap once rounded out to whole lines (R125). -/
def overlaps (a b : Nat × Nat) : Bool :=
  a.2 != 0 && b.2 != 0 && decide (a.1 / 256 ≤ (b.1 + b.2 - 1) / 256) && decide (b.1 / 256 ≤ (a.1 + a.2 - 1) / 256)

/-- Whether some range of one list overlaps some range of another. -/
def anyOverlap (a b : List (Nat × Nat)) : Bool := a.any (fun x => b.any (overlaps x))

/-- The vector registers, engine·32 + register, that an operation reads. -/
def CopKind.vreads (k : CopKind) : List Nat :=
  match k with
  | .vop _ ve _ va vb => [ve * 32 + va, ve * 32 + vb]
  | .vfma ve vd va vb => [ve * 32 + vd, ve * 32 + va, ve * 32 + vb]
  | .vst ve vd _ => [ve * 32 + vd]
  | .vstc ve vd _ _ _ _ => [ve * 32 + vd]
  | .vmovg ve vd _ => [ve * 32 + vd]
  | .sfu _ ve _ va => [ve * 32 + va]
  | _ => []

/-- The vector registers that an operation writes. -/
def CopKind.vwrites (k : CopKind) : List Nat :=
  match k with
  | .vop _ ve vd _ _ => [ve * 32 + vd]
  | .vfma ve vd _ _ => [ve * 32 + vd]
  | .vld ve vd _ => [ve * 32 + vd]
  | .vldc ve vd _ _ _ _ => [ve * 32 + vd]
  | .vbcast ve vd _ => [ve * 32 + vd]
  | .sfu _ ve vd _ => [ve * 32 + vd]
  | _ => []

/-- Whether two lists share an element. -/
def meets (a b : List Nat) : Bool := a.any b.contains

/-- The core and plane of a matrix operation, and whether it is a drain. -/
def CopKind.plane (k : CopKind) : Option (Nat × Nat × Bool) :=
  match k with
  | .mma c p _ _ _ _ => some (c, p, false)
  | .mdrain c p _ _ _ => some (c, p, true)
  | .mzero c p => some (c, p, false)
  | _ => none

/-- Whether a matrix operation waits for an earlier one of its core (R116): it runs beside it only where
one is a drain and they use different planes. -/
def planeWait (a b : CopKind) : Bool :=
  match a.plane, b.plane with
  | some (c, p, d), some (c', p', d') => c == c' && (p == p' || d == d')
  | _, _ => false

/-- Whether an operation must wait for an earlier one that has not completed (R125). -/
def CopKind.waitsFor (k e : CopKind) (q : Nat) : Bool :=
  anyOverlap (e.writes q) (k.reads q) || anyOverlap (e.reads q ++ e.writes q) (k.writes q) ||
    meets e.vwrites k.vreads || meets (e.vreads ++ e.vwrites) k.vwrites || planeWait e k

/-- The operations of a queue that wait to start. -/
def Seqr.queued (z : Seqr) (engine : Nat) : List CopOp :=
  z.ops.filter (fun o => o.engine == engine && !o.started)

/-- Whether an operation may start (R119, R125): it heads its queue, every operation that it waits for
has completed, and at most eight descriptors run in a stream queue. -/
def Seqr.mayStart (z : Seqr) (q : Nat) (o : CopOp) : Bool :=
  !o.started && ((z.queued o.engine).head?.map CopOp.num == some o.num) &&
    ((z.ops.filter (fun e => decide (e.num < o.num))).all (fun e => !(o.kind.waitsFor e.kind q))) &&
    ((o.engine != 24 && o.engine != 25) ||
      decide ((z.ops.filter (fun e => e.engine == o.engine && e.started)).length < 8))

/-- Whether a scratchpad access of the sequencer itself waits for an operation (R125). -/
def Seqr.accessWaits (z : Seqr) (q o n : Nat) (store : Bool) : Bool :=
  z.ops.any (fun e => anyOverlap (e.kind.writes q) [(o, n)] || (store && anyOverlap (e.kind.reads q) [(o, n)]))

/-! ### Windows and marks (R110, R126, R142) -/

/-- Whether a range lies in the kernel's window and outside its code and return-stack regions. -/
def Seqr.rangeOk (z : Seqr) (q : Nat) (r : Nat × Nat) : Bool :=
  if isS q then decide (r.1 + r.2 ≤ 0x40000)
  else r.2 == 0 || (decide (z.codeHi ≤ r.1) && decide (r.1 + r.2 ≤ z.winbase + z.winsize) &&
    !z.inRstack r.1 r.2)

/-- Whether a range touches one that is marked in error. -/
def Seqr.marked (z : Seqr) (r : Nat × Nat) : Bool :=
  r.2 != 0 && (z.allMarked || z.marks.any (fun m => decide (m.1 < r.1 + r.2) && decide (r.1 < m.2)))

/-- A range rounded out to whole lines, as its first byte and the one past its last (R125). -/
def lineOut (r : Nat × Nat) : Nat × Nat := (r.1 / 256 * 256, (r.1 + r.2 + 255) / 256 * 256)

/-- Mark destination ranges in error; past 64 marks the whole window is (R126), which no operation can write whole. -/
def Seqr.mark (z : Seqr) (rs : List (Nat × Nat)) : Seqr :=
  let ms := z.marks ++ (rs.filter (fun r => r.2 != 0)).map lineOut
  if 64 < ms.length then { z with allMarked := true } else { z with marks := ms }

/-- Clear the marks that lie wholly in ranges written by a successful operation. -/
def Seqr.clearMarks (z : Seqr) (rs : List (Nat × Nat)) : Seqr :=
  { z with marks := z.marks.filter (fun m => !(rs.any (fun r => r.2 != 0 && decide ((lineOut r).1 ≤ m.1) && decide (m.2 ≤ (lineOut r).2)))) }

end Sys2Proof.Machine
end

