-- ==== Sys2Proof/Machine/Crypto.lean ====
section
/-!
DEFINITION. The digests, ciphers and check codes that the manual names: SHA-384 (FIPS 180-4),
HMAC-SHA-384 (FIPS 198-1), AES-256 (FIPS 197) in GCM (SP 800-38D), CRC-8 of R62 and CRC-32C of
Table 0-3, and the key derivation of R448. PRESUMED where the manual names a standard without
printing it (log entry 1).
-/
namespace Sys2Proof.Machine

/-- CRC-8 of R62: polynomial 0x07, initial value zero, most significant bit first. -/
def crc8Bit (c : Nat) : Nat := if c / 128 % 2 = 1 then ((c * 2) ^^^ 0x07) % 256 else (c * 2) % 256

/-- CRC-8 over a byte string (R62). -/
def crc8 (bs : List Byte) : Nat :=
  bs.foldl (fun c b => Nat.repeat crc8Bit 8 (c ^^^ b.toNat)) 0

/-- One bit of the reflected CRC-32C. -/
def crc32cBit (c : Nat) : Nat := if c % 2 = 1 then (c / 2) ^^^ 0x82f63b78 else c / 2

/-- CRC-32C (Castagnoli, Table 0-3) over a byte string. -/
def crc32c (bs : List Byte) : Nat :=
  (bs.foldl (fun c b => Nat.repeat crc32cBit 8 (c ^^^ b.toNat)) 0xffffffff) ^^^ 0xffffffff

/-- Round constants of SHA-384. -/
def shaK : List (BitVec 64) :=
  ([0x428a2f98d728ae22, 0x7137449123ef65cd, 0xb5c0fbcfec4d3b2f, 0xe9b5dba58189dbbc, 0x3956c25bf348b538, 0x59f111f1b605d019, 0x923f82a4af194f9b, 0xab1c5ed5da6d8118] ++
   [0xd807aa98a3030242, 0x12835b0145706fbe, 0x243185be4ee4b28c, 0x550c7dc3d5ffb4e2, 0x72be5d74f27b896f, 0x80deb1fe3b1696b1, 0x9bdc06a725c71235, 0xc19bf174cf692694] ++
   [0xe49b69c19ef14ad2, 0xefbe4786384f25e3, 0x0fc19dc68b8cd5b5, 0x240ca1cc77ac9c65, 0x2de92c6f592b0275, 0x4a7484aa6ea6e483, 0x5cb0a9dcbd41fbd4, 0x76f988da831153b5] ++
   [0x983e5152ee66dfab, 0xa831c66d2db43210, 0xb00327c898fb213f, 0xbf597fc7beef0ee4, 0xc6e00bf33da88fc2, 0xd5a79147930aa725, 0x06ca6351e003826f, 0x142929670a0e6e70] ++
   [0x27b70a8546d22ffc, 0x2e1b21385c26c926, 0x4d2c6dfc5ac42aed, 0x53380d139d95b3df, 0x650a73548baf63de, 0x766a0abb3c77b2a8, 0x81c2c92e47edaee6, 0x92722c851482353b] ++
   [0xa2bfe8a14cf10364, 0xa81a664bbc423001, 0xc24b8b70d0f89791, 0xc76c51a30654be30, 0xd192e819d6ef5218, 0xd69906245565a910, 0xf40e35855771202a, 0x106aa07032bbd1b8] ++
   [0x19a4c116b8d2d0c8, 0x1e376c085141ab53, 0x2748774cdf8eeb99, 0x34b0bcb5e19b48a8, 0x391c0cb3c5c95a63, 0x4ed8aa4ae3418acb, 0x5b9cca4f7763e373, 0x682e6ff3d6b2b8a3] ++
   [0x748f82ee5defb2fc, 0x78a5636f43172f60, 0x84c87814a1f0ab72, 0x8cc702081a6439ec, 0x90befffa23631e28, 0xa4506cebde82bde9, 0xbef9a3f7b2c67915, 0xc67178f2e372532b] ++
   [0xca273eceea26619c, 0xd186b8c721c0c207, 0xeada7dd6cde0eb1e, 0xf57d4f7fee6ed178, 0x06f067aa72176fba, 0x0a637dc5a2c898a6, 0x113f9804bef90dae, 0x1b710b35131c471b] ++
   [0x28db77f523047d84, 0x32caab7b40c72493, 0x3c9ebe0a15c9bebc, 0x431d67c49c100d4c, 0x4cc5d4becb3e42b6, 0x597f299cfc657e2a, 0x5fcb6fab3ad6faec, 0x6c44198c4a475817])

/-- Initial hash value of SHA-384. -/
def shaH0 : List (BitVec 64) :=
  [0xcbbb9d5dc1059ed8, 0x629a292a367cd507, 0x9159015a3070dd17, 0x152fecd8f70e5939, 0x67332667ffc00b31, 0x8eb44a8768581511, 0xdb0c2e0d64f98fa7, 0x47b5481dbefa4fa4]

/-- The message padded to whole 128-byte blocks. -/
def shaPad (m : List Byte) : List Byte :=
  let z := (128 - (m.length + 17) % 128) % 128
  m ++ [0x80#8] ++ List.replicate z 0 ++ beBytes 16 (8 * m.length)

/-- The big-endian 64-bit words of a byte string of 8 n bytes. -/
def beWords : Nat → List Byte → List (BitVec 64)
  | 0, _ => []
  | n + 1, bs => BitVec.ofNat 64 (beNat (bs.take 8)) :: beWords n (bs.drop 8)

/-- Extend a message schedule, held latest word first, by `n` words. -/
def shaSched : Nat → List (BitVec 64) → List (BitVec 64)
  | 0, w => w
  | n + 1, w =>
    let x := w.getD 14 0
    let y := w.getD 1 0
    let s0 := x.rotateRight 1 ^^^ x.rotateRight 8 ^^^ x >>> 7
    let s1 := y.rotateRight 19 ^^^ y.rotateRight 61 ^^^ y >>> 6
    shaSched n ((w.getD 15 0 + s0 + w.getD 6 0 + s1) :: w)

/-- One round of the compression function on the eight working variables. -/
def shaRound (h : List (BitVec 64)) (kw : BitVec 64 × BitVec 64) : List (BitVec 64) :=
  match h with
  | [a, b, c, d, e, f, g, i] =>
    let s1 := e.rotateRight 14 ^^^ e.rotateRight 18 ^^^ e.rotateRight 41
    let t1 := i + s1 + ((e &&& f) ^^^ (~~~e &&& g)) + kw.1 + kw.2
    let s0 := a.rotateRight 28 ^^^ a.rotateRight 34 ^^^ a.rotateRight 39
    let t2 := s0 + ((a &&& b) ^^^ (a &&& c) ^^^ (b &&& c))
    [t1 + t2, a, b, c, d + t1, e, f, g]
  | other => other

/-- One block of 128 bytes. -/
def shaBlock (h : List (BitVec 64)) (blk : List Byte) : List (BitVec 64) :=
  let w := (shaSched 64 (beWords 16 blk).reverse).reverse
  List.zipWith (· + ·) h ((List.zip shaK w).foldl shaRound h)

/-- The blocks of a padded message, in order. -/
def shaBlocks : Nat → List (BitVec 64) → List Byte → List (BitVec 64)
  | 0, h, _ => h
  | n + 1, h, bs => shaBlocks n (shaBlock h (bs.take 128)) (bs.drop 128)

/-- The 48-byte SHA-384 digest (FIPS 180-4). -/
def sha384 (m : List Byte) : List Byte :=
  let p := shaPad m
  ((shaBlocks (p.length / 128) shaH0 p).take 6).flatMap (fun w => beBytes 8 w.toNat)

/-- HMAC-SHA-384 (FIPS 198-1). -/
def hmac384 (key msg : List Byte) : List Byte :=
  let k0 := if key.length > 128 then sha384 key else key
  let k := k0 ++ List.replicate (128 - k0.length) 0
  sha384 (k.map (· ^^^ 0x5c#8) ++ sha384 (k.map (· ^^^ 0x36#8) ++ msg))

/-- The ASCII bytes of a label. -/
def ascii (s : String) : List Byte := s.toList.map (fun c => BitVec.ofNat 8 c.toNat)

/-- The derivation function of R448. -/
def kdf (k label : List Byte) (n : Nat) : List Byte :=
  (hmac384 k (label ++ [0x00#8, BitVec.ofNat 8 n])).take n

/-- The substitution table of AES. -/
def aesS : List Nat :=
  ([0x63, 0x7c, 0x77, 0x7b, 0xf2, 0x6b, 0x6f, 0xc5] ++
   [0x30, 0x01, 0x67, 0x2b, 0xfe, 0xd7, 0xab, 0x76] ++
   [0xca, 0x82, 0xc9, 0x7d, 0xfa, 0x59, 0x47, 0xf0] ++
   [0xad, 0xd4, 0xa2, 0xaf, 0x9c, 0xa4, 0x72, 0xc0] ++
   [0xb7, 0xfd, 0x93, 0x26, 0x36, 0x3f, 0xf7, 0xcc] ++
   [0x34, 0xa5, 0xe5, 0xf1, 0x71, 0xd8, 0x31, 0x15] ++
   [0x04, 0xc7, 0x23, 0xc3, 0x18, 0x96, 0x05, 0x9a] ++
   [0x07, 0x12, 0x80, 0xe2, 0xeb, 0x27, 0xb2, 0x75] ++
   [0x09, 0x83, 0x2c, 0x1a, 0x1b, 0x6e, 0x5a, 0xa0] ++
   [0x52, 0x3b, 0xd6, 0xb3, 0x29, 0xe3, 0x2f, 0x84] ++
   [0x53, 0xd1, 0x00, 0xed, 0x20, 0xfc, 0xb1, 0x5b] ++
   [0x6a, 0xcb, 0xbe, 0x39, 0x4a, 0x4c, 0x58, 0xcf] ++
   [0xd0, 0xef, 0xaa, 0xfb, 0x43, 0x4d, 0x33, 0x85] ++
   [0x45, 0xf9, 0x02, 0x7f, 0x50, 0x3c, 0x9f, 0xa8] ++
   [0x51, 0xa3, 0x40, 0x8f, 0x92, 0x9d, 0x38, 0xf5] ++
   [0xbc, 0xb6, 0xda, 0x21, 0x10, 0xff, 0xf3, 0xd2] ++
   [0xcd, 0x0c, 0x13, 0xec, 0x5f, 0x97, 0x44, 0x17] ++
   [0xc4, 0xa7, 0x7e, 0x3d, 0x64, 0x5d, 0x19, 0x73] ++
   [0x60, 0x81, 0x4f, 0xdc, 0x22, 0x2a, 0x90, 0x88] ++
   [0x46, 0xee, 0xb8, 0x14, 0xde, 0x5e, 0x0b, 0xdb] ++
   [0xe0, 0x32, 0x3a, 0x0a, 0x49, 0x06, 0x24, 0x5c] ++
   [0xc2, 0xd3, 0xac, 0x62, 0x91, 0x95, 0xe4, 0x79] ++
   [0xe7, 0xc8, 0x37, 0x6d, 0x8d, 0xd5, 0x4e, 0xa9] ++
   [0x6c, 0x56, 0xf4, 0xea, 0x65, 0x7a, 0xae, 0x08] ++
   [0xba, 0x78, 0x25, 0x2e, 0x1c, 0xa6, 0xb4, 0xc6] ++
   [0xe8, 0xdd, 0x74, 0x1f, 0x4b, 0xbd, 0x8b, 0x8a] ++
   [0x70, 0x3e, 0xb5, 0x66, 0x48, 0x03, 0xf6, 0x0e] ++
   [0x61, 0x35, 0x57, 0xb9, 0x86, 0xc1, 0x1d, 0x9e] ++
   [0xe1, 0xf8, 0x98, 0x11, 0x69, 0xd9, 0x8e, 0x94] ++
   [0x9b, 0x1e, 0x87, 0xe9, 0xce, 0x55, 0x28, 0xdf] ++
   [0x8c, 0xa1, 0x89, 0x0d, 0xbf, 0xe6, 0x42, 0x68] ++
   [0x41, 0x99, 0x2d, 0x0f, 0xb0, 0x54, 0xbb, 0x16])

/-- Substitute one byte. -/
def aesSub (b : Nat) : Nat := aesS.getD b 0

/-- Doubling in the field of AES. -/
def aesX2 (b : Nat) : Nat := if b < 128 then 2 * b else (2 * b - 256) ^^^ 0x1b

/-- The next word of the AES-256 key schedule at position `i`, from the words before it, latest first. -/
def aesNextWord (i : Nat) (ws : List (List Nat)) : List Nat :=
  let t := ws.getD 0 []
  let u :=
    if i % 8 = 0 then
      let r := (t.drop 1 ++ t.take 1).map aesSub
      r.modify 0 (· ^^^ 2 ^ (i / 8 - 1))
    else if i % 8 = 4 then t.map aesSub else t
  List.zipWith (· ^^^ ·) (ws.getD 7 []) u

/-- The key schedule of AES-256, `n` further words, latest first. -/
def aesExpand : Nat → Nat → List (List Nat) → List (List Nat)
  | 0, _, ws => ws
  | n + 1, i, ws => aesExpand n (i + 1) (aesNextWord i ws :: ws)

/-- The words of a key. -/
def aesKeyWords (k : List Byte) : List (List Nat) :=
  [0, 1, 2, 3, 4, 5, 6, 7].map (fun i => (bytesAt k (4 * i) 4).map BitVec.toNat)

/-- The 15 round keys of AES-256, as byte lists. -/
def aesRoundKeys (k : List Byte) : List (List Nat) :=
  let w := (aesExpand 52 8 (aesKeyWords k).reverse).reverse
  (List.range 15).map (fun r => ((w.drop (4 * r)).take 4).flatten)

/-- Shift the rows of a 16-byte state held by columns. -/
def aesShift (s : List Nat) : List Nat :=
  (List.range 16).map (fun i => s.getD ((i + 4 * (i % 4)) % 16) 0)

/-- Mix one column. -/
def aesMix4 (c : List Nat) : List Nat :=
  let g (i : Nat) := c.getD (i % 4) 0
  (List.range 4).map (fun i =>
    aesX2 (g i) ^^^ (aesX2 (g (i + 1)) ^^^ g (i + 1)) ^^^ g (i + 2) ^^^ g (i + 3))

/-- Mix the four columns. -/
def aesMix (s : List Nat) : List Nat :=
  (List.range 4).flatMap (fun c => aesMix4 ((s.drop (4 * c)).take 4))

/-- AES-256 encryption of one 16-byte block (FIPS 197). -/
def aes256 (k : List Byte) (blk : List Byte) : List Byte :=
  let rk := aesRoundKeys k
  let xor (a b : List Nat) := List.zipWith (· ^^^ ·) a b
  let s0 := xor (blk.map BitVec.toNat) (rk.getD 0 [])
  let mid := (List.range 13).foldl
    (fun s r => xor (aesMix (aesShift (s.map aesSub))) (rk.getD (r + 1) [])) s0
  (xor (aesShift (mid.map aesSub)) (rk.getD 14 [])).map (BitVec.ofNat 8)

/-- Multiplication in the field of GCM, `v` doubled once per bit of `x` from its most significant bit. -/
def ghashMul : Nat → Nat → Nat → Nat → Nat
  | 0, _, _, z => z
  | n + 1, x, v, z =>
    ghashMul n x (if v % 2 = 1 then (v / 2) ^^^ (0xe1 * 2 ^ 120) else v / 2)
      (if x / 2 ^ n % 2 = 1 then z ^^^ v else z)

/-- GHASH over the 16-byte blocks of a padded string. -/
def ghash (h : Nat) : Nat → Nat → List Byte → Nat
  | 0, y, _ => y
  | n + 1, y, bs => ghash h n (ghashMul 128 (y ^^^ beNat (bytesAt bs 0 16)) h 0) (bs.drop 16)

/-- The key stream of GCM's counter mode, `n` blocks from counter `c`. -/
def gcmStream (k iv : List Byte) : Nat → Nat → List Byte
  | 0, _ => []
  | n + 1, c => aes256 k (iv ++ beBytes 4 c) ++ gcmStream k iv n (c + 1)

/-- Zero padding to whole blocks of 16 bytes. -/
def pad16 (bs : List Byte) : List Byte := bs ++ List.replicate ((16 - bs.length % 16) % 16) 0

/-- Counter-mode encryption or decryption of a text under a 12-byte nonce. -/
def gcmCrypt (k iv text : List Byte) : List Byte :=
  List.zipWith (· ^^^ ·) text (gcmStream k iv ((text.length + 15) / 16) 2)

/-- The 16-byte tag of AES-256-GCM over additional data and cipher text. -/
def gcmTag (k iv aad ct : List Byte) : List Byte :=
  let h := beNat (aes256 k (List.replicate 16 0))
  let m := pad16 aad ++ pad16 ct ++ beBytes 8 (8 * aad.length) ++ beBytes 8 (8 * ct.length)
  List.zipWith (· ^^^ ·) (beBytes 16 (ghash h (m.length / 16) 0 m)) (aes256 k (iv ++ beBytes 4 1))

/-- AES-256-GCM decryption: the plain text, where the tag passes (SP 800-38D). -/
def gcmOpen (k iv aad ct tag : List Byte) : Option (List Byte) :=
  if gcmTag k iv aad ct = tag then some (gcmCrypt k iv ct) else none

end Sys2Proof.Machine
end

