-- ==== Sys2Proof/Machine/Ecdsa.lean ====
section
/-!
DEFINITION. ECDSA verification on the curve P-384 under FIPS 186-5, by which the boot ROM checks a bank's signature (R4, R476,
Table 16-3). Points are in Jacobian coordinates; z = 0 is the point at infinity.
-/
namespace Sys2Proof.Machine

/-- The prime of P-384. -/
def p384 : Nat := 2 ^ 384 - 2 ^ 128 - 2 ^ 96 + 2 ^ 32 - 1

/-- The order of the base point of P-384. -/
def n384 : Nat :=
  0xFFFFFFFFFFFFFFFFFFFFFFFFFFFFFFFFFFFFFFFFFFFFFFFFC7634D81F4372DDF581A0DB248B0A77AECEC196ACCC52973

/-- The coefficient b of y^2 = x^3 - 3x + b. -/
def b384 : Nat :=
  0xB3312FA7E23EE7E4988E056BE3F82D19181D9C6EFE8141120314088F5013875AC656398D8A2ED19D2A85C8EDD3EC2AEF

/-- A point of P-384. -/
structure EcPoint where
  x : Nat
  y : Nat
  z : Nat
deriving DecidableEq, Repr, Inhabited

/-- The base point. -/
def g384 : EcPoint where
  x := 0xAA87CA22BE8B05378EB1C71EF320AD746E1D3B628BA79B9859F741E082542A385502F25DBF55296C3A545E3872760AB7
  y := 0x3617DE4A96262C6F5D9E98BF9292DC29F8F41DBD289A147CE9DA3113B5F0B8C00A60B1CE1D7E819D7A431D7C90EA0E5F
  z := 1

/-- A product in the field. -/
def fmul (a b : Nat) : Nat := a * b % p384

/-- A difference in the field. -/
def fsub (a b : Nat) : Nat := (a + (p384 - b % p384)) % p384

/-- Twice a point. -/
def EcPoint.dbl (p : EcPoint) : EcPoint :=
  if p.z = 0 ∨ p.y = 0 then ⟨1, 1, 0⟩
  else
    let zz := fmul p.z p.z
    let yy := fmul p.y p.y
    let m := fmul 3 (fmul (fsub p.x zz) (p.x + zz))
    let t := fmul 4 (fmul p.x yy)
    let x := fsub (fmul m m) (2 * t)
    ⟨x, fsub (fmul m (fsub t x)) (8 * fmul yy yy), fmul 2 (fmul p.y p.z)⟩

/-- The sum of two points. -/
def EcPoint.add (p q : EcPoint) : EcPoint :=
  if p.z = 0 then q
  else if q.z = 0 then p
  else
    let pz := fmul p.z p.z
    let qz := fmul q.z q.z
    let u1 := fmul p.x qz
    let u2 := fmul q.x pz
    let s1 := fmul p.y (fmul q.z qz)
    let s2 := fmul q.y (fmul p.z pz)
    if u1 = u2 then (if s1 = s2 then p.dbl else ⟨1, 1, 0⟩)
    else
      let h := fsub u2 u1
      let r := fsub s2 s1
      let hh := fmul h h
      let hhh := fmul h hh
      let v := fmul u1 hh
      let x := fsub (fsub (fmul r r) hhh) (2 * v)
      ⟨x, fsub (fmul r (fsub v x)) (fmul s1 hhh), fmul (fmul p.z q.z) h⟩

/-- The multiple of a point by the low `k` bits of `e`. -/
def EcPoint.mul : Nat → Nat → EcPoint → EcPoint
  | 0, _, _ => ⟨1, 1, 0⟩
  | k + 1, e, p =>
    let r := EcPoint.mul k (e / 2) p.dbl
    if e % 2 = 1 then p.add r else r

/-- The power of `a` modulo `m` by the low `k` bits of `e`. -/
def powMod (m : Nat) : Nat → Nat → Nat → Nat
  | 0, _, _ => 1 % m
  | k + 1, a, e =>
    let r := powMod m k (a * a % m) (e / 2)
    if e % 2 = 1 then a * r % m else r

/-- Whether coordinates name a point of the curve. -/
def onP384 (x y : Nat) : Bool :=
  decide (x < p384) && decide (y < p384) && fmul y y == (fmul x (fmul x x) + fsub b384 (3 * x)) % p384

/-- Verification of a signature (r, s) of digest `e` under the key (x, y) (FIPS 186-5). -/
def ecdsaOk (x y e r t : Nat) : Bool :=
  onP384 x y && r != 0 && decide (r < n384) && t != 0 && decide (t < n384) &&
  (let w := powMod n384 384 t (n384 - 2)
   let q := (g384.mul 384 (e * w % n384)).add ((EcPoint.mk x y 1).mul 384 (r * w % n384))
   let zz := fmul q.z q.z
   q.z != 0 && (fmul r zz == q.x || (decide (r + n384 < p384) && fmul (r + n384) zz == q.x)))

/-- The check of a bank's `SIGNATURE` by `PUBKEY`, the point 0x04 X Y, over `msg` with SHA-384 (Table 16-2). -/
def signatureOk (pub sig msg : List Byte) : Bool :=
  fieldAt pub 0 1 == 4 && ecdsaOk (beNat (bytesAt pub 1 48)) (beNat (bytesAt pub 49 48)) (beNat (sha384 msg))
    (beNat (bytesAt sig 0 48)) (beNat (bytesAt sig 48 48))

end Sys2Proof.Machine
end

