-- ==== Sys2Proof/Machine/Islands.lean ====
section
/-!
DEFINITION. Islands, the ends of the data straits, the Control Strait and the service states (chapter 1): readiness,
self-test, message delivery, fatal faults and the entries to NORMAL and RECOVERY.
-/
namespace Sys2Proof.Machine

/-! ### Numbers of Tables 1-1, 1-3 and 1-4 -/

/-- The island that is not a memory island at the end of strait x, and the memory island (R14):
straits 0–63 are TIn–MIm as 4 n + m; straits 64–103 are X.k–MIm as 64 + 4 (2 i + k) + m. -/
def straitEnds (x : Nat) : Nat × Nat :=
  if x < 64 then (x / 4, 16 + x % 4) else (20 + (x - 64) / 8, 16 + x % 4)

/-- The straits of island n with their bits in its `STRAITS_UP` (Table 1-4). -/
def islandStraits (n : Nat) : List (Nat × Nat) :=
  if n < 16 then (List.range 4).map (fun m => (m, 4 * n + m))
  else if n < 20 then
    (List.range 16).map (fun i => (i, 4 * i + (n - 16))) ++
    (List.range 10).map (fun j => (16 + j, 64 + 4 * j + (n - 16)))
  else if n < 25 then
    (List.range 8).map (fun b => (b, 64 + 4 * (2 * (n - 20) + b % 2) + b / 2))
  else []

/-- Strait x. -/
def State.strait (s : State) (x : Nat) : Strait := sget s.mod.straits x

/-- Change strait x. -/
def State.setStrait (s : State) (x : Nat) (f : Strait → Strait) : State :=
  { s with mod := { s.mod with straits := smod s.mod.straits x f } }

/-- `STRAITS_UP` of island n (Table 1-4). -/
def State.straitsUp (s : State) (n : Nat) : Nat :=
  ((islandStraits n).map (fun e => b2n (s.strait e.2).up * 2 ^ e.1)).sum

/-- The bit of strait x in the `STRAITS_UP` of island n. -/
def straitBit (n x : Nat) : Nat :=
  (((islandStraits n).find? (fun e => e.2 == x)).map Prod.fst).getD 0

/-! ### Service states (Table 1-9, R27, R34, R35, R552, R483) -/

/-- The compartment of the protection set-up; 0 is the null compartment (R447). -/
def State.compId (s : State) : Nat := (s.keys.setup.map KeyRec.compId).getD 0

/-- A pending request through `1021` or `7200:01` lapses, with its event to the operator (R35). -/
def State.lapseReq (s : State) : State :=
  match s.mod.req with
  | none => s
  | some r =>
    let t := { s with mod := { s.mod with req := none } }
    match r with
    | .enterTest => t.event .operator 0x0105 0x1021 1 0
    | .endTest => t.event .operator 0x0105 0x1021 2 0
    | .switch => t.event .operator 0x0105 0x7200 1 0

/-- Entry to RECOVERY: `SLICES`, `KV` and `CKPT` clear, `ADMIN` rises once the dictionary is served
(R552, R483). Slices stay; their queues hold doorbells while the state lasts. -/
def State.enterRecovery (s : State) : State :=
  let t := { s with mod := { s.mod with svc := .recovery, flushing := false } }
  ((t.lapseReq).setFns [2, 3, 4] false).setFn 1 true

/-- Start the clearing stages that end TEST: stage 2 begins (R463). -/
def State.startTestEnd (s : State) : State :=
  { s with mod := { s.mod with testEnding := true }, keys := { s.keys with stage := 2 } }

/-- A fatal fault in each service state (R27, R34, Table 1-9). -/
def State.fatalFault (s : State) : State :=
  match s.mod.svc with
  | .bringup | .normal => s.enterRecovery
  | .test => if s.mod.testEnding then s else s.lapseReq.startTestEnd
  | .switching => { s with mod := { s.mod with swFault := true } }
  | .recovery => s
  | .boot => { s with mod := { s.mod with bootFault := true } }

/-- Whether the background activities of Table 1-11 run: in every service state but BOOT and TEST (R41). -/
def State.background (s : State) : Bool := decide (s.mod.svc ≠ .boot) && decide (s.mod.svc ≠ .test)

/-! ### Messages at an island (R26, R28, R36) -/

/-- Whether island n takes a message of class `c` now (R26). -/
def State.csTakes (s : State) (n c : Nat) : Bool :=
  decide ((s.island n).istate = .ready) || (n == 25 && (c == 0 || c == 1))

/-- The inbox of MGI takes a message, which raises `EVCOUNT` of the management core (R479). -/
def State.inboxTake (s : State) (m : CsMsg) : State :=
  { s with
    mod := { s.mod with inbox := s.mod.inbox ++ [m] }
    seqs := smod s.seqs 16 (fun z => { z with evcount := (z.evcount + 1) % 2 ^ 64 }) }

/-- What a message does at island n: at MGI it is placed in the inbox once the firmware runs (R479), from which the firmware
takes it at the next tick and updates `1010` (R36); every ERROR at MGI is a report of R27; elsewhere a message is given to the
island's engine. -/
def State.csTake (s : State) (n : Nat) (m : CsMsg) : State :=
  if n = 25 then
    let t := if s.mod.jumped then s.inboxTake m else s
    if m.cls = 1 then t.fatalFault else t
  else s.emit (.cs { m with dest := n })

/-- Whether MGI's port holds a message of class `c`: during the hold of R28, and while the inbox of 4,096 entries is full (R479). -/
def State.portHolds (s : State) (c : Nat) : Bool :=
  (s.mod.holding && (c == 0 || c == 1 || c == 6)) || decide (4096 ≤ s.mod.inbox.length)

/-- Deliver a message to island n, hold it at MGI's port, or discard and count it (R26, R28). -/
def State.csDeliver (s : State) (n : Nat) (m : CsMsg) : State :=
  if !s.csTakes n m.cls then s.count (0x2000 + n) 0x0D 1
  else if n = 25 && s.portHolds m.cls then
    { s with mgiHold := s.mgiHold ++ [.msg m] }
  else s.csTake n m

/-! ### Readiness (R36, R551, R22) -/

/-- A message of island n to MGI. -/
def State.toMgi (s : State) (n cls payload : Nat) : State :=
  (s.emit (.cs (csm 25 n cls payload))).csDeliver 25 (csm 25 n cls payload)

/-- The READY message of an island to MGI: class 0; the payload is 2 n + value (log entry 5). -/
def State.sendReady (s : State) (n : Nat) (v : Bool) : State := s.toMgi n 0 (2 * n + b2n v)

/-- Bring up every strait of island n whose two ends have risen since their last resets (R551). -/
def State.straitsRise (s : State) (n : Nat) : State :=
  (islandStraits n).foldl (fun t e =>
    let ends := straitEnds e.2
    if (t.island ends.1).risen && (t.island ends.2).risen && !(t.strait e.2).down then
      t.setStrait e.2 (fun y => { y with up := true })
    else t) s

/-- Island n raises its readiness bit after a passing self-test (R36). -/
def State.raiseReady (s : State) (n : Nat) : State :=
  ((s.setIsland n (fun i => { i with
      ready := true, istate := .ready, risen := true, code := 0 })).sendReady n true).straitsRise n

/-- Clear the readiness bit of island n, leaving it in `st`, with the event of R36 to the operator. -/
def State.clearReady (s : State) (n : Nat) (st : IState) : State :=
  let was := (s.island n).ready
  let t := s.setIsland n (fun i => { i with ready := false, istate := st })
  if was then
    (t.sendReady n false).event .operator 0x0101 n
      (match st with | .off => 0 | .selftest => 1 | .ready => 2 | .failed => 3 | .resetting => 4) 0
  else t

/-- The firmware takes island n out of service (R22). -/
def State.outOfService (s : State) (n : Nat) : State := s.clearReady n .failed

/-- Events of islands to the slices that hold tensor island n. -/
def State.holders (s : State) (n : Nat) : List Nat :=
  s.sliceIds.filter (fun k => decide (((s.slice k).quota.islands.getD n 0) ≠ 0))

/-- The committed record a reader takes: the copy with the higher sequence number (R453). -/
def Keys.record (k : Keys) : KeyRec := if k.copyB.seq < k.copyA.seq then k.copyA else k.copyB

/-- SELFTEST_DONE (R36, R37): a pass raises readiness; a failure sets FAILED and the code, raises the
events, and in BRINGUP of a core island enters RECOVERY. -/
def State.selftestDone (s : State) (n code : Nat) : State :=
  if (s.island n).istate = .selftest ∨ (s.island n).istate = .resetting then
    if code = 0 then
      let t := s.raiseReady n
      if n = 25 ∧ t.firm.phase = .start then { t with firm := { t.firm with
          phase := if t.keys.record.opk.isNone then .provisionWait else .verifyA } } else t
    else
      let t := (s.setIsland n (fun i => { i with istate := .failed, code := code })).event
        .operator 0x0102 n code 0
      let u := if n < 16 then t.eventSlices (t.holders n) 0x0E02 n 0 0 else t
      if (n = 25 ∨ n = 23 ∨ (16 ≤ n ∧ n < 20)) ∧ u.mod.svc = .bringup then u.enterRecovery else u
  else s

/-- SELFTEST_DONE. -/
def execSelftestDone (n : Fin 26) (code : BitVec 32) (s : State) : Res :=
  .next (s.selftestDone n.val code.toNat)

/-! ### The Control Strait (R23–R28) -/

/-- A message enters the network (R23, R25–R27): a reserved `DEST` is discarded and counted at the
source; an uncorrectable error discards it, both ends report to MGI by an ERROR message, and the fault is fatal.
DESIGN CHOICE (log entry 48): the rule names the end islands only; where `DEST` is 31 or reserved, the second report
carries that number as its `SRC`. -/
def State.csSend (s : State) (m : CsMsg) (err : CsErr) : State :=
  match err with
  | .uncorrectable => (s.toMgi m.src 1 0).toMgi m.dest 1 0
  | _ =>
    if m.dest = 31 then (List.range 26).foldl (fun t n => t.csDeliver n m) s
    else if 26 ≤ m.dest then s.count (0x2000 + m.src) 0x17 1
    else s.csDeliver m.dest m

/-- CS_READY (R36, R23). -/
def execCsReady (src : Fin 26) (dest : BitVec 5) (pl : BitVec 50) (err : CsErr) (s : State) : Res :=
  .next (s.csSend (csm dest.toNat src.val 0 pl.toNat) err)

/-- CS_ERROR (R27, R23). -/
def execCsError (src : Fin 26) (dest : BitVec 5) (pl : BitVec 50) (err : CsErr) (s : State) : Res :=
  .next (s.csSend (csm dest.toNat src.val 1 pl.toNat) err)

/-- CS_DOORBELL (R23): delivered to the ring's owner. -/
def execCsDoorbell (src : Fin 26) (dest : BitVec 5) (pl : BitVec 50) (err : CsErr) (s : State) : Res :=
  .next (s.csSend (csm dest.toNat src.val 4 pl.toNat) err)

/-- CS_CREDIT (R23): returns ring or queue credit to its owner. -/
def execCsCredit (src : Fin 26) (dest : BitVec 5) (pl : BitVec 50) (err : CsErr) (s : State) : Res :=
  .next (s.csSend (csm dest.toNat src.val 5 pl.toNat) err)

/-! ### Device addresses (R29, R31) -/

/-- Regions of the device address map (Table 1-8). -/
inductive Region
  | stacked | reserve | scratchpad (n : Nat) | staging (m : Nat) | mgi | registers (n : Nat) | hole
deriving DecidableEq, Repr

/-- The region of a device physical address (R29). -/
def region (a : Nat) : Region :=
  if a < 0x00B800000000 then .stacked
  else if a < 0x00C000000000 then .reserve
  else if 0x010000000000 ≤ a ∧ a < 0x010040000000 then .scratchpad ((a - 0x010000000000) / 0x4000000)
  else if 0x010100000000 ≤ a ∧ a < 0x010101000000 then .staging ((a - 0x010100000000) / 0x400000)
  else if 0x010200000000 ≤ a ∧ a < 0x010200800000 then .mgi
  else if 0x011000000000 ≤ a ∧ a < 0x01101A000000 then .registers ((a - 0x011000000000) / 0x1000000)
  else .hole

/-- The stack of a stacked-memory address (R31). -/
def stackOf (a : Nat) : Nat :=
  bits a 15 12 ^^^ bits a 19 16 ^^^ bits a 23 20 ^^^ bits a 27 24 ^^^ bits a 31 28 ^^^ bits a 35 32 ^^^ bits a 39 36

/-- The byte address within its stack (R31). -/
def stackOffset (a : Nat) : Nat := bits a 39 16 * 4096 + bits a 11 0

end Sys2Proof.Machine
end

