-- ==== Sys2Proof/Machine/Recorder.lean ====
section
/-!
DEFINITION. Telemetry and the event recorder (chapter 18): tallies and notices, histograms, intervals
and records, the log and its read-out, and the usage counters of glove pages.
-/
namespace Sys2Proof.Machine

/-! ### Records (R523–R526) -/

/-- Add to a bin with saturation; a bin that stops at 65,535 sets its mask bit (R523). -/
def Rec.addBin (r : Rec) (h b n : Nat) : Rec :=
  let k := 64 * h + b
  let v := look 0 r.bins k + n
  if 65535 < v then { r with bins := put 0 r.bins k 65535, sat := put false r.sat k true }
  else { r with bins := put 0 r.bins k v }

/-- Add to a total, saturating at 32 bits (Table 18-5). -/
def Rec.addTotal (r : Rec) (i n : Nat) : Rec :=
  { r with totals := put 0 r.totals i (satAdd (2 ^ 32 - 1) (look 0 r.totals i) n) }

/-- Raise an entry of a table of maxima. -/
def maxInto (m : Store Nat) (k v : Nat) : Store Nat := put 0 m k (max (look 0 m k) v)

/-- The accumulation restarted at tick `t`. -/
def Rec.start (t : Nat) : Rec := { (default : Rec) with startTick := t }

/-- Merge a closed accumulation into a pending record (R525). -/
def Rec.merge (p a : Rec) : Rec :=
  let q := a.bins.foldl (fun r e => r.addBin (e.1 / 64) (e.1 % 64) e.2) p
  { q with
    sat := a.sat.foldl (fun m e => put false m e.1 e.2) q.sat
    merged := true, part := p.part || a.part, switched := p.switched || a.switched
    intervals := p.intervals + a.intervals, lastMin := a.lastMin, endTick := a.endTick
    boot := a.boot, fw := a.fw, comp := a.comp
    tjMax := a.tjMax.foldl (fun m e => ins m e.1 (max (look e.2 m e.1) e.2)) p.tjMax
    railMin := a.railMin.foldl (fun m e => maxInto m e.1 e.2) p.railMin
    railMax := a.railMax.foldl (fun m e => maxInto m e.1 e.2) p.railMax
    qdelay := a.qdelay.foldl (fun m e => maxInto m e.1 e.2) p.qdelay
    powerMax := max p.powerMax a.powerMax, powerMin := max p.powerMin a.powerMin
    totals := (a.totals.foldl (fun r e => r.addTotal e.1 e.2) p).totals }

/-- A byte of a firmware bank. -/
def bankField (b : Store Byte) (off n : Nat) : Nat :=
  leNat ((List.range n).map (fun i => look 0 b (off + i)))

/-- The bank that was booted. -/
def State.bootedBank (s : State) : Store Byte := if s.firm.bootedB then s.nor.bankB else s.nor.bankA

/-- A version of a bank header as a U32: [31:24] major, [23:16] minor, [15:0] patch; `off` is 8 for the
firmware version and 12 for the host interface version (Table 16-2). -/
def bankVersion (b : Store Byte) (off : Nat) : Nat :=
  bankField b off 1 * 2 ^ 24 + bankField b (off + 1) 1 * 2 ^ 16 + bankField b (off + 2) 2

/-- The accumulation as it closes at the present tick. -/
def State.closing (s : State) : Rec :=
  { s.rcd.acc with
    intervals := 1, lastMin := s.obj 0x9100 1, endTick := s.mod.tick, boot := s.nor.boots
    fw := bankVersion s.bootedBank 8, comp := s.compId }

/-- Change the recorder's accumulation. -/
def State.acc (s : State) (f : Rec → Rec) : State :=
  { s with rcd := { s.rcd with acc := f s.rcd.acc } }

/-- Count `n` on total `i` of the accumulation (Table 18-5). -/
def State.total (s : State) (i n : Nat) : State := s.acc (fun r => r.addTotal i n)

/-- Add `n` to a histogram bin of the accumulation. -/
def State.bin (s : State) (h b n : Nat) : State := s.acc (fun r => r.addBin h b n)

/-- A signed value in two bytes. -/
def i16 (z : Int) : List Byte := leBytes 2 (unsigned 16 z)

/-- The 4 KiB layout of a record with its CRC (Table 18-5, R524). -/
def Rec.bytes (r : Rec) : List Byte :=
  let flags := b2n r.merged + 2 * b2n r.part + 4 * b2n (!r.sat.isEmpty) + 8 * b2n r.live + 16 * b2n r.switched
  let masks := (List.range 14).flatMap (fun h =>
    leBytes 8 (((List.range 64).map (fun b => b2n (look false r.sat (64 * h + b)) * 2 ^ b)).sum))
  let body := leBytes 4 0x45565243 ++ leBytes 2 1 ++ leBytes 2 flags ++ leBytes 4 r.seq
    ++ leBytes 2 r.intervals ++ leBytes 2 r.lastMin ++ leBytes 8 r.startTick ++ leBytes 8 r.endTick
    ++ leBytes 4 r.boot ++ leBytes 4 r.fw ++ leBytes 8 r.comp ++ List.replicate 16 0 ++ masks
    ++ (List.range (14 * 64)).flatMap (fun k => leBytes 2 (look 0 r.bins k))
    ++ (List.range 26).flatMap (fun n => i16 (look 0 r.tjMax n))
    ++ (List.range 31).flatMap (fun n => leBytes 2 (65535 - look 0 r.railMin n))
    ++ (List.range 31).flatMap (fun n => leBytes 2 (look 0 r.railMax n))
    ++ (List.range 8).flatMap (fun p => leBytes 4 (look 0 r.qdelay p))
    ++ leBytes 2 r.powerMax ++ leBytes 2 (65535 - r.powerMin)
    ++ (List.range 16).flatMap (fun i => leBytes 4 (look 0 r.totals i)) ++ List.replicate 1848 0
  body ++ leBytes 4 (crc32c body)

/-! ### Tallies, samples and notices (R522, R523, R550) -/

/-- A TALLY taken by the recorder hardware (Table 18-3, R522). -/
def State.tally (s : State) (pl : Nat) : State :=
  let h := bits pl 48 45
  let t := s.count 0x9000 3 1
  if 14 ≤ h then t.count 0x9000 4 1 else t.bin h (bits pl 44 39) (bits pl 38 23)

/-- Recipients of an event code (Table 18-7): operator, manager, slice. -/
def eventTo (c : Nat) : Bool × Bool × Bool :=
  if c = 0x0106 ∨ c = 0x0E01 ∨ c = 0x0F01 then (true, true, false)
  else if [0x0101, 0x0102, 0x0103, 0x0105, 0x0602, 0x0803, 0x0D02, 0x0F04, 0x1101, 0x1102, 0x1103, 0x1104,
    0x1201].contains c then (true, false, false)
  else if [0x0104, 0x0801, 0x0802, 0x0D03, 0x0E02, 0x0E03, 0x0F02, 0x0F03].contains c then (false, false, true)
  else if [0x0601, 0x0603, 0x0701, 0x0804, 0x0901, 0x0B01, 0x0C02, 0x0C03, 0x0C04, 0x0C05, 0x0C06, 0x0C07,
    0x0D01].contains c then (true, false, true)
  else (false, false, false)

/-- A NOTICE becomes the event that its code names, to the recipients of Table 18-7 (R522, R550). -/
def State.notice (s : State) (m : CsMsg) : State :=
  let c := bits m.payload 48 33
  let r := eventTo c
  let t := if r.1 then s.event .operator c m.d0 m.d1 m.d2 else s
  let u := if r.2.1 then t.event .manager c m.d0 m.d1 m.d2 else t
  if r.2.2 && !(bit m.payload 23) then u.event (.slice (bits m.payload 32 24)) c m.d0 m.d1 m.d2 else u

/-- The messages held for MGI are delivered in arrival order once the inbox is enabled and has room (R28, R479). -/
def State.csRelease (s : State) : State :=
  s.mgiHold.foldl (fun t h => match h with
      | .msg m =>
        if t.portHolds m.cls then { t with mgiHold := t.mgiHold ++ [.msg m] }
        else if m.cls = 6 then (t.csTake 25 m).notice m else t.csTake 25 m
      | .notice r c a0 a1 a2 => t.event r c a0 a1 a2)
    { s with mgiHold := [], mod := { s.mod with holding := false } }

/-- EVENT_TALLY: a TALLY message reaches the recorder, also while MGI's port holds others (R28). -/
def execEventTally (src : Fin 26) (pl : BitVec 50) (err : CsErr) (s : State) : Res :=
  .next (match err with
    | .uncorrectable => s.csSend (csm 25 src.val 6 pl.toNat) err
    | _ => if s.csTakes 25 6 then s.tally pl.toNat else s.count 0x2019 0x0D 1)

/-- EVENT_NOTICE: a NOTICE reaches MGI, waits in the hold of R28, or becomes its events. -/
def execEventNotice (src : Fin 26) (pl : BitVec 50) (err : CsErr) (a : NoticeData) (s : State) : Res :=
  let m : CsMsg := ⟨25, src.val, 6, pl.toNat, a.a0.toNat, a.a1.toNat, a.a2.toNat⟩
  .next (match err with
    | .uncorrectable => s.csSend m err
    | _ =>
      if !s.csTakes 25 6 || s.portHolds 6 then s.csDeliver 25 m
      else (s.csDeliver 25 m).notice m)

/-- The bin of a temperature in hundredths of a degree (histograms 8–11, Table 18-4). -/
def tempBin (t : Int) : Nat := min 63 ((t - 2000).toNat / 200)

/-- The hottest of a list of islands. -/
def State.hottest (s : State) (l : List Nat) : Int :=
  l.foldl (fun m n => max m (s.island n).tj) (s.island (l.headD 0)).tj

/-- HIST_SAMPLE (R523): one sample of each temperature group and of module power. -/
def execHistSample (s : State) : Res :=
  .next (((((s.bin 8 (tempBin (s.hottest (List.range 16))) 1).bin 9
      (tempBin (s.hottest [16, 17, 18, 19])) 1).bin 10 (tempBin (s.hottest [20, 21, 22])) 1).bin 11
      (tempBin (s.hottest [23, 24, 25])) 1).bin 12 (min 63 (s.pow.secMean / 50)) 1)

/-! ### Intervals, records and the log (R525–R530) -/

/-- Close the accumulation into the pending record, merging where one waits, and restart it (R525). -/
def State.closeInterval (s : State) : State :=
  let a := s.closing
  let t := match s.rcd.pending with
    | none => { s with rcd := { s.rcd with pending := some a } }
    | some p => ({ s with rcd := { s.rcd with pending := some (p.merge a) } }).count 0x9100 0x0D 1
  t.acc (fun _ => Rec.start s.mod.tick)

/-- Whether the firmware can do its work now: it runs and has not stopped. -/
def State.fwRuns (s : State) : Bool := s.mod.jumped && !s.mod.stopped

/-- INTERVAL_END (R525, R41): at a tick that ends an interval, outside BOOT and TEST; writes pending
for INTERVAL take effect where the firmware runs (R497, R529). -/
def execIntervalEnd (s : State) : Res :=
  .next (if s.mod.svc ≠ .boot ∧ s.mod.svc ≠ .test ∧ s.mod.tick ≠ 0 ∧
      s.mod.tick % (s.obj 0x9100 1 * 60000) = 0 ∧ s.rcd.acc.startTick ≠ s.mod.tick then
      if s.fwRuns then s.closeInterval.applyPlain .interval else s.closeInterval
    else s)

/-- Write the pending record to the log, or skip it once the log is full (R526, R527). -/
def State.writeRecord (s : State) : State :=
  match s.rcd.pending with
  | none => s
  | some p =>
    let t := { s with rcd := { s.rcd with pending := none } }
    if 8192 ≤ s.nor.log.length then t.count 0x9100 0x0C p.intervals
    else
      let u := { t with nor := { t.nor with
        log := t.nor.log ++ [{ p with seq := t.nor.nextSeq }]
        nextSeq := min (2 ^ 32 - 1) (t.nor.nextSeq + 1) } }
      if u.nor.log.length = 8192 then (u.setFn 7 false).event .operator 0x1201 0 u.nor.nextSeq 0 else u

/-- RECORD_WRITE (R526): unless frozen or erasing. -/
def execRecordWrite (s : State) : Res :=
  .next (if s.fwRuns ∧ !s.rcd.freeze ∧ !s.rcd.erasing then s.writeRecord else s)

/-- FREEZE returns to zero: the pending record is written (R528). -/
def State.unfreeze (s : State) : State :=
  let t := { s with rcd := { s.rcd with freeze := false } }
  if t.rcd.erasing then t else t.writeRecord

/-- The effect of a write of `FREEZE` (R528). -/
def State.freezeApply (s : State) (v : Nat) : State :=
  if v = 1 then { s with rcd := { s.rcd with freeze := true, freezeTick := s.mod.tick } }
  else if s.rcd.freeze then s.unfreeze else s

/-- FREEZE_MAX_EXPIRE (R528): `FREEZE_MAX_MIN` minutes after it was set, FREEZE returns to zero. -/
def execFreezeMaxExpire (s : State) : Res :=
  .next (if s.rcd.freeze ∧ s.rcd.freezeTick + s.obj 0x9100 3 * 60000 ≤ s.mod.tick then s.unfreeze else s)

/-- Check of a write of `LOG_CLEAR` (R528): RANGE for other values, BUSY unless frozen. -/
def State.logClearCheck (s : State) (v : Nat) : Nat :=
  if v ≠ 1 then 4 else if !s.rcd.freeze || s.rcd.erasing then 8 else 0

/-- The effect of LOG_CLEAR: the log is erased, `REC_COUNT` reads 0 and RECORDER is clear until the
erasure ends. -/
def State.logClearApply (s : State) : State :=
  ({ s with rcd := { s.rcd with erasing := true } }).setFn 7 false

/-- LOG_CLEAR_DONE (R527, R528). -/
def execLogClearDone (s : State) : Res :=
  .next (if s.rcd.erasing then
      ({ s with rcd := { s.rcd with erasing := false }, nor := { s.nor with log := [] } }).setFn 7 true
    else s)

/-- `REC_COUNT`: 0 while the log is being erased (R528). -/
def State.recCount (s : State) : Nat := if s.rcd.erasing then 0 else s.nor.log.length

/-- Check of a write of `REC_SELECT` (R528, R530). -/
def State.recSelectCheck (s : State) (v : Nat) : Nat :=
  if v = 0xFFFFFFFF then 0 else if s.rcd.erasing then 8 else if v < s.recCount then 0 else 4

/-- The effect of `REC_SELECT` (R530): a log record, or the accumulation captured live. -/
def State.recSelectApply (s : State) (v : Nat) : State :=
  let r := if v = 0xFFFFFFFF then some { s.closing with live := true, seq := 0 } else s.nor.log[v]?
  ({ s with rcd := { s.rcd with sel := r } }).setObj 0x9100 6 v

/-- The boot flush of the recorder (R529): the pending record, then the interrupted accumulation as a
PARTIAL record, or each part counted as lost where its check
fails; FREEZE is cleared and an interval starts at tick 0. `lastTick` is the last tick
before the reset. -/
def State.recorderFlush (s : State) (lastTick : Nat) : State :=
  let r := { s with rcd := { s.rcd with freeze := false, erasing := false, sel := none } }
  let u :=
    if s.rcd.accOk then
      let t := r.writeRecord
      ({ t with rcd := { t.rcd with pending := some { t.closing with part := true, endTick := lastTick } } }).writeRecord
    else
      ({ r with rcd := { r.rcd with pending := none, accOk := true } }).count 0x9100 0x0E (1 + b2n s.rcd.pending.isSome)
  u.acc (fun _ => Rec.start 0)

/-! ### Usage counters of glove pages (R519, R520) -/

/-- SLICE_COUNTER_LATCH (R519): every 10 µs each slice's counters are latched. -/
def execSliceCounterLatch (s : State) : Res :=
  .next { s with host := { s.host with slices := smapAll s.host.slices (fun _ x =>
    if x.st = .free then x else { x with latched := x.live }) } }

/-- A key of the pending list for glove counter i of slice sl. -/
def counterKey (sl i : Nat) : Nat := 0x1000000 + 512 * sl + i

/-- Whether wide values of BAR space take writes now (R68). -/
def State.wideLive (s : State) : Bool := s.mod.svc = .normal || s.mod.svc = .switching

/-- A whole write of a glove counter: zero clears it at the tick, others are dropped (R520, R73); the
page of a slice that does not exist raises a bus error (R66). -/
def State.counterWrite (s : State) (sl i v : Nat) : State :=
  if !s.gloveThere sl || (23 ≤ i && i ≤ 55) || 59 ≤ i then s.emit (.busError .pcieWrite)
  else if s.wideLive && decide (i ≤ 22) && v == 0 then
    { s with dict := { s.dict with pend :=
      (s.dict.pend.filter (fun w => w.key != counterKey sl i)) ++ [⟨.tick, counterKey sl i, 0, 0⟩] } }
  else s

/-- GLOVE_COUNTER_WRITE. -/
def execGloveCounterWrite (sl i : Fin 512) (v : BitVec 64) (s : State) : Res :=
  .next (s.counterWrite sl.val i.val v.toNat)

/-- Clear the usage counters whose clearing is pending for the tick (R73, R520). -/
def State.applyCounters (s : State) : State :=
  (s.dict.pend.filter (fun w => decide (0x1000000 ≤ w.key))).foldl
    (fun t w => t.setSlice ((w.key - 0x1000000) / 512)
      (fun x => { x with live := put 0 x.live ((w.key - 0x1000000) % 512) 0 }))
    { s with dict := { s.dict with pend := s.dict.pend.filter (fun w => decide (w.key < 0x1000000)) } }

end Sys2Proof.Machine
end

