-- ==== Sys2Proof/Machine/DevMem.lean ====
section
/-!
DEFINITION. Device memory: reads and writes by sector with poison, zeroing, address translation through
slice page tables (chapter 6, R166–R179).
-/
namespace Sys2Proof.Machine

/-- What an unlisted byte of device memory reads as: zero, since every reset and every release of a
frame writes zeros (Table 1-10, R180). -/
def memDflt : Byte := 0

/-- The canonical form of memory: addresses rising, no entry equal to what an unlisted one reads as. -/
def Memory.wf (m : List Host.Cell) : Bool := canonical memDflt m

/-- One byte of device memory. -/
def State.byte (s : State) (a : Nat) : Byte := look memDflt s.mem a

/-- `n` bytes of device memory. -/
def State.bytes (s : State) (a n : Nat) : List Byte := (List.range n).map (fun i => s.byte (a + i))

/-- Store bytes from an address, whatever the sectors' poison. -/
def storeBytes (m : List Host.Cell) (a : Nat) : List Byte → List Host.Cell
  | [] => m
  | b :: bs => storeBytes (put memDflt m a b) (a + 1) bs

/-- Store bytes into the state's memory. -/
def State.store (s : State) (a : Nat) (bs : List Byte) : State := { s with mem := storeBytes s.mem a bs }

/-- Zero a range of device memory and clear its poison (R171, R180). -/
def State.zeroRange (s : State) (a n : Nat) : State :=
  { s with
    mem := s.mem.filter (fun c => decide (c.1 < a) || decide (a + n ≤ c.1))
    poison := s.poison.filter (fun c => decide (c.1 * 64 + 64 ≤ a) || decide (a + n ≤ c.1 * 64)) }

/-- Zero a range of SRAM, whose words are then all good (R107). -/
def State.clearSram (s : State) (a n : Nat) : State :=
  { s.zeroRange a n with spBad := s.spBad.filter (fun w => decide (w.1 * 32 + 32 ≤ a) || decide (a + n ≤ w.1 * 32)) }

/-- Whether a DPA lies in the stacks. -/
def inStacks (a : Nat) : Bool := decide (a < 0x00C000000000)

/-- The memory island of a stacked-memory address (R31). -/
def miOf (a : Nat) : Nat := stackOf a / 4

/-- Memory island m. -/
def State.mi (s : State) (m : Nat) : MemIsland := s.mis.getD m default

/-- Change memory island m. -/
def State.setMi (s : State) (m : Nat) (f : MemIsland → MemIsland) : State :=
  { s with mis := s.mis.modify m f }

/-- Whether an address lies in a granule of a FAILED stack (R177). -/
def State.deadStack (s : State) (a : Nat) : Bool :=
  inStacks a && (s.mi (miOf a)).stackSt.getD (stackOf a % 4) .ok == .failed

/-- Whether the sector of an address is poisoned. -/
def State.poisoned (s : State) (a : Nat) : Bool := look false s.poison (a / 64)

/-- Whether an access to an address fails with a memory error (R171, R177). -/
def State.badSector (s : State) (a : Nat) : Bool := s.poisoned a || s.deadStack a

/-- The sector addresses that a range of bytes touches. -/
def sectorsOf (a n : Nat) : List Nat :=
  if n = 0 then [] else (List.range ((a + n - 1) / 64 - a / 64 + 1)).map (fun i => (a / 64 + i) * 64)

/-- The slice that maps a frame, with its slice virtual address and PASID. -/
def State.frameOwner (s : State) (f : Nat) : Option (Nat × Page) :=
  s.host.slices.findSome? (fun e => (e.2.pages.find? (fun p => p.frame == f)).map (fun p => (e.1, p)))

/-- Count one uncorrectable read of a sector (R171): for its island, the recorder's totals, and the
slice that maps the frame. -/
def State.countUe (s : State) (a : Nat) : State :=
  let t := (s.count (0x4010 + miOf a) 2 1).total 0 1
  match s.frameOwner (a / 0x200000) with
  | some o => t.use o.1 22 1
  | none => t

/-- The event MEM_UE (R171, Table 18-7). -/
def State.ueEvent (s : State) (a : Nat) : State :=
  let t := s.event .operator 0x0601 (miOf a) (a / 64 * 64) 0
  match s.frameOwner (a / 0x200000) with
  | some o => t.event (.slice o.1) 0x0601 (miOf a) (o.2.vpn * 0x200000 + a / 64 * 64 % 0x200000) o.2.pasid
  | none => t

/-- A read of device memory: the bytes, or a failure counted for every bad sector met (R171). -/
def State.memRead (s : State) (a n : Nat) : State × Option (List Byte) :=
  let bad := (sectorsOf a n).filter s.badSector
  if bad.isEmpty then (s, some (s.bytes a n))
  else (bad.foldl (fun t x => t.countUe x) s, none)

/-- Store the part of a byte string that falls in one sector: a whole sector clears the poison; a part
of a bad sector fails as a read-modify-write and leaves it unchanged (R167, R171, R177). -/
def State.writeSector (s : State) (a : Nat) (bs : List Byte) (x : Nat) : State × Bool :=
  let lo := max a x
  let hi := min (a + bs.length) (x + 64)
  let part := (bs.drop (lo - a)).take (hi - lo)
  if s.deadStack x then (s.countUe x, false)
  else if hi - lo = 64 then
    ({ (s.store lo part) with poison := put false s.poison (x / 64) false }, true)
  else if s.poisoned x then (s.countUe x, false)
  else (s.store lo part, true)

/-- A write that meets region frames which a copy engine has yet to read waits until the engine has read them, next of all; each
such wait is counted in `CKPT_WAITS` (R365). -/
def State.copyFirst (s : State) (a n : Nat) : State :=
  let met (f : Nat) : Bool := n != 0 && decide (a / 0x200000 ≤ f) && decide (f ≤ (a + n - 1) / 0x200000)
  let waits : Nat := (s.ckpt.jobs.map (fun e => (e.2.unread.filter met).length)).sum
  if waits = 0 then s
  else ({ s with ckpt := { s.ckpt with jobs := smapAll s.ckpt.jobs (fun _ j =>
    { j with unread := j.unread.filter (fun f => !met f) }) } }).count 0x5000 0xA waits

/-- A write of device memory, sector by sector; false where some sector failed. -/
def State.memWrite (s : State) (a : Nat) (bs : List Byte) : State × Bool :=
  (sectorsOf a bs.length).foldl
    (fun t x => let r := t.1.writeSector a bs x; (r.1, t.2 && r.2)) (s.copyFirst a bs.length, true)

/-! ### Translation (R178, R179) -/

/-- The DPA of page table k, in the reserve for rings and firmware data. DESIGN CHOICE (log entry 52): where in that reserve. -/
def ptDpa (k : Nat) : Nat := 0x00BE01000000 + 4096 * k

/-- The number of the table at a DPA. -/
def ptNum (a : Nat) : Nat := (a - ptDpa 0) / 4096

/-- Page table k. -/
def State.ptab (s : State) (k : Nat) : PTab := sget s.host.tables k

/-- Write an entry of table k. -/
def State.ptPut (s : State) (k i e : Nat) : State :=
  { s with host := { s.host with tables := smod s.host.tables k (fun t => { t with ents := put 0 t.ents i e }) } }

/-- The levels of the walk, by the lowest bit of the index that each takes from the address (R178). -/
def ptLevels : List Nat := [48, 39, 30, 21]

/-- The reserve's contents are lost, and with them every page table. -/
def HostSide.noTables (h : HostSide) : HostSide :=
  { h with tables := [], slices := smapAll h.slices (fun _ x => { x with roots := [] }) }

/-- Walk from table k: the leaf entry, or 0 at a clear `VALID`. -/
def State.ptWalk (s : State) (va : Nat) : List Nat → Nat → Nat
  | [], _ => 0
  | [lo], k => look 0 (s.ptab k).ents (va / 2 ^ lo % 512)
  | lo :: ls, k =>
    let e := look 0 (s.ptab k).ents (va / 2 ^ lo % 512)
    if bit e 0 then State.ptWalk s va ls (ptNum (bits e 47 12 * 4096)) else 0

/-- The valid leaf entry that maps an address of a slice under a PASID. -/
def State.walk (s : State) (sl pasid va : Nat) : Option Nat :=
  match look 0 (s.slice sl).roots pasid with
  | 0 => none
  | k + 1 =>
    let e := s.ptWalk va ptLevels k
    if va < 2 ^ 57 && bit e 0 then some e else none

/-- The leaf entry for an access that is not of the KV cache manager or ATTEND work, which a `KV` frame fails (R179). -/
def State.leaf (s : State) (sl pasid va : Nat) : Option Nat := (s.walk sl pasid va).filter (fun e => !(bit e 2))

/-- The address in the frame of a leaf entry (Table 6-1). -/
def leafAddr (e va : Nat) : Nat := bits e 47 21 * 0x200000 + va % 0x200000

/-- Translate a slice virtual address for an access that is not of the KV cache manager or ATTEND work:
none where no leaf maps it, where a write meets a leaf without `WRITE`, or at a `KV` frame. -/
def State.xlate (s : State) (sl pasid va : Nat) (write : Bool) : Option Nat :=
  match s.leaf sl pasid va with
  | some e => if write && !(bit e 1) then none else some (leafAddr e va)
  | none => none

/-- The leaf entry of a page (Table 6-1). -/
def Page.entry (p : Page) : Nat := 1 + 2 * b2n p.write + 4 * b2n p.kv + p.frame * 0x200000

/-- A new empty table of a slice, under the lowest free number. -/
def State.ptNew (s : State) (sl : Nat) : State × Nat :=
  let used := s.host.tables.map Prod.fst
  let k := ((List.range (used.length + 1)).find? (fun n => !(used.contains n))).getD 0
  ({ s with host := { s.host with tables := sput s.host.tables k ⟨true, sl, []⟩ } }, k)

/-- The top-level table of a slice's PASID, made where there is none. -/
def State.ptRoot (s : State) (sl pasid : Nat) : State × Nat :=
  match look 0 (s.slice sl).roots pasid with
  | k + 1 => (s, k)
  | 0 =>
    let r := s.ptNew sl
    (r.1.setSlice sl (fun x => { x with roots := put 0 x.roots pasid (r.2 + 1) }), r.2)

/-- Set the leaf entry of an address from table k on, making the tables on the way. -/
def State.ptSet (s : State) (sl va e : Nat) : List Nat → Nat → State
  | [], _ => s
  | [lo], k => s.ptPut k (va / 2 ^ lo % 512) e
  | lo :: ls, k =>
    let i := va / 2 ^ lo % 512
    let n := look 0 (s.ptab k).ents i
    if bit n 0 then State.ptSet s sl va e ls (ptNum (bits n 47 12 * 4096))
    else
      let r := s.ptNew sl
      State.ptSet (r.1.ptPut k i (1 + ptDpa r.2)) sl va e ls r.2

/-- The firmware enters a leaf in a slice's tables (R178). -/
def State.ptEnter (s : State) (sl pasid vpn e : Nat) : State :=
  let r := s.ptRoot sl pasid
  r.1.ptSet sl (vpn * 0x200000) e ptLevels r.2

/-- The pieces of a virtual range that lie in one page each: address and length. -/
def pieces : Nat → Nat → Nat → List (Nat × Nat)
  | 0, _, _ => []
  | k + 1, va, n =>
    if n = 0 then []
    else
      let m := min n (0x200000 - va % 0x200000)
      (va, m) :: pieces k (va + m) (n - m)

/-- The pages a range can touch, bounding the recursion. -/
def pieceFuel (n : Nat) : Nat := n / 0x200000 + 2

/-- Whether a whole virtual range translates. -/
def State.mapped (s : State) (sl pasid va n : Nat) (write : Bool) : Bool :=
  (pieces (pieceFuel n) va n).all (fun p => (s.xlate sl pasid p.1 write).isSome)

/-- How an access through a slice's page tables ends. -/
inductive Acc
  | ok (bs : List Byte) | xlate | memerr
deriving DecidableEq, Repr

/-- Read through a slice's page tables. -/
def State.vread (s : State) (sl pasid va n : Nat) : State × Acc :=
  if !(s.mapped sl pasid va n false) then (s, .xlate)
  else
    (pieces (pieceFuel n) va n).foldl (fun t p =>
      match t.2, t.1.xlate sl pasid p.1 false with
      | .ok bs, some a =>
        match t.1.memRead a p.2 with
        | (u, some cs) => (u, .ok (bs ++ cs))
        | (u, none) => (u, .memerr)
      | r, _ => (t.1, r)) (s, .ok [])

/-- Write through a slice's page tables. -/
def State.vwrite (s : State) (sl pasid va : Nat) (bs : List Byte) : State × Acc :=
  if !(s.mapped sl pasid va bs.length true) then (s, .xlate)
  else
    let r := (pieces (pieceFuel bs.length) va bs.length).foldl (fun (t : State × Bool) p =>
      match t.1.xlate sl pasid p.1 true with
      | some a =>
        let w := t.1.memWrite a ((bs.drop (p.1 - va)).take p.2)
        (w.1, t.2 && w.2)
      | none => (t.1, false)) (s, true)
    (r.1, if r.2 then .ok [] else .memerr)

end Sys2Proof.Machine
end

