-- ==== Sys2Proof/Machine/PciConfig.lean ====
section
/-!
DEFINITION. What the two PCI Express functions show in configuration space: the identity of Table 14-2 and what the capabilities of
Table 14-1 advertise (R418, R419, R421).
-/
namespace Sys2Proof.Machine

/-- A base address register: its number, size in bytes, and prefetchable bit. Every one is 64-bit (R419). -/
structure PciBar where
  num : Nat
  size : Nat
  prefetch : Bool
deriving DecidableEq, Repr, Inhabited

/-- The identity of a function (Table 14-2). -/
structure PciIdentity where
  vendor : Nat
  device : Nat
  classCode : Nat
  bars : List PciBar
  msixEntries : Nat
deriving DecidableEq, Repr, Inhabited

/-- PF0 and PF1 (Table 14-2); BAR4 alone is prefetchable. -/
def pciIdentity (pf1 : Bool) : PciIdentity :=
  if pf1 then ⟨0x4A58, 0x0109, 0x120000, [⟨2, 32 * 2 ^ 20, false⟩, ⟨4, 2 ^ 40, true⟩], 2016⟩
  else ⟨0x4A58, 0x0009, 0x120000, [⟨0, 64 * 2 ^ 20, false⟩], 32⟩

/-- What the capabilities advertise (Table 14-1, R421): capabilities of the link and of the functions, none beyond them. -/
structure PciCaps where
  widths : List Nat
  tagBits : Nat
  outstanding : Nat          -- non-posted requests to the host
  payload : Nat              -- Max_Payload_Size supported
  readRequest : Nat          -- Max_Read_Request_Size supported
  atsEntries : Nat
  l1ExitUs : Nat             -- L1 exit latency advertised
  l12ExitUs : Nat            -- and for L1.2
  serial : Nat               -- Device Serial Number
deriving DecidableEq, Repr, Inhabited

/-- The capabilities of the endpoint. Device Serial Number carries `1018:03`. -/
def pciCaps : PciCaps where
  widths := [16, 8, 4, 2, 1]
  tagBits := 14
  outstanding := 4096
  payload := 512
  readRequest := 4096
  atsEntries := 8192
  l1ExitUs := 8
  l12ExitUs := 64
  serial := Config.serial

/-- The size of a BAR of a function; 0 where it has none. -/
def barSize (pf1 : Bool) (n : Nat) : Nat :=
  match (pciIdentity pf1).bars.find? (fun b => b.num == n) with
  | some b => b.size
  | none => 0

end Sys2Proof.Machine
end

