-- ==== Sys2Proof/Machine/Rings.lean ====
section
/-!
DEFINITION. The rings of hardware queues: descriptors, completions and doorbells (R426, R427, R436–R439),
and the entry to NORMAL, where queues act on the doorbells they held.
-/
namespace Sys2Proof.Machine

/-- Change the host endpoint. -/
def State.setHost (s : State) (f : HostSide → HostSide) : State := { s with host := f s.host }

/-- The page of an address in host memory, 4 KiB. -/
def hostPage (a : Nat) : Nat := a / 4096

/-! ### The rings of hardware queues (R426, R427, R437, Table 14-9) -/

/-- Put a queue in HALTED and raise QUEUE_HALTED with the address that failed (R437). Its commands in
progress end at the next management tick (log entry 41). -/
def State.haltQueue (s : State) (sl slot addr : Nat) : State :=
  (s.setQueue sl slot (fun q => { q with halted := true, ending := true })).event
    (.slice sl) 0x0E03 (s.queue sl slot).dev slot addr

/-- Write to a ring or header of a queue under its PASID: host memory takes the write while the link is
up, device memory where it translates and the sectors take it. -/
def State.ringWrite (s : State) (sl : Nat) (c : QueueRec) (addr : Nat) (bs : List Byte) : State × Bool :=
  if c.host then
    if s.host.up then ((s.emit (.hostWrite (some c.pasid) addr bs)).use sl 20 bs.length, true) else (s, false)
  else match s.vwrite sl c.pasid addr bs with
    | (t, .ok _) => (t, true)
    | (t, _) => (t, false)

/-- The consumer index in the header of a ring in device memory (`CQ_HEAD`, U32 at 8). -/
def State.readCqHead (s : State) (sl : Nat) (c : QueueRec) : State × Option Nat :=
  match s.vread sl c.pasid (c.hdr + 8) 4 with
  | (t, .ok bs) => (t, some (leNat bs))
  | (t, _) => (t, none)

/-- Fail a ring access of a queue: it enters HALTED, unless it is HALTED already. -/
def State.ringFail (s : State) (sl slot addr : Nat) : State :=
  if (s.queue sl slot).halted then s else s.haltQueue sl slot addr

/-- The 16 bytes of a completion entry (R427). -/
def Compl.bytes (c : Compl) : List Byte :=
  leBytes 4 c.result ++ leBytes 4 (c.status % 256) ++ leBytes 4 c.len ++ leBytes 4 c.tag

/-- Whether a completion ring is full on the consumer index last read. -/
def Queue.full (q : Queue) : Bool := (q.cqTail + 2 ^ 32 - q.cqHead) % 2 ^ 32 == 2 ^ q.cfg.log2Size

/-- Read `CQ_HEAD` again before concluding that a ring in device memory is full (R437). -/
def State.refreshHead (s : State) (sl slot : Nat) : State :=
  let q := s.queue sl slot
  if q.cfg.host || !q.full then s
  else match s.readCqHead sl q.cfg with
    | (t, some v) => t.setQueue sl slot (fun x => { x with cqHead := v })
    | (t, none) => t.ringFail sl slot (q.cfg.hdr + 8)

/-- Ask the host for `CQ_HEAD` of a ring in host memory that looks full (R437), unless a request for it is under way. -/
def State.askHead (s : State) (sl slot : Nat) : State :=
  let q := s.queue sl slot
  if !q.cfg.host || q.halted || s.host.reqs.any (fun r => r.head && r.slice == sl && r.slot == slot && !r.abandoned) then s
  else (s.setHost (fun h => { h with reqs := h.reqs ++
    [⟨s.fresh, sl, slot, 0, q.cfg.pasid, hostPage (q.cfg.hdr + 8), true, false⟩] })).tick1

/-- Write one completion: the entry, then `CQ_TAIL`, then the signal of `STEER` (R437). One that cannot
be written is lost and halts its queue. -/
def State.writeCompl (s : State) (sl slot : Nat) (c : Compl) : State :=
  let w := s.queue sl slot
  let at_ := w.cfg.cq + (w.cqTail % 2 ^ w.cfg.log2Size) * 16
  match s.ringWrite sl w.cfg at_ c.bytes with
  | (t, false) => t.ringFail sl slot at_
  | (t, true) =>
    match (t.setQueue sl slot (fun x => { x with cqTail := (x.cqTail + 1) % 2 ^ 32 })).ringWrite sl w.cfg w.cfg.hdr
        (leBytes 4 ((w.cqTail + 1) % 2 ^ 32)) with
    | (u, false) => u.ringFail sl slot w.cfg.hdr
    | (u, true) => (u.emit (.completion sl slot c.tag c.status c.result c.len)).steerSignal sl w.cfg.steer

/-- Write the completions of a list in order; those that meet a full ring wait (R437). -/
def State.writeCompls (sl slot : Nat) : List Compl → State → State
  | [], s => s.setQueue sl slot (fun q => { q with waiting := [] })
  | c :: cs, s =>
    let t := s.refreshHead sl slot
    if (t.queue sl slot).full then (t.setQueue sl slot (fun q => { q with waiting := c :: cs })).askHead sl slot
    else State.writeCompls sl slot cs (t.writeCompl sl slot c)

/-- Write what waits on a queue, as far as its completion ring has room. -/
def State.flushCompls (s : State) (sl slot : Nat) : State :=
  State.writeCompls sl slot (s.queue sl slot).waiting s

/-- Bytes of a descriptor of a queue (Table 14-9). -/
def Queue.descSize (q : Queue) : Nat := if q.cfg.kind = 8 then 16 else 64

/-- The address of descriptor i of a queue (R437). -/
def Queue.descAddr (q : Queue) (i : Nat) : Nat :=
  q.cfg.ring + (i % 2 ^ q.cfg.log2Size) * q.descSize

/-- A descriptor has been read: it starts, and `DQ_HEAD` advances, in the header too (R437). -/
def State.descRead (s : State) (sl slot : Nat) : State :=
  let t := s.setQueue sl slot (fun q => { q with dqHead := (q.dqHead + 1) % 2 ^ 32, inflight := q.inflight + 1 })
  let q := t.queue sl slot
  match t.ringWrite sl q.cfg (q.cfg.hdr + 4) (leBytes 4 q.dqHead) with
  | (u, true) => u
  | (u, false) => u.ringFail sl slot (q.cfg.hdr + 4)

/-- Fetch the descriptors from `DQ_HEAD` to the producer index, as long as the completion ring is not
full (R437): at once from device memory, where a ring that cannot be read halts the queue, and by
requests to the host otherwise, of which at most 4,096 are outstanding (Table 14-1). -/
def State.fetchDescs (sl slot : Nat) : Nat → Nat → State → State
  | 0, _, s => s
  | n + 1, i, s0 =>
    let s := if i = (s0.queue sl slot).prod then s0 else s0.refreshHead sl slot
    let q := s.queue sl slot
    if q.halted ∨ i = q.prod then s
    else if q.full then s.askHead sl slot
    else if q.cfg.host ∧ pciCaps.outstanding ≤ s.host.reqs.length then s
    else
      let a := q.descAddr i
      let t :=
        if q.cfg.host then
          (s.setHost (fun h => { h with reqs := h.reqs ++
            [⟨s.fresh, sl, slot, i, q.cfg.pasid, hostPage a, false, false⟩] })).tick1
        else match s.vread sl q.cfg.pasid a q.descSize with
          | (u, .ok _) => u.descRead sl slot
          | (u, _) => u.haltQueue sl slot a
      State.fetchDescs sl slot n ((i + 1) % 2 ^ 32) t

/-- The first descriptor index for which no fetch is under way. -/
def State.nextFetch (s : State) (sl slot : Nat) : Nat :=
  ((s.queue sl slot).dqHead +
    (s.host.reqs.filter (fun r => r.slice == sl && r.slot == slot && !r.head && !r.abandoned)).length) % 2 ^ 32

/-- Start the descriptors that a queue's producer index allows. -/
def State.startDescs (s : State) (sl slot : Nat) : State :=
  State.fetchDescs sl slot (2 ^ (s.queue sl slot).cfg.log2Size) (s.nextFetch sl slot) s

/-- Start the descriptors that a queue's producer index allows, while the slice acts on doorbells. -/
def State.startMore (s : State) (sl slot : Nat) : State :=
  if s.doorbellsLive sl then s.startDescs sl slot else s

/-- The completion of a command in the ring of its queue (R437). A halted queue receives it only where
its completion ring lies in device memory (R426). Descriptors that a full ring held back start as it has room. -/
def State.finish (s0 : State) (q : QCtx) (status result len : Nat) : State :=
  let sl := q.slice.val
  let slot := q.slot.val
  let w := s0.queue sl slot
  let s := s0.setQueue sl slot (fun x => { x with inflight := x.inflight - 1 })
  if !w.used || (w.halted && w.cfg.host) then s
  else (s.setQueue sl slot (fun x => { x with
    waiting := x.waiting ++ [⟨status, result, len, q.tag.toNat⟩] })).flushCompls sl slot |>.startMore sl slot

/-- The consumer index of every ring that looks full is read again, and what waited for room goes on (R437). When between two
management ticks the SP9 reads it again the spec leaves open (log entry 41). -/
def State.pollRings (s : State) : State :=
  let hot (q : Queue) : Bool := q.used && !q.halted && q.full
  if s.host.slices.any (fun e => e.2.queues.any (fun q => hot q.2)) then
    s.sliceIds.foldl (fun t sl => ((t.slice sl).queues.filter (fun e => hot e.2)).foldl
      (fun u e => (u.flushCompls sl e.1).startMore sl e.1) t) s
  else s

/-- A producer index reaches a queue: ignored while HALTED, held while the slice does not act on
doorbells, else taken and its descriptors started (R426, R437, R439). -/
def State.produce (s : State) (sl slot v : Nat) : State :=
  let q := s.queue sl slot
  if q.halted then s
  else if !s.doorbellsLive sl then s.setQueue sl slot (fun x => { x with held := some v })
  else
    let t := s.setQueue sl slot (fun x => { x with prod := v })
    (t.flushCompls sl slot).startDescs sl slot

/-- A queue acts on the producer index it held (R439, R552). -/
def State.releaseQueue (s : State) (sl slot : Nat) : State :=
  match (s.queue sl slot).held with
  | none => s
  | some p => (s.setQueue sl slot (fun q => { q with prod := p, held := none })).startDescs sl slot

/-- Every queue of a slice acts on the index it held. -/
def State.releaseSlice (s : State) (sl : Nat) : State :=
  ((s.slice sl).queues.map Prod.fst).foldl (fun t j => t.releaseQueue sl j) s

/-- Entry to NORMAL: `ADMIN`, `KV` and `CKPT` rise, and `SLICES` where a compartment is set (R483);
each queue of an active slice acts on its held producer index (R552). -/
def State.enterNormal (s : State) : State :=
  let t := { s with mod := { s.mod with svc := .normal } }
  let u := t.setFns [1, 3, 4] true
  let v := if s.compId ≠ 0 then u.setFn 2 true else u
  (v.sliceIds.filter (fun n => decide ((v.slice n).st = .active))).foldl State.releaseSlice v

/-- BRINGUP_COMPLETE (R32, R483): from BRINGUP with MGI, HI and MI0–MI3 ready, to NORMAL; a fault the
boot ROM recorded leads to RECOVERY. -/
def execBringupComplete (s : State) : Res :=
  .next (if s.mod.svc = .bringup ∧ s.coreReady then
      (if s.mod.bootFault then s.enterRecovery else s.enterNormal) else s)

/-- Whether some stack is FAILED; the SP9 then stays in RECOVERY until a module reset (R177). -/
def State.stackFailed (s : State) : Bool := s.mis.any (fun m => m.stackSt.any (· == .failed))

/-- RECOVERY_EXIT (R32): with the core islands ready, from RECOVERY to NORMAL. -/
def execRecoveryExit (s : State) : Res :=
  .next (if s.mod.svc = .recovery ∧ s.coreReady ∧ s.mod.jumped ∧ !s.stackFailed then s.enterNormal else s)

end Sys2Proof.Machine
end

