-- ==== Sys2Proof/Machine/PowerCap.lean ====
section
/-!
DEFINITION. Power capping and thermal control (chapter 17): rail readings, the cap controller and its
descent, duty windows, the guard, and the thermal throttle.
-/
namespace Sys2Proof.Machine

/-- What a rail draws: its last reading, or after three failed readings the highest reported (R500). -/
def Rail.draw (r : Rail) : Nat := if 3 ≤ r.fails then r.high else r.mw

/-- Rail i of Table 17-1. -/
def State.rail (s : State) (i : Nat) : Rail := sget s.pow.rails i

/-- Sum of the draws of some rails. -/
def State.railSum (s : State) (l : List Nat) : Nat := (l.map (fun i => (s.rail i).draw)).sum

/-- Module power: the power of `VIN`, or the sum of the other rails divided by 0.96 (R499, R500). -/
def State.modulePower (s : State) : Nat :=
  if 3 ≤ (s.rail 0).fails then s.railSum (List.range' 1 30) * 100 / 96 else (s.rail 0).mw

/-- Power of the classes BASE, LINKS, MEMORY, COMPUTE (Table 17-1). -/
def State.classPower (s : State) : List Nat :=
  [s.railSum [28, 29, 30], s.railSum [25, 26, 27], s.railSum (List.range' 17 8), s.railSum (List.range' 1 16)]

/-- Change the power controller. -/
def State.setPow (s : State) (f : PowerCtl → PowerCtl) : State := { s with pow := f s.pow }

/-- One rail's reading: voltage in mV and power in W, or a failed reading (R500). -/
def State.readRail (s : State) (i : Nat) (r : Option (BitVec 16 × BitVec 16)) : State :=
  let o := s.rail i
  match r with
  | some (mv, w) =>
    let r1 : Rail := ⟨w.toNat, mv.toNat, max o.high w.toNat, 0⟩
    let t := s.setPow (fun p => { p with rails := sput p.rails i r1 })
    t.acc (fun a => { a with
      railMin := maxInto a.railMin i (65535 - mv.toNat), railMax := maxInto a.railMax i mv.toNat })
  | none =>
    let t := (s.setPow (fun p => { p with rails := sput p.rails i (Rail.mk o.mw o.mv o.high (o.fails + 1)) })).count
      0x8000 0x0B 1
    if o.fails = 2 then t.event .operator 0x1104 i 0 0 else t

/-- Read the rails of a list from number i on. -/
def State.readRails : Nat → List (Option (BitVec 16 × BitVec 16)) → State → State
  | _, [], s => s
  | i, r :: rs, s => State.readRails (i + 1) rs (s.readRail i r)

/-- The means of `VIN` and of each class over each complete second of 1,000 readings (R464). -/
def State.secondMean (s : State) (w : Nat) : State :=
  let sums := (List.range 4).map (fun i => s.pow.clsSum.getD i 0 + s.classPower.getD i 0)
  s.setPow (fun p =>
    if p.secCnt + 1 = 1000 then { p with
      secMean := (p.secSum + w) / 1000, secSum := 0, secCnt := 0, clsMean := sums.map (fun x => x / 1000), clsSum := [] }
    else { p with secSum := p.secSum + w, secCnt := p.secCnt + 1, clsSum := sums })

/-- The guard compares a reading with the cap in force (R511): four consecutive readings more than 5 %
above it, with no completed period among them, halve `TI_DUTY`. -/
def State.guardCheck (s : State) (w : Nat) : State :=
  if s.obj 0x8000 1 * 105 < w * 100 then
    if s.pow.guard + 1 = 4 then
      let d := max 1 (s.pow.duty / 2)
      (((s.setPow (fun p => { p with guard := 0, duty := d })).count 0x8000 0x0A 1).alert 2 true).event
        .operator 0x1102 d 0 0
    else s.setPow (fun p => { p with guard := p.guard + 1 })
  else s.setPow (fun p => { p with guard := 0 })

/-- Bit 5 of `ALERT_CAUSE` follows the rails that fail (R500, R516). -/
def State.railAlert (s : State) : State :=
  s.alert 5 ((List.range 31).any (fun i => decide (3 ≤ (s.rail i).fails)))

/-- RAIL_READING (R499, R500, R511, R523): the 31 rails in the order of Table 17-1; rails beyond the
list are not read. -/
def execRailReading (r : List (Option (BitVec 16 × BitVec 16))) (s : State) : Res :=
  let t := (State.readRails 0 (r.take 31) s).railAlert
  let w := t.modulePower
  .next (((t.secondMean w).guardCheck w).acc (fun a => { a with
    powerMax := max a.powerMax w, powerMin := max a.powerMin (65535 - w) }))

/-! ### The cap controller (R502–R510) -/

/-- The order in which classes receive headroom: 0 LINKS, 1 MEMORY, 2 COMPUTE (`8100:01`, R504). -/
def capOrder (v : Nat) : List Nat :=
  match v with
  | 0 => [0, 1, 2]
  | 1 => [0, 2, 1]
  | 2 => [1, 0, 2]
  | 3 => [1, 2, 0]
  | 4 => [2, 0, 1]
  | _ => [2, 1, 0]

/-- Grants by class: each its minimum, then the headroom in order (R502). -/
def capGrants (lo hi : List Nat) : List Nat → Nat → List Nat → List Nat
  | [], _, g => g
  | c :: cs, left, g =>
    let x := min left (hi.getD c 0 - lo.getD c 0)
    capGrants lo hi cs (left - x) (g.set c (lo.getD c 0 + x))

/-- The highest step whose predicted power is within a grant; step 0 is the minimum. -/
def capStep (curve : List Nat) (give : Nat) : Nat :=
  (List.range curve.length).foldl (fun m i => if curve.getD i 0 ≤ give then i else m) 0

/-- Ceiling in MHz of a class: SWI for LINKS, MI, and `TI_CLK_CEILING` for COMPUTE (Table 17-2). -/
def State.classCeiling (s : State) (c : Nat) : Nat :=
  match c with
  | 0 => 2000
  | 1 => 1600
  | _ => s.obj 0x8000 7

/-- Minimum in MHz of a class (Table 17-2). -/
def classMin (c : Nat) : Nat :=
  match c with
  | 0 => 1000
  | 1 => 1000
  | _ => 600

/-- Set the clocks of the three classes, each island within its own range (R502, Table 17-2). -/
def State.setClocks (s : State) (f : Nat → Nat) : State :=
  (List.range 26).foldl (fun t n =>
    let c := islandKind n
    if c = 0 then t.setIsland n (fun i => { i with clk := f 2 })
    else if c = 1 then t.setIsland n (fun i => { i with clk := f 1 })
    else if c = 2 then t.setIsland n (fun i => { i with clk := f 0 })
    else if c = 3 then t.setIsland n (fun i => { i with clk := min 1600 (max 1200 (f 0)) })
    else t) s

/-- The highest on-time in sixteenths whose predicted COMPUTE power is within a grant, at least 1. -/
def dutyFor (duty : List Nat) (give : Nat) : Nat :=
  (List.range 16).foldl (fun m i => if duty.getD i 0 ≤ give then i + 1 else m) 1

/-- One period below the three minimums (R505, Table 17-3): a step is taken while power is above the
cap and the step before is exhausted; with headroom the steps climb back in reverse order. -/
def PowerCtl.descend (p : PowerCtl) (above : Bool) (k : Nat) : PowerCtl :=
  if above then
    if 1 < p.duty then { p with duty := if k < p.duty then k else p.duty - 1, capState := 2 }
    else if 1 < p.memLimit then { p with memLimit := p.memLimit - 1, capState := 3 }
    else if 1 < p.linkStep then { p with linkStep := p.linkStep - 1, capState := 4 }
    else { p with capState := 5 }
  else if p.linkStep < 16 then
    { p with linkStep := p.linkStep + 1, capState := if p.linkStep + 1 < 16 then 4 else 3 }
  else if p.memLimit < 16 then
    { p with memLimit := p.memLimit + 1, capState := if p.memLimit + 1 < 16 then 3 else 2 }
  else { p with duty := max p.duty k, capState := 2 }

/-- CAP_UNMET is counted, reported and flagged, or cleared (R509). -/
def State.capUnmet (s : State) : State :=
  if s.pow.capState = 5 then
    (((s.count 0x8000 9 1).total 5 1).alert 0 true).event .operator 0x1101 (s.obj 0x8000 1) s.modulePower 0
  else s.alert 0 false

/-- A completed period ends the guard's action (R511, R516). -/
def State.guardEnd (s : State) : State := (s.setPow (fun p => { p with guard := 0 })).alert 2 false

/-- A cap period (R502, R505). -/
def State.capPeriod (s : State) (pr : Predict) : State :=
  let cap := s.obj 0x8000 1
  let budget := cap - s.railSum [28, 29, 30]
  let base := pr.lo.getD 0 0 + pr.lo.getD 1 0 + pr.lo.getD 2 0
  if base ≤ budget then
    let g := capGrants pr.lo pr.hi (capOrder (s.obj 0x8100 1)) (budget - base) pr.lo
    let f (c : Nat) : Nat :=
      min (s.classCeiling c) (classMin c + 25 * capStep (pr.curve.getD c []) (g.getD c 0))
    let free := f 0 == s.classCeiling 0 && f 1 == s.classCeiling 1 && f 2 == s.classCeiling 2
    ((s.setClocks f).setPow (fun p => { p with
      duty := 16, memLimit := 16, linkStep := 16, capState := if free then 0 else 1 })).guardEnd.capUnmet
  else
    let k := dutyFor pr.duty (budget - (pr.lo.getD 0 0 + pr.lo.getD 1 0))
    ((s.setClocks classMin).setPow (fun p => p.descend (decide (cap < s.modulePower)) k)).guardEnd.capUnmet

/-- CAP_PERIOD: the loop runs on the management core, outside BOOT and TEST (R41, R502). -/
def execCapPeriod (pr : Predict) (s : State) : Res :=
  .next (if s.fwRuns ∧ s.mod.svc ≠ .boot ∧ s.mod.svc ≠ .test then s.capPeriod pr else s)

/-- DUTY_WINDOW_START (R506, R456): the window applies the current duty; in stage 2 of a switch duty
cycling is suspended. -/
def execDutyWindowStart (s : State) : Res :=
  .next (s.setPow (fun p => { p with
    window := p.window + 1, dutyNow := if s.keys.stage = 2 then 16 else p.duty }))

/-- Whether tensor island n runs in slot j (0–15) of the window: `dutyNow` slots, or the fewer that its thermal throttle leaves it
(R514), staggered by island number so that supply current changes in steps of one island (R506). -/
def State.slotOn (s : State) (n j : Nat) : Bool :=
  decide ((j + 16 - n % 16) % 16 < min s.pow.dutyNow (s.island n).onTime)

/-! ### Thermal limits (R513, R514) -/

/-- The throttle of an island at or above `THROTTLE_C` (R514). -/
def Island.throttle (i : Island) (n : Nat) : Island :=
  let c := islandClock n
  let range := c.2.2 - c.2.1
  if range = 0 then { i with throttled := true }
  else
    let atMin := islandKind n == 0 && decide (min i.clk i.ceiling = c.2.1)
    { i with throttled := true, ceiling := max c.2.1 (i.ceiling - range / 16)
             onTime := if atMin then max 1 (i.onTime / 2) else i.onTime }

/-- The release of the ceiling at 102 °C (R514). -/
def Island.release (i : Island) (n : Nat) : Island :=
  { i with throttled := false, ceiling := (islandClock n).2.2, onTime := 16 }

/-- A temperature sample of island n below the trip point (R513, R514, R516). -/
def State.thermal (s : State) (n : Nat) (t : Int) : State :=
  let was := (s.island n).throttled
  let s1 := (s.setIsland n (fun i => { i with tj := t, peak := max i.peak t })).acc
    (fun a => { a with tjMax := ins a.tjMax n (max (look t a.tjMax n) t) })
  let s2 :=
    if 10500 ≤ t then
      let u := s1.setIsland n (fun i => i.throttle n)
      if was then u
      else ((u.count (0x8210 + n) 3 1).total 7 1).event .operator 0x1103 n (unsigned 64 t) 0
    else if was && decide (t ≤ 10200) then s1.setIsland n (fun i => i.release n)
    else s1
  let s3 := if was then s2.count (0x8210 + n) 4 100 else s2
  s3.alert 1 ((List.range 26).any (fun k => (s3.island k).throttled))

end Sys2Proof.Machine
end

