-- ==== Sys2Proof/Machine/KeyStore.lean ====
section
/-!
DEFINITION. The key store and the cipher key slots (chapter 15): the committed record, operator key
provisioning, staged secrets, and the slots' states, counts and replay windows.
-/
namespace Sys2Proof.Machine

/-- Change the key store. -/
def State.setKeys (s : State) (f : Keys → Keys) : State := { s with keys := f s.keys }

/-- Commit a record: the copy with the lower sequence number is written (R453). -/
def Keys.commit (k : Keys) (r : KeyRec) : Keys :=
  let n := { r with seq := k.record.seq + 1 }
  if k.copyB.seq < k.copyA.seq then { k with copyB := n } else { k with copyA := n }

/-- An identifier as 8 little-endian bytes (R448). -/
def idBytes (id : Nat) : List Byte := leBytes 8 id

/-- The store key KSK, kdf(DRS, "store", 32), under which the key store wraps its records (Table 15-1). The records
stand unwrapped in the state: no path reads the wrapped form (R449). -/
def storeKey : List Byte := kdf (leBytes 32 Config.drs) (ascii "store") 32

/-- The identifier value of an operator key, kdf(OPK, "opk-id", 8). -/
def opkId (opk : Nat) : Nat := leNat (kdf (leBytes 48 opk) (ascii "opk-id") 8)

/-- The check value of a compartment secret, kdf(CS, "check" ‖ id, 8). -/
def checkValue (cs id : Nat) : Nat := leNat (kdf (leBytes 32 cs) (ascii "check" ++ idBytes id) 8)

/-- The wrap key, kdf(OPK, "wrap", 32); without an operator key there is none. -/
def Keys.wrapKey (k : Keys) : Option (List Byte) :=
  k.record.opk.map (fun o => kdf (leBytes 48 o) (ascii "wrap") 32)

/-- The checkpoint MAC key of the current compartment (Table 15-1). -/
def State.ckm (s : State) : List Byte :=
  match s.keys.setup with
  | some r => kdf (leBytes 32 (r.cs.getD 0)) (ascii "ckpt-mac" ++ idBytes r.compId) 48
  | none => List.replicate 48 0

/-- The checkpoint cipher key of the current compartment (Table 15-1). -/
def State.cke (s : State) : List Byte :=
  match s.keys.setup with
  | some r => kdf (leBytes 32 (r.cs.getD 0)) (ascii "ckpt-enc" ++ idBytes r.compId) 32
  | none => List.replicate 32 0

/-! ### Provisioning of the operator key (R450, R481) -/

/-- Whether the boot ROM waits for a first operator key. -/
def State.provisioning (s : State) : Bool := decide (s.firm.phase = .provisionWait) && !s.mod.jumped

/-- Whether the boot ROM answers I3C: in the boot window of a module reset, and after a halt. -/
def State.romServes (s : State) : Bool :=
  decide (s.firm.phase = .halted) || (!s.mod.jumped && !s.pins.inReset && s.keys.stage != 5)

/-- A provisioning write outside the wait aborts with LOCKED (R480); where nothing answers I3C it is not acknowledged (R55, R474). -/
def State.opkDenied (s : State) : State :=
  if s.romServes || (s.fn 0 && !s.mod.stopped) then s.emit (.dictDone .i3c 7 0) else s.emit (.i3cAck false)

/-- Change the firmware's boot status. -/
def State.setFirm (s : State) (f : Firm → Firm) : State := { s with firm := f s.firm }

/-- FIRST_OPK_LO_WRITE (R481). -/
def execFirstOpkLoWrite (v : BitVec 256) (s : State) : Res :=
  .next (if s.provisioning then
      (s.setKeys (fun k => { k with opkLo := some v.toNat })).emit (.dictDone .i3c 0 0xFFFF)
    else s.opkDenied)

/-- FIRST_OPK_HI_WRITE (R481). -/
def execFirstOpkHiWrite (v : BitVec 128) (s : State) : Res :=
  .next (if s.provisioning then
      (s.setKeys (fun k => { k with opkHi := some v.toNat })).emit (.dictDone .i3c 0 0xFFFF)
    else s.opkDenied)

/-- The key formed by both halves, where both have been written since the last discard. -/
def Keys.firstOpk (k : Keys) : Option Nat :=
  match k.opkLo, k.opkHi with
  | some l, some h => some (l + 2 ^ 256 * h)
  | _, _ => none

/-- A commit of the first operator key (R481), with its abort code: a match places the key in the record and ends the wait; a
mismatch is RANGE and discards both halves; outside the wait LOCKED. -/
def State.firstOpkTry (s : State) (v : Nat) : State × Nat :=
  if !s.provisioning then (s, 7)
  else
    let t := s.setKeys (fun k => { k with opkLo := none, opkHi := none })
    match s.keys.firstOpk with
    | some o =>
      if opkId o = v then
        ((t.setKeys (fun k => k.commit { k.record with opk := some o })).setFirm (fun f => { f with phase := .verifyA }), 0)
      else (t, 4)
    | none => (t, 4)

/-- FIRST_OPK_COMMIT_WRITE with its outcome. -/
def State.firstOpkCommit (s : State) (v : Nat) : State :=
  if s.provisioning then
    let r := s.firstOpkTry v
    r.1.emit (.dictDone .i3c r.2 (if r.2 = 0 then 0xFFFF else 0))
  else s.opkDenied

/-- FIRST_OPK_COMMIT_WRITE. -/
def execFirstOpkCommitWrite (v : BitVec 64) (s : State) : Res := .next (s.firstOpkCommit v.toNat)

/-- PROVISION_TIMEOUT (R481): after 5 s without a commit, boot continues without an operator key. -/
def execProvisionTimeout (s : State) : Res :=
  .next (if s.provisioning then s.setFirm (fun f => { f with phase := .verifyA }) else s)

/-- What a `NEXT_SECRET` record opens to under the wrap key: identifier and secret (R451). -/
def Keys.openSecret (k : Keys) (b : List Byte) : Option (Nat × Nat) :=
  let id := fieldAt b 0 8
  if id = 0 then none
  else match k.wrapKey with
    | none => none
    | some wk =>
      (gcmOpen wk (bytesAt b 8 12) (bytesAt b 0 8) (bytesAt b 20 32) (bytesAt b 52 16)).map
        (fun cs => (id, leNat cs))

/-- What a `NEXT_OPK` record opens to (R450). -/
def Keys.openOpk (k : Keys) (b : List Byte) : Option Nat :=
  match k.wrapKey with
  | none => none
  | some wk => (gcmOpen wk (bytesAt b 0 12) [] (bytesAt b 12 48) (bytesAt b 60 16)).map leNat

/-- RNG_HEALTH_FAIL (R449): no key is generated until the next module reset. -/
def execRngHealthFail (s : State) : Res := .next (s.setKeys (fun k => { k with rngBad := true }))

/-! ### Key slots (R466–R470) -/

/-- A device key slot. -/
def State.kslot (s : State) (d : Nat) : KeySlot := sget s.keys.slots d

/-- Change a device key slot. -/
def State.setKslot (s : State) (d : Nat) (f : KeySlot → KeySlot) : State :=
  s.setKeys (fun k => { k with slots := smod k.slots d f })

/-- The 256-bit key of the eight key words. -/
def wordsKey (w : Store Nat) : Nat := ((List.range 8).map (fun i => look 0 w i * 2 ^ (32 * i))).sum

/-- INSTALL of the staged words (R466, R467): counts start again, but from NEEDS_KEY they carry on. -/
def KeySlot.install (k : KeySlot) : KeySlot :=
  let key := wordsKey k.words
  match k.st with
  | .needsKey =>
    { k with st := if k.limit ≤ k.inv then .exhausted else .active, key := key, fixed := k.fixedReg
             words := [], fixedReg := 0, limitReg := 0 }
  | _ =>
    { st := .active, key := key, fixed := k.fixedReg
      limit := if k.limitReg = 0 then 2 ^ 32 else k.limitReg
      inv := 0, win0 := default, win1 := default, words := [], fixedReg := 0, limitReg := 0 }

/-- What a write to a glove key slot reaches: the device slot, a dropped write beyond the quota, or a
page that does not exist (R66, R67). -/
def State.gloveSlot (s : State) (sl j : Nat) (f : KeySlot → KeySlot) : State :=
  let x := s.slice sl
  if !s.gloveThere sl then s.emit (.busError .pcieWrite)
  else if x.quota.keySlots ≤ j then s.count (0xA100 + sl) 6 1
  else s.setKslot (x.keyBase + j) f

/-- KEY_SLOT_INSTALL. -/
def execKeySlotInstall (sl : Fin 512) (j : Fin 256) (s : State) : Res :=
  .next (s.gloveSlot sl.val j.val KeySlot.install)

/-- KEY_SLOT_ERASE (R466): the slot is empty and its registers are zero. -/
def execKeySlotErase (sl : Fin 512) (j : Fin 256) (s : State) : Res :=
  .next (s.gloveSlot sl.val j.val (fun _ => default))

/-- Count one invocation on a device slot of slice `sl` (R467, R469). -/
def State.invoke (s : State) (sl d : Nat) : State :=
  let k := s.kslot d
  let i := k.inv + 1
  let g := d - (s.slice sl).keyBase
  let t := s.setKslot d (fun x => { x with inv := i, st := if i = k.limit then .exhausted else x.st })
  let u := if i = 7 * k.limit / 8 then
      (t.count 0x7100 7 1).event (.slice sl) 0x0F02 g i k.limit else t
  if i = k.limit then (u.count 0x7100 8 1).event (.slice sl) 0x0F03 g i k.limit else u

/-- The nonce of an encryption: `FIXED` with bit 31 replaced by the direction, then the counter (R468). -/
def slotNonce (fixed : Nat) (dir : Bool) (ctr : Nat) : List Byte :=
  beBytes 4 (fixed % 2 ^ 31 + b2n dir * 2 ^ 31) ++ beBytes 8 ctr

/-- Whether a counter passes a replay window of `w` values: above the highest accepted, or within the
window and not accepted before. -/
def Replay.ok (r : Replay) (w c : Nat) : Bool :=
  !r.any || decide (r.high < c) || (decide (r.high - c < w) && !(bit r.seen (r.high - c)))

/-- The window after a counter is accepted. -/
def Replay.take (r : Replay) (w c : Nat) : Replay :=
  if !r.any then { any := true, high := c, seen := 1 }
  else if r.high < c then { r with high := c, seen := (r.seen * 2 ^ (min (c - r.high) w) + 1) % 2 ^ w }
  else { r with seen := setBit r.seen (r.high - c) true }

/-- `SLOTS_ACTIVE` (`7100:06`). -/
def State.slotsActive (s : State) : Nat := (s.keys.slots.filter (fun e => e.2.st == .active)).length

/-! ### Control ring commands share the check of R489 -/

/-- The context of a control-ring command of a slice: glove slot 0. -/
def ctrlCtx (sl : Fin 512) (tag : BitVec 32) : QCtx := ⟨sl, 0, tag⟩

/-- A control command of a row's `OP` (Table 16-7) on the control ring of a slice: nothing starts without a running ring. Before a
HELLO has passed, every other command completes with VERSION_MISMATCH (R489); an `OP` of no command completes with SL_FORMAT. The entry of another command is no occasion of this row. `k` takes the command's `TAG`. -/
def State.ctrl (s : State) (sl : Fin 512) (op : Nat) (d : List Byte) (k : BitVec 32 → State → State) : State :=
  let q := s.queue sl.val 0
  let o := fieldAt d 0 1
  let tag := BitVec.ofNat 32 (fieldAt d 4 4)
  if !q.used || q.halted || !(s.doorbellsLive sl.val) || (decide (o ≤ 6) && o != op) then s
  else if !(s.slice sl.val).hello ∧ o ≠ 0 then s.finish (ctrlCtx sl tag) 0x0B 0 0
  else if 6 < o then s.finish (ctrlCtx sl tag) 1 0 0
  else k tag s

end Sys2Proof.Machine
end

