-- ==== Sys2Proof/Machine/Firmware.lean ====
section
/-!
DEFINITION. Boot ROM, firmware banks and their verification, update staging, the admin ring and the
control-ring commands of the firmware (chapter 16).
-/
namespace Sys2Proof.Machine

/-! ### Bank verification (Tables 16-2, 16-3, R476) -/

/-- `n` bytes of a bank from an offset. -/
def bankBytes (b : Store Byte) (off n : Nat) : List Byte := (List.range n).map (fun i => look 0 b (off + i))

/-- Whether the header's reserved fields and sizes are in order (code HEADER). -/
def bankHeaderOk (b : Store Byte) : Bool :=
  let img := bankField b 24 4
  bankField b 4 2 == 1 && bankField b 6 2 == 0 && bankField b 17 7 == 0 && bankField b 36 12 == 0 &&
  bankField b 241 15 == 0 && bankField b 352 160 == 0 &&
  img != 0 && img % 4096 == 0 && decide (img ≤ 6 * 2 ^ 20) &&
  bankField b 28 4 % 4 == 0 && decide (bankField b 28 4 < img) &&
  decide (512 + img + bankField b 32 4 ≤ 96 * 2 ^ 20)


/-- The result of verifying a bank, the first failing check of Table 16-3. `fused` is the fused digest of the signing key. A payload
shorter than 64 KiB is its payload table whole (log entry 42). -/
def verifyBank (b : Store Byte) (svnMin : Nat) (fused : List Byte) (c : BankCheck) : Nat :=
  let img := bankField b 24 4
  if !c.readOk then 7
  else if bankField b 0 4 ≠ 0x4A584657 then 1
  else if !bankHeaderOk b then 2
  else if sha384 (bankBytes b 144 97) ≠ fused then 3
  else if !(signatureOk (bankBytes b 144 97) (bankBytes b 256 96) (bankBytes b 0 256)) then 4
  else if sha384 (bankBytes b 512 img) ≠ bankBytes b 48 48 then 5
  else if sha384 (bankBytes b (512 + img) (min 65536 (bankField b 32 4))) ≠ bankBytes b 96 48 then 5
  else if bankField b 16 1 < svnMin then 6
  else 0

/-- Change the NOR contents. -/
def State.setNor (s : State) (f : Nor → Nor) : State := { s with nor := f s.nor }

/-- The state code of a bank. -/
def State.setBankState (s : State) (b : Bool) (v : Nat) : State :=
  s.setNor (fun n => if b then { n with stateB := v } else { n with stateA := v })

/-- Verify one bank and record its result and state. -/
def State.verify (s : State) (b : Bool) (c : BankCheck) : State × Nat :=
  let r := verifyBank (if b then s.nor.bankB else s.nor.bankA) s.nor.svnMin s.nor.keyDigest c
  let t := s.setFirm (fun f => if b then { f with resB := r } else { f with resA := r })
  (t.setBankState b (if r = 0 then 1 else 2), r)

/-! ### The jump to the firmware (R452, R479, R482, R483) -/

/-- Apply the persisted BOOT-boundary writes (R48, R483). -/
def State.applyBoot (s : State) : State :=
  s.nor.bootVals.foldl (fun t e => t.setObj (e.1 / 256) (e.1 % 256) (e.2 - 1)) s

/-- Every island that is OFF, HI and MGI apart, starts its self-test (R482). -/
def State.startSelftests (s : State) : State :=
  (List.range 26).foldl (fun t n =>
    if (t.island n).istate = .off ∧ n ≠ 23 ∧ n ≠ 25 then
      t.setIsland n (fun i => { i with istate := .selftest }) else t) s

/-- The firmware's first work after a module reset (R483, R529). -/
def State.firmwareBoot (s : State) : State :=
  let t := (s.applyBoot.recorderFlush s.rcd.lastTick).startSelftests
  let u := t.setFn 0 true
  let v := if u.nor.log.length < 8192 then u.setFn 7 true else u
  if v.compId ≠ 0 then v.setFn 6 true else v

/-- Record the time of a stage of a tenant switch; a stage beyond its bound is counted and reported
(R454, Table 15-11). -/
def State.stageTime (s : State) (i us bound : Nat) : State :=
  if s.mod.svc = .switching then
    let t := s.setKeys (fun k => { k with times := k.times.set (i - 1) us })
    if bound < us then (t.count 0x7200 0x0B 1).event .operator 0x0F04 i us 0 else t
  else s

/-- The registers with which the ROM starts the firmware of the booted bank (step 7 of Table 16-1, R479): the image, which it
verified, lies at offset 0 of MGI SRAM and is the code region; the two stacks share the top 256 KiB. Where in the image the vector
table lies, and where the stacks part, the firmware build fixes (log entry 42). -/
def State.mgmtEntry (s : State) : State :=
  let img := bankField s.bootedBank 24 4
  let sram := 0x010200000000
  let top := sram + 0x800000
  let split := top - 0x40000 + 8 * (1 + Config.fwStackSplit % 0x7FFE)
  { s.store sram (bankBytes s.bootedBank 512 img) with seqs := sput s.seqs 16 { (default : Seqr) with
    pc := sram + bankField s.bootedBank 28 4, codeLo := sram, codeHi := sram + img
    tvbase := sram + Config.fwVectors % (img / 1024) * 1024
    rslo := top - 0x40000, rshi := split, rsp := split, dslo := split, dshi := top } }

/-- The ROM's jump: protection set-up from the committed record, latch, inbox enabled and the held
messages delivered; then BRINGUP, or RECOVERY from the other bank, or stage 6 of a switch. -/
def State.romJump (s : State) (us : Nat) (other : Bool) : State :=
  let t := { s with
    keys := { s.keys with setup := some s.keys.record, latch := true }
    firm := { s.firm with phase := .firmware, other := other }
    mod := { s.mod with jumped := true } }
  let t := (t.setObj 0xB020 5 (us / 1000)).mgmtEntry
  if s.keys.stage = 5 then
    let u := ((t.stageTime 5 us 120000).setKeys (fun k => { k with stage := 6 })).csRelease
    if s.mod.svc = .switching then u
    else
      let v := { u with mod := { u.mod with svc := .bringup, bootFault := false } }
      if other || u.mod.bootFault then v.enterRecovery else v
  else
    let u := ({ t with mod := { t.mod with svc := .bringup } }).firmwareBoot.csRelease
    let v := { u with mod := { u.mod with bootFault := false } }
    if other || u.mod.bootFault then v.enterRecovery else v

/-- Both banks failed (R478): HALTED, with bit 3 of `ALERT_CAUSE`. -/
def State.bootHalt (s : State) : State := (s.setFirm (fun f => { f with phase := .halted })).alert 3 true

/-- BANK_VERIFY_COMPLETE (R477): the pending activation, the preferred bank, the other bank, a halt. -/
def State.bankVerify (s : State) (ra rb : BankCheck) (us : Nat) : State :=
  if s.mod.jumped ∨ s.firm.phase = .halted ∨ s.firm.phase = .provisionWait ∨ !(s.island 25).ready then s
  else
    let act := s.nor.pendKind == 2 || (s.nor.pendKind == 1 && s.keys.stage != 5)
    let s0 := if act then s.setNor (fun n => { n with prefB := n.pendB, pendKind := 0 }) else s
    let p := s0.nor.prefB
    let chk (b : Bool) := if b then rb else ra
    let v1 := s0.verify p (chk p)
    if v1.2 = 0 then (v1.1.setFirm (fun f => { f with bootedB := p })).romJump us false
    else
      let v2 := v1.1.verify (!p) (chk (!p))
      if v2.2 = 0 then
        ((v2.1.setNor (fun n => { n with prefB := !p })).setFirm (fun f => { f with bootedB := !p })).romJump us true
      else v2.1.bootHalt

/-- BANK_VERIFY_COMPLETE. -/
def execBankVerifyComplete (ra rb : BankCheck) (us : BitVec 32) (s : State) : Res :=
  .next (s.bankVerify ra rb us.toNat)

/-- FIRMWARE_REVERIFY_END (R460, R463): SWITCH-boundary writes apply, function bits rise, and the
switch ends in NORMAL or RECOVERY; at the end of TEST the dictionary returns in BRINGUP. -/
def State.reverifyEnd (s : State) (us : Nat) : State :=
  if s.keys.stage ≠ 6 then s
  else if s.mod.svc = .switching then
    let bad := s.mod.swFault || s.firm.other || !s.keys.committed
    let t := ((s.stageTime 6 us 60000).applyPlain .switch).setFn 0 true
    let t := if t.compId ≠ 0 then t.setFn 6 true else t
    let t := if s.keys.committed then (t.setObj 0x7200 7 2).count 0x7200 0x0A 1 else t.setObj 0x7200 7 3
    let t := t.setKeys (fun k => { k with stage := 0, secret := none, committed := false })
    let t := { t with mod := { t.mod with swFault := false } }
    if bad then t.enterRecovery else t.enterNormal
  else
    let t := (s.setKeys (fun k => { k with stage := 0 })).setFn 0 true
    let t := if t.compId ≠ 0 then t.setFn 6 true else t
    { t with mod := { t.mod with testEnding := false } }

/-- FIRMWARE_REVERIFY_END. -/
def execFirmwareReverifyEnd (us : BitVec 32) (s : State) : Res := .next (s.reverifyEnd us.toNat)

/-- MGMT_CORE_STOP (R497): the core stops and bit 4 of `ALERT_CAUSE` is set until a module reset. -/
def execMgmtCoreStop (s : State) : Res :=
  .next (({ s with mod := { s.mod with stopped := true } }).alert 4 true)

/-! ### Update staging (R492–R494) -/

/-- The bank that was not booted, into which updates are staged. -/
def State.inactive (s : State) : Bool := !s.firm.bootedB

/-- Replace the contents of the inactive bank. -/
def State.setInactive (s : State) (f : Store Byte → Store Byte) : State :=
  s.setNor (fun n => if s.inactive then { n with bankB := f n.bankB } else { n with bankA := f n.bankA })

/-- Check of a `STAGE_CMD` write (R492, R493): 1 BEGIN, 2 COMMIT, 3 ABORT, 4 ACTIVATE_RESET,
5 ACTIVATE_ANY, 6 CANCEL. `jobs`: some checkpoint job is in a state other than NONE. -/
def State.stageCheck (s : State) (jobs : Bool) (v : Nat) : Nat :=
  if v = 1 ∨ v = 4 ∨ v = 5 then
    if s.mod.svc ≠ .normal ∧ s.mod.svc ≠ .recovery then 6
    else if v ≠ 1 ∧ s.firm.stage ≠ .staged then 6
    else if jobs then 8 else 0
  else if v = 2 then (if s.firm.stage = .loading then 0 else 6)
  else if v = 3 ∨ v = 6 then 0
  else 4

/-- The effect of a `STAGE_CMD` write. -/
def State.stageApply (s : State) (v : Nat) : State :=
  match v with
  | 1 => (((s.setFirm (fun f => { f with stage := .erasing, stageDone := [] })).setInactive (fun _ => [])).setBankState
      s.inactive 2).setNor (fun n => { n with pendKind := 0 })
  | 2 => s.setFirm (fun f => { f with stage := .verifying })
  | 3 => (s.setFirm (fun f => { f with stage := .idle })).setBankState s.inactive 2
  | 4 => s.setNor (fun n => { n with pendKind := 1, pendB := s.inactive })
  | 5 => s.setNor (fun n => { n with pendKind := 2, pendB := s.inactive })
  | 6 => s.setNor (fun n => { n with pendKind := 0 })
  | _ => s

/-- STAGE_ERASE_DONE (R492). -/
def execStageEraseDone (s : State) : Res :=
  .next (if s.firm.stage = .erasing then s.setFirm (fun f => { f with stage := .loading }) else s)

/-- Check of a `STAGE_DATA` write (R492). -/
def State.stageDataCheck (s : State) : Nat :=
  let off := s.obj 0xB000 2
  match s.firm.stage with
  | .erasing | .verifying => 8
  | .loading =>
    if off % 1024 ≠ 0 ∨ look false s.firm.stageDone (off / 1024) ∨ 96 * 2 ^ 20 < off + 1024 then 4 else 0
  | _ => 7

/-- Program bytes into a bank from an offset. -/
def programBank (b : Store Byte) (off : Nat) (bs : List Byte) : Store Byte :=
  (List.range bs.length).foldl (fun m i => put 0 m (off + i) (bs.getD i 0)) b

/-- The effect of a `STAGE_DATA` write: 1,024 bytes programmed and the offset advanced (R492). -/
def State.stageDataApply (s : State) (bs : List Byte) : State :=
  let off := s.obj 0xB000 2
  ((s.setInactive (fun b => programBank b off bs)).setFirm
    (fun f => { f with stageDone := put false f.stageDone (off / 1024) true })).setObj 0xB000 2 (off + 1024)

/-- STAGE_VERIFY_DONE (R492): STAGED, or FAILED with the failing code; a payload component whose
digest differs fails as DIGEST. -/
def State.stageVerified (s : State) (c : BankCheck) : State :=
  if s.firm.stage = .verifying then
    let r0 := verifyBank (if s.inactive then s.nor.bankB else s.nor.bankA) s.nor.svnMin s.nor.keyDigest c
    let r := if r0 = 0 ∧ !c.payloadOk then 5 else r0
    (s.setFirm (fun f => { f with stage := if r = 0 then .staged else .failed, stageRes := r })).setBankState
      s.inactive (if r = 0 then 3 else 2)
  else s

/-- STAGE_VERIFY_DONE. -/
def execStageVerifyDone (chk : BankCheck) (s : State) : Res := .next (s.stageVerified chk)

/-- Check of a `SVN_ADVANCE` write (Table 16-12). -/
def State.svnCheck (s : State) (v : Nat) : Nat :=
  if v = bankField s.bootedBank 16 1 ∧ s.nor.svnMin < v then 0 else 4

/-- Staging in progress is lost at a module reset or a protection reboot (Table 16-10). -/
def State.stageLost (s : State) : State :=
  match s.firm.stage with
  | .erasing | .loading | .verifying =>
    (s.setFirm (fun f => { f with stage := .idle })).setBankState s.inactive 2
  | _ => s

/-! ### Admin ring (R484–R487) -/

/-- Change the admin ring. -/
def State.setAdm (s : State) (f : Admin → Admin) : State := { s with adm := f s.adm }

/-- The version check of an `ENABLE` that waits, once `ADMIN` is set (R484). -/
def State.admCheck (s : State) : State :=
  if s.adm.enabling ∧ s.fn 1 then
    if s.adm.version / 65536 = bankVersion s.bootedBank 12 / 65536 then
      let t := s.setAdm (fun a => { a with enabling := false, st := .running, code := 0 })
      t.host.slices.foldl (fun u e => match e.2.chanDb with
        | none => u
        | some v => (u.setSlice e.1 (fun x => { x with chanDb := none })).admPush (admEntry e.1 0xF0 v 0xFFFFFFFF)) t
    else s.setAdm (fun a => { a with enabling := false, st := .refused, code := 0x0B })
  else s

/-- ADM_ENABLE. -/
def execAdmEnable (s : State) : Res := .next (s.setAdm (fun a => { a with enabling := true })).admCheck

/-- Reset of the admin ring pair (R485, Table 14-4): commands in progress run on, their completions are
discarded. -/
def State.admReset (s : State) : State :=
  (s.setAdm (fun a => { a with
    st := .off, code := 0, enabling := false, sqTail := 0, sqHead := 0, cqTail := 0, cqHead := 0
    waiting := [], discard := a.discard ++ a.started, started := [] })).syncPf0

/-- ADM_RESET. -/
def execAdmReset (s : State) : Res := .next s.admReset

/-- Start waiting submission entries while the ring runs, entries remain and the completion ring has
room (R485); an entry whose tag is 0xFFFF_FFFF completes with SL_FORMAT (R486). -/
def State.admStart : Nat → State → State
  | 0, s => s
  | n + 1, s =>
    if s.adm.st = .running ∧ s.adm.sqHead ≠ s.adm.sqTail ∧ !s.adm.full then
      let tag := look 0 s.adm.sub (s.adm.sqHead % 32 * 16 + 1)
      let t := s.setAdm (fun a => { a with sqHead := (a.sqHead + 1) % 2 ^ 32 })
      State.admStart n (if tag = 0xFFFFFFFF then t.admPush (admEntry 0 1 0 tag)
        else t.setAdm (fun a => { a with started := a.started ++ [tag] }))
    else s

/-- ADMIN_SQ_DOORBELL (R485). -/
def execAdminSqDoorbell (tail : BitVec 32) (s : State) : Res :=
  .next (if s.fwRuns then (s.setAdm (fun a => { a with sqTail := tail.toNat })).admStart 64 else s)

/-- Write held completions while the ring has room (R485). -/
def State.admFlush : Nat → State → State
  | 0, s => s
  | n + 1, s =>
    match s.adm.waiting with
    | [] => s
    | e :: es =>
      if s.adm.full then s
      else
        let t := ({ s with adm := { s.adm with
          comp := put 0 s.adm.comp (s.adm.cqTail % 32) e
          cqTail := (s.adm.cqTail + 1) % 2 ^ 32, waiting := es } }).signalPf0 1
        State.admFlush n t

/-- ADMIN_CQ_HEAD_WRITE (R485): frees completions, lets INTx fall, and lets held work proceed. -/
def execAdminCqHeadWrite (head : BitVec 32) (s : State) : Res :=
  .next ((((s.setAdm (fun a => { a with cqHead := head.toNat })).syncPf0).admFlush 32).admStart 64)

/-- The commands of the admin ring: Table 16-6 and Table 14-5. -/
def admOps : List Nat := [1, 2, 3] ++ (List.range 12).map (0x20 + ·)

/-- A 64-byte admin entry (R427). Its bytes 12–15 and 56–63 and the unused bits of `SLICE` and `PASID` are reserved;
SLICE_CREATE alone may name the slice 0xFFFF, the lowest free (Table 14-5). -/
def admCmdOf (d : List Byte) : AdmCmd where
  op := fieldAt d 0 1
  flags := BitVec.ofNat 8 (fieldAt d 1 1)
  slice := BitVec.ofNat 16 (fieldAt d 2 2)
  tag := BitVec.ofNat 32 (fieldAt d 4 4)
  pasid := BitVec.ofNat 20 (fieldAt d 8 4)
  va := BitVec.ofNat 64 (fieldAt d 16 8)
  count := BitVec.ofNat 64 (fieldAt d 24 8)
  addr := BitVec.ofNat 64 (fieldAt d 32 8)
  length := BitVec.ofNat 64 (fieldAt d 40 8)
  offset := BitVec.ofNat 64 (fieldAt d 48 8)
  reserved := fieldAt d 12 4 != 0 || fieldAt d 56 8 != 0 || decide (2 ^ 20 ≤ fieldAt d 8 4) ||
    (decide (512 ≤ fieldAt d 2 2) && !(fieldAt d 0 1 == 0x20 && fieldAt d 2 2 == 0xFFFF))

/-- An admin entry of a row's `OP` runs only on a running ring, while the firmware runs. A reserved field, the tag 0xFFFF_FFFF or
an `OP` of no command fails it with SL_FORMAT, a service state outside `ok` with SL_STATE (R427, R486, R487). The entry of
another command is no occasion of this row. -/
def State.admRun (s : State) (op : Nat) (d : List Byte) (ok : Bool) (k : AdmCmd → State → State) : State :=
  let c := admCmdOf d
  if s.adm.st ≠ .running ∨ !s.fwRuns ∨ (admOps.contains c.op ∧ c.op ≠ op) then s
  else if !(admOps.contains c.op) ∨ c.reserved ∨ c.tag = 0xFFFFFFFF then s.admDone 0 1 0 c.tag
  else if !ok then s.admDone 0 3 0 c.tag
  else k c s

/-- The identity record (Table 16-6). -/
def State.identity (s : State) : List Byte :=
  leBytes 4 0x4A580009 ++ leBytes 2 0xB0 ++ leBytes 2 0 ++ leBytes 4 (bankVersion s.bootedBank 8)
  ++ leBytes 4 (bankVersion s.bootedBank 12) ++ leBytes 1 (b2n s.firm.bootedB) ++ leBytes 3 0
  ++ leBytes 4 s.mod.readyCopy ++ leBytes 4 s.mod.fns ++ leBytes 16 Config.serial ++ List.replicate 20 0

/-- IDENTIFY (R487), in NORMAL and RECOVERY; `reach`: the host takes the record at `ADDR`. -/
def execIdentify (d : List Byte) (reach : Bool) (s : State) : Res :=
  .next (s.admRun 0x01 d (s.mod.svc = .normal ∨ s.mod.svc = .recovery) (fun c t =>
    if reach then (t.emit (.hostWrite none c.addr.toNat t.identity)).admDone 0 0 0 c.tag
    else t.admDone 0 9 0 c.tag))

/-- The queue record of Table 14-9 in 64 bytes. -/
def queueRecOf (b : List Byte) : QueueRec where
  kind := fieldAt b 0 1
  host := fieldAt b 1 1 == 1
  log2Size := fieldAt b 2 1
  steer := fieldAt b 3 1
  pasid := fieldAt b 4 4
  ring := fieldAt b 8 8
  cq := fieldAt b 16 8
  hdr := fieldAt b 24 8
  reserved := decide (1 < fieldAt b 1 1) || fieldAt b 32 32 != 0

/-- Whether a queue record's fields are in range (Table 14-9). -/
def QueueRec.ok (q : QueueRec) : Bool :=
  !q.reserved && decide (4 ≤ q.log2Size) && decide (q.log2Size ≤ 16) && decide (2 ≤ q.steer) &&
  decide (q.steer ≤ 255) && q.ring % 4096 == 0 && q.cq % 4096 == 0

/-- The device queue numbers in use. -/
def State.devQueues (s : State) : List Nat :=
  s.host.slices.flatMap (fun e => (e.2.queues.filter (fun q => q.2.used)).map (fun q => q.2.dev))

/-- The lowest number from `i` not in a list, looked for among `n`. -/
def lowestFree (l : List Nat) : Nat → Nat → Nat
  | 0, i => i
  | n + 1, i => if l.contains i then lowestFree l n (i + 1) else i

/-- Queues of a slice in use. -/
def Slice.queuesUsed (x : Slice) : Nat := (x.queues.filter (fun q => q.2.used)).length

/-- Install a queue record in a glove slot, with the lowest free device queue number above the 2,048
that serve the device (Table 14-6). -/
def State.installQueue (s : State) (sl slot : Nat) (q : QueueRec) : State :=
  let d := lowestFree s.devQueues 16384 2048
  s.setQueue sl slot (fun _ => { (default : Queue) with used := true, cfg := q, dev := d })

/-- CTRL_RING (R488), in NORMAL. -/
def State.ctrlRing (s : State) (c : AdmCmd) (q : Option QueueRec) : State :=
  let sl := c.slice.toNat
  let x := s.slice sl
  if x.st = .free then s.admDone 0 2 0 c.tag
  else if !(x.pasids.contains c.pasid.toNat) then s.admDone sl 1 0 c.tag
  else if (x.queues.any (fun e => e.1 == 0 && e.2.used)) then s.admDone sl 3 0 c.tag
  else match q with
    | none => s.admDone sl 9 0 c.tag
    | some r =>
      if !(QueueRec.ok r) ∨ r.kind ≠ 9 ∨ r.pasid ≠ c.pasid.toNat then s.admDone sl 1 0 c.tag
      else if x.quota.queues ≤ x.queuesUsed then s.admDone sl 4 0 c.tag
      else ((s.installQueue sl 0 r).setSlice sl (fun y => { y with hello := false })).admDone sl 0 0 c.tag

/-- CTRL_RING; `q`: the 64-byte record at `ADDR`, none where the host cannot be reached there. -/
def execCtrlRing (d : List Byte) (q : Option (List Byte)) (s : State) : Res :=
  .next (s.admRun 0x02 d (s.mod.svc = .normal) (fun c t => t.ctrlRing c (q.map queueRecOf)))

/-! ### Control commands of the firmware (R489, R490) -/


/-- HELLO (R489): the driver's version, a U32 at offset 8, must agree with `100B` in major and minor. -/
def execHello (sl : Fin 512) (d : List Byte) (s : State) : Res :=
  .next (s.ctrl sl 0 d (fun tag t =>
    if (t.slice sl.val).hello then t.finish (ctrlCtx sl tag) 3 0 0
    else if fieldAt d 8 4 / 65536 = bankVersion t.bootedBank 12 / 65536 then
      (t.setSlice sl.val (fun x => { x with hello := true })).finish (ctrlCtx sl tag) 0 0 0
    else t.finish (ctrlCtx sl tag) 0x0B 0 0))

/-- The 64 bytes of a KLAUNCH command (Table 16-8). -/
def kCmdOf (d : List Byte) : KCmd :=
  let f := fieldAt d 1 1
  { host := bit f 0, island := BitVec.ofNat 8 (fieldAt d 2 1), addr := BitVec.ofNat 64 (fieldAt d 8 8)
    arg := BitVec.ofNat 64 (fieldAt d 16 8), argblk := BitVec.ofNat 64 (fieldAt d 24 8)
    endp := BitVec.ofNat 64 (fieldAt d 32 8)
    seed := if bit f 2 then some (BitVec.ofNat 64 (fieldAt d 40 8)) else none
    nctl := if bit f 1 then some (BitVec.ofNat 32 (fieldAt d 48 4)) else none
    klimit := if bit f 3 then some (BitVec.ofNat 32 (fieldAt d 52 4)) else none
    pasid := BitVec.ofNat 20 (fieldAt d 56 4)
    reserved := decide (16 ≤ f) || fieldAt d 3 1 != 0 || decide (2 ^ 20 ≤ fieldAt d 56 4) || fieldAt d 60 4 != 0 }

/-- Whether the image, the argument block and the end record of a KLAUNCH can be reached: an image in host space as the host
answers, the others by the slice's page tables. -/
def State.kReach (s : State) (sl : Nat) (k : KCmd) (reach : Bool) : Bool :=
  let p := k.pasid.toNat
  (if k.host then reach else s.mapped sl p k.addr.toNat 64 false) &&
  (k.argblk == 0 || s.mapped sl p k.argblk.toNat 256 false) && s.mapped sl p k.endp.toNat 32 true

/-- KLAUNCH (R490): queues a kernel, or fails. -/
def State.klaunch (s : State) (sl : Fin 512) (tag : BitVec 32) (k : KCmd) (reach : Bool) : State :=
  let x := s.slice sl.val
  let n := k.island.toNat
  let q := ctrlCtx sl tag
  if k.reserved ∨ !(x.pasids.contains k.pasid.toNat) then s.finish q 1 0 0
  else if 16 ≤ n ∨ x.quota.islands.getD n 0 = 0 then s.finish q 5 0 0
  else if !s.isReady n then s.finish q 3 0 0
  else if !(s.kReach sl.val k reach) then s.finish q 9 0 0
  else { s with launches := s.launches ++ [
    { slice := sl.val, island := n, tag := tag.toNat, pasid := k.pasid.toNat, host := k.host
      addr := k.addr.toNat, arg := k.arg.toNat, argblk := k.argblk.toNat, endp := k.endp.toNat
      seed := k.seed.map BitVec.toNat, nctl := k.nctl.map BitVec.toNat
      klimit := k.klimit.map BitVec.toNat, running := false }] }

/-- KLAUNCH; `reach`: the host gives the image, where it lies in host space. -/
def execKlaunch (sl : Fin 512) (d : List Byte) (reach : Bool) (s : State) : Res :=
  .next (s.ctrl sl 6 d (fun tag t => t.klaunch sl tag (kCmdOf d) reach))

end Sys2Proof.Machine
end

