-- ==== Sys2Proof/Machine/HostLink.lean ====
section
/-!
DEFINITION. The PCI Express link and its power states, access to host memory, interrupt steering and
the doorbells of hardware queues (chapter 14, R418–R424, R436, R437).
-/
namespace Sys2Proof.Machine

/-- `LINK_STATUS` (`A000:0C`): rate, width, flit mode and power state; zero with the link down. -/
def State.linkStatus (s : State) : Nat :=
  let h := s.host
  if !h.up then 0
  else
    let w := if h.power = .l0p then min h.width 8 else h.width
    let p := match h.power with | .l0 => 0 | .l0p => 1 | _ => 2
    h.rate % 256 + 256 * (w % 32) + 8192 * b2n h.flit + 16384 * p

/-- PCIE_LINK_TRAINED (R420): a link narrower than ×16 or slower than 64 GT/s raises the event. -/
def execPcieLinkTrained (rate : BitVec 8) (width : BitVec 5) (flit : Bool) (s : State) : Res :=
  let t := s.setHost (fun h => { h with
    up := true, rate := rate.toNat, width := width.toNat, flit := flit, power := .l0 })
  .next (if width.toNat < 16 ∨ rate.toNat < 64 then
      (t.event .operator 0x0E01 t.linkStatus 0 0).event .manager 0x0E01 t.linkStatus 0 0
    else t)

/-- Whether HI has a request of its own outstanding. -/
def State.hostBusy (s : State) : Bool := s.host.reqs.any (fun r => !r.abandoned)

/-- ASPM_L1_ENTRY (R421) into L1 or, as `sub` says, L1.1 or L1.2: only while the host has enabled L1, and the substate, and no
request is outstanding. -/
def execAspmL1Entry (sub : Fin 3) (s : State) : Res :=
  .next (let h := s.host
    let en : Bool := match sub.val with | 0 => true | 1 => h.l11Enable | _ => h.l12Enable
    if h.up ∧ h.l1Enable ∧ en ∧ !s.hostBusy then
      s.setHost (fun h => { h with power := match sub.val with | 0 => .l1 | 1 => .l11 | _ => .l12 })
    else s)

/-- Whether the link is in L1 or one of its substates. -/
def LinkPower.inL1 (p : LinkPower) : Bool := p == .l1 || p == .l11 || p == .l12

/-- ASPM_L1_EXIT (R421). -/
def execAspmL1Exit (s : State) : Res :=
  .next (if s.host.power.inL1 then s.setHost (fun h => { h with power := .l0 }) else s)

/-- L0P_NARROW (R421): with L0p enabled by the host the link narrows to ×8. -/
def execL0pNarrow (s : State) : Res :=
  .next (if s.host.up ∧ s.host.l0pEnable ∧ s.host.power = .l0 then
      s.setHost (fun h => { h with power := .l0p }) else s)

/-- L0P_WIDEN (R421). -/
def execL0pWiden (s : State) : Res :=
  .next (if s.host.power = .l0p then s.setHost (fun h => { h with power := .l0 }) else s)

/-! ### Steering (R424) -/

/-- Every pending entry signals in the present mode. -/
def State.fireAll (s : State) : State :=
  s.host.slices.foldl (fun t e => e.2.steer.foldl (fun u x => u.steerFire e.1 x.1) t) s.syncPf1

/-- Vectors of a function whose pending bit is set and which no mask holds back are sent. -/
def State.msixPending (s : State) (pf1 : Bool) : State :=
  let p := if pf1 then s.host.pf1 else s.host.pf0
  let go (v : Nat) : Bool := p.msixEnable && !p.fnMask && !(p.masked.contains v)
  let q := { p with pba := p.pba.filter (fun v => !go v) }
  (p.pba.filter go).foldl (fun t v => t.emit (.msix pf1 v))
    { s with host := if pf1 then { s.host with pf1 := q } else { s.host with pf0 := q } }

/-- MSIX_MODE_CHANGE (R424): the host sets a function's MSI-X Enable, Interrupt Disable, Function Mask and vector masks; pending
entries signal at once in the new mode. -/
def execMsixModeChange (pf1 msix intxDisable fnMask : Bool) (masked : List Nat) (s : State) : Res :=
  let f (p : PciFn) : PciFn := { p with msixEnable := msix, intxDisable := intxDisable, fnMask := fnMask, masked := masked }
  .next (if pf1 then ((s.setHost (fun h => { h with pf1 := f h.pf1 })).msixPending true).fireAll
    else ((s.setHost (fun h => { h with pf0 := f h.pf0 })).msixPending false).syncPf0)

/-- STEER_PENDING_CLEAR (R424, R66). -/
def execSteerPendingClear (sl : Fin 512) (i : Fin 256) (s : State) : Res :=
  .next (if !s.gloveThere sl.val then s.emit (.busError .pcieWrite)
    else (s.setSteer sl.val i.val (fun t => { t with pending := false })).syncPf1)

/-- STEER_MOD_EXPIRE (R424): signals merged during `MOD_US` are sent as one. -/
def execSteerModExpire (sl : Fin 512) (i : Fin 256) (s : State) : Res :=
  .next (if s.sliceExists sl.val then
      (s.setSteer sl.val i.val (fun t => { t with quiet := false })).steerFire sl.val i.val else s)

/-! ### Host memory access (R422, R423) -/

/-- Answer every invalidation whose translation no outstanding request uses (R423). -/
def State.answerInvals (s : State) : State :=
  let free (i : Nat × Nat) : Bool := !(s.host.reqs.any (fun r => r.pasid == i.1 && r.page == i.2))
  (s.host.invals.filter free).foldl (fun t i => t.emit (.atsAnswer i.1 i.2))
    (s.setHost (fun h => { h with invals := h.invals.filter (fun i => !free i) }))

/-- ATS_INVALIDATION (R423). -/
def execAtsInvalidation (pasid : BitVec 20) (vpage : BitVec 52) (s : State) : Res :=
  let i := (pasid.toNat, vpage.toNat)
  .next (s.setHost (fun h => { h with
    atsCache := h.atsCache.filter (· != i), invals := h.invals ++ [i] })).answerInvals

/-- QUEUE_DOORBELL (R437, R66): an empty slot counts the drop. -/
def State.doorbell (s : State) (sl slot v : Nat) : State :=
  let x := s.slice sl
  if x.st = .free ∨ x.st = .destroying then s.emit (.busError .pcieWrite)
  else if !(s.queue sl slot).used then s.count (0xA100 + sl) 6 1
  else s.produce sl slot v

/-- QUEUE_DOORBELL. -/
def execQueueDoorbell (sl : Fin 512) (slot : Fin 1024) (v : BitVec 32) (s : State) : Res :=
  .next (s.doorbell sl.val slot.val v.toNat)

/-- A translation that a request used is kept in the ATS cache of 8,192 entries, the oldest leaving it, unless the host is
invalidating it (Table 14-1, R422, R423). -/
def State.atsKeep (s : State) (r : HostReq) : State :=
  let k := (r.pasid, r.page)
  if s.host.ats && !(s.host.invals.contains k) then
    let c := s.host.atsCache.filter (· != k) ++ [k]
    s.setHost (fun h => { h with atsCache := c.drop (c.length - pciCaps.atsEntries) })
  else s

/-- Queues in host memory whose fetches waited for one of the 4,096 requests that may be outstanding go on (Table 14-1). -/
def State.fetchMore (s : State) : State :=
  s.sliceIds.foldl (fun t sl => ((t.slice sl).queues.filter (fun e => e.2.used && e.2.cfg.host)).foldl
    (fun u e => u.startMore sl e.1) t) s

/-- What a request of HI does once its completion has come: the descriptor it read starts, or the consumer index it read is taken; a
failed one halts its queue (R422, R437). -/
def State.hostGo (s : State) (r : HostReq) (ok : Bool) (head : Nat) : State :=
  let q := s.queue r.slice r.slot
  if q.halted then s
  else if !ok then s.haltQueue r.slice r.slot (if r.head then q.cfg.hdr + 8 else q.descAddr r.index)
  else if r.head then
    let t := (s.setQueue r.slice r.slot (fun x => { x with cqHead := head })).use r.slice 20 4
    if (t.queue r.slice r.slot).full then t else (t.flushCompls r.slice r.slot).startMore r.slice r.slot
  else (s.descRead r.slice r.slot).use r.slice 20 q.descSize

/-- The end of a request to host memory. One that was abandoned, or that HI does not know, is counted as unexpected (R422, R455). -/
def State.hostEnd (s : State) (id : Nat) (ok : Bool) (head : Nat) : State :=
  match s.host.reqs.find? (fun r => r.id == id) with
  | none => s.setHost (fun h => { h with unexpected := h.unexpected + 1 })
  | some r =>
    let t := s.setHost (fun h => { h with reqs := h.reqs.filter (fun x => x.id != id) })
    let u := if r.abandoned then t.setHost (fun h => { h with unexpected := h.unexpected + 1 })
      else ((if ok then t.atsKeep r else t).answerInvals).hostGo r ok head
    if pciCaps.outstanding ≤ s.host.reqs.length then u.fetchMore else u

/-- HOST_COMPLETION_RECEIVE (R422, R455); `head`: the consumer index that a read of a header returns. -/
def execHostCompletionReceive (id : Nat) (ok : Bool) (head : BitVec 32) (s : State) : Res := .next (s.hostEnd id ok head.toNat)

/-- HOST_COMPLETION_TIMEOUT (R422): the access fails back to its engine. -/
def execHostCompletionTimeout (id : Nat) (s : State) : Res :=
  .next (if s.host.reqs.any (fun r => r.id == id && !r.abandoned) then s.hostEnd id false 0 else s)

end Sys2Proof.Machine
end

