-- ==== Sys2Proof/Machine/Memory.lean ====
section
/-!
DEFINITION. Frames and retirement, sector accesses, scrub and retraining of the stacks (chapter 6,
R167–R180), and the BAR4 window (R69).
-/
namespace Sys2Proof.Machine

/-! ### Frames and retirement (R172, R180) -/

/-- Frames in the pool: 736 GiB of 2 MiB (R30). -/
def poolFrames : Nat := 376832

/-- Frames that are mapped. -/
def State.usedFrames (s : State) : List Nat := s.host.slices.flatMap (fun e => e.2.pages.map Page.frame)

/-- Retired frames whose entries have taken effect. -/
def State.retiredNow (s : State) : List Nat := (s.nor.retired.filter (fun r => !r.2)).map Prod.fst

/-- The `n` lowest frames that are neither mapped nor retired; fewer where the pool is short. -/
def State.freeFrames (s : State) (n : Nat) : List Nat :=
  let used := s.usedFrames ++ s.retiredNow
  ((List.range (min poolFrames (n + used.length))).filter (fun f => !(used.contains f))).take n

/-- `POOL_BYTES` (`4000:03`). -/
def State.poolBytes (s : State) : Nat := (poolFrames - s.retiredNow.length) * 0x200000

/-- Free one frame (R180, R172): its contents become zero, and a pending retirement takes effect. -/
def State.freeFrame (s : State) (f : Nat) : State :=
  let t := s.zeroRange (f * 0x200000) 0x200000
  { t with nor := { t.nor with retired := t.nor.retired.map (fun r => if r.1 = f then (f, false) else r) } }

/-- Whether a frame qualifies for retirement (R172). -/
def State.qualifies (s : State) (f : Nat) : Bool :=
  s.poison.any (fun p => p.1 * 64 / 0x200000 == f) ||
  (s.obj 0x4000 7 != 0 && s.mis.any (fun m => decide (s.obj 0x4000 7 ≤ look 0 m.frameCe f)))

/-- FRAME_RETIRE (R172), by the firmware once it runs. -/
def State.frameRetire (s : State) (f : Nat) : State :=
  if !s.fwRuns || !s.qualifies f || s.nor.retired.any (fun r => r.1 == f) then s
  else if 4096 ≤ s.nor.retired.length then s.event .operator 0x0602 0 (f * 0x200000) 0
  else { s with nor := { s.nor with retired := s.nor.retired ++ [(f, s.usedFrames.contains f)] } }

/-- FRAME_RETIRE. -/
def execFrameRetire (frame : Fin 376832) (s : State) : Res := .next (s.frameRetire frame.val)

/-! ### Sector accesses, scrub and retraining -/

/-- Count one correction in a sector (R170, R172): for its island, its frame in this pass, the
recorder's histogram of the stack's channel, and the slice that maps the frame. -/
def State.countCe (s : State) (a ch : Nat) : State :=
  let m := miOf a
  let t := ((s.count (0x4010 + m) 1 1).bin m (16 * (stackOf a % 4) + ch) 1).setMi m (fun x => { x with
    ceNow := x.ceNow + 1
    frameCe := put 0 x.frameCe (a / 0x200000) (look 0 x.frameCe (a / 0x200000) + 1) })
  match s.frameOwner (a / 0x200000) with
  | some o => t.use o.1 21 1
  | none => t

/-- A read of one sector of the stacks (R169–R171, R177). -/
def State.sectorRead (s : State) (a ch : Nat) (ecc : Ecc) : State :=
  if s.badSector a then s.countUe a
  else match ecc with
    | .clean => s
    | .corrected => s.countCe a ch
    | .uncorrectable =>
      (({ s with poison := put false s.poison (a / 64) true }).countUe a).ueEvent a

/-- MEM_SECTOR_ACCESS (R167): a read of the sector of `a`, or a write of bytes from `a` within it; a
write of less than the sector is a read-modify-write and checks the sector first. -/
def State.sectorAccess (s : State) (a : Nat) (w : Option (List Byte)) (ecc : Ecc) (ch : Nat) : State :=
  if region a = .hole then s.emit (.busError .device)
  else if !inStacks a then s
  else match w with
    | none => s.sectorRead a ch ecc
    | some bs =>
      let b := bs.take (64 - a % 64)
      if b.length = 64 then (s.writeSector a b (a / 64 * 64)).1
      else if s.badSector a then s.countUe a
      else
        let t := s.sectorRead a ch ecc
        if t.badSector a then t else (t.writeSector a b (a / 64 * 64)).1

/-- MEM_SECTOR_ACCESS. -/
def execMemSectorAccess (a : BitVec 48) (w : Option (List Byte)) (ecc : Ecc) (ch : Fin 16) (s : State) : Res :=
  .next (s.sectorAccess a.toNat w ecc ch.val)

/-- STACK_REFRESH (R168): refresh keeps every stack's contents and changes no state that software or an
engine can see. -/
def execStackRefresh (st : Fin 16) (s : State) : Res :=
  let _ := st; .next s

/-- The DPA of the byte at `off` of stack `st` (R31, R173). -/
def dpaOf (st off : Nat) : Nat :=
  let hi := off / 4096
  let x := st ^^^ (bits hi 3 0) ^^^ bits hi 7 4 ^^^ bits hi 11 8 ^^^ bits hi 15 12 ^^^ bits hi 19 16 ^^^ bits hi 23 20
  hi * 65536 + x * 4096 + off % 4096

/-- Whether the patrol scrubber runs (R175, R41): not in BOOT, TEST, nor in stage 3. -/
def State.scrubRuns (s : State) : Bool :=
  s.mod.svc != .boot && s.mod.svc != .test && s.keys.stage != 3

/-- One position of an island's pass (R173): the sector at that offset in each of its four stacks. -/
def State.scrub (s : State) (m : Nat) (ecc : List Ecc) (ch : Nat) : State :=
  let p := (s.mi m).scrubPos
  let t := (List.range 4).foldl (fun u l =>
    let a := dpaOf (4 * m + l) p
    let v := u.sectorRead a ch (ecc.getD l .clean)
    if ecc.getD l .clean = .corrected && !(u.badSector a) then v.count (0x4210 + m) 6 1 else v) s
  if p + 64 < 48 * 2 ^ 30 then t.setMi m (fun x => { x with scrubPos := p + 64 })
  else
    ((t.setMi m (fun x => { x with scrubPos := 0, frameCe := [] })).count (0x4210 + m) 3 1).setObj
      (0x4210 + m) 5 s.mod.tick

/-- SCRUB_READ. -/
def execScrubRead (m : Fin 4) (ecc : List Ecc) (ch : Fin 16) (s : State) : Res :=
  .next (if s.scrubRuns then s.scrub m.val ecc ch.val else s)

/-- One minute of the scrub-rate loop for an island (R174). -/
def MemIsland.minute (x : MemIsland) (threshold cleanHours : Nat) : MemIsland :=
  let hist := (x.ceNow :: x.ceHist).take 60
  let n := hist.sum
  let y := { x with ceNow := 0, ceHist := hist, minutes := x.minutes + 1 }
  if threshold < n then { y with doubled := true, cleanRun := 0 }
  else
    let run := if y.minutes % 60 = 0 then min 65535 (y.cleanRun + 1) else y.cleanRun
    { y with cleanRun := run, doubled := y.doubled && decide (run < cleanHours) }

/-- SCRUB_RATE_LOOP (R174, R41). -/
def execScrubRateLoop (s : State) : Res :=
  .next (if s.mod.svc ≠ .boot ∧ s.mod.svc ≠ .test ∧ s.fwRuns then
      { s with mis := s.mis.map (fun x => x.minute (s.obj 0x4200 2) (s.obj 0x4200 3)) } else s)

/-- STACK_RETRAIN_WINDOW (R176, R177): a window begins, or ends with success or failure; three failures in a row mark the stack
FAILED, a memory-island fault. Accesses to the stack wait at most for the window's end. -/
def State.retrain (s : State) (st : Nat) (ok : Option Bool) : State :=
  let m := st / 4
  let l := st % 4
  if (s.mi m).stackSt.getD l .ok = .failed then s
  else
    let mark (v : StackState) (t : State) : State := t.setMi m (fun x => { x with stackSt := x.stackSt.set l v })
    match ok with
    | none => mark .retraining s
    | some true => ((mark .ok s).setMi m (fun x => { x with trainFails := x.trainFails.set l 0 })).count (0x4010 + m) 4 1
    | some false =>
      let k := (s.mi m).trainFails.getD l 0 + 1
      let t := ((mark .ok s).setMi m (fun x => { x with trainFails := x.trainFails.set l k })).countSat
        (0x4010 + m) 5 (2 ^ 32 - 1) 1
      if 3 ≤ k then (mark .failed t).fatalFault else t

/-- STACK_RETRAIN_WINDOW. -/
def execStackRetrainWindow (st : Fin 16) (ok : Option Bool) (s : State) : Res := .next (s.retrain st.val ok)

/-! ### BAR4 (R69) -/

/-- The aperture entry of a window offset: slice virtual address, PASID and `VALID`. -/
def State.aperture (s : State) (sl off : Nat) : Option (Nat × Nat) :=
  let e := look 0 (s.slice sl).apert (off / 0x200000)
  if bit e 0 then some (bits e 56 21 * 0x200000 + off % 0x200000, bits e 20 1) else none

/-- The DPA that a BAR4 offset reaches. -/
def State.bar4 (s : State) (sl off : Nat) (write : Bool) : Option Nat :=
  if !s.sliceExists sl then none
  else match s.aperture sl off with
    | none => none
    | some (va, pasid) => s.xlate sl pasid va write

/-- Sectors of the list `ue`, by their numbers, that an access to `xs` finds uncorrectable for the first time are poisoned and
reported (R171). -/
def State.findUe (s : State) (ue xs : List Nat) : State :=
  (xs.filter (fun x => ue.contains (x / 64))).foldl (fun t x =>
    if t.badSector x then t else ({ t with poison := put false t.poison (x / 64) true }).ueEvent x) s

/-- BAR4_READ (R69): a bad sector is answered with EP set and zero bytes, counted and reported. -/
def State.bar4Read (s : State) (sl off n : Nat) (ue : List Nat) : State :=
  match s.bar4 sl off false with
  | none => s.emit (.busError .pcieRead)
  | some a =>
    let m := min n (0x200000 - off % 0x200000)
    match (s.findUe ue (sectorsOf a m)).memRead a m with
    | (t, some bs) => t.emit (.barRead bs false)
    | (t, none) => t.emit (.barRead (List.replicate n 0) true)

/-- BAR4_READ. -/
def execBar4Read (sl : Fin 512) (off : BitVec 31) (len : BitVec 13) (ue : List (BitVec 34)) (s : State) : Res :=
  .next (s.bar4Read sl.val off.toNat len.toNat (ue.map BitVec.toNat))

/-- The sectors of a write that it covers in part, which it reads first (R167). -/
def partSectors (a n : Nat) : List Nat := (sectorsOf a n).filter (fun x => decide (x < a) || decide (a + n < x + 64))

/-- BAR4_WRITE (R69): sectors that cannot be written whole and are bad stay as they are. -/
def State.bar4Write (s : State) (sl off : Nat) (bs : List Byte) (ue : List Nat) : State :=
  match s.bar4 sl off true with
  | none => s.emit (.busError .pcieWrite)
  | some a =>
    let b := bs.take (0x200000 - off % 0x200000)
    ((s.findUe ue (partSectors a b.length)).memWrite a b).1

/-- BAR4_WRITE. -/
def execBar4Write (sl : Fin 512) (off : BitVec 31) (bytes : List Byte) (ue : List (BitVec 34)) (s : State) : Res :=
  .next (s.bar4Write sl.val off.toNat bytes (ue.map BitVec.toNat))

end Sys2Proof.Machine
end

