-- ==== Sys2Proof/Machine/Slices.lean ====
section
/-!
DEFINITION. Slices: creation and quotas, mappings, PASIDs, freezing, the tenant–manager channel and the
control commands for queues (chapter 14, R427–R439).
-/
namespace Sys2Proof.Machine

/-- Slice admin commands need the `SLICES` bit and NORMAL (R427). -/
def State.slicesOk (s : State) : Bool := s.fn 2 && decide (s.mod.svc = .normal)

/-- A slice admin command on an existing slice: a FREE slice fails with SL_NOSLICE (R427). -/
def State.sliceRun (s : State) (op : Nat) (d : List Byte) (k : AdmCmd → Nat → State → State) : State :=
  s.admRun op d s.slicesOk (fun c t =>
    if !t.sliceExists c.slice.toNat then t.admDone 0 2 0 c.tag else k c c.slice.toNat t)

/-! ### Creation (R428, R429, Table 14-6) -/

/-- Sum of a quota over the slices that exist. -/
def State.reserved (s : State) (f : Quota → Nat) : Nat := (s.host.slices.map (fun e => f e.2.quota)).sum

/-- The lowest base from `lo` at which a run of `n` fits below `hi` beside the runs in use; candidates
are `lo` and the ends of the runs. -/
def fitRun (used : List (Nat × Nat)) (n lo hi : Nat) : Option Nat :=
  let free (b : Nat) : Bool :=
    decide (lo ≤ b) && decide (b + n ≤ hi) && used.all (fun u => decide (b + n ≤ u.1) || decide (u.1 + u.2 ≤ b))
  (lo :: used.map (fun u => u.1 + u.2)).foldl
    (fun best b => if free b then (match best with | none => some b | some x => some (min x b)) else best) none

/-- Runs in use of a contiguous quota. -/
def State.runs (s : State) (base : Slice → Nat) (n : Quota → Nat) : List (Nat × Nat) :=
  (s.host.slices.filter (fun e => n e.2.quota != 0)).map (fun e => (base e.2, n e.2.quota))

/-- Whether the fields of a quota record are in range (Table 14-6). -/
def Quota.ok (q : Quota) : Bool :=
  !q.reserved && q.memBytes % 0x200000 == 0 && decide (q.queues ≤ 1024) && decide (q.keySlots ≤ 256) &&
  decide (q.conns ≤ 131072) && decide (q.handles ≤ 262144) && decide (q.msix ≤ 256) &&
  decide (1 ≤ q.pasids) && decide (q.pasids ≤ 32) && decide (q.cls ≤ 8192) &&
  q.islands.length == 16 && q.islands.all (fun w => decide (w ≤ 64))

/-- Weight of island n in use by slices. -/
def State.weightUsed (s : State) (n : Nat) : Nat :=
  (s.host.slices.map (fun e => e.2.quota.islands.getD n 0)).sum

/-- The scratchpad windows in use on island n, in MiB. -/
def State.windowsOn (s : State) (n : Nat) : List (Nat × Nat) :=
  (s.host.slices.filter (fun e => look 0 e.2.windows n != 0)).map
    (fun e => (look 0 e.2.windows n - 1, e.2.quota.islands.getD n 0))

/-- The window offset of weight `w` on island n: none where the island is not ready, its weights would
pass 64, or no run of MiB is free (R33, R429). -/
def State.window (s : State) (n w : Nat) : Option Nat :=
  if !s.isReady n || decide (64 < s.weightUsed n + w) then none else fitRun (s.windowsOn n) w 0 64

/-- The windows of a new slice on islands `n` onwards; none where one cannot be supplied. -/
def State.newWindows (s : State) : List Nat → Nat → Option (Store Nat)
  | [], _ => some []
  | w :: ws, n =>
    match State.newWindows s ws (n + 1) with
    | none => none
    | some m =>
      if w = 0 then some m
      else match s.window n w with
        | none => none
        | some b => some ((n, b + 1) :: m)

/-- Whether the pool can supply every quota of a record that needs no contiguous range (Table 14-6). -/
def State.poolOk (s : State) (q : Quota) : Bool :=
  decide (s.reserved Quota.memBytes + q.memBytes ≤ s.poolBytes) &&
  decide (s.reserved Quota.queues + q.queues ≤ 14336) &&
  decide (s.reserved Quota.conns + q.conns ≤ 131072 - s.obj 0x3500 7) &&
  decide (s.reserved Quota.handles + q.handles ≤ 262144) &&
  decide (s.reserved Quota.pasids + q.pasids ≤ 4096)

/-- The slice that a quota record creates, with its contiguous bases; none for SL_NOQUOTA. -/
def State.newSlice (s : State) (q : Quota) : Option Slice :=
  if !s.poolOk q then none
  else
    match fitRun (s.runs Slice.keyBase Quota.keySlots) q.keySlots 0 4096,
          fitRun (s.runs Slice.msixBase Quota.msix) q.msix 0 (pciIdentity true).msixEntries,
          fitRun (s.runs Slice.clsBase Quota.cls) q.cls (s.obj 0x3600 2) 8192,
          s.newWindows q.islands 0 with
    | some k, some m, some c, some w =>
      some { (default : Slice) with
        st := if q.restoreTarget then .restoring else .active
        quota := q, keyBase := k, msixBase := m, clsBase := c, windows := w }
    | _, _, _, _ => none

/-- The quota record of Table 14-6, in its 128 bytes. -/
def quotaOf (b : List Byte) : Quota where
  memBytes := fieldAt b 0 8
  queues := fieldAt b 8 2
  keySlots := fieldAt b 10 2
  conns := fieldAt b 12 4
  handles := fieldAt b 16 4
  msix := fieldAt b 20 2
  pasids := fieldAt b 22 1
  restoreTarget := bit (fieldAt b 23 1) 0
  cls := fieldAt b 24 2
  islands := (List.range 16).map (fun n => fieldAt b (32 + n) 1)
  reserved := decide (2 ≤ fieldAt b 23 1) || fieldAt b 26 6 != 0 || fieldAt b 48 80 != 0

/-- The slice number a SLICE_CREATE names: 0xFFFF is the lowest free. -/
def State.createNumber (s : State) (v : Nat) : Nat :=
  if v = 0xFFFF then
    lowestFree s.sliceIds 512 0
  else v

/-- SLICE_CREATE (R428). -/
def State.sliceCreate (s : State) (c : AdmCmd) (q : Option Quota) : State :=
  let n := s.createNumber c.slice.toNat
  match q with
  | none => s.admDone 0 9 0 c.tag
  | some r =>
    if !(Quota.ok r) then s.admDone 0 1 0 c.tag
    else if s.mod.req = some .enterTest ∨ (n < 512 ∧ s.sliceExists n) then s.admDone 0 3 0 c.tag
    else if 512 ≤ n then s.admDone 0 4 0 c.tag
    else match s.newSlice r with
      | none => s.admDone n 4 0 c.tag
      | some x =>
        let t := s.setSlice n (fun _ => x)
        ((t.setObj (0xA100 + n) 5 0).setObj (0xA100 + n) 6 0).admDone n 0 0 c.tag

/-- SLICE_CREATE; `q`: the 128-byte record at `ADDR`, none where the host cannot be reached there. -/
def execSliceCreate (d : List Byte) (q : Option (List Byte)) (s : State) : Res :=
  .next (s.admRun 0x20 d s.slicesOk (fun c t => t.sliceCreate c (q.map quotaOf)))

/-! ### Mappings and PASIDs (R430, R431) -/

/-- Whether a slice refuses changes of mappings and PASIDs now (R439). -/
def Slice.fixed (x : Slice) : Bool := x.st != .active

/-- Pages of a MAP: one per frame, from `vpn` on. -/
def newPages (pasid vpn : Nat) (w : Bool) : List Nat → Nat → List Page
  | [], _ => []
  | f :: fs, i => ⟨pasid, vpn + i, f, w, false⟩ :: newPages pasid vpn w fs (i + 1)

/-- Enter pages into a slice's tables and charge them. -/
def State.addPages (s : State) (sl : Nat) (ps : List Page) : State :=
  ps.foldl (fun t p => t.ptEnter sl p.pasid p.vpn p.entry)
    (s.setSlice sl (fun x => { x with pages := x.pages ++ ps, memUsed := x.memUsed + ps.length * 0x200000 }))

/-- The start of the KV window (R183). -/
def kvWindow : Nat := 0x01FC000000000000

/-- MAP (R430). -/
def State.mapCmd (s : State) (c : AdmCmd) (sl : Nat) : State :=
  let x := s.slice sl
  let va := c.va.toNat
  let n := c.count.toNat
  let p := c.pasid.toNat
  if x.fixed then s.admDone sl 3 0 c.tag
  else if !(x.pasids.contains p) || n == 0 then s.admDone sl 1 0 c.tag
  else if va % 0x200000 ≠ 0 ∨ kvWindow < va + n * 0x200000 ∨
      x.pages.any (fun g => g.pasid == p && decide (va / 0x200000 ≤ g.vpn) && decide (g.vpn < va / 0x200000 + n)) then
    s.admDone sl 5 0 c.tag
  else
    let fs := s.freeFrames n
    if x.quota.memBytes < x.memUsed + n * 0x200000 ∨ fs.length < n then s.admDone sl 4 0 c.tag
    else (s.addPages sl (newPages p (va / 0x200000) (bit c.flags.toNat 0) fs 0)).admDone sl 0 0 c.tag

/-- MAP. -/
def execMap (d : List Byte) (s : State) : Res := .next (s.sliceRun 0x22 d (fun c sl t => t.mapCmd c sl))

/-- Remove pages of a slice: every cache has dropped them, their accesses are done, and their frames
are zeroed and freed (R180). -/
def State.removePages (s : State) (sl : Nat) (out : Page → Bool) : State :=
  let gone := (s.slice sl).pages.filter out
  let t := s.setSlice sl (fun x => { x with
    pages := x.pages.filter (fun g => !out g), memUsed := x.memUsed - gone.length * 0x200000 })
  gone.foldl (fun u g =>
    (if (u.walk sl g.pasid (g.vpn * 0x200000)).isSome then u.ptEnter sl g.pasid g.vpn 0 else u).freeFrame g.frame) t

/-- UNMAP (R180, R430): whole or not at all. -/
def State.unmapCmd (s : State) (c : AdmCmd) (sl : Nat) : State :=
  let x := s.slice sl
  let v := c.va.toNat / 0x200000
  let n := c.count.toNat
  let inside (g : Page) : Bool := g.pasid == c.pasid.toNat && !g.kv && decide (v ≤ g.vpn) && decide (g.vpn < v + n)
  if x.fixed then s.admDone sl 3 0 c.tag
  else if n = 0 then s.admDone sl 1 0 c.tag
  else if c.va.toNat % 0x200000 ≠ 0 ∨ (x.pages.filter inside).length ≠ n then s.admDone sl 5 0 c.tag
  else (s.removePages sl inside).admDone sl 0 0 c.tag

/-- UNMAP. -/
def execUnmap (d : List Byte) (s : State) : Res := .next (s.sliceRun 0x23 d (fun c sl t => t.unmapCmd c sl))

/-- PASID_BIND (R431). -/
def State.pasidBind (s : State) (c : AdmCmd) (sl : Nat) : State :=
  let x := s.slice sl
  let p := c.pasid.toNat
  if x.fixed then s.admDone sl 3 0 c.tag
  else if x.pasids.contains p then s.admDone sl 0 0 c.tag
  else if s.host.slices.any (fun e => e.1 != sl && e.2.pasids.contains p) then s.admDone sl 3 0 c.tag
  else if x.quota.pasids ≤ x.pasids.length then s.admDone sl 4 0 c.tag
  else (s.setSlice sl (fun y => { y with pasids := insSet y.pasids p })).admDone sl 0 0 c.tag

/-- PASID_BIND. -/
def execPasidBind (d : List Byte) (s : State) : Res := .next (s.sliceRun 0x24 d (fun c sl t => t.pasidBind c sl))

/-! ### Freezing (R439) -/

/-- FREEZE: the slice goes to FREEZING; the command completes when it is FROZEN. -/
def execFreeze (d : List Byte) (s : State) : Res :=
  .next (s.sliceRun 0x26 d (fun c sl t =>
    if (t.slice sl).st = .active then
      t.setSlice sl (fun x => { x with st := .freezing, freezeTag := some c.tag.toNat })
    else t.admDone sl 3 0 c.tag))

/-- Whether a slice has commands or kernels in progress. -/
def State.sliceBusy (s : State) (sl : Nat) : Bool :=
  (s.slice sl).queues.any (fun e => e.2.inflight != 0) || s.launches.any (fun l => l.slice == sl) ||
  s.attends.any (fun a => a.2.hat.stag.toNat == sl)

/-- SLICE_FROZEN (R439): nothing started remains; the FREEZE completes. -/
def execSliceFrozen (sl : Fin 512) (s : State) : Res :=
  let x := s.slice sl.val
  .next (if x.st = .freezing ∧ !s.sliceBusy sl.val then
      let t := s.setSlice sl.val (fun y => { y with st := .frozen, freezeTag := none })
      match x.freezeTag with
      | some g => t.admDone sl.val 0 0 (BitVec.ofNat 32 g)
      | none => t
    else s)

/-- THAW (R439): back to ACTIVE, each queue taking the producer index it held. -/
def execThaw (d : List Byte) (s : State) : Res :=
  .next (s.sliceRun 0x27 d (fun c sl t =>
    if (t.slice sl).st = .frozen then
      ((t.setSlice sl (fun x => { x with st := .active, blobId := none })).releaseSlice sl).admDone sl 0 0 c.tag
    else t.admDone sl 3 0 c.tag))

/-! ### Channel and query (R438, Table 14-7) -/

/-- Whether an admin entry is the CHAN notification of a slice. -/
def isChan (sl e : Nat) : Bool := bits e 39 32 == 0xF0 && bits e 31 0 == sl

/-- A CHAN notification of a slice to the manager: it replaces one not yet written, which is counted,
or is placed on the admin completion ring, or waits while the ring does not run. -/
def State.chanDb (s : State) (sl v : Nat) : State :=
  let e := admEntry sl 0xF0 v 0xFFFFFFFF
  if s.adm.st ≠ .running then
    let t := if (s.slice sl).chanDb.isSome then s.count 0xA000 0x0D 1 else s
    t.setSlice sl (fun x => { x with chanDb := some v })
  else if s.adm.waiting.any (isChan sl) then
    (s.count 0xA000 0x0D 1).setAdm (fun a => { a with
      waiting := a.waiting.map (fun w => if isChan sl w then e else w) })
  else s.admPush e

/-- CHAN_DB_WRITE (R438, R66). -/
def execChanDbWrite (sl : Fin 512) (v : BitVec 32) (s : State) : Res :=
  .next (let x := s.slice sl.val
    if x.st = .free ∨ x.st = .destroying then s.emit (.busError .pcieWrite) else s.chanDb sl.val v.toNat)

/-- CHAN_NOTIFY (R438): works in every slice state but FREE and DESTROYING. -/
def execChanNotify (d : List Byte) (s : State) : Res :=
  .next (s.sliceRun 0x2A d (fun c sl t =>
    if (t.slice sl).st = .destroying then t.admDone sl 3 0 c.tag
    else ((t.setSlice sl (fun x => { x with chanIn := c.count.toNat % 2 ^ 32 })).steerSignal sl 1).admDone sl 0 0 c.tag))

/-- Code of a slice state (Table 14-7). -/
def sliceCode (st : SliceState) : Nat :=
  match st with
  | .free => 0 | .active => 1 | .freezing => 2 | .frozen => 3 | .restoring => 4 | .destroying => 5

/-! ### Blobs (R440, R441) -/

/-- The quota record as bytes (Table 14-6). -/
def Quota.bytes (q : Quota) : List Byte :=
  leBytes 8 q.memBytes ++ leBytes 2 q.queues ++ leBytes 2 q.keySlots ++ leBytes 4 q.conns ++ leBytes 4 q.handles
  ++ leBytes 2 q.msix ++ leBytes 1 q.pasids ++ leBytes 1 (b2n q.restoreTarget) ++ leBytes 2 q.cls ++ leBytes 6 0
  ++ q.islands.flatMap (leBytes 1) ++ List.replicate 80 0

/-- The queue record as bytes (Table 14-9). -/
def QueueRec.bytes (q : QueueRec) : List Byte :=
  leBytes 1 q.kind ++ leBytes 1 (b2n q.host) ++ leBytes 1 q.log2Size ++ leBytes 1 q.steer ++ leBytes 4 q.pasid
  ++ leBytes 8 q.ring ++ leBytes 8 q.cq ++ leBytes 8 q.hdr ++ List.replicate 32 0

/-- A steering entry as 16 bytes (Table 14-3), `PENDING` clear. -/
def Steer.bytes (t : Steer) : List Byte :=
  leBytes 4 (t.vector + 65536 * t.ports + 2 ^ 24 * b2n t.enable) ++ leBytes 2 t.modUs ++ leBytes 10 0

/-- The pages in MAP order: ascending PASID and address are the order in which they were entered. -/
def Slice.mapPages (x : Slice) : List Page := x.pages.filter (fun p => !p.kv)

/-- The islands of a slice with their windows: island, size in bytes, DPA of the window. -/
def Slice.windowList (x : Slice) : List (Nat × Nat × Nat) :=
  x.windows.map (fun e => (e.1, x.quota.islands.getD e.1 0 * 2 ^ 20,
    0x010000000000 + e.1 * 0x4000000 + (e.2 - 1) * 2 ^ 20))

/-- The sections of a slice's stream (R441): kind, count and bytes. `cls` and `spread` are the sections
of classification entries and the spreading record. -/
def State.sections (s : State) (sl : Nat) (cls : List (List Byte)) (spread : List Byte) : List (Nat × Nat × List Byte) :=
  let x := s.slice sl
  [(1, x.pasids.length, x.pasids.flatMap (leBytes 4)),
   (2, x.mapPages.length, x.mapPages.flatMap (fun p =>
      leBytes 4 p.pasid ++ leBytes 4 (b2n p.write) ++ leBytes 8 (p.vpn * 0x200000))),
   (3, x.queuesUsed, (x.queues.filter (fun e => e.2.used)).flatMap (fun e =>
      QueueRec.bytes e.2.cfg ++ leBytes 4 (e.2.held.getD e.2.prod) ++ leBytes 4 e.2.dqHead ++ leBytes 4 e.2.cqTail)),
   (4, 256, (List.range 256).flatMap (fun i => (sget x.steer i).bytes)),
   (5, 1024, (List.range 1024).flatMap (fun i => leBytes 8 (look 0 x.apert i))),
   (6, cls.length, cls.flatten),
   (7, 1, spread),
   (8, x.quota.keySlots, (List.range x.quota.keySlots).flatMap (fun j =>
      let k := s.kslot (x.keyBase + j)
      leBytes 8 k.inv ++ leBytes 8 k.limit ++ leBytes 8 k.win0.high ++ leBytes 8 0)),
   (9, x.windowList.length, x.windowList.flatMap (fun w => leBytes 8 w.2.1 ++ s.bytes w.2.2 w.2.1)),
   (10, x.mapPages.length, x.mapPages.flatMap (fun p => s.bytes (p.frame * 0x200000) 0x200000))]

/-- Directory entries of the sections, with running stream offsets. -/
def sectionDir : Nat → List (Nat × Nat × List Byte) → List Byte
  | _, [] => []
  | off, (k, c, b) :: r =>
    leBytes 4 k ++ leBytes 4 0 ++ leBytes 8 off ++ leBytes 8 b.length ++ leBytes 8 c ++ sectionDir (off + b.length) r

/-- The chunks of a stream, 4 MiB each, encrypted under the checkpoint key with their tags (R441). -/
def blobChunks (key : List Byte) (blobId : Nat) : Nat → Nat → List Byte → List Byte
  | 0, _, _ => []
  | n + 1, i, st =>
    if st.isEmpty then []
    else
      let p := st.take 0x400000
      let iv := leBytes 8 blobId ++ leBytes 4 i
      let ct := gcmCrypt key iv p
      ct ++ gcmTag key iv (leBytes 4 i) ct ++ blobChunks key blobId n (i + 1) (st.drop 0x400000)

/-- The blob of a slice (R441). -/
def State.blob (s : State) (sl blobId : Nat) (cls : List (List Byte)) (spread : List Byte) : List Byte :=
  let secs := s.sections sl cls spread
  let stream := secs.flatMap (fun x => x.2.2)
  let h := leBytes 4 0x4C424C53 ++ leBytes 2 1 ++ leBytes 2 0 ++ leBytes 8 blobId ++ leBytes 8 stream.length
    ++ leBytes 4 secs.length ++ leBytes 4 0 ++ Quota.bytes (s.slice sl).quota ++ sectionDir 0 secs
  let hdr := bytesAt h 0 4048
  hdr ++ hmac384 s.ckm hdr ++ blobChunks s.cke blobId (stream.length / 0x400000 + 1) 0 stream

/-- `BLOB_BYTES` (R441). -/
def State.blobBytes (s : State) (sl : Nat) (cls : List (List Byte)) (spread : List Byte) : Nat :=
  let n := ((s.sections sl cls spread).map (fun x => x.2.2.length)).sum
  4096 + n + 16 * ((n + 0x400000 - 1) / 0x400000)

/-! ### Control commands for queues (R436, R426) -/

/-- Read n bytes at a SLICE address of the control ring's PASID for a control command; SL_XLATE where they
cannot be read. -/
def State.ctrlRead (s : State) (sl : Fin 512) (tag : BitVec 32) (addr n res : Nat)
    (k : State → List Byte → State) : State :=
  match s.vread sl.val (s.queue sl.val 0).cfg.pasid addr n with
  | (t, .ok bs) => k t bs
  | (t, _) => t.finish (ctrlCtx sl tag) 9 res 0

/-- QUEUE_CREATE (R436): the lowest free slot. -/
def State.queueCreate (s : State) (sl : Fin 512) (tag : BitVec 32) (addr : Nat) : State :=
  let c := ctrlCtx sl tag
  s.ctrlRead sl tag addr 64 0 (fun t b =>
    let x := t.slice sl.val
    let r := queueRecOf b
    let slot := lowestFree ((x.queues.filter (fun e => e.2.used)).map Prod.fst) 1024 0
    if !(QueueRec.ok r) || r.kind == 0 || decide (8 < r.kind) || !(x.pasids.contains r.pasid) then t.finish c 1 0 0
    else if x.quota.queues ≤ x.queuesUsed ∨ 1024 ≤ slot then t.finish c 4 0 0
    else
      let u := t.installQueue sl.val slot r
      u.finish c 0 slot (u.queue sl.val slot).dev)

/-- QUEUE_CREATE. -/
def execQueueCreate (sl : Fin 512) (d : List Byte) (s : State) : Res :=
  .next (s.ctrl sl 1 d (fun tag t => t.queueCreate sl tag (fieldAt d 8 8)))

/-- KEY_QUERY (R470): the 32-byte record of a glove key slot. -/
def State.keyQuery (s : State) (sl : Fin 512) (slot : Nat) (tag : BitVec 32) (addr : Nat) : State :=
  let x := s.slice sl.val
  let c := ctrlCtx sl tag
  if x.quota.keySlots ≤ slot then s.finish c 5 slot 0
  else
    let k := s.kslot (x.keyBase + slot)
    let st := match k.st with | .empty => 0 | .active => 1 | .exhausted => 2 | .needsKey => 3
    let b := leBytes 1 st ++ List.replicate 7 0 ++ leBytes 8 k.inv ++ leBytes 8 k.limit ++ leBytes 8 k.win0.high
    match s.vwrite sl.val (s.queue sl.val 0).cfg.pasid addr b with
    | (t, .ok _) => t.finish c 0 slot 0
    | (t, _) => t.finish c 9 slot 0

/-- KEY_QUERY. -/
def execKeyQuery (sl : Fin 512) (d : List Byte) (s : State) : Res :=
  .next (s.ctrl sl 5 d (fun tag t => t.keyQuery sl (fieldAt d 2 2) tag (fieldAt d 8 8)))

/-- QUEUE_RESET (R426, R436): a HALTED queue returns to RUN with its indices zero. -/
def State.queueReset (s : State) (sl : Fin 512) (slot : Nat) (tag : BitVec 32) : State :=
  let c := ctrlCtx sl tag
  let q := s.queue sl.val slot
  if 1024 ≤ slot ∨ !q.used then s.finish c 5 slot 0
  else if !q.halted then s.finish c 3 slot 0
  else
    (s.setQueue sl.val slot (fun y => { y with
      prod := 0, dqHead := 0, cqTail := 0, cqHead := 0, halted := false, held := none, inflight := 0, waiting := [], ending := false })).finish
      c 0 slot q.dev

/-- QUEUE_RESET. -/
def execQueueReset (sl : Fin 512) (d : List Byte) (s : State) : Res :=
  .next (s.ctrl sl 3 d (fun tag t => t.queueReset sl (fieldAt d 2 2) tag))

end Sys2Proof.Machine
end

