-- ==== Sys2Proof/Machine/SeqOps.lean ====
section
/-!
DEFINITION. What the Itette instructions share (chapter 5): traps, the frame in which an instruction
executes (guard, prefix, undefined fields, cycle count), control transfer, loads and stores, and the
stacks.
-/
namespace Sys2Proof.Machine

/-- Sequencer q. -/
def State.seqr (s : State) (q : Nat) : Seqr := sget s.seqs q

/-- Change sequencer q. -/
def State.setSeqr (s : State) (q : Nat) (f : Seqr → Seqr) : State := { s with seqs := smod s.seqs q f }

/-- Whether sequencer q issues instructions: a kernel runs on it (R164), or it is the management core
and has not stopped (R497); and it does not wait at a step boundary (R160). -/
def State.live (s : State) (q : Nat) : Bool :=
  (if isMgmt q then !s.mod.stopped && s.isReady 25 else (s.seqr q).run == .running) &&
    (s.seqr q).arriving.isNone

/-! ### Traps (R154–R156) -/

/-- `end_kernel` (R155, R159): issue stops; on the management core it stops the core (R497). -/
def State.endKernel (s : State) (q cause : Nat) : State :=
  if isMgmt q then ({ s with mod := { s.mod with stopped := true } }).alert 4 true
  else s.setSeqr q (fun z => { z with run := .ending, endCause := cause, pfx := none })

/-- Trap entry (R155), which takes 8 cycles (Table 5-14). Where it ends the kernel it saves nothing. -/
def State.trapSeq (s : State) (q cause info pc : Nat) : State :=
  let z := s.seqr q
  if z.inTrap then s.endKernel q 0x0F
  else if z.tvbase = 0 then s.endKernel q cause
  else s.setSeqr q (fun y => { y with
    trappc := pc, trapcause := cause, trapinfo := info, inTrap := true
    pc := y.tvbase + cause * 64, cycle := y.cycle + 8, pfx := none })

/-- The information word of a COPERR (Table 5-13). -/
def copInfo (e : CopErr) : Nat := e.status + e.engine * 256 + e.num % 2 ^ 32 * 2 ^ 32

/-- Take what waits between instructions, WATCHDOG first (R156). -/
def State.takeHeld (s : State) (q : Nat) : State :=
  let z := s.seqr q
  if z.inTrap || z.arriving.isSome then s
  else if z.wdWait then
    (s.setSeqr q (fun y => { y with wdWait := false })).trapSeq q 0x0E z.cycle z.pc
  else match z.held with
    | some e => (s.setSeqr q (fun y => { y with held := none })).trapSeq q 0x0C (copInfo e) z.pc
    | none => s

/-! ### The frame of an instruction (R137–R139, R161) -/

/-- Where an instruction executes: its sequencer, the address that a trap of it saves, the address
after it, and the extension of its prefix. -/
structure Ctx where
  q    : Nat
  pc   : Nat
  next : Nat
  x    : Option Nat
deriving DecidableEq, Repr, Inhabited

/-- How the body of an instruction ends: in a trap of the instruction, in a stall that leaves the
sequencer where it is, or in a state. -/
inductive Fin1
  | trap (cause info : Nat) | stall | ok (s : State)

/-- The state that the end of a body leaves, `s` before the instruction and `t` past it. -/
def Fin1.close (r : Fin1) (s t : State) (q pc : Nat) : State :=
  match r with
  | .trap cause info => t.trapSeq q cause info pc
  | .stall => s
  | .ok u => u

/-- Registers that operations in flight will still write (VMOVG), on which issue stalls (R161). -/
def Seqr.awaited (z : Seqr) : List Nat :=
  z.ops.filterMap (fun o => match o.kind with | .vmovg _ _ ga => some ga | _ => none)

/-- Execute an instruction. `ext`: whether a prefix may extend it; `undef`: whether its fields raise
UNDEF; `gs`, `ps`: the general and predicate registers that it names; `cost`: issue cycles. -/
def State.instr (s : State) (h : Hdr) (word : Nat) (ext undef : Bool) (gs : List (BitVec 5))
    (ps : List (BitVec 3)) (cost : Nat) (body : Ctx → State → Fin1) : State :=
  let q := h.seq.val
  let z := s.seqr q
  let bad := undef || (isS q && (gs.any (fun r => decide (16 ≤ r.toNat)) ||
    ps.any (fun p => decide (4 ≤ p.toNat)) || decide (4 ≤ h.guard.toNat % 8)))
  let c : Ctx := ⟨q, z.pc, if z.pfx.isSome then z.pc + 8 else z.pc + 4, z.pfx⟩
  let t := s.setSeqr q (fun y => { y with
    cycle := y.cycle + h.stall.toNat + cost, pc := c.next, pfx := none })
  if !s.live q || gs.any (fun r => z.awaited.contains r.toNat) then s
  else if z.pfx.isSome && !ext then t.trapSeq q 0x01 (2 ^ 21 + z.pfx.getD 0) z.pc
  else if bad then t.trapSeq q 0x01 word z.pc
  else if z.pred (h.guard.toNat % 8) = bit h.guard.toNat 3 then
    s.setSeqr q (fun y => { y with cycle := y.cycle + h.stall.toNat + 1, pc := c.next, pfx := none })
  else (body c t).close s t q z.pc

/-! ### Control transfer (R143) -/

/-- Whether an address may be a transfer target: a multiple of 4 inside the code region. -/
def Seqr.target (z : Seqr) (a : Nat) : Bool :=
  a % 4 == 0 && decide (z.codeLo ≤ a) && decide (a < z.codeHi)

/-- Transfer to an address; a taken transfer costs one cycle more (Table 5-14). -/
def State.jump (s : State) (c : Ctx) (a : Nat) : Fin1 :=
  if (s.seqr c.q).target a then .ok (s.setSeqr c.q (fun z => { z with pc := a, cycle := z.cycle + 1 }))
  else .trap 0x03 a

/-- The DPA of an access, or the trap cause. -/
def State.resolve (s : State) (q : Nat) (p : Place) (n : Nat) (store : Bool) : Nat ⊕ Nat :=
  let y := s.seqr q
  match p with
  | .lcl o => if y.localOk q o n store then .inr (localBase q + o) else .inl 0x05
  | .slice va =>
    match s.xlate y.slice y.pasid va store with
    | some a => .inr a
    | none => .inl 0x06
  | .dpa a => if dpaOk a then .inr a else .inl 0x06

/-! ### Scratchpad words (R107) -/

/-- Whether the scratchpad word of a DPA is uncorrectable. -/
def State.wordBad (s : State) (a : Nat) : Bool := look false s.spBad (a / 32)

/-- The island whose scratchpad or SRAM a DPA names (Table 1-8). -/
def sramIsland (a : Nat) : Nat :=
  if a < 0x010100000000 then (a - 0x010000000000) / 0x4000000
  else if a < 0x010200000000 then 16 + (a - 0x010100000000) / 0x400000 else 25

/-- What the code finds at a word of SRAM: a correction is recorded for its island (Table 18-4) and counted for a tensor island; an
uncorrectable word is kept until written. -/
def State.meetWord (s : State) (a : Nat) (e : Ecc) : State :=
  let n := sramIsland a
  match e with
  | .clean => s
  | .corrected => (if n < 16 then s.count (0x2000 + n) 0x10 1 else s).bin 4 n 1
  | .uncorrectable => { s with spBad := put false s.spBad (a / 32) true }

/-- Count an uncorrectable read of a scratchpad, and total it for the recorder (Table 18-5). -/
def State.countSp (s : State) (a : Nat) : State :=
  if 0x010000000000 ≤ a ∧ a < 0x010040000000 then
    (s.count (0x2000 + (a - 0x010000000000) / 0x4000000) 0x11 1).total 1 1
  else s

/-- The words that a range of bytes touches. -/
def wordsOf (a n : Nat) : List Nat :=
  if n = 0 then [] else (List.range ((a + n - 1) / 32 - a / 32 + 1)).map (fun i => (a / 32 + i) * 32)

/-- Store bytes into SRAM; a word written whole is good again (R107). -/
def State.sramStore (s : State) (a : Nat) (bs : List Byte) : State :=
  { (s.store a bs) with spBad := s.spBad.filter (fun w =>
      !(decide (a ≤ w.1 * 32) && decide (w.1 * 32 + 32 ≤ a + bs.length))) }

/-- Words of SRAM that lie wholly in ranges that an operation has written are good again (R107). -/
def State.wordsGood (s : State) (q : Nat) (rs : List (Nat × Nat)) : State :=
  { s with spBad := s.spBad.filter (fun w => !(rs.any (fun r =>
      decide (localBase q + r.1 ≤ w.1 * 32) && decide (w.1 * 32 + 32 ≤ localBase q + r.1 + r.2)))) }

/-- Whether a range of SRAM holds an uncorrectable word. -/
def State.sramBad (s : State) (a n : Nat) : Bool := (wordsOf a n).any s.wordBad

/-- Load n bytes, at most 8, from a DPA: the value, or none at an uncorrectable word or sector. -/
def State.seqLoad (s : State) (a n : Nat) (h : Hdr) : State × Option Nat :=
  if isRegSpace a then (s.tick1, some (Config.free s.fresh % 2 ^ (8 * n)))
  else if inStacks a then
    let t := s.sectorRead a h.ch.val h.ecc
    if t.badSector a then (t, none) else (t, some (leNat (t.bytes a n)))
  else
    let t := s.meetWord a h.ecc
    if t.wordBad a then (t.countSp a, none) else (t, some (leNat (t.bytes a n)))

/-- Store n bytes of a value at a DPA; a part of an uncorrectable scratchpad word leaves it so. -/
def State.seqStore (s : State) (a n v : Nat) : State :=
  if isRegSpace a then s
  else if inStacks a then (s.memWrite a (leBytes n v)).1
  else s.sramStore a (leBytes n v)

/-- Whether an access waits: for an operation of the scoreboard (R125), or, from a kernel's arrival at a
step boundary until the release, as a store into slice memory (R302). -/
def State.waits (s : State) (q : Nat) (p : Place) (n : Nat) (store : Bool) : Bool :=
  let z := s.seqr q
  match p with
  | .lcl o => z.accessWaits q o n store
  | .slice _ => store && z.stepHold
  | .dpa _ => false

/-- Resolve a place and go on with its DPA; the trap, or a stall, otherwise. -/
def State.access (s : State) (c : Ctx) (p : Nat ⊕ Place) (addr n : Nat) (store : Bool) (k : Nat → Fin1) : Fin1 :=
  match p with
  | .inl cause => .trap cause addr
  | .inr pl =>
    match s.resolve c.q pl n store with
    | .inl cause => .trap cause addr
    | .inr a => if s.waits c.q pl n store then .stall else k a

/-- A load: the trap, or the state and the value (R140, Table 5-13). -/
def State.load (s : State) (c : Ctx) (p : Nat ⊕ Place) (addr n : Nat) (h : Hdr) (k : Nat → State → State) : Fin1 :=
  s.access c p addr n false (fun a =>
    match s.seqLoad a n h with
    | (t, some v) => .ok (k v t)
    | (t, none) => .ok (t.trapSeq c.q 0x07 addr c.pc))

/-- A store: the trap, or the state after it. -/
def State.save (s : State) (c : Ctx) (p : Nat ⊕ Place) (addr n v : Nat) (k : State → State) : Fin1 :=
  s.access c p addr n true (fun a => .ok (k (s.seqStore a n v)))

/-! ### Stacks (R147, R148) -/

/-- The DPA behind a stack address: a local offset, or a DPA on the management core. -/
def stackDpa (q a : Nat) : Nat := if isMgmt q then a else localBase q + a % 2 ^ 26

/-- `push_return`, then `k`. DEDUCED (log entry 44): the stack pointer that a trap of the S profile reports is q (R148). -/
def State.pushReturn (s : State) (c : Ctx) (v : Nat) (k : State → Fin1) : Fin1 :=
  let z := s.seqr c.q
  if isS c.q then
    if z.stkmode = 1 && z.rsdepth == 8 then .trap 0x0A z.retq
    else k (s.setSeqr c.q (fun y => { y with
      rets := put 0 y.rets y.retq v, retq := (y.retq + 1) % 8, rsdepth := min (y.rsdepth + 1) 8 }))
  else if (z.rsp + 2 ^ 64 - 8) % 2 ^ 64 < z.rslo then .trap 0x0A z.rsp
  else
    let a := (z.rsp + 2 ^ 64 - 8) % 2 ^ 64
    k ((s.sramStore (stackDpa c.q a) (leBytes 8 v)).setSeqr c.q (fun y => { y with rsp := a }))

/-- `pop_return`, then `k` on the address. -/
def State.popReturn (s : State) (c : Ctx) (h : Hdr) (k : Nat → State → Fin1) : Fin1 :=
  let z := s.seqr c.q
  if isS c.q then
    if z.stkmode = 1 && z.rsdepth == 0 then .trap 0x0B z.retq
    else
      let q := (z.retq + 7) % 8
      k (look 0 z.rets q) (s.setSeqr c.q (fun y => { y with retq := q, rsdepth := y.rsdepth - 1 }))
  else if z.rshi < (z.rsp + 8) % 2 ^ 64 then .trap 0x0B z.rsp
  else
    match s.seqLoad (stackDpa c.q z.rsp) 8 h with
    | (t, some v) => k v (t.setSeqr c.q (fun y => { y with rsp := (z.rsp + 8) % 2 ^ 64 }))
    | (t, none) => .ok (t.trapSeq c.q 0x07 z.rsp c.pc)

end Sys2Proof.Machine
end

