-- ==== Sys2Proof/Machine/ItetteAlu.lean ====
section
/-!
DEFINITION. The integer, compare, predicate and immediate instructions of Itette (Table 5-7).
-/
namespace Sys2Proof.Machine

/-- Write rd and go on. -/
def Ctx.wr (c : Ctx) (rd : BitVec 5) (v : Word) (t : State) : State := t.setSeqr c.q (fun z => z.setGpr rd.toNat v)

/-- An R-format operation on two registers. -/
def State.alu (s : State) (h : Hdr) (major fn : Nat) (rd ra rb : BitVec 5) (undef : Bool) (cost : Nat)
    (f : Word → Word → Word) : State :=
  s.instr h (h.word major (lowR rd ra rb fn)) false undef [rd, ra, rb] [] cost (fun c t =>
    .ok (c.wr rd (f ((t.seqr c.q).gpr ra.toNat) ((t.seqr c.q).gpr rb.toNat)) t))

/-- The immediate of an I-format instruction, 11 bits or with its prefix 32 (R139). -/
def imm32 (signedExt : Bool) (x : Option Nat) (imm : BitVec 11) : Word :=
  match x with
  | none => if signedExt then imm.signExtend 64 else imm.zeroExtend 64
  | some e =>
    let v := BitVec.ofNat 32 (e * 2 ^ 11 + imm.toNat)
    if signedExt then v.signExtend 64 else v.zeroExtend 64

/-- An I-format operation on a register and an immediate. -/
def State.aluImm (s : State) (h : Hdr) (major : Nat) (signedExt : Bool) (rd ra : BitVec 5) (imm : BitVec 11)
    (f : Word → Word → Word) : State :=
  s.instr h (h.word major (lowI rd ra imm)) true false [rd, ra] [] 1 (fun c t =>
    .ok (c.wr rd (f ((t.seqr c.q).gpr ra.toNat) (imm32 signedExt c.x imm)) t))

/-- A shift by an immediate; bits [10:6] must be 0. -/
def State.shiftImm (s : State) (h : Hdr) (major : Nat) (rd ra : BitVec 5) (imm : BitVec 11)
    (f : Word → Nat → Word) : State :=
  s.instr h (h.word major (lowI rd ra imm)) false (decide (64 ≤ imm.toNat)) [rd, ra] [] 1 (fun c t =>
    .ok (c.wr rd (f ((t.seqr c.q).gpr ra.toNat) (imm.toNat % 64)) t))

/-- Count of leading zeros: 64 for zero. -/
def clz (a : Word) : Word := BitVec.ofNat 64 (if a = 0 then 64 else 63 - a.toNat.log2)

/-- Count of trailing zeros below `n`. -/
def ctzTo (a : Nat) : Nat → Nat → Nat
  | 0, i => i
  | f + 1, i => if bit a i then i else ctzTo a f (i + 1)

/-- Count of trailing zeros: 64 for zero. -/
def ctz (a : Word) : Word := BitVec.ofNat 64 (ctzTo a.toNat 64 0)

/-- Count of set bits. -/
def popc (a : Word) : Word := BitVec.ofNat 64 ((List.range 64).map (fun i => b2n (bit a.toNat i))).sum

/-- High half of the signed product. -/
def mulh (a b : Word) : Word := BitVec.ofInt 64 (a.toInt * b.toInt / (2 ^ 64 : Int))

/-- High half of the unsigned product. -/
def mulhu (a b : Word) : Word := BitVec.ofNat 64 (a.toNat * b.toNat / 2 ^ 64)

/-- Signed division toward zero (R144): by zero all ones; −2^63 by −1 is −2^63. -/
def divS (a b : Word) : Word := if b = 0 then -1 else BitVec.ofInt 64 (Int.tdiv a.toInt b.toInt)

/-- Unsigned division (R144). -/
def divU (a b : Word) : Word := if b = 0 then -1 else BitVec.ofNat 64 (a.toNat / b.toNat)

/-- Signed remainder with the dividend's sign; by zero the dividend (R144). -/
def remS (a b : Word) : Word := if b = 0 then a else BitVec.ofInt 64 (Int.tmod a.toInt b.toInt)

/-- Unsigned remainder (R144). -/
def remU (a b : Word) : Word := if b = 0 then a else BitVec.ofNat 64 (a.toNat % b.toNat)

/-- Set a predicate pair to `t` and not `t`. -/
def Ctx.pair (c : Ctx) (pt pf : BitVec 3) (v : Bool) (t : State) : State :=
  t.setSeqr c.q (fun z => (z.setPred pt.toNat v).setPred pf.toNat (!v))

/-- CMP of a condition (R143): equal `PT` and `PF` are UNDEF unless both are 0 (R144). -/
def State.cmp (s : State) (h : Hdr) (cc : Nat) (pt pf : BitVec 3) (ra rb : BitVec 5) : State :=
  s.instr h (h.word 0x10 (lowC pt pf ra rb cc)) false (pt == pf && pt != 0) [ra, rb] [pt, pf] 1 (fun c t =>
    .ok (c.pair pt pf (cond cc ((t.seqr c.q).gpr ra.toNat) ((t.seqr c.q).gpr rb.toNat)) t))

/-- The immediate of a CI-format instruction, 10 bits or with its prefix 31 (R139). -/
def imm31 (x : Option Nat) (imm : BitVec 10) : Word :=
  match x with
  | none => imm.signExtend 64
  | some e => (BitVec.ofNat 31 (e * 2 ^ 10 + imm.toNat)).signExtend 64

/-- CMPI of a condition (R143, R144). -/
def State.cmpi (s : State) (h : Hdr) (cc : Nat) (pt pf : BitVec 3) (ra : BitVec 5) (imm : BitVec 10) : State :=
  s.instr h (h.word (0x11 + cc) (lowCI pt pf ra imm)) true (pt == pf && pt != 0) [ra] [pt, pf] 1 (fun c t =>
    .ok (c.pair pt pf (cond cc ((t.seqr c.q).gpr ra.toNat) (imm31 c.x imm)) t))

/-- A predicate operation (R143). -/
def State.predOp (s : State) (h : Hdr) (fn : Nat) (pd pa pb : BitVec 3) (un : BitVec 9) (f : Bool → Bool → Bool) : State :=
  s.instr h (h.word 0x16 (lowP pd pa pb un fn)) false (un != 0) [] [pd, pa, pb] 1 (fun c t =>
    .ok (t.setSeqr c.q (fun z => z.setPred pd.toNat (f (z.pred pa.toNat) (z.pred pb.toNat)))))

/-- LI: the sign-extended immediate, 16 bits or with its prefix 37 (R139, R143). -/
def execLi (h : Hdr) (rd : BitVec 5) (imm : BitVec 16) (s : State) : Res :=
  .next (s.instr h (h.word 0x0C (lowU rd imm)) true false [rd] [] 1 (fun c t =>
    .ok (c.wr rd (match c.x with
      | none => imm.signExtend 64
      | some e => (BitVec.ofNat 37 (e * 2 ^ 16 + imm.toNat)).signExtend 64) t)))

/-- LIT: rd shifted left by 16 with the immediate inserted; no long form (R143). -/
def execLit (h : Hdr) (rd : BitVec 5) (imm : BitVec 16) (s : State) : Res :=
  .next (s.instr h (h.word 0x0D (lowU rd imm)) false false [rd] [] 1 (fun c t =>
    .ok (c.wr rd ((t.seqr c.q).gpr rd.toNat <<< 16 ||| imm.zeroExtend 64) t)))

/-- The predicates p7 to p0 of a sequencer as a number (R134, R143). -/
def Seqr.preds (z : Seqr) : Nat := z.p / 2 % 128 * 2 + 1

/-- MFP: the predicates to a register (R143). -/
def execMfp (h : Hdr) (rd ra rb : BitVec 5) (s : State) : Res :=
  .next (s.alu h 0x17 0x00 rd ra rb (ra != 0 || rb != 0) 1
    (fun _ _ => BitVec.ofNat 64 (s.seqr h.seq.val).preds))

/-- MTP: a register to p1–p7, of which an S-profile sequencer has p1–p3 (R134, R143). -/
def execMtp (h : Hdr) (rd ra rb : BitVec 5) (s : State) : Res :=
  .next (s.instr h (h.word 0x17 (lowR rd ra rb 0x01)) false (rd != 0 || rb != 0) [rd, ra, rb] [] 1 (fun c t =>
    .ok (t.setSeqr c.q (fun z => { z with
      p := (z.gpr ra.toNat).toNat % (if isS c.q then 16 else 256) / 2 * 2 }))))

/-- ADD: sum (R143). -/
def execAdd (h : Hdr) (rd ra rb : BitVec 5) (s : State) : Res :=
  .next (s.alu h 0x02 0x00 rd ra rb false 1 (fun a b => a + b))

/-- SUB: difference (R143). -/
def execSub (h : Hdr) (rd ra rb : BitVec 5) (s : State) : Res :=
  .next (s.alu h 0x02 0x01 rd ra rb false 1 (fun a b => a - b))

/-- AND: bitwise and (R143). -/
def execAnd (h : Hdr) (rd ra rb : BitVec 5) (s : State) : Res :=
  .next (s.alu h 0x02 0x02 rd ra rb false 1 (fun a b => a &&& b))

/-- OR: bitwise or (R143). -/
def execOr (h : Hdr) (rd ra rb : BitVec 5) (s : State) : Res :=
  .next (s.alu h 0x02 0x03 rd ra rb false 1 (fun a b => a ||| b))

/-- XOR: bitwise exclusive or (R143). -/
def execXor (h : Hdr) (rd ra rb : BitVec 5) (s : State) : Res :=
  .next (s.alu h 0x02 0x04 rd ra rb false 1 (fun a b => a ^^^ b))

/-- ANDN: ra and not rb (R143). -/
def execAndn (h : Hdr) (rd ra rb : BitVec 5) (s : State) : Res :=
  .next (s.alu h 0x02 0x05 rd ra rb false 1 (fun a b => a &&& ~~~b))

/-- SHL: left shift by the low 6 bits of rb (R143). -/
def execShl (h : Hdr) (rd ra rb : BitVec 5) (s : State) : Res :=
  .next (s.alu h 0x02 0x06 rd ra rb false 1 (fun a b => a <<< (b.toNat % 64)))

/-- SHR: logical right shift (R143). -/
def execShr (h : Hdr) (rd ra rb : BitVec 5) (s : State) : Res :=
  .next (s.alu h 0x02 0x07 rd ra rb false 1 (fun a b => a >>> (b.toNat % 64)))

/-- SRA: arithmetic right shift (R143). -/
def execSra (h : Hdr) (rd ra rb : BitVec 5) (s : State) : Res :=
  .next (s.alu h 0x02 0x08 rd ra rb false 1 (fun a b => a.sshiftRight (b.toNat % 64)))

/-- MIN: signed minimum (R143). -/
def execMin (h : Hdr) (rd ra rb : BitVec 5) (s : State) : Res :=
  .next (s.alu h 0x02 0x09 rd ra rb false 1 (fun a b => if a.slt b then a else b))

/-- MAX: signed maximum (R143). -/
def execMax (h : Hdr) (rd ra rb : BitVec 5) (s : State) : Res :=
  .next (s.alu h 0x02 0x0a rd ra rb false 1 (fun a b => if a.slt b then b else a))

/-- MINU: unsigned minimum (R143). -/
def execMinu (h : Hdr) (rd ra rb : BitVec 5) (s : State) : Res :=
  .next (s.alu h 0x02 0x0b rd ra rb false 1 (fun a b => if a.ult b then a else b))

/-- MAXU: unsigned maximum (R143). -/
def execMaxu (h : Hdr) (rd ra rb : BitVec 5) (s : State) : Res :=
  .next (s.alu h 0x02 0x0c rd ra rb false 1 (fun a b => if a.ult b then b else a))

/-- CLZ: count of leading zeros; `RB` must be 0 (R143). -/
def execClz (h : Hdr) (rd ra rb : BitVec 5) (s : State) : Res :=
  .next (s.alu h 0x02 0x0d rd ra rb (rb != 0) 1 (fun a _ => clz a))

/-- CTZ: count of trailing zeros; `RB` must be 0 (R143). -/
def execCtz (h : Hdr) (rd ra rb : BitVec 5) (s : State) : Res :=
  .next (s.alu h 0x02 0x0e rd ra rb (rb != 0) 1 (fun a _ => ctz a))

/-- POPC: count of set bits; `RB` must be 0 (R143). -/
def execPopc (h : Hdr) (rd ra rb : BitVec 5) (s : State) : Res :=
  .next (s.alu h 0x02 0x0f rd ra rb (rb != 0) 1 (fun a _ => popc a))

/-- MUL: low 64 bits of the product (R143, R144). -/
def execMul (h : Hdr) (rd ra rb : BitVec 5) (s : State) : Res :=
  .next (s.alu h 0x03 0x00 rd ra rb false 1 (fun a b => a * b))

/-- MULH: high 64 bits of the signed product (R143, R144). -/
def execMulh (h : Hdr) (rd ra rb : BitVec 5) (s : State) : Res :=
  .next (s.alu h 0x03 0x01 rd ra rb false 1 mulh)

/-- MULHU: high 64 bits of the unsigned product (R143, R144). -/
def execMulhu (h : Hdr) (rd ra rb : BitVec 5) (s : State) : Res :=
  .next (s.alu h 0x03 0x02 rd ra rb false 1 mulhu)

/-- DIV: signed quotient toward zero (R143, R144). -/
def execDiv (h : Hdr) (rd ra rb : BitVec 5) (s : State) : Res :=
  .next (s.alu h 0x03 0x03 rd ra rb false 34 divS)

/-- DIVU: unsigned quotient (R143, R144). -/
def execDivu (h : Hdr) (rd ra rb : BitVec 5) (s : State) : Res :=
  .next (s.alu h 0x03 0x04 rd ra rb false 34 divU)

/-- REM: signed remainder (R143, R144). -/
def execRem (h : Hdr) (rd ra rb : BitVec 5) (s : State) : Res :=
  .next (s.alu h 0x03 0x05 rd ra rb false 34 remS)

/-- REMU: unsigned remainder (R143, R144). -/
def execRemu (h : Hdr) (rd ra rb : BitVec 5) (s : State) : Res :=
  .next (s.alu h 0x03 0x06 rd ra rb false 34 remU)

/-- ADDI: sum with the sign-extended immediate (R143). -/
def execAddi (h : Hdr) (rd ra : BitVec 5) (imm : BitVec 11) (s : State) : Res :=
  .next (s.aluImm h 0x04 true rd ra imm (fun a b => a + b))

/-- ANDI: and with the zero-extended immediate (R143). -/
def execAndi (h : Hdr) (rd ra : BitVec 5) (imm : BitVec 11) (s : State) : Res :=
  .next (s.aluImm h 0x05 false rd ra imm (fun a b => a &&& b))

/-- ORI: or with the zero-extended immediate (R143). -/
def execOri (h : Hdr) (rd ra : BitVec 5) (imm : BitVec 11) (s : State) : Res :=
  .next (s.aluImm h 0x06 false rd ra imm (fun a b => a ||| b))

/-- XORI: exclusive or with the zero-extended immediate (R143). -/
def execXori (h : Hdr) (rd ra : BitVec 5) (imm : BitVec 11) (s : State) : Res :=
  .next (s.aluImm h 0x07 false rd ra imm (fun a b => a ^^^ b))

/-- MULI: product with the sign-extended immediate (R143). -/
def execMuli (h : Hdr) (rd ra : BitVec 5) (imm : BitVec 11) (s : State) : Res :=
  .next (s.aluImm h 0x0b true rd ra imm (fun a b => a * b))

/-- SHLI: left shift by the low 6 bits of the immediate, whose others must be 0; no long form (R143). -/
def execShli (h : Hdr) (rd ra : BitVec 5) (imm : BitVec 11) (s : State) : Res :=
  .next (s.shiftImm h 0x08 rd ra imm (fun a k => a <<< k))

/-- SHRI: logical right shift by the low 6 bits of the immediate, whose others must be 0; no long form (R143). -/
def execShri (h : Hdr) (rd ra : BitVec 5) (imm : BitVec 11) (s : State) : Res :=
  .next (s.shiftImm h 0x09 rd ra imm (fun a k => a >>> k))

/-- SRAI: arithmetic right shift by the low 6 bits of the immediate, whose others must be 0; no long form (R143). -/
def execSrai (h : Hdr) (rd ra : BitVec 5) (imm : BitVec 11) (s : State) : Res :=
  .next (s.shiftImm h 0x0a rd ra imm (fun a k => a.sshiftRight k))

/-- CMP_EQ: compare by condition 0 into a predicate pair (R143, R144). -/
def execCmpEq (h : Hdr) (pt pf : BitVec 3) (ra rb : BitVec 5) (s : State) : Res :=
  .next (s.cmp h 0 pt pf ra rb)

/-- CMP_LT: compare by condition 1 into a predicate pair (R143, R144). -/
def execCmpLt (h : Hdr) (pt pf : BitVec 3) (ra rb : BitVec 5) (s : State) : Res :=
  .next (s.cmp h 1 pt pf ra rb)

/-- CMP_LTU: compare by condition 2 into a predicate pair (R143, R144). -/
def execCmpLtu (h : Hdr) (pt pf : BitVec 3) (ra rb : BitVec 5) (s : State) : Res :=
  .next (s.cmp h 2 pt pf ra rb)

/-- CMP_GT: compare by condition 3 into a predicate pair (R143, R144). -/
def execCmpGt (h : Hdr) (pt pf : BitVec 3) (ra rb : BitVec 5) (s : State) : Res :=
  .next (s.cmp h 3 pt pf ra rb)

/-- CMP_GTU: compare by condition 4 into a predicate pair (R143, R144). -/
def execCmpGtu (h : Hdr) (pt pf : BitVec 3) (ra rb : BitVec 5) (s : State) : Res :=
  .next (s.cmp h 4 pt pf ra rb)

/-- CMP_TST: compare by condition 5 into a predicate pair (R143, R144). -/
def execCmpTst (h : Hdr) (pt pf : BitVec 3) (ra rb : BitVec 5) (s : State) : Res :=
  .next (s.cmp h 5 pt pf ra rb)

/-- CMPI_EQ: compare with a sign-extended immediate by condition 0 (R143, R144). -/
def execCmpiEq (h : Hdr) (pt pf : BitVec 3) (ra : BitVec 5) (imm : BitVec 10) (s : State) : Res :=
  .next (s.cmpi h 0 pt pf ra imm)

/-- CMPI_LT: compare with a sign-extended immediate by condition 1 (R143, R144). -/
def execCmpiLt (h : Hdr) (pt pf : BitVec 3) (ra : BitVec 5) (imm : BitVec 10) (s : State) : Res :=
  .next (s.cmpi h 1 pt pf ra imm)

/-- CMPI_LTU: compare with a sign-extended immediate by condition 2 (R143, R144). -/
def execCmpiLtu (h : Hdr) (pt pf : BitVec 3) (ra : BitVec 5) (imm : BitVec 10) (s : State) : Res :=
  .next (s.cmpi h 2 pt pf ra imm)

/-- CMPI_GT: compare with a sign-extended immediate by condition 3 (R143, R144). -/
def execCmpiGt (h : Hdr) (pt pf : BitVec 3) (ra : BitVec 5) (imm : BitVec 10) (s : State) : Res :=
  .next (s.cmpi h 3 pt pf ra imm)

/-- CMPI_GTU: compare with a sign-extended immediate by condition 4 (R143, R144). -/
def execCmpiGtu (h : Hdr) (pt pf : BitVec 3) (ra : BitVec 5) (imm : BitVec 10) (s : State) : Res :=
  .next (s.cmpi h 4 pt pf ra imm)

/-- PAND: predicate and (R143). -/
def execPand (h : Hdr) (pd pa pb : BitVec 3) (un : BitVec 9) (s : State) : Res :=
  .next (s.predOp h 0 pd pa pb un (fun a b => a && b))

/-- POR: predicate or (R143). -/
def execPor (h : Hdr) (pd pa pb : BitVec 3) (un : BitVec 9) (s : State) : Res :=
  .next (s.predOp h 1 pd pa pb un (fun a b => a || b))

/-- PXOR: predicate exclusive or (R143). -/
def execPxor (h : Hdr) (pd pa pb : BitVec 3) (un : BitVec 9) (s : State) : Res :=
  .next (s.predOp h 2 pd pa pb un (fun a b => xor a b))

/-- PANDN: predicate pa and not pb (R143). -/
def execPandn (h : Hdr) (pd pa pb : BitVec 3) (un : BitVec 9) (s : State) : Res :=
  .next (s.predOp h 3 pd pa pb un (fun a b => a && !b))

/-- PORN: predicate pa or not pb (R143). -/
def execPorn (h : Hdr) (pd pa pb : BitVec 3) (un : BitVec 9) (s : State) : Res :=
  .next (s.predOp h 4 pd pa pb un (fun a b => a || !b))

end Sys2Proof.Machine
end

