-- ==== Sys2Proof/Machine/ItetteMem.lean ====
section
/-!
DEFINITION. The control-transfer, memory, stack, atomic and system instructions of Itette (Tables 5-8 to
5-10).
-/
namespace Sys2Proof.Machine

/-- A loaded value of n bytes, extended. -/
def extendLoad (n : Nat) (signedExt : Bool) (v : Nat) : Word :=
  if signedExt then BitVec.ofInt 64 (signed (8 * n) v) else BitVec.ofNat 64 v

/-- A bank field that the profile does not have is UNDEF (R135). -/
def badBank (h : Hdr) (bs : BitVec 3) : Bool := isS h.seq.val && decide (4 ≤ bs.toNat)

/-- The byte address of a banked access (R141). -/
def bankedAddr (bank : Nat) (off : BitVec 13) (n : Nat) : Nat := bits bank 31 0 * 65536 + off.toNat * n

/-- A banked short load (R141). -/
def State.bankedLoad (s : State) (h : Hdr) (major : Nat) (rt : BitVec 5) (bs : BitVec 3) (off : BitVec 13)
    (n : Nat) (signedExt : Bool) : State :=
  s.instr h (h.word major (lowM rt bs off)) false (badBank h bs) [rt] [] 1 (fun c t =>
    let bank := look 0 (t.seqr c.q).b bs.toNat
    t.load c (bankedPlace c.q bank off.toNat n) (bankedAddr bank off n) n h
      (fun v u => c.wr rt (extendLoad n signedExt v) u))

/-- A banked short store (R141). -/
def State.bankedStore (s : State) (h : Hdr) (major : Nat) (rt : BitVec 5) (bs : BitVec 3) (off : BitVec 13)
    (n : Nat) : State :=
  s.instr h (h.word major (lowM rt bs off)) false (badBank h bs) [rt] [] 1 (fun c t =>
    let z := t.seqr c.q
    let bank := look 0 z.b bs.toNat
    t.save c (bankedPlace c.q bank off.toNat n) (bankedAddr bank off n) n (z.gpr rt.toNat).toNat id)

/-- The based address of an I-format access (R140). -/
def Seqr.based (z : Seqr) (ra : BitVec 5) (x : Option Nat) (imm : BitVec 11) : Nat :=
  (z.gpr ra.toNat + imm32 true x imm).toNat

/-- A based load (R140). -/
def State.basedLoad (s : State) (h : Hdr) (major : Nat) (rd ra : BitVec 5) (imm : BitVec 11) (n : Nat)
    (signedExt : Bool) : State :=
  s.instr h (h.word major (lowI rd ra imm)) true false [rd, ra] [] 1 (fun c t =>
    let a := (t.seqr c.q).based ra c.x imm
    t.load c (basedPlace c.q a n) a n h (fun v u => c.wr rd (extendLoad n signedExt v) u))

/-- A based store (R140). -/
def State.basedStore (s : State) (h : Hdr) (major : Nat) (rd ra : BitVec 5) (imm : BitVec 11) (n : Nat) : State :=
  s.instr h (h.word major (lowI rd ra imm)) true false [rd, ra] [] 1 (fun c t =>
    let z := t.seqr c.q
    let a := z.based ra c.x imm
    t.save c (basedPlace c.q a n) a n (z.gpr rd.toNat).toNat id)

/-- LDB: banked load of 1 bytes, zero-extended (R141, R143). -/
def execLdb (h : Hdr) (rt : BitVec 5) (bs : BitVec 3) (off : BitVec 13) (s : State) : Res :=
  .next (s.bankedLoad h 0x20 rt bs off 1 false)

/-- LDH: banked load of 2 bytes, zero-extended (R141, R143). -/
def execLdh (h : Hdr) (rt : BitVec 5) (bs : BitVec 3) (off : BitVec 13) (s : State) : Res :=
  .next (s.bankedLoad h 0x21 rt bs off 2 false)

/-- LDW: banked load of 4 bytes, zero-extended (R141, R143). -/
def execLdw (h : Hdr) (rt : BitVec 5) (bs : BitVec 3) (off : BitVec 13) (s : State) : Res :=
  .next (s.bankedLoad h 0x22 rt bs off 4 false)

/-- LDD: banked load of 8 bytes, zero-extended (R141, R143). -/
def execLdd (h : Hdr) (rt : BitVec 5) (bs : BitVec 3) (off : BitVec 13) (s : State) : Res :=
  .next (s.bankedLoad h 0x23 rt bs off 8 false)

/-- LDBS: banked load of 1 bytes, sign-extended (R141, R143). -/
def execLdbs (h : Hdr) (rt : BitVec 5) (bs : BitVec 3) (off : BitVec 13) (s : State) : Res :=
  .next (s.bankedLoad h 0x24 rt bs off 1 true)

/-- LDHS: banked load of 2 bytes, sign-extended (R141, R143). -/
def execLdhs (h : Hdr) (rt : BitVec 5) (bs : BitVec 3) (off : BitVec 13) (s : State) : Res :=
  .next (s.bankedLoad h 0x25 rt bs off 2 true)

/-- LDWS: banked load of 4 bytes, sign-extended (R141, R143). -/
def execLdws (h : Hdr) (rt : BitVec 5) (bs : BitVec 3) (off : BitVec 13) (s : State) : Res :=
  .next (s.bankedLoad h 0x26 rt bs off 4 true)

/-- STB: banked store of 1 bytes (R141, R143). -/
def execStb (h : Hdr) (rt : BitVec 5) (bs : BitVec 3) (off : BitVec 13) (s : State) : Res :=
  .next (s.bankedStore h 0x28 rt bs off 1)

/-- STH: banked store of 2 bytes (R141, R143). -/
def execSth (h : Hdr) (rt : BitVec 5) (bs : BitVec 3) (off : BitVec 13) (s : State) : Res :=
  .next (s.bankedStore h 0x29 rt bs off 2)

/-- STW: banked store of 4 bytes (R141, R143). -/
def execStw (h : Hdr) (rt : BitVec 5) (bs : BitVec 3) (off : BitVec 13) (s : State) : Res :=
  .next (s.bankedStore h 0x2a rt bs off 4)

/-- STD: banked store of 8 bytes (R141, R143). -/
def execStd (h : Hdr) (rt : BitVec 5) (bs : BitVec 3) (off : BitVec 13) (s : State) : Res :=
  .next (s.bankedStore h 0x2b rt bs off 8)

/-- LDBX: based load of 1 bytes, zero-extended (R140, R143). -/
def execLdbx (h : Hdr) (rd ra : BitVec 5) (imm : BitVec 11) (s : State) : Res :=
  .next (s.basedLoad h 0x30 rd ra imm 1 false)

/-- LDHX: based load of 2 bytes, zero-extended (R140, R143). -/
def execLdhx (h : Hdr) (rd ra : BitVec 5) (imm : BitVec 11) (s : State) : Res :=
  .next (s.basedLoad h 0x31 rd ra imm 2 false)

/-- LDWX: based load of 4 bytes, zero-extended (R140, R143). -/
def execLdwx (h : Hdr) (rd ra : BitVec 5) (imm : BitVec 11) (s : State) : Res :=
  .next (s.basedLoad h 0x32 rd ra imm 4 false)

/-- LDDX: based load of 8 bytes, zero-extended (R140, R143). -/
def execLddx (h : Hdr) (rd ra : BitVec 5) (imm : BitVec 11) (s : State) : Res :=
  .next (s.basedLoad h 0x33 rd ra imm 8 false)

/-- LDBSX: based load of 1 bytes, sign-extended (R140, R143). -/
def execLdbsx (h : Hdr) (rd ra : BitVec 5) (imm : BitVec 11) (s : State) : Res :=
  .next (s.basedLoad h 0x34 rd ra imm 1 true)

/-- LDHSX: based load of 2 bytes, sign-extended (R140, R143). -/
def execLdhsx (h : Hdr) (rd ra : BitVec 5) (imm : BitVec 11) (s : State) : Res :=
  .next (s.basedLoad h 0x35 rd ra imm 2 true)

/-- LDWSX: based load of 4 bytes, sign-extended (R140, R143). -/
def execLdwsx (h : Hdr) (rd ra : BitVec 5) (imm : BitVec 11) (s : State) : Res :=
  .next (s.basedLoad h 0x36 rd ra imm 4 true)

/-- STBX: based store of 1 bytes (R140, R143). -/
def execStbx (h : Hdr) (rd ra : BitVec 5) (imm : BitVec 11) (s : State) : Res :=
  .next (s.basedStore h 0x38 rd ra imm 1)

/-- STHX: based store of 2 bytes (R140, R143). -/
def execSthx (h : Hdr) (rd ra : BitVec 5) (imm : BitVec 11) (s : State) : Res :=
  .next (s.basedStore h 0x39 rd ra imm 2)

/-- STWX: based store of 4 bytes (R140, R143). -/
def execStwx (h : Hdr) (rd ra : BitVec 5) (imm : BitVec 11) (s : State) : Res :=
  .next (s.basedStore h 0x3a rd ra imm 4)

/-- STDX: based store of 8 bytes (R140, R143). -/
def execStdx (h : Hdr) (rd ra : BitVec 5) (imm : BitVec 11) (s : State) : Res :=
  .next (s.basedStore h 0x3b rd ra imm 8)

/-! ### Control transfer (Table 5-8) -/

/-- BR (R143). -/
def execBr (h : Hdr) (off : BitVec 21) (s : State) : Res :=
  .next (s.instr h (h.word 0x18 off.toNat) false false [] [] 1 (fun c t => t.jump c (relTarget c.pc off)))

/-- CALL (R143, R147, R148): a bad target comes before a full stack (R156). -/
def execCall (h : Hdr) (off : BitVec 21) (s : State) : Res :=
  .next (s.instr h (h.word 0x19 off.toNat) false false [] [] 1 (fun c t =>
    let a := relTarget c.pc off
    if (t.seqr c.q).target a then t.pushReturn c (c.pc + 4) (fun u => u.jump c a) else .trap 0x03 a))

/-- JR (R143). -/
def execJr (h : Hdr) (rd ra rb : BitVec 5) (s : State) : Res :=
  .next (s.instr h (h.word 0x1A (lowR rd ra rb 0x00)) false (rd != 0 || rb != 0) [rd, ra, rb] [] 1 (fun c t =>
    t.jump c ((t.seqr c.q).gpr ra.toNat).toNat))

/-- CALLR (R143, R147, R148). -/
def execCallr (h : Hdr) (rd ra rb : BitVec 5) (s : State) : Res :=
  .next (s.instr h (h.word 0x1A (lowR rd ra rb 0x01)) false (rd != 0 || rb != 0) [rd, ra, rb] [] 1 (fun c t =>
    let a := ((t.seqr c.q).gpr ra.toNat).toNat
    if (t.seqr c.q).target a then t.pushReturn c (c.pc + 4) (fun u => u.jump c a) else .trap 0x03 a))

/-- RET (R143, R147, R148). -/
def execRet (h : Hdr) (rd ra rb : BitVec 5) (s : State) : Res :=
  .next (s.instr h (h.word 0x1A (lowR rd ra rb 0x02)) false (rd != 0 || ra != 0 || rb != 0) [rd, ra, rb] [] 1
    (fun c t => t.popReturn c h (fun a u => u.jump c a)))

/-! ### Data stack and atomics (Table 5-9) -/

/-- PUSH (R147): a limit check on g29, then a store at the based address; UNDEF on the S profile. -/
def execPush (h : Hdr) (rd ra rb : BitVec 5) (s : State) : Res :=
  .next (s.instr h (h.word 0x3C (lowR rd ra rb 0x00)) false (isS h.seq.val || rd != 0 || rb != 0) [rd, ra, rb, 29] [] 1
    (fun c t =>
      let z := t.seqr c.q
      let a := (z.gpr 29 - 8).toNat
      t.access c (basedPlace c.q a 8) a 8 true (fun d =>
        if a < z.dslo then .trap 0x08 (z.gpr 29).toNat
        else .ok (c.wr 29 (BitVec.ofNat 64 a) (t.seqStore d 8 (z.gpr ra.toNat).toNat)))))

/-- POP (R147). -/
def execPop (h : Hdr) (rd ra rb : BitVec 5) (s : State) : Res :=
  .next (s.instr h (h.word 0x3C (lowR rd ra rb 0x01)) false (isS h.seq.val || ra != 0 || rb != 0) [rd, ra, rb, 29] [] 1
    (fun c t =>
      let z := t.seqr c.q
      let a := (z.gpr 29).toNat
      t.access c (basedPlace c.q a 8) a 8 false (fun d =>
        match t.seqLoad d 8 h with
        | (u, none) => .ok (u.trapSeq c.q 0x07 a c.pc)
        | (u, some v) =>
          if z.dshi < (a + 8) % 2 ^ 64 then .trap 0x09 a
          else .ok (c.wr rd (BitVec.ofNat 64 v) (c.wr 29 (BitVec.ofNat 64 (a + 8)) u)))))

/-- An atomic on the 8 bytes at the based address in ra (R143, R146): `f` gives what is stored. -/
def State.amo (s : State) (h : Hdr) (fn : Nat) (rd ra rb : BitVec 5) (f : Word → Word → Word → Option Word) : State :=
  s.instr h (h.word 0x3D (lowR rd ra rb fn)) false false [rd, ra, rb] [] 1 (fun c t =>
    let z := t.seqr c.q
    let a := (z.gpr ra.toNat).toNat
    t.access c (basedPlace c.q a 8) a 8 true (fun d =>
      match t.seqLoad d 8 h with
      | (u, none) => .ok (u.trapSeq c.q 0x07 a c.pc)
      | (u, some v) =>
        let old := BitVec.ofNat 64 v
        let w := match f old (z.gpr rd.toNat) (z.gpr rb.toNat) with
          | some x => u.seqStore d 8 x.toNat
          | none => u
        .ok (c.wr rd old w)))

/-- AMOADD: indivisible fetch and add (R146). -/
def execAmoadd (h : Hdr) (rd ra rb : BitVec 5) (s : State) : Res :=
  .next (s.amo h 0x00 rd ra rb (fun old _ b => some (old + b)))

/-- AMOCAS: indivisible compare and swap (R146). -/
def execAmocas (h : Hdr) (rd ra rb : BitVec 5) (s : State) : Res :=
  .next (s.amo h 0x01 rd ra rb (fun old d b => if old = d then some b else none))

/-! ### System instructions (Table 5-10) -/

/-- Whether chapter 5 lists an instruction with the major and the function code of a word (Tables 5-7 to 5-11, R137). -/
def listed (w : Nat) : Bool :=
  let m := bits w 27 21
  let fn := w % 64
  match m with
  | 0x00 => decide (fn < 6)
  | 0x02 => decide (fn < 16)
  | 0x03 => decide (fn < 7)
  | 0x10 => decide (w % 32 < 6)
  | 0x16 => decide (w % 8 < 5)
  | 0x17 | 0x3C | 0x3D | 0x40 | 0x41 => decide (fn < 2)
  | 0x1A => decide (fn < 3)
  | 0x76 => decide (bits w 8 5 < 6)
  | 0x77 => decide (bits w 8 6 < 7)
  | 0x78 | 0x79 => decide (w % 16 < 2)
  | 0x7A => decide (w % 4 < 3)
  | _ => m == 0x01 || within m 0x04 0x0D || within m 0x11 0x15 || m == 0x18 || m == 0x19 || within m 0x20 0x26 ||
    within m 0x28 0x2B || within m 0x30 0x36 || within m 0x38 0x3B || m == 0x42 || within m 0x70 0x75 || m == 0x7B

/-- NOP; and, as `other`, a word that stands in its place and that no table lists, which has no row of its own: it raises UNDEF
(R137). A listed word is the command of its own row. -/
def execNop (h : Hdr) (rd ra rb : BitVec 5) (other : Option (BitVec 32)) (s : State) : Res :=
  .next (match other with
    | some w => if listed w.toNat then s else s.instr h w.toNat false true [] [] 1 (fun _ t => .ok t)
    | none => s.instr h (h.word 0x00 (lowR rd ra rb 0x00)) false (rd != 0 || ra != 0 || rb != 0) [rd, ra, rb] [] 1
        (fun _ t => .ok t))

/-- HALT (R159): issue stops; the kernel ends once its engines are empty. On the management core, which
runs no kernel, issue stops and the core stops (R497; log entry 13). -/
def execHalt (h : Hdr) (rd ra rb : BitVec 5) (s : State) : Res :=
  .next (s.instr h (h.word 0x00 (lowR rd ra rb 0x01)) false (rd != 0 || ra != 0 || rb != 0) [rd, ra, rb] [] 1
    (fun c t => .ok (t.endKernel c.q 0)))

/-- TRAP (R155): TRAPI with the 10-bit code in [15:6], which a trap saves with the next address. -/
def execTrap (h : Hdr) (rd : BitVec 5) (code : BitVec 10) (s : State) : Res :=
  .next (s.instr h (h.word 0x00 (rd.toNat * 65536 + code.toNat * 64 + 0x02)) false (rd != 0) [rd] [] 1
    (fun c t => .ok (t.trapSeq c.q 0x0D code.toNat c.next)))

/-- RFT (R155, R156): UNDEF outside a trap, whatever its guard (R138); returns, then takes what waited. -/
def execRft (h : Hdr) (rd ra rb : BitVec 5) (s : State) : Res :=
  .next (s.instr h (h.word 0x00 (lowR rd ra rb 0x03)) false
    (rd != 0 || ra != 0 || rb != 0 || !(s.seqr h.seq.val).inTrap) [rd, ra, rb] [] 2 (fun c t =>
      .ok ((t.setSeqr c.q (fun z => { z with inTrap := false, pc := z.trappc })).takeHeld c.q)))

/-- Whether an operation is a transfer to stacked memory. -/
def CopOp.isStore (o : CopOp) : Bool :=
  match o.kind with
  | .stream d _ => fieldAt d 0 1 == 1
  | .dma _ => true
  | _ => false

/-- FENCE (R145): a sequencer's own stores and atomics are acknowledged as they execute here; it stalls
while a STREAM STORE of the kernel is not complete. -/
def execFence (h : Hdr) (rd ra rb : BitVec 5) (s : State) : Res :=
  .next (s.instr h (h.word 0x00 (lowR rd ra rb 0x04)) false (rd != 0 || ra != 0 || rb != 0) [rd, ra, rb] [] 1
    (fun c t => if (t.seqr c.q).ops.any CopOp.isStore then .stall else .ok t))

/-- WAITEV (R143): stalls until `EVCOUNT` has reached ra. -/
def execWaitev (h : Hdr) (rd ra rb : BitVec 5) (s : State) : Res :=
  .next (s.instr h (h.word 0x00 (lowR rd ra rb 0x05)) false (rd != 0 || rb != 0) [rd, ra, rb] [] 1
    (fun c t =>
      let z := t.seqr c.q
      if (z.evcount + 2 ^ 64 - (z.gpr ra.toNat).toNat) % 2 ^ 64 < 2 ^ 63 then .ok t else .stall))

/-- MFS (R136). -/
def execMfs (h : Hdr) (rd : BitVec 5) (sr : BitVec 10) (s : State) : Res :=
  .next (s.instr h (h.word 0x40 (lowS rd sr 0x00)) false false [rd] [] 1 (fun c t =>
    if srAccess c.q sr.toNat = 0 then .trap 0x02 sr.toNat
    else .ok (c.wr rd (BitVec.ofNat 64 ((t.seqr c.q).special c.q sr.toNat)) t)))

/-- MTS (R136). -/
def execMts (h : Hdr) (rd : BitVec 5) (sr : BitVec 10) (s : State) : Res :=
  .next (s.instr h (h.word 0x40 (lowS rd sr 0x01)) false false [rd] [] 1 (fun c t =>
    let z := t.seqr c.q
    let v := (z.gpr rd.toNat).toNat
    if srAccess c.q sr.toNat ≠ 2 || z.srReserved sr.toNat v then .trap 0x02 sr.toNat
    else .ok (t.setSeqr c.q (fun y => y.setSpecial sr.toNat v))))

/-- MTB (R143): `RD`[2:0] names the bank. -/
def execMtb (h : Hdr) (rd ra rb : BitVec 5) (s : State) : Res :=
  .next (s.instr h (h.word 0x41 (lowR rd ra rb 0x00)) false
    (decide (8 ≤ rd.toNat) || rb != 0 || (isS h.seq.val && decide (4 ≤ rd.toNat))) [ra] [] 1 (fun c t =>
    .ok (t.setSeqr c.q (fun z => z.setBank rd.toNat (z.gpr ra.toNat).toNat))))

/-- MFB (R143): `RB`[2:0] names the bank. -/
def execMfb (h : Hdr) (rd ra rb : BitVec 5) (s : State) : Res :=
  .next (s.instr h (h.word 0x41 (lowR rd ra rb 0x01)) false
    (decide (8 ≤ rb.toNat) || ra != 0 || (isS h.seq.val && decide (4 ≤ rb.toNat))) [rd] [] 1 (fun c t =>
    .ok (c.wr rd (BitVec.ofNat 64 (look 0 (t.seqr c.q).b rb.toNat)) t)))

/-- SETB (R143, R139): page and space of a bank register; with a prefix, bits [36:32] of the immediate must
be zero. -/
def execSetb (h : Hdr) (bn : BitVec 3) (sp : BitVec 2) (imm : BitVec 16) (s : State) : Res :=
  let page := ((s.seqr h.seq.val).pfx.getD 0) * 2 ^ 16 + imm.toNat
  .next (s.instr h (h.word 0x42 (lowK bn sp imm)) true
    (decide (2 ≤ sp.toNat) || badBank h bn || decide (2 ^ 32 ≤ page)) [] [] 1 (fun c t =>
    .ok (t.setSeqr c.q (fun z => z.setBank bn.toNat
      (look 0 z.b bn.toNat / 2 ^ 34 * 2 ^ 34 + sp.toNat * 2 ^ 32 + page)))))

/-- PFX (R139): its guard must be 0; the next word takes the extension. -/
def execPfx (h : Hdr) (x : BitVec 21) (s : State) : Res :=
  .next (s.instr h (h.word 0x01 x.toNat) false (h.guard != 0) [] [] 1 (fun c t =>
    .ok (t.setSeqr c.q (fun z => { z with pfx := some x.toNat, pc := c.pc }))))

end Sys2Proof.Machine
end

