-- ==== Sys2Proof/Machine/Cop.lean ====
section
/-!
DEFINITION. Issue of coprocessor operations (R149–R152): what each captures, the queues and the
scoreboard, and the tile descriptors.
-/
namespace Sys2Proof.Machine

/-- Whether a sequencer is an island sequencer. -/
def isTi (q : Nat) : Bool := decide (q < 16)

/-- Put an operation into its engine's queue; a full queue of 16, or a scoreboard of 256, stalls the
sequencer (R124). -/
def State.issue (s : State) (c : Ctx) (engine pre : Nat) (k : CopKind) : Fin1 :=
  let z := s.seqr c.q
  if 16 ≤ (z.queued engine).length || 256 ≤ z.ops.length then .stall
  else .ok (s.setSeqr c.q (fun y => { y with
    ops := y.ops ++ [⟨y.issued, engine, k, y.nctl, y.seed, pre, false⟩], issued := y.issued + 1 }))

/-- The 64 descriptor bytes at a local offset, captured at issue (R152), with the status of a descriptor
outside the window (R142) or unreadable (R107); a stall while an operation still writes them. -/
def State.capture (s : State) (c : Ctx) (off : Nat) (k : State → List Byte → Nat → Fin1) : Fin1 :=
  let z := s.seqr c.q
  let a := localBase c.q + off
  if z.accessWaits c.q off 64 false then .stall
  else if isMgmt c.q then k s (s.bytes off 64) (b2n (!dpaOk off) * 3)
  else if !(z.rangeOk c.q (off, 64)) then k s (List.replicate 64 0) 0x03
  else if s.sramBad a 64 then k (s.countSp a) (s.bytes a 64) 0x08
  else k s (s.bytes a 64) (if z.marked (off, 64) then 0x09 else 0)

/-- MMA (R111, R113): captures both descriptors. -/
def execMma (h : Hdr) (core : BitVec 4) (ta tb : BitVec 6) (plane clr : Bool) (fold : BitVec 3) (s : State) : Res :=
  .next (s.instr h (h.word 0x70 (core.toNat * 2 ^ 17 + ta.toNat * 2 ^ 11 + tb.toNat * 32 + b2n plane * 16 +
      b2n clr * 8 + fold.toNat)) false (!isTi h.seq.val) [] [] 1 (fun c t =>
    let z := t.seqr c.q
    t.issue c core.toNat 0 (.mma core.toNat (b2n plane) fold.toNat clr (look 0 z.tds ta.toNat) (look 0 z.tds tb.toNat))))

/-- MDRAIN (R111, R116): captures the destination descriptor, `TID` and `IDXBASE`. -/
def execMdrain (h : Hdr) (core : BitVec 4) (tc : BitVec 6) (plane : Bool) (ra un : BitVec 5) (s : State) : Res :=
  .next (s.instr h (h.word 0x71 (core.toNat * 2 ^ 17 + tc.toNat * 2 ^ 11 + b2n plane * 2 ^ 10 + ra.toNat * 32 +
      un.toNat)) false (!isTi h.seq.val || un != 0) [ra] [] 1 (fun c t =>
    let z := t.seqr c.q
    let v := (z.gpr ra.toNat).toNat
    t.issue c core.toNat 0 (.mdrain core.toNat (b2n plane) (look 0 z.tds tc.toNat) (bits v 63 48) (bits v 47 0))))

/-- MZERO (R111). -/
def execMzero (h : Hdr) (core : BitVec 4) (plane : Bool) (un : BitVec 16) (s : State) : Res :=
  .next (s.instr h (h.word 0x72 (core.toNat * 2 ^ 17 + b2n plane * 2 ^ 16 + un.toNat)) false
    (!isTi h.seq.val || un != 0) [] [] 1 (fun c t => t.issue c core.toNat 0 (.mzero core.toNat (b2n plane))))

/-- TDSET (R108, R110): a descriptor write takes effect for every operation issued after it. -/
def execTdset (h : Hdr) (td : BitVec 6) (ra rb un : BitVec 5) (s : State) : Res :=
  .next (s.instr h (h.word 0x73 (td.toNat * 2 ^ 15 + ra.toNat * 1024 + rb.toNat * 32 + un.toNat)) false
    (!isTi h.seq.val || un != 0) [ra, rb] [] 1 (fun c t =>
    .ok (t.setSeqr c.q (fun z =>
      let d := tdMask ((z.gpr ra.toNat).toNat + (z.gpr rb.toNat).toNat * 2 ^ 64)
      { z with tds := put 0 z.tds td.toNat d }))))

/-- Whether vector fields are UNDEF on a sequencer (R149, R150). -/
def badVec (q : Nat) (ve : BitVec 2) (vs : List (BitVec 5)) : Bool :=
  isMgmt q || (isS q && (ve != 0 || vs.any (fun v => decide (16 ≤ v.toNat))))

/-- VOP (R149): `VB` must be 0 for the cross-lane operations. -/
def State.vop (s : State) (h : Hdr) (f : Nat) (ve : BitVec 2) (vd va vb : BitVec 5) : State :=
  s.instr h (h.word 0x74 (ve.toNat * 2 ^ 19 + vd.toNat * 2 ^ 14 + va.toNat * 2 ^ 9 + vb.toNat * 16 + f)) false
    (badVec h.seq.val ve [vd, va, vb] || ((f == 13 || f == 14) && vb != 0)) [] [] 1 (fun c t =>
    t.issue c (16 + ve.toNat) 0 (.vop f ve.toNat vd.toNat va.toNat vb.toNat))

/-- VFMA (R149). -/
def execVfma (h : Hdr) (ve : BitVec 2) (vd va vb : BitVec 5) (un : BitVec 4) (s : State) : Res :=
  .next (s.instr h (h.word 0x75 (ve.toNat * 2 ^ 19 + vd.toNat * 2 ^ 14 + va.toNat * 2 ^ 9 + vb.toNat * 16 +
      un.toNat)) false (badVec h.seq.val ve [vd, va, vb] || un != 0) [] [] 1 (fun c t =>
    t.issue c (16 + ve.toNat) 0 (.vfma ve.toNat vd.toNat va.toNat vb.toNat)))

/-- VMISC (R149, R151): `RM` must be 0 but for the conversions, whose `GA` names three registers. -/
def State.vmisc (s : State) (h : Hdr) (op : Nat) (conv : Bool) (ve : BitVec 2) (vd ga : BitVec 5)
    (rm : BitVec 2) (un : BitVec 3) (k : Seqr → CopKind) : State :=
  let gs := if conv then [ga, ga + 1, ga + 2] else [ga]
  s.instr h (h.word 0x76 (ve.toNat * 2 ^ 19 + vd.toNat * 2 ^ 14 + ga.toNat * 2 ^ 9 + op * 32 + rm.toNat * 8 +
      un.toNat)) false
    (badVec h.seq.val ve [vd] || un != 0 || (!conv && rm != 0) || (conv && decide (29 < ga.toNat))) gs [] 1
    (fun c t => t.issue c (16 + ve.toNat) 0 (k (t.seqr c.q)))

/-- VSFU (R118, R149): an S-profile sequencer has `RCP` and `RSQRT` only. -/
def State.vsfu (s : State) (h : Hdr) (f : Nat) (ve : BitVec 2) (vd va : BitVec 5) (un : BitVec 6) : State :=
  s.instr h (h.word 0x77 (ve.toNat * 2 ^ 19 + vd.toNat * 2 ^ 14 + va.toNat * 2 ^ 9 + f * 64 + un.toNat)) false
    (badVec h.seq.val ve [vd, va] || un != 0 || (isS h.seq.val && f != 3 && f != 4)) [] [] 1 (fun c t =>
    t.issue c 20 0 (.sfu f ve.toNat vd.toNat va.toNat))

/-- CIPHER and DIGEST (R471): the descriptor at g[ra] is captured, and the key of the
slot as it stands at issue (R466). -/
def State.cryptoOp (s : State) (h : Hdr) (major op engine : Nat) (ra : BitVec 5) (kslot : BitVec 12) (undef : Bool)
    (k : Nat → List Byte → KeySlot → CopKind) : State :=
  s.instr h (h.word major (ra.toNat * 65536 + kslot.toNat * 16 + op)) false undef [ra] [] 1 (fun c t =>
    t.capture c ((t.seqr c.q).gpr ra.toNat).toNat (fun u d pre => u.issue c engine pre (k kslot.toNat d (u.kslot kslot.toNat))))

/-- CIPHER_GCM_ENCRYPT (R471). -/
def execCipherGcmEncrypt (h : Hdr) (ra : BitVec 5) (kslot : BitVec 12) (s : State) : Res :=
  .next (s.cryptoOp h 0x78 0 28 ra kslot (!isTi h.seq.val) (.cipher false))

/-- CIPHER_GCM_DECRYPT (R471). -/
def execCipherGcmDecrypt (h : Hdr) (ra : BitVec 5) (kslot : BitVec 12) (s : State) : Res :=
  .next (s.cryptoOp h 0x78 1 28 ra kslot (!isTi h.seq.val) (.cipher true))

/-- DIGEST_SHA384 (R471): also on the management core's digest engine. -/
def execDigestSha384 (h : Hdr) (ra : BitVec 5) (kslot : BitVec 12) (s : State) : Res :=
  .next (s.cryptoOp h 0x79 0 29 ra kslot (isS h.seq.val) (.digest false))

/-- DIGEST_HMAC_SHA384 (R471). -/
def execDigestHmacSha384 (h : Hdr) (ra : BitVec 5) (kslot : BitVec 12) (s : State) : Res :=
  .next (s.cryptoOp h 0x79 1 29 ra kslot (isS h.seq.val) (.digest true))

/-- STREAM (R119, R149): the stream engine of an island, in the queue that the descriptor's `OP` names, or
the staging DMA of a near-memory sequencer. -/
def execStream (h : Hdr) (ra : BitVec 5) (un : BitVec 16) (s : State) : Res :=
  .next (s.instr h (h.word 0x7B (ra.toNat * 65536 + un.toNat)) false (isMgmt h.seq.val || un != 0) [ra] [] 1 (fun c t =>
    t.capture c ((t.seqr c.q).gpr ra.toNat).toNat (fun u d pre =>
      if isS c.q then u.issue c 24 pre (.dma d)
      else u.issue c (if fieldAt d 0 1 = 1 then 25 else 24) pre
        (.stream d (look 0 (u.seqr c.q).tds (sdTd d))))))

/-- VOP_FADD (R149). -/
def execVopFadd (h : Hdr) (ve : BitVec 2) (vd va vb : BitVec 5) (s : State) : Res := .next (s.vop h 0 ve vd va vb)

/-- VOP_FSUB (R149). -/
def execVopFsub (h : Hdr) (ve : BitVec 2) (vd va vb : BitVec 5) (s : State) : Res := .next (s.vop h 1 ve vd va vb)

/-- VOP_FMUL (R149). -/
def execVopFmul (h : Hdr) (ve : BitVec 2) (vd va vb : BitVec 5) (s : State) : Res := .next (s.vop h 2 ve vd va vb)

/-- VOP_FMIN (R149). -/
def execVopFmin (h : Hdr) (ve : BitVec 2) (vd va vb : BitVec 5) (s : State) : Res := .next (s.vop h 3 ve vd va vb)

/-- VOP_FMAX (R149). -/
def execVopFmax (h : Hdr) (ve : BitVec 2) (vd va vb : BitVec 5) (s : State) : Res := .next (s.vop h 4 ve vd va vb)

/-- VOP_IADD (R149). -/
def execVopIadd (h : Hdr) (ve : BitVec 2) (vd va vb : BitVec 5) (s : State) : Res := .next (s.vop h 5 ve vd va vb)

/-- VOP_ISUB (R149). -/
def execVopIsub (h : Hdr) (ve : BitVec 2) (vd va vb : BitVec 5) (s : State) : Res := .next (s.vop h 6 ve vd va vb)

/-- VOP_IMUL (R149). -/
def execVopImul (h : Hdr) (ve : BitVec 2) (vd va vb : BitVec 5) (s : State) : Res := .next (s.vop h 7 ve vd va vb)

/-- VOP_AND (R149). -/
def execVopAnd (h : Hdr) (ve : BitVec 2) (vd va vb : BitVec 5) (s : State) : Res := .next (s.vop h 8 ve vd va vb)

/-- VOP_OR (R149). -/
def execVopOr (h : Hdr) (ve : BitVec 2) (vd va vb : BitVec 5) (s : State) : Res := .next (s.vop h 9 ve vd va vb)

/-- VOP_XOR (R149). -/
def execVopXor (h : Hdr) (ve : BitVec 2) (vd va vb : BitVec 5) (s : State) : Res := .next (s.vop h 10 ve vd va vb)

/-- VOP_SHL (R149). -/
def execVopShl (h : Hdr) (ve : BitVec 2) (vd va vb : BitVec 5) (s : State) : Res := .next (s.vop h 11 ve vd va vb)

/-- VOP_SHR (R149). -/
def execVopShr (h : Hdr) (ve : BitVec 2) (vd va vb : BitVec 5) (s : State) : Res := .next (s.vop h 12 ve vd va vb)

/-- VOP_FRSUM (R149). -/
def execVopFrsum (h : Hdr) (ve : BitVec 2) (vd va vb : BitVec 5) (s : State) : Res := .next (s.vop h 13 ve vd va vb)

/-- VOP_FRMAX (R149). -/
def execVopFrmax (h : Hdr) (ve : BitVec 2) (vd va vb : BitVec 5) (s : State) : Res := .next (s.vop h 14 ve vd va vb)

/-- VOP_FCMPLT (R149). -/
def execVopFcmplt (h : Hdr) (ve : BitVec 2) (vd va vb : BitVec 5) (s : State) : Res := .next (s.vop h 15 ve vd va vb)

/-- VLD: load of one lane width by lanes (R149, R151). -/
def execVld (h : Hdr) (ve : BitVec 2) (vd ga : BitVec 5) (rm : BitVec 2) (un : BitVec 3) (s : State) : Res :=
  .next (s.vmisc h 0 false ve vd ga rm un (fun z => .vld ve.toNat vd.toNat (z.gpr ga.toNat).toNat))

/-- VST: store (R149, R151). -/
def execVst (h : Hdr) (ve : BitVec 2) (vd ga : BitVec 5) (rm : BitVec 2) (un : BitVec 3) (s : State) : Res :=
  .next (s.vmisc h 1 false ve vd ga rm un (fun z => .vst ve.toNat vd.toNat (z.gpr ga.toNat).toNat))

/-- VLDC: decode to FP32 lanes (R149, R151). -/
def execVldc (h : Hdr) (ve : BitVec 2) (vd ga : BitVec 5) (rm : BitVec 2) (un : BitVec 3) (s : State) : Res :=
  .next (s.vmisc h 2 true ve vd ga rm un (fun z => .vldc ve.toNat vd.toNat (z.gpr ga.toNat).toNat (z.gpr (ga.toNat + 1)).toNat (z.gpr (ga.toNat + 2)).toNat rm.toNat))

/-- VSTC: encode from FP32 lanes (R149, R151). -/
def execVstc (h : Hdr) (ve : BitVec 2) (vd ga : BitVec 5) (rm : BitVec 2) (un : BitVec 3) (s : State) : Res :=
  .next (s.vmisc h 3 true ve vd ga rm un (fun z => .vstc ve.toNat vd.toNat (z.gpr ga.toNat).toNat (z.gpr (ga.toNat + 1)).toNat (z.gpr (ga.toNat + 2)).toNat rm.toNat))

/-- VBCAST: every lane from a general register (R149, R151). -/
def execVbcast (h : Hdr) (ve : BitVec 2) (vd ga : BitVec 5) (rm : BitVec 2) (un : BitVec 3) (s : State) : Res :=
  .next (s.vmisc h 4 false ve vd ga rm un (fun z => .vbcast ve.toNat vd.toNat ((z.gpr ga.toNat).toNat % 2 ^ 32)))

/-- VMOVG: lane 0 to a general register (R149, R151). -/
def execVmovg (h : Hdr) (ve : BitVec 2) (vd ga : BitVec 5) (rm : BitVec 2) (un : BitVec 3) (s : State) : Res :=
  .next (s.vmisc h 5 false ve vd ga rm un (fun _ => .vmovg ve.toNat vd.toNat ga.toNat))

/-- VSFU_EXP2 (R118, R149). -/
def execVsfuExp2 (h : Hdr) (ve : BitVec 2) (vd va : BitVec 5) (un : BitVec 6) (s : State) : Res := .next (s.vsfu h 0 ve vd va un)

/-- VSFU_EXP (R118, R149). -/
def execVsfuExp (h : Hdr) (ve : BitVec 2) (vd va : BitVec 5) (un : BitVec 6) (s : State) : Res := .next (s.vsfu h 1 ve vd va un)

/-- VSFU_LOG2 (R118, R149). -/
def execVsfuLog2 (h : Hdr) (ve : BitVec 2) (vd va : BitVec 5) (un : BitVec 6) (s : State) : Res := .next (s.vsfu h 2 ve vd va un)

/-- VSFU_RCP (R118, R149). -/
def execVsfuRcp (h : Hdr) (ve : BitVec 2) (vd va : BitVec 5) (un : BitVec 6) (s : State) : Res := .next (s.vsfu h 3 ve vd va un)

/-- VSFU_RSQRT (R118, R149). -/
def execVsfuRsqrt (h : Hdr) (ve : BitVec 2) (vd va : BitVec 5) (un : BitVec 6) (s : State) : Res := .next (s.vsfu h 4 ve vd va un)

/-- VSFU_TANH (R118, R149). -/
def execVsfuTanh (h : Hdr) (ve : BitVec 2) (vd va : BitVec 5) (un : BitVec 6) (s : State) : Res := .next (s.vsfu h 5 ve vd va un)

/-- VSFU_SIGMOID (R118, R149). -/
def execVsfuSigmoid (h : Hdr) (ve : BitVec 2) (vd va : BitVec 5) (un : BitVec 6) (s : State) : Res := .next (s.vsfu h 6 ve vd va un)

end Sys2Proof.Machine
end

