-- ==== Sys2Proof/Machine/Sfu.lean ====
section
/-!
DEFINITION. The special-function unit (R118): for each function the value to far more digits than
FP32 holds, by series in fixed point, and the result within 2 units in the last place of it. The
distance is a free value; so is a result on an operand for which the manual states none.
-/
namespace Sys2Proof.Machine

/-- Digits after the point of the fixed-point numbers below. -/
def fixP : Nat := 224

/-- One in fixed point. -/
def fixOne : Nat := 2 ^ fixP

/-- Sum of `2 z^(2k+1) / (2k+1)` for `z` in fixed point: twice the inverse hyperbolic tangent. -/
def atanh2 (zz : Nat) : Nat → Nat → Nat → Nat
  | 0, _, _ => 0
  | f + 1, k, t => 2 * t / (2 * k + 1) + atanh2 zz f (k + 1) (t * zz / fixOne)

/-- The natural logarithm of `n / d`, at least 1 and below 2, in fixed point. -/
def lnFix (n d : Nat) : Nat :=
  let z := (n - d) * fixOne / (n + d)
  atanh2 (z * z / fixOne) 140 0 z

/-- The natural logarithm of 2. -/
def ln2Fix : Nat := lnFix 2 1

/-- The exponential series of `z` in fixed point. -/
def expSeries (z : Nat) : Nat → Nat → Nat → Nat
  | 0, _, _ => 0
  | f + 1, k, t => t + expSeries z f (k + 1) (t * z / fixOne / (k + 1))

/-- Two to a fixed-point power, as a quotient. -/
def exp2Fix (x : Int) : Nat × Nat :=
  let k := x / (fixOne : Int)
  let f := (x % (fixOne : Int)).toNat
  scale2 (expSeries (f * ln2Fix / fixOne) 60 0 fixOne) fixOne k

/-- A signed quotient in fixed point, its magnitude capped at 4,096. -/
def toFix (s : Bool) (n d : Nat) : Int :=
  let m : Int := (min (4096 * fixOne) (n * fixOne / d) : Nat)
  if s then -m else m

/-- A fixed-point number multiplied by the base-2 logarithm of e. -/
def timesLog2e (x : Int) : Int := x * (fixOne : Int) / (ln2Fix : Int)

/-- The base-2 logarithm of a positive quotient. -/
def log2Val (n d : Nat) : Val :=
  let e := flog2 n d
  let (a, b) := scale2 n d (-e)
  let x : Int := e * (fixOne : Int) + ((lnFix a b * fixOne / ln2Fix : Nat) : Int)
  .fin (decide (x < 0)) x.natAbs fixOne

/-- The integer square root, bit by bit from bit `k - 1`. -/
def isqrt (v : Nat) : Nat → Nat → Nat
  | 0, r => r
  | k + 1, r => if (r + 2 ^ k) * (r + 2 ^ k) ≤ v then isqrt v k (r + 2 ^ k) else isqrt v k r

/-- The reciprocal square root of a positive quotient. -/
def rsqrtVal (n d : Nat) : Val :=
  let e := flog2 d n / 2
  let (a, b) := scale2 d n (2 * (64 - e))
  let (p, q) := scale2 (isqrt (a / b) 70 0) 1 (e - 64)
  .fin false p q

/-- The hyperbolic tangent of a signed quotient; below 2^−40 it is the operand to within the bound. -/
def tanhVal (s : Bool) (n d : Nat) : Val :=
  if n * 2 ^ 40 < d then .fin s n d
  else
    let (p, q) := exp2Fix (timesLog2e (2 * toFix false n d))
    .fin s (p - q) (p + q)

/-- The sigmoid of a signed quotient. -/
def sigmoidVal (s : Bool) (n d : Nat) : Val :=
  let (p, q) := exp2Fix (timesLog2e (-(toFix s n d)))
  .fin false q (p + q)

/-- The exact value, to the digits above, of function `f` (Table 5-11): 0 `EXP2`, 1 `EXP`, 2 `LOG2`,
3 `RCP`, 4 `RSQRT`, 5 `TANH`, 6 `SIGMOID`; none where the manual states no result. -/
def sfuVal (f : Nat) (s : Bool) (n d : Nat) : Option Val :=
  let pos (p : Nat × Nat) : Option Val := some (.fin false p.1 p.2)
  match f with
  | 0 => pos (exp2Fix (toFix s n d))
  | 1 => pos (exp2Fix (timesLog2e (toFix s n d)))
  | 2 => if s || n == 0 then none else some (log2Val n d)
  | 3 => if n = 0 then none else some (.fin s d n)
  | 4 => if s || n == 0 then none else some (rsqrtVal n d)
  | 5 => some (tanhVal s n d)
  | _ => some (sigmoidVal s n d)

/-- Whether an operand is an integer, for which `EXP2` is exact. -/
def isInteger (n d : Nat) : Bool := n % d == 0

/-- One special-function result on FP32 codes (R118). -/
def sfu (f x : Nat) : Nat :=
  match elemVal 9 x with
  | .fin s n d =>
    match sfuVal f s n d with
    | some v =>
      let c := to32 v
      let g := c % 2 ^ 31
      if infCode 9 ≤ g then nan32 (Config.sfuFree f x % 2 ^ 32)
      else if f = 0 && isInteger n d then c
      else c - g + min (maxCode 9) (g + Config.sfuError f x % 5 - 2)
    | none => nan32 (Config.sfuFree f x % 2 ^ 32)
  | _ => nan32 (Config.sfuFree f x % 2 ^ 32)

end Sys2Proof.Machine
end

