-- ==== Sys2Proof/Machine/Straits.lean ====
section
/-!
DEFINITION. Traffic on the data straits (R14–R22): the strait that each unit travels on, placement, delivery in the order sent,
retransmission, credits, and the units that fail back to their engines.
-/
namespace Sys2Proof.Machine

/-! ### The strait of a unit (R18, R19, R22, R122) -/

/-- The strait between island n and memory island m (0–3), the k-th of the pair for a peripheral island (Table 1-3). -/
def straitNo (n m k : Nat) : Nat := if n < 16 then 4 * n + m else 64 + 8 * (n - 20) + 4 * k + m

/-- The strait between island n and memory island m that carries what belongs on the k-th of the pair: that one, or the survivor
where it is down (R22). -/
def State.liveStrait (s : State) (n m k : Nat) : Nat :=
  if (s.strait (straitNo n m k)).up then straitNo n m k else straitNo n m (1 - k)

/-- The strait that carries a peripheral island's access to a stacked-memory address: k = a[16] (R18). -/
def State.straitFor (s : State) (n dpa : Nat) : Nat := s.liveStrait n (miOf dpa) (bits dpa 16 16)

/-- The bytes over which a flow identifier is hashed (R279, chapter 10). DESIGN CHOICE (log entry 49): the rules name the
fields and no byte layout; the fields stand in the order named, little-endian, in whole bytes. -/
def flowIdent : RelayFlow → List Byte
  | .switch ingress island vc => leBytes 1 ingress ++ leBytes 1 island ++ leBytes 1 vc
  | .coll slot island => leBytes 2 slot ++ leBytes 1 island
  | .net conn => leBytes 4 conn

/-- The relay memory island of a flow, bits [1:0] of the CRC-32C of its identifier, and its strait k, bit 2 (R19, R279). -/
def flowPath (f : RelayFlow) : Nat × Nat :=
  let h := crc32c (flowIdent f)
  (h % 4, h / 4 % 2)

/-- The islands between which a flow is relayed: the switch and the collectives engine send from SWI; a packet of connection c
that arrived on the other network island goes to NI(c mod 2). -/
def flowEnds : RelayFlow → Nat × Nat
  | .switch _ island _ => (20, island)
  | .coll _ island => (20, island)
  | .net conn => (22 - conn % 2, 21 + conn % 2)

/-- The islands that an internal port of the switch reaches (Table 9-1). -/
def portReaches (p : Nat) : List Nat :=
  if 8 ≤ p ∧ p < 12 then [p + 8]
  else if 12 ≤ p ∧ p < 16 then (List.range 4).map (fun i => 4 * (p - 12) + i)
  else if 16 ≤ p ∧ p < 20 then [p + 5]
  else []

/-- Whether the switch island relays a flow (R19, R270): from one of its 20 ports or the collectives engine to an island that an
internal port other than a memory island's reaches; packets go between the network islands. -/
def relayValid : RelayFlow → Bool
  | .switch ingress island _ => decide (ingress < 20) && [12, 13, 14, 15, 16, 17, 18, 19].any (fun p => (portReaches p).contains island)
  | .coll slot island => decide (slot < 4096) && [12, 13, 14, 15, 16, 17, 18, 19].any (fun p => (portReaches p).contains island)
  | .net _ => true

/-- Whether a unit travels on strait x in a direction: a stream's on the strait to the memory island that owns the granule
(R122), a peripheral island's by its address (R18), a relayed one by its flow's path, towards the relay and on from it (R19). -/
def State.onStrait (s : State) (x : Nat) (toMi : Bool) : UnitOf → Bool
  | .stream ti dpa => decide (ti < 16) && inStacks dpa && x == straitNo ti (miOf dpa) 0
  | .access n dpa => decide (20 ≤ n) && decide (n < 25) && inStacks dpa && x == s.straitFor n dpa
  | .relay f =>
    let n := if toMi then (flowEnds f).1 else (flowEnds f).2
    relayValid f && x == s.liveStrait n (flowPath f).1 (flowPath f).2

/-! ### Units and credits (R15, R17, R20) -/

/-- One direction of a strait. -/
def Strait.dir (y : Strait) (toMi : Bool) : StraitDir := if toMi then y.toMi else y.fromMi

/-- Replace one direction of a strait. -/
def Strait.setDir (y : Strait) (toMi : Bool) (d : StraitDir) : Strait :=
  if toMi then { y with toMi := d } else { y with fromMi := d }

/-- Whether a copy is this unit's, and not yet acknowledged. -/
def StraitCopy.waits (c : StraitCopy) (u : StraitUnit) : Bool := decide (c.unit = u) && !c.here

/-- Change the oldest copy of a unit that is not yet acknowledged. -/
def markCopy (u : StraitUnit) (f : StraitCopy → StraitCopy) : List StraitCopy → List StraitCopy
  | [] => []
  | c :: cs => if c.waits u then f c :: cs else c :: markCopy u f cs

/-- Deliver, in the order sent, the units whose clean copy stands at the receiver (R17): each then occupies its receive slot
until the receiver frees it. -/
def StraitDir.deliver (d : StraitDir) : StraitDir :=
  { d with copies := d.copies.dropWhile StraitCopy.here, held := d.held + (d.copies.takeWhile StraitCopy.here).length }

/-- A unit that reaches the receiver: one not yet among the sender's copies was placed and took a credit; a clean one is
acknowledged, and delivered once those before it are; one with an uncorrectable beat is discarded, and the copy stays for
retransmission. -/
def StraitDir.receive (d : StraitDir) (u : StraitUnit) (bad : Bool) : StraitDir :=
  let d1 : StraitDir :=
    if d.copies.any (fun c => c.waits u) then d else { d with copies := d.copies ++ [⟨u, 0, false⟩], used := d.used + 1 }
  if bad then { d1 with copies := markCopy u (fun c => { c with fails := c.fails + 1 }) d1.copies }
  else StraitDir.deliver { d1 with copies := markCopy u (fun c => { c with here := true, fails := 0 }) d1.copies }

/-- Whether a strait carries units: it is up, and neither end is parked by a reset from which it has not risen (R38). -/
def State.straitOpen (s : State) (x : Nat) : Bool :=
  (s.strait x).up && (s.island (straitEnds x).1).risen && (s.island (straitEnds x).2).risen

/-- STRAIT_UNIT_RECEIVE (R15, R17, R20): on an open strait, the unit's own, that holds a credit or a copy. -/
def State.straitReceive (s : State) (x : Nat) (toMi : Bool) (u : StraitUnit) (cor : Nat) (bad : Bool) : State :=
  let d := (s.strait x).dir toMi
  if s.straitOpen x && s.onStrait x toMi u.org && (d.copies.any (fun c => c.waits u) || decide (d.used < 32)) then
    let t := s.setStrait x (fun z => z.setDir toMi ((z.dir toMi).receive u bad))
    let rx := if toMi then (straitEnds x).2 else (straitEnds x).1
    (t.count (0x2000 + rx) 0x0E cor).bin 4 (32 + rx) cor
  else s

/-- STRAIT_UNIT_RECEIVE. -/
def execStraitUnitReceive (x : Fin 104) (toMi : Bool) (u : StraitUnit) (corrected : Fin 9) (bad : Bool)
    (s : State) : Res :=
  .next (s.straitReceive x.val toMi u corrected.val bad)

/-- STRAIT_CREDIT_RETURN (R15): the receiver freed a slot and its credit reaches the sender. -/
def execStraitCreditReturn (x : Fin 104) (toMi : Bool) (s : State) : Res :=
  let d := (s.strait x.val).dir toMi
  .next (if 0 < d.held ∧ 0 < d.used then
      s.setStrait x.val (fun z => z.setDir toMi { d with held := d.held - 1, used := d.used - 1 }) else s)

/-! ### Units that fail back (R21, R38) -/

/-- The copies of a direction that are not yet acknowledged. -/
def StraitDir.unacked (d : StraitDir) : List StraitUnit := (d.copies.filter (fun c => !c.here)).map StraitCopy.unit

/-- A unit fails back to its engine: a stream engine ends the unit's descriptor with STRAIT (R123), any other engine takes its own
error status, which the output names. -/
def State.failBack (s : State) (x : Nat) (u : StraitUnit) : State :=
  let t := s.emit (.unitFailed x u)
  match u.org with
  | .stream ti dpa => { t with seqs := smod t.seqs ti (fun z => { z with straitFail := dpa / 256 :: z.straitFail }) }
  | _ => t

/-- Every unit of a list fails back. -/
def State.failUnits (s : State) (x : Nat) (us : List StraitUnit) : State := us.foldl (fun t u => t.failBack x u) s

/-- Park the straits of island n at its reset (R38): units that the island has not acknowledged fail back to their senders,
those it sent are dropped, slots empty, and a strait declared down may rise again after the reset. -/
def State.parkStraits (s : State) (n : Nat) : State :=
  (islandStraits n).foldl (fun t e =>
    let back := (t.strait e.2).dir (16 ≤ n && n < 20)
    (t.setStrait e.2 (fun y => { up := y.up, down := false, toMi := default, fromMi := default })).failUnits e.2 back.unacked) s

/-- Declare strait x down (R21): its bits clear at both ends, every unit not acknowledged fails back, and the operator gets
STRAIT_DOWN; a fault during a switch is recorded (R34, Table 15-5). -/
def State.straitDead (s : State) (x : Nat) : State :=
  let ends := straitEnds x
  let y := s.strait x
  let t := ((s.setStrait x (fun _ => { (default : Strait) with down := true })).failUnits x
    (y.toMi.unacked ++ y.fromMi.unacked)).event .operator 0x0103 ends.1 (straitBit ends.1 x) ends.2
  if t.mod.svc = .switching then { t with mod := { t.mod with swFault := true } } else t

/-- Whether the island at the far end of a dead strait leaves service (R22): a tensor island needs all its straits, a
peripheral island one of each pair. -/
def State.mustLeave (s : State) (x : Nat) : Bool :=
  decide (x < 64) || !(s.strait (if (x - 64) / 4 % 2 = 0 then x + 4 else x - 4)).up

end Sys2Proof.Machine
end

