-- ==== Sys2Proof/Machine/Engines.lean ====
section
/-!
DEFINITION. What coprocessor operations do when they complete: matrix cores, vector engines,
special-function unit, stream engine and cipher engine, with the statuses of Table 4-8 and Table 15-10
(R107, R110–R126, R150–R153, R471, R472).
-/
namespace Sys2Proof.Machine

/-! ### Completion (R126, R153, R156, R159) -/

/-- A COPERR-class failure: held, then taken between instructions; while `HALT` waits it becomes the
kernel's status (R159). -/
def State.copErr (s : State) (q : Nat) (e : CopErr) : State :=
  let z := s.seqr q
  match z.run with
  | .ending => s.setSeqr q (fun y => { y with endCop := if y.endCop = 0 then e.status else y.endCop })
  | _ =>
    if z.held.isSome then s.setSeqr q (fun y => { y with operr := operrAdd y.operr e.status e.engine })
    else (s.setSeqr q (fun y => { y with held := some e })).takeHeld q

/-- An operation ends with a status. `traps`: whether statuses 1–5 raise COPERR (R153). -/
def State.copDone (s : State) (q : Nat) (o : CopOp) (status : Nat) (traps : Bool) : State :=
  let t := s.setSeqr q (fun z => { z with ops := z.ops.filter (fun e => e.num != o.num) })
  if status = 0 then (t.setSeqr q (fun z => z.clearMarks (o.kind.fills q))).wordsGood q (o.kind.fills q)
  else
    let u := if isTi q then t.count (0x2000 + q) 0x16 1 else t
    let v := if 6 ≤ status && status ≤ 9 then u.setSeqr q (fun z => z.mark (o.kind.writes q)) else u
    if traps && status ≤ 5 then v.copErr q ⟨status, o.engine, o.num⟩
    else v.setSeqr q (fun z => { z with operr := operrAdd z.operr status o.engine })

/-- The started operation of a number, where `p` holds of what it does. -/
def State.startedOp (s : State) (q num : Nat) (p : CopKind → Bool) : Option CopOp :=
  (s.seqr q).ops.find? (fun o => o.num == num && o.started && p o.kind)

/-- The words that an operation meets among the ranges it reads, and the cycles lost in arbitration. -/
def State.meetWords (s : State) (q : Nat) (rs : List (Nat × Nat)) (met : Met) : State :=
  let t := met.words.foldl (fun u w =>
    if rs.any (fun r => decide (r.1 ≤ w.1 * 32) && decide (w.1 * 32 < r.1 + r.2)) then
      u.meetWord (localBase q + w.1 * 32) w.2 else u) s
  if isTi q then t.count (0x2000 + q) 0x12 met.lost else t

/-- Status of the ranges that an operation reads: SRCERR at a marked one, SPERR at an uncorrectable word
(R107, R126). DESIGN CHOICE (log entry 51): SRCERR is given where both apply. -/
def State.srcStatus (s : State) (q : Nat) (rs : List (Nat × Nat)) : State × Nat :=
  let z := s.seqr q
  if rs.any z.marked then (s, 0x09)
  else if rs.any (fun r => s.sramBad (localBase q + r.1) r.2) then (s.countSp (localBase q), 0x08)
  else (s, 0)

/-! ### Tiles -/

/-- Block (r, g) of a tile (R109). -/
def State.tileBlk (s : State) (q td r g : Nat) : Blk :=
  let b := g * tdRows td + r
  let a := localBase q
  .ofBytes (tdElem td) (s.bytes (a + tdBase td + b * tdElBytes td) (tdElBytes td))
    (s.bytes (a + tdHbase td + b * tdHdrBytes td) (tdHdrBytes td))

/-- Store block (r, g) of a tile. -/
def State.putBlk (s : State) (q td r g : Nat) (k : Blk) : State :=
  let b := g * tdRows td + r
  let a := localBase q
  (s.sramStore (a + tdBase td + b * tdElBytes td) (k.elBytes (tdElem td))).sramStore
    (a + tdHbase td + b * tdHdrBytes td) (k.hdrBytes (tdScale td) (tdPacked td))

/-- The values of row r of a tile. -/
def State.tileRow (s : State) (q td r : Nat) : List Val :=
  (List.range (tdCols td / 32)).flatMap (fun g =>
    (s.tileBlk q td r g).vals (tdElem td) (tdScale td) (tdPacked td))

/-- Whether the geometry fields of a descriptor lie in the ranges of Table 4-3. -/
def tdShape (d : Nat) : Bool :=
  if tdLinear d then tdSize d % 256 == 0
  else decide (tdRows d ≤ 256) && decide (32 ≤ tdCols d) && decide (tdCols d ≤ 256) && tdCols d % 32 == 0

/-- Whether a plane offset has its low bits zero (Table 4-3). -/
def tdAligned (d : Nat) : Bool := tdBase d % 256 == 0 && (tdScale d == 0 || tdHbase d % 256 == 0)

/-- The first status of a list of checks: each a condition that fails and its code. -/
def firstStatus : List (Bool × Nat) → Nat
  | [] => 0
  | (b, c) :: l => if b then c else firstStatus l

/-- Whether the planes of a tile lie in the window (R110, R142). -/
def Seqr.tdInWindow (z : Seqr) (q d : Nat) : Bool := (tdRanges d).all (z.rangeOk q)

/-! ### Matrix cores (R111–R116) -/

/-- Whether a tile holds plain integers. -/
def plainInt (d : Nat) : Bool := isInt (tdElem d) && tdScale d == 0

/-- Whether an operand pair is one that R112 refuses. -/
def mmaFmtBad (a b : Nat) : Bool :=
  !(fmtValid (tdElem a) (tdScale a)) || !(fmtValid (tdElem b) (tdScale b)) || tdElem a == 9 || tdElem b == 9 ||
    (plainInt a != plainInt b)

/-- The sum of the products of two rows in ascending k among those with k mod F = f, added one by one to
an FP32 accumulator; a product with a zero factor is not added (R115). -/
def dotBand (F f : Nat) : Nat → Nat → List Val → List Val → Nat
  | acc, k, x :: xs, y :: ys =>
    let acc' := if k % F = f && !x.isZero && !y.isZero then to32 ((elemVal 9 acc).add (x.mul y)) else acc
    dotBand F f acc' (k + 1) xs ys
  | acc, _, _, _ => acc

/-- One FP32 accumulator after an operation (R115). -/
def mmaCell (F start : Nat) (xs ys : List Val) : Nat :=
  if F = 1 then dotBand 1 0 start 0 xs ys
  else add32 start (canon32 ((List.range F).map (fun f => dotBand F f 0 0 xs ys)))

/-- The integer of an exact integral value. -/
def Val.toInt : Val → Int
  | .fin s n d => if s then -((n / d : Nat) : Int) else ((n / d : Nat) : Int)
  | _ => 0

/-- One integer accumulator after an operation: exact, modulo 2^64 (R93). -/
def mmaCellInt (start : Nat) (xs ys : List Val) : Nat :=
  unsigned 64 (signed 64 start + ((xs.zip ys).map (fun p => p.1.toInt * p.2.toInt)).sum)

/-- The status of an MMA before it reads its tiles. DESIGN CHOICE (log entry 51): where several apply, an unset descriptor comes
first, then FMT, GEOM, TDBAD by the window, ALIGN; a shape outside the ranges of Table 4-3 is a GEOM. -/
def State.mmaStatus (s : State) (q core plane fold : Nat) (clr : Bool) (a b : Nat) : Nat :=
  let z := s.seqr q
  let p := sget z.planes (core * 2 + plane)
  firstStatus [
    (tdRows a == 0 || tdRows b == 0, 0x03),
    (mmaFmtBad a b, 0x01),
    (decide (12 ≤ core) || decide (6 ≤ fold) || tdLinear a || tdLinear b || !(tdShape a) || !(tdShape b) ||
      tdCols a != tdCols b || decide (256 < tdRows a * 2 ^ fold) ||
      (!clr && (!p.set || p.m != tdRows a || p.n != tdRows b)), 0x02),
    (!(z.tdInWindow q a) || !(z.tdInWindow q b), 0x03),
    (!(tdAligned a) || !(tdAligned b), 0x04)]

/-- The accumulator from which an operation starts. -/
def Plane.start (p : Plane) (clr int : Bool) (i j : Nat) : Nat :=
  let v := look 0 p.acc (i * 256 + j)
  if clr then 0 else if p.int = int then v else if v = 0 then 0 else Config.planeMix v % 2 ^ (if int then 64 else 32)

/-- The plane after an MMA. -/
def State.mmaPlane (s : State) (q core plane fold : Nat) (clr : Bool) (a b : Nat) : Plane :=
  let p := sget (s.seqr q).planes (core * 2 + plane)
  let int := plainInt a
  let bs := (List.range (tdRows b)).map (s.tileRow q b)
  let acc := (List.range (tdRows a)).foldl (fun m i =>
    let xs := s.tileRow q a i
    (List.range (tdRows b)).foldl (fun m' j =>
      let ys := bs.getD j []
      let v0 := p.start clr int i j
      put 0 m' (i * 256 + j) (if int then mmaCellInt v0 xs ys else mmaCell (2 ^ fold) v0 xs ys)) m) []
  { set := true, m := tdRows a, n := tdRows b, int := int, acc := acc }

/-- Set a plane. -/
def State.setPlane (s : State) (q core plane : Nat) (p : Plane) : State :=
  s.setSeqr q (fun z => { z with planes := sput z.planes (core * 2 + plane) p })

/-- The status of an MDRAIN (R112, R116), in the order of `mmaStatus` (log entry 51). -/
def State.drainStatus (s : State) (q core plane tc : Nat) : Nat :=
  let z := s.seqr q
  let p := sget z.planes (core * 2 + plane)
  firstStatus [
    (tdRows tc == 0, 0x03),
    (!(fmtValid (tdElem tc) (tdScale tc)), 0x01),
    (decide (12 ≤ core) || tdLinear tc || !(tdShape tc) || tdRows tc != p.m || tdCols tc != p.n, 0x02),
    (!(z.tdInWindow q tc), 0x03),
    (!(tdAligned tc), 0x04)]

/-- The value of an accumulator. -/
def Plane.val (p : Plane) (i j : Nat) : Val :=
  let v := look 0 p.acc (i * 256 + j)
  if p.int then .fin (decide (signed 64 v < 0)) (signed 64 v).natAbs 1 else elemVal 9 v

/-- The rounding that a kernel's `NCTL` and `SEED` give, for a tensor and an index. -/
def rndOf (nctl seed tid idx : Nat) : Rnd := ⟨nctl % 4, bit nctl 2, seed, tid, idx⟩

/-- Write a plane to its tile (R116). -/
def State.drain (s : State) (q core plane tc tid idx nctl seed : Nat) : State :=
  let p := sget (s.seqr q).planes (core * 2 + plane)
  (List.range (tdRows tc)).foldl (fun t i =>
    (List.range (tdCols tc / 32)).foldl (fun u g =>
      let vs := (List.range 32).map (fun c => p.val i (g * 32 + c))
      let r := rndOf nctl seed tid (idx + i * 256 + g * 32)
      let e := encodeBlk (tdElem tc) (tdScale tc) (tdPacked tc) r vs
      (u.putBlk q tc i g e.1).setSeqr q (fun z => z.flag e.2)) t) s

/-- MATRIX_OP_COMPLETE (R115, R116). -/
def State.matrixDone (s : State) (q : Nat) (o : CopOp) (met : Met) : State :=
  let t := s.meetWords q (o.kind.reads q) met
  match o.kind with
  | .mma core plane fold clr a b =>
    let st := t.mmaStatus q core plane fold clr a b
    if st ≠ 0 then t.copDone q o st true
    else
      match t.srcStatus q (o.kind.reads q) with
      | (u, 0) =>
        let k := tdCols a / 2 ^ fold
        (((u.setPlane q core plane (u.mmaPlane q core plane fold clr a b)).count (0x2000 + q) 0x13 k).use
          (u.seqr q).slice 1 k).copDone q o 0 true
      | (u, st) => u.copDone q o st true
  | .mdrain core plane tc tid idx =>
    let st := t.drainStatus q core plane tc
    if st ≠ 0 then t.copDone q o st true
    else (t.drain q core plane tc tid idx o.nctl o.seed).copDone q o 0 true
  | .mzero core plane =>
    if 12 ≤ core then t.copDone q o 0x02 true
    else
      let p := sget (t.seqr q).planes (core * 2 + plane)
      (t.setPlane q core plane { p with acc := [], int := false }).copDone q o 0 true
  | _ => s

/-- MATRIX_OP_COMPLETE. -/
def execMatrixOpComplete (q : Fin 49) (num : Nat) (met : Met) (s : State) : Res :=
  .next (match s.startedOp q.val num (fun k => k.plane.isSome) with
    | some o => s.matrixDone q.val o met
    | none => s)

/-! ### Vector engines (R117, R149–R151) -/

/-- Lane l of a vector register. -/
def Seqr.lane (z : Seqr) (ve v l : Nat) : Nat := look 0 z.vregs (ve * 4096 + v * 128 + l)

/-- All lanes of a vector register. -/
def Seqr.vreg (z : Seqr) (q ve v : Nat) : List Nat := (List.range (lanesOf q)).map (z.lane ve v)

/-- Write the lanes of a vector register. -/
def Seqr.setVreg (z : Seqr) (ve v : Nat) (ls : List Nat) : Seqr :=
  { z with vregs := ((List.range ls.length).zip ls).foldl (fun m p =>
      put 0 m (ve * 4096 + v * 128 + p.1) (p.2 % 2 ^ 32)) z.vregs }

/-- A lane-wise operation of `VOP` (R149). -/
def vopLane (f a b : Nat) : Nat :=
  match f with
  | 0 => add32 a b
  | 1 => sub32 a b
  | 2 => mul32 a b
  | 3 => minmax32 false a b
  | 4 => minmax32 true a b
  | 5 => (a + b) % 2 ^ 32
  | 6 => (a + 2 ^ 32 - b) % 2 ^ 32
  | 7 => a * b % 2 ^ 32
  | 8 => a &&& b
  | 9 => a ||| b
  | 10 => a ^^^ b
  | 11 => a * 2 ^ (b % 32) % 2 ^ 32
  | 12 => a / 2 ^ (b % 32)
  | _ => if (elemVal 9 a).lt (elemVal 9 b) then 2 ^ 32 - 1 else 0

/-- `VOP` over whole registers: the cross-lane sum uses the tree of R97 (R117). -/
def vopAll (f : Nat) (as bs : List Nat) : List Nat :=
  if f = 13 then List.replicate as.length (canon32 as)
  else if f = 14 then List.replicate as.length (as.tail.foldl (minmax32 true) (as.headD 0))
  else as.zipWith (vopLane f) bs

/-- Status of a vector access to local ranges. -/
def Seqr.vecStatus (z : Seqr) (q : Nat) (rs : List (Nat × Nat)) : Nat := if rs.all (z.rangeOk q) then 0 else 0x03

/-- Status of a conversion's format word (R74, R151). -/
def vcFmtStatus (hdr : Nat) : Nat := if fmtValid (bits hdr 59 56) (bits hdr 61 60) then 0 else 0x01

/-- The rounding of a conversion: `RM` overrides `RMODE` (R151). -/
def rndVc (nctl seed idx rm : Nat) : Rnd :=
  let r := rndOf nctl seed (bits idx 63 48) (bits idx 47 0)
  match rm with
  | 1 => { r with mode := 0 }
  | 2 => { r with mode := 1 }
  | 3 => { r with mode := 2 }
  | _ => r

/-- VLDC: the values of the blocks as FP32 lanes (R151). -/
def State.decodeLanes (s : State) (q off hdr : Nat) (r : Rnd) : List Nat × Nat :=
  let e := bits hdr 59 56
  let sc := bits hdr 61 60
  let pk := bit hdr 62
  let a := localBase q
  let eb := 4 * elemWidth e
  let hb := hdrBytes sc pk
  convertAll 9 r ((List.range (lanesOf q / 32)).flatMap (fun b =>
    (Blk.ofBytes e (s.bytes (a + off + b * eb) eb) (s.bytes (a + bits hdr 25 0 + b * hb) hb)).vals e sc pk))

/-- VSTC: FP32 lanes encoded into blocks (R151). -/
def State.encodeLanes (s : State) (q off hdr : Nat) (r : Rnd) (ls : List Nat) : State × Nat :=
  let e := bits hdr 59 56
  let sc := bits hdr 61 60
  let pk := bit hdr 62
  let a := localBase q
  let eb := 4 * elemWidth e
  let hb := hdrBytes sc pk
  (List.range (lanesOf q / 32)).foldl (fun t b =>
    let vs := ((ls.drop (32 * b)).take 32).map (elemVal 9)
    let k := encodeBlk e sc pk { r with idx := r.idx + 32 * b } vs
    ((t.1.sramStore (a + off + b * eb) (k.1.elBytes e)).sramStore (a + bits hdr 25 0 + b * hb)
      (k.1.hdrBytes sc pk), t.2 ||| k.2)) (s, 0)

/-- What a vector operation does to the state, and its status. -/
def State.vectorRun (s : State) (q : Nat) (o : CopOp) : State × Nat :=
  let z := s.seqr q
  match o.kind with
  | .vop f ve vd va vb => (s.setSeqr q (fun y => y.setVreg ve vd (vopAll f (y.vreg q ve va) (y.vreg q ve vb))), 0)
  | .vfma ve vd va vb => (s.setSeqr q (fun y => y.setVreg ve vd ((List.range (lanesOf q)).map (fun l =>
      fma32 (y.lane ve va l) (y.lane ve vb l) (y.lane ve vd l)))), 0)
  | .vbcast ve vd v => (s.setSeqr q (fun y => y.setVreg ve vd (List.replicate (lanesOf q) v)), 0)
  | .vmovg ve vd ga => (s.setSeqr q (fun y => y.setGpr ga (BitVec.ofNat 64 (y.lane ve vd 0))), 0)
  | .vld ve vd off =>
    if z.vecStatus q (o.kind.reads q) ≠ 0 then (s, 0x03)
    else match s.srcStatus q (o.kind.reads q) with
      | (t, 0) => (t.setSeqr q (fun y => y.setVreg ve vd
          (unpackCodes 32 (lanesOf q) (t.bytes (localBase q + off) (4 * lanesOf q)))), 0)
      | r => r
  | .vst ve vd off =>
    if z.vecStatus q (o.kind.writes q) ≠ 0 then (s, 0x03)
    else (s.sramStore (localBase q + off) (packCodes 32 (z.vreg q ve vd)), 0)
  | .vldc ve vd off hdr idx rm =>
    let st := firstStatus [(vcFmtStatus hdr != 0, 0x01), (z.vecStatus q (o.kind.reads q) != 0, 0x03)]
    if st ≠ 0 then (s, st)
    else match s.srcStatus q (o.kind.reads q) with
      | (t, 0) =>
        let r := t.decodeLanes q off hdr (rndVc o.nctl o.seed idx rm)
        (t.setSeqr q (fun y => (y.setVreg ve vd r.1).flag r.2), 0)
      | r => r
  | .vstc ve vd off hdr idx rm =>
    let st := firstStatus [(vcFmtStatus hdr != 0, 0x01), (z.vecStatus q (o.kind.writes q) != 0, 0x03)]
    if st ≠ 0 then (s, st)
    else
      let r := s.encodeLanes q off hdr (rndVc o.nctl o.seed idx rm) (z.vreg q ve vd)
      (r.1.setSeqr q (fun y => y.flag r.2), 0)
  | _ => (s, 0)

/-- Whether an operation is one of a vector engine itself. -/
def CopKind.isVector : CopKind → Bool
  | .vop .. => true
  | .vfma .. => true
  | .vld .. => true
  | .vst .. => true
  | .vldc .. => true
  | .vstc .. => true
  | .vbcast .. => true
  | .vmovg .. => true
  | _ => false

/-- VECTOR_OP_COMPLETE (R117). -/
def execVectorOpComplete (q : Fin 49) (num : Nat) (met : Met) (s : State) : Res :=
  .next (match s.startedOp q.val num CopKind.isVector with
    | some o =>
      let r := (s.meetWords q.val (o.kind.reads q.val) met).vectorRun q.val o
      r.1.copDone q.val o r.2 true
    | none => s)

/-- SFU_RESULT (R118): the lanes of the special function return to the issuing engine's register. -/
def execSfuResult (q : Fin 49) (num : Nat) (s : State) : Res :=
  .next (match s.startedOp q.val num (fun k => match k with | .sfu .. => true | _ => false) with
    | some o =>
      match o.kind with
      | .sfu f ve vd va =>
        (s.setSeqr q.val (fun z => z.setVreg ve vd ((z.vreg q.val ve va).map (sfu f)))).copDone q.val o 0 true
      | _ => s
    | none => s)

/-! ### Stream engine (R119–R123) -/

/-- The memory rows that a descriptor names: address and bytes. -/
def sdRows (d : List Byte) : List (Nat × Nat) :=
  (List.range (sdCnt d)).map (fun r => (sdVaddr d + r * sdStride d, sdLen d))

/-- Bytes of one row of the memory header plane. -/
def sdHlen (d : List Byte) (td : Nat) : Nat := sdCols d td / 32 * hdrBytes (bits (sdFmt d) 5 4) (bit (sdFmt d) 6)

/-- The pieces of the memory header plane. -/
def sdHrows (d : List Byte) (td n : Nat) : List (Nat × Nat) :=
  if sdHasHdr d td then (List.range n).map (fun r => (sdHaddr d + r * sdHstride d, sdHlen d td)) else []

/-- The status of a stream descriptor before any access; reserved fields are not looked at (R7). DESIGN CHOICE (log entry 51): in
the order of `mmaStatus`, with XLATE last; `HADDR`, which is ignored where there is no header plane, is checked where there is. -/
def State.streamStatus (s : State) (q : Nat) (d : List Byte) (td : Nat) : Nat :=
  let z := s.seqr q
  let f := sdFmt d
  firstStatus [
    (decide (1 < fieldAt d 0 1), 0x01),
    (tdRows td == 0, 0x03),
    (!(fmtValid (bits f 3 0) (bits f 5 4)) || !(fmtValid (tdElem td) (tdScale td)) ||
      (!(tdLinear td) && bits f 3 0 != tdElem td), 0x01),
    (!(tdShape td), 0x02),
    (!(z.tdInWindow q td), 0x03),
    (!(tdAligned td) || sdVaddr d % 64 != 0 || sdLen d % 64 != 0 || sdStride d % 64 != 0 || sdHstride d % 64 != 0 ||
      (sdHasHdr d td && sdHaddr d % 64 != 0), 0x04),
    (!((sdRows d ++ sdHrows d td (sdCnt d)).all (fun p =>
      s.mapped z.slice (sdPasid d) p.1 p.2 (fieldAt d 0 1 == 1))), 0x05)]

/-! ### Units of a transfer (R122, R123) -/

/-- A piece of slice memory cut into units, which never cross a granule: address and length. DESIGN CHOICE (log entry 51): the
cuts lie at multiples of 256 bytes. -/
def unitsOf (p : Nat × Nat) : List (Nat × Nat) :=
  if p.2 = 0 then []
  else (List.range ((p.1 + p.2 - 1) / 256 - p.1 / 256 + 1)).map (fun i =>
    let a := max p.1 ((p.1 / 256 + i) * 256)
    (a, min (p.1 + p.2) ((p.1 / 256 + i) * 256 + 256) - a))

/-- The units that a descriptor moves. -/
def sdUnits (d : List Byte) (td : Nat) : List (Nat × Nat) :=
  let n := sdMoved d td
  ((List.range n).map (fun r => (sdVaddr d + r * sdStride d, sdRowLen d td r)) ++ sdHrows d td n).flatMap unitsOf

/-- The DPA of a unit of a descriptor. -/
def State.unitDpa (s : State) (q : Nat) (d : List Byte) (va : Nat) : Option Nat :=
  s.xlate (s.seqr q).slice (sdPasid d) va false

/-- Whether a unit failed back: its strait, to the memory island that owns the granule, is down or has failed it (R21, R123). -/
def State.unitFailed (s : State) (q : Nat) (d : List Byte) (va : Nat) : Bool :=
  match s.unitDpa q d va with
  | some a => (s.seqr q).straitFail.contains (a / 256) || (s.strait (straitNo q (miOf a) 0)).down
  | none => false

/-- The bad sectors that reads of units meet. -/
def State.unitBad (s : State) (q : Nat) (d : List Byte) (u : Nat × Nat) : List Nat :=
  match s.unitDpa q d u.1 with
  | some a => (sectorsOf a u.2).filter s.badSector
  | none => []

/-- The bytes at a slice virtual address, none of them in a bad sector. -/
def State.vpeek (s : State) (sl pasid va n : Nat) : List Byte :=
  (pieces (pieceFuel n) va n).flatMap (fun p =>
    match s.xlate sl pasid p.1 false with
    | some a => s.bytes a p.2
    | none => [])

/-- Whether every part of a piece arrived, where `ok` says so of each part within a unit. -/
def arrived (ok : Nat × Nat → Bool) (p : Nat × Nat) : Bool := (unitsOf p).all ok

/-- Move one row of a LOAD into the tile: of a LINEAR tile the units that arrived, of a MATRIX tile the blocks whose units did. -/
def State.loadRow (s : State) (q : Nat) (o : CopOp) (d : List Byte) (td : Nat) (ok : Nat × Nat → Bool) (r : Nat) : State :=
  let sl := (s.seqr q).slice
  let f := sdFmt d
  let va := sdVaddr d + r * sdStride d
  if tdLinear td then
    ((unitsOf (va, sdRowLen d td r)).filter ok).foldl (fun t u =>
      t.sramStore (localBase q + tdBase td + r * sdLen d + (u.1 - va)) (t.vpeek sl (sdPasid d) u.1 u.2)) s
  else
    let hb := hdrBytes (bits f 5 4) (bit f 6)
    let ha := sdHaddr d + r * sdHstride d
    let e := tdElem td
    (List.range (sdCols d td / 32)).foldl (fun t g =>
      let el := (va + g * tdElBytes td, tdElBytes td)
      let hd := (ha + g * hb, if sdHasHdr d td then hb else 0)
      if arrived ok el && arrived ok hd then
        let b := Blk.ofBytes e (t.vpeek sl (sdPasid d) el.1 el.2) (t.vpeek sl (sdPasid d) hd.1 hd.2)
        let k := reform e (bits f 5 4) (bit f 6) (tdScale td) (tdPacked td)
          (rndOf o.nctl o.seed (sdTid d) (sdIdx d + r * sdCols d td + 32 * g)) b
        (t.putBlk q td r g k.1).setSeqr q (fun z => z.flag k.2)
      else t) s

/-- Write the units of a piece of slice memory that arrive; false where a sector of one fails. -/
def State.storePiece (s : State) (sl pasid : Nat) (ok : Nat × Nat → Bool) (va : Nat) (bs : List Byte) : State × Bool :=
  ((unitsOf (va, bs.length)).filter ok).foldl (fun t u =>
    let w := t.1.vwrite sl pasid u.1 ((bs.drop (u.1 - va)).take u.2)
    (w.1, t.2 && w.2 == .ok [])) (s, true)

/-- Move one row of a STORE out of the tile. -/
def State.storeRow (s : State) (q : Nat) (o : CopOp) (d : List Byte) (td : Nat) (ok : Nat × Nat → Bool) (r : Nat) : State × Bool :=
  let sl := (s.seqr q).slice
  let f := sdFmt d
  let va := sdVaddr d + r * sdStride d
  if tdLinear td then
    s.storePiece sl (sdPasid d) ok va (s.bytes (localBase q + tdBase td + r * sdLen d) (sdRowLen d td r))
  else
    let e := tdElem td
    let ks := (List.range (sdCols d td / 32)).map (fun g =>
      reform e (tdScale td) (tdPacked td) (bits f 5 4) (bit f 6)
        (rndOf o.nctl o.seed (sdTid d) (sdIdx d + r * sdCols d td + 32 * g)) (s.tileBlk q td r g))
    let t := s.setSeqr q (fun z => z.flag (ks.foldl (fun a k => a ||| k.2) 0))
    let w := t.storePiece sl (sdPasid d) ok va (ks.flatMap (fun k => k.1.elBytes e))
    let x := if sdHasHdr d td then w.1.storePiece sl (sdPasid d) ok (sdHaddr d + r * sdHstride d)
        (ks.flatMap (fun k => k.1.hdrBytes (bits f 5 4) (bit f 6))) else (w.1, true)
    (x.1, w.2 && x.2)

/-- Count the bytes that a stream moved, in units of 256, for the island and for the slice (Tables 4-9, 18-1). -/
def State.countStream (s : State) (q : Nat) (store : Bool) (n : Nat) : State :=
  let i := s.island q
  let tot := (if store then i.outRem else i.inRem) + n
  ((s.setIsland q (fun x => if store then { x with outRem := tot % 256 } else { x with inRem := tot % 256 })).count
    (0x2000 + q) (if store then 0x15 else 0x14) (tot / 256)).use (s.seqr q).slice (if store then 3 else 2) (tot / 256)

/-- What the code finds at sectors of the transfer. -/
def State.meetSectors (s : State) (sl pasid va : Nat) (met : Met) : State :=
  met.sectors.foldl (fun t x =>
    match t.xlate sl pasid (va + x.1) false with
    | some a => t.sectorRead a met.ch.val x.2
    | none => t) s

/-- The effect of a stream descriptor and its status (R119–R123). A transfer that fails leaves what its landed units moved. -/
def State.streamRun (s : State) (q : Nat) (o : CopOp) (d : List Byte) (td : Nat) (met : Met) : State × Nat :=
  let st := s.streamStatus q d td
  let store := fieldAt d 0 1 == 1
  if st ≠ 0 then (s, st)
  else
    let t := if store then s else s.meetSectors (s.seqr q).slice (sdPasid d) (sdVaddr d) met
    let src := if store then t.srcStatus q (o.kind.reads q) else (t, 0)
    if src.2 ≠ 0 then src
    else
      let us := sdUnits d td
      let bad := if store then [] else us.flatMap (src.1.unitBad q d)
      let st := if us.any (fun u => src.1.unitFailed q d u.1) then 0x07 else if bad ≠ [] then 0x06 else 0
      let ok (u : Nat × Nat) : Bool := st == 0 ||
        (met.landed.contains (u.1 / 256) && !(src.1.unitFailed q d u.1) && (store || (src.1.unitBad q d u).isEmpty))
      let t := bad.foldl State.countUe src.1
      let m := (List.range (sdMoved d td)).foldl (fun (w : State × Bool) r =>
        if store then (let x := w.1.storeRow q o d td ok r; (x.1, w.2 && x.2))
        else (w.1.loadRow q o d td ok r, w.2)) (t, true)
      (m.1.countStream q store ((us.filter ok).map Prod.snd).sum, if st ≠ 0 then st else if m.2 then 0 else 0x06)

/-- The units of a descriptor that has ended are no longer failed ones. -/
def State.forgetUnits (s : State) (q : Nat) (d : List Byte) (td : Nat) : State :=
  if (s.seqr q).straitFail.isEmpty then s
  else
    let ds := (sdUnits d td).filterMap (fun u => (s.unitDpa q d u.1).map (fun a => a / 256))
    s.setSeqr q (fun z => { z with straitFail := z.straitFail.filter (fun l => !(ds.contains l)) })

/-- A write of the staging DMA into the kernel region or into slice memory. -/
def State.dmaWrite (s : State) (q : Nat) (w : DmaWrite) : State :=
  let z := s.seqr q
  if w.slice then (s.vwrite z.slice z.pasid w.addr w.bytes).1
  else if w.addr + w.bytes.length ≤ 0x40000 then s.sramStore (localBase q + w.addr) w.bytes
  else s

/-- STREAM_DESC_COMPLETE (R123): an operation with `EVENT` counts a completion event (R119). -/
def State.streamDone (s : State) (q : Nat) (o : CopOp) (met : Met) (dma : List DmaWrite) (status : Nat) : State :=
  match o.kind with
  | .stream d td =>
    let t := s.meetWords q (o.kind.reads q) met
    let r := if o.pre ≠ 0 then (t, o.pre) else t.streamRun q o d td met
    let u := if sdEvent d && o.pre == 0 then r.1.setSeqr q (fun z => { z with evcount := (z.evcount + 1) % 2 ^ 64 })
      else r.1
    (u.forgetUnits q d td).copDone q o r.2 true
  | .dma _ =>
    if o.pre ≠ 0 then s.copDone q o o.pre true
    else (dma.foldl (fun t w => t.dmaWrite q w) s).copDone q o status true
  | _ => s

/-- STREAM_DESC_COMPLETE. -/
def execStreamDescComplete (q : Fin 49) (num : Nat) (met : Met) (dma : List DmaWrite) (status : BitVec 8)
    (s : State) : Res :=
  .next (match s.startedOp q.val num (fun k => match k with | .stream .. => true | .dma _ => true | _ => false) with
    | some o => s.streamDone q.val o met dma status.toNat
    | none => s)

/-! ### Cipher engine (R471, R472) -/

/-- Whether a slot still holds the key that an operation captured at issue. -/
def sameKey (now cap : KeySlot) : Bool := now.st != .empty && now.key == cap.key && now.fixed == cap.fixed

/-- The slot under which an operation runs: as it stands where it still holds the key captured at issue,
else as it was captured (R466). -/
def State.opSlot (s : State) (kslot : Nat) (cap : KeySlot) : KeySlot :=
  if sameKey (s.kslot kslot) cap then s.kslot kslot else cap

/-- Count an invocation of an operation where its slot still holds its key. -/
def State.opInvoke (s : State) (sl kslot : Nat) (cap : KeySlot) : State :=
  if sameKey (s.kslot kslot) cap then s.invoke sl kslot else s

/-- The status of a key slot for an operation of the kernel's slice (Table 15-10). -/
def State.slotStatus (s : State) (q kslot : Nat) (k : KeySlot) : Nat :=
  let x := s.slice (s.seqr q).slice
  if isTi q && !(decide (x.keyBase ≤ kslot) && decide (kslot < x.keyBase + x.quota.keySlots)) then 0x20
  else match k.st with
    | .active => 0
    | .exhausted => 0x21
    | _ => 0x20

/-- The range check of a cipher or digest operation (CI_RANGE). -/
def State.ciRange (s : State) (q : Nat) (o : CopOp) (d : List Byte) (gcm : Bool) : Bool :=
  o.pre != 0 || decide (4194304 < cdLen d) || (gcm && decide (4096 < cdAadLen d)) || decide (1 < cdFlags d) ||
    (d.drop 24).any (· != 0) || (!gcm && (cdAad d != 0 || cdAadLen d != 0)) ||
    (!(isMgmt q) && !((o.kind.reads q ++ o.kind.writes q).all ((s.seqr q).rangeOk q)))

/-- The key of a slot as bytes. -/
def KeySlot.keyBytes (k : KeySlot) : List Byte := leBytes 32 k.key

/-- The effect of a cipher or digest operation and its status. -/
def State.cipherRun (s : State) (q : Nat) (o : CopOp) : State × Nat :=
  let a := localBase q
  let sl := (s.seqr q).slice
  match o.kind with
  | .cipher dec ks d cap =>
    let k := s.opSlot ks cap
    if s.ciRange q o d true then (s, 0x23)
    else if s.slotStatus q ks k ≠ 0 then (s, s.slotStatus q ks k)
    else
      match s.srcStatus q (o.kind.reads q) with
      | (t, 0) =>
        let aad := t.bytes (a + cdAad d) (cdAadLen d)
        if dec then
          let ctr := beNat (t.bytes (a + cdSrc d) 8)
          let iv := slotNonce k.fixed (bit (cdFlags d) 0) ctr
          let ct := t.bytes (a + cdSrc d + 8) (cdLen d)
          match gcmOpen k.keyBytes iv aad ct (t.bytes (a + cdSrc d + 8 + cdLen d) 16) with
          | some pt => ((t.sramStore (a + cdDst d) pt).opInvoke sl ks cap, 0)
          | none => (t, 0x22)
        else
          let iv := slotNonce k.fixed (bit (cdFlags d) 0) k.inv
          let ct := gcmCrypt k.keyBytes iv (t.bytes (a + cdSrc d) (cdLen d))
          ((t.sramStore (a + cdDst d) (beBytes 8 k.inv ++ ct ++ gcmTag k.keyBytes iv aad ct)).opInvoke sl ks cap, 0)
      | r => r
  | .digest hm ks d cap =>
    let k := s.opSlot ks cap
    if s.ciRange q o d false then (s, 0x23)
    else if !hm && ks != 0 then (s, 0x20)
    else if hm && s.slotStatus q ks k != 0 then (s, s.slotStatus q ks k)
    else
      match s.srcStatus q (o.kind.reads q) with
      | (t, 0) =>
        let msg := t.bytes (a + cdSrc d) (cdLen d)
        if hm then ((t.sramStore (a + cdDst d) (hmac384 k.keyBytes msg)).opInvoke sl ks cap, 0)
        else (t.sramStore (a + cdDst d) (sha384 msg), 0)
      | r => r
  | _ => (s, 0)

/-- CIPHER_OP_COMPLETE (R472): none of its statuses traps. -/
def execCipherOpComplete (q : Fin 49) (num : Nat) (met : Met) (s : State) : Res :=
  .next (match s.startedOp q.val num (fun k => match k with | .cipher .. => true | .digest .. => true | _ => false) with
    | some o =>
      let r := (s.meetWords q.val (o.kind.reads q.val) met).cipherRun q.val o
      r.1.copDone q.val o r.2 false
    | none => s)

end Sys2Proof.Machine
end

