-- ==== Sys2Proof/Machine/Kernel.lean ====
section
/-!
DEFINITION. Kernels on the tensor islands: the image loader (R162, R163), entry (R164), the watchdog
(R158), the end of a kernel with its record (R159, R490, R491), the arrival at a step boundary (R127,
R160) and time-sharing (R128).
-/
namespace Sys2Proof.Machine

/-! ### Images (Table 5-15) -/

def imgCode (im : List Byte) : Nat := fieldAt im 8 4
def imgEntry (im : List Byte) : Nat := fieldAt im 12 4
def imgData (im : List Byte) : Nat := fieldAt im 16 4
def imgDstack (im : List Byte) : Nat := fieldAt im 20 4
def imgRstack (im : List Byte) : Nat := fieldAt im 24 2
def imgNctl (im : List Byte) : Nat := fieldAt im 28 4
def imgSeed (im : List Byte) : Nat := fieldAt im 32 8
def imgTvoff (im : List Byte) : Nat := fieldAt im 40 4
def imgKlimit (im : List Byte) : Nat := fieldAt im 44 4
def imgFlags (im : List Byte) : Nat := fieldAt im 7 1

/-- A length rounded up to 256 bytes. -/
def up256 (n : Nat) : Nat := (n + 255) / 256 * 256

/-- Whether `NCTL` holds a reserved value (R85). -/
def nctlBad (v : Nat) : Bool := v % 4 == 3 || decide (8 ≤ v)

/-- Whether the CRC of an image passes: computed over the whole image with its field zero. -/
def imgCrcOk (im : List Byte) : Bool :=
  let n := 64 + imgCode im + imgData im
  decide (im.length ≥ n) && crc32c (splice (im.take n) 48 (List.replicate 4 0)) == fieldAt im 48 4

/-- The loader (R163): zero, or the first applicable status of Table 5-16. `sProf`: a near-memory
sequencer's kernel region, else an island window of `win` bytes. -/
def loadStatus (im : List Byte) (sProf : Bool) (win : Nat) : Nat :=
  firstStatus [
    (fieldAt im 0 4 != 0x4B544949, 0x01),
    (fieldAt im 4 1 != 3 || decide (0 < fieldAt im 5 1), 0x02),
    (fieldAt im 6 1 != b2n sProf, 0x03),
    (!(imgCrcOk im), 0x04),
    (decide (2 ≤ imgFlags im) || (!sProf && imgFlags im != 0) || fieldAt im 26 2 != 0 ||
      ((im.drop 52).take 12).any (· != 0) || nctlBad (imgNctl im) ||
      imgCode im == 0 || imgCode im % 4 != 0 || imgEntry im % 4 != 0 || decide (imgCode im ≤ imgEntry im) ||
      imgTvoff im % 1024 != 0 || (imgTvoff im != 0 && decide (imgCode im ≤ imgTvoff im)) ||
      (if sProf then imgRstack im != 0 || imgDstack im != 0
       else imgRstack im == 0 || decide (2048 < imgRstack im)), 0x05),
    (if sProf then decide (0x10000 < imgCode im + imgData im)
     else decide (win < up256 (imgCode im) + up256 (imgRstack im * 8) + up256 (imgData im) + up256 (imgDstack im)), 0x06)]

/-- What a launch gives to a kernel beside its image. -/
structure LaunchArgs where
  slice  : Nat
  pasid  : Nat
  arg    : Nat
  nctl   : Option Nat
  seed   : Option Nat
  klimit : Option Nat
deriving DecidableEq, Repr, Inhabited

/-- A local address: bit 63 set (R140). -/
def localAddr (o : Nat) : Nat := 2 ^ 63 + o

/-- The regions of an island kernel (Table 5-6): start of return stack, data, free region, data stack. -/
def imgRs (im : List Byte) (base : Nat) : Nat := base + up256 (imgCode im)
def imgDs (im : List Byte) (base : Nat) : Nat := imgRs im base + up256 (imgRstack im * 8)
def imgFree (im : List Byte) (base : Nat) : Nat := imgDs im base + up256 (imgData im)

/-- A sequencer at kernel entry (R164); its planes and vector registers keep their contents. -/
def Seqr.enter (z : Seqr) (im : List Byte) (l : LaunchArgs) (base win codeEnd ctxAddr : Nat) (sProf : Bool) : Seqr :=
  let dshi := localAddr (base + win)
  { (default : Seqr) with
    run := .running, pc := base + imgEntry im, codeLo := base, codeHi := codeEnd
    g := put 0 (put 0 (put 0 [] 1 (BitVec.ofNat 64 l.arg)) (if sProf then 15 else 30) (BitVec.ofNat 64 ctxAddr))
      (if sProf then 16 else 29) (if sProf then 0 else BitVec.ofNat 64 dshi)
    b := put 0 [] 0 (2 ^ 32 + base / 65536)
    nctl := l.nctl.getD (imgNctl im), seed := l.seed.getD (imgSeed im), klimit := l.klimit.getD (imgKlimit im)
    rsp := if sProf then 0 else localAddr (imgDs im base)
    rslo := if sProf then 0 else localAddr (imgRs im base)
    rshi := if sProf then 0 else localAddr (imgRs im base + up256 (imgRstack im * 8))
    dslo := if sProf then 0 else localAddr (base + win - up256 (imgDstack im))
    dshi := if sProf then 0 else dshi
    stkmode := if sProf then imgFlags im % 2 else 0
    tvbase := if imgTvoff im = 0 then 0 else base + imgTvoff im
    pasid := l.pasid, winbase := if sProf then 0 else base, winsize := if sProf then 0 else win
    slice := l.slice, planes := z.planes, vregs := z.vregs }

/-- The window of a slice on an island as tenant kernels see it: offset and bytes (R128, R142, R211). -/
def State.kernelWindow (s : State) (sl n : Nat) : Nat × Nat :=
  let x := s.slice sl
  ((look 0 x.windows n - 1) * 2 ^ 20,
    x.quota.islands.getD n 0 * 2 ^ 20 - (if x.quota.handles = 0 then 0 else 2 ^ 20))

/-- The bytes of an image in slice memory: the header gives its length. -/
def State.fetchImage (s : State) (sl pasid va : Nat) : State × Option (List Byte) :=
  match s.vread sl pasid va 64 with
  | (t, .ok h) =>
    match t.vread sl pasid va (64 + imgCode h + imgData h) with
    | (u, .ok bs) => (u, some bs)
    | (u, _) => (u, none)
  | (t, _) => (t, none)

/-- The control-ring context of a launch. -/
def Launch.ctx (l : Launch) : QCtx := ⟨Fin.ofNat 512 l.slice, 0, BitVec.ofNat 32 l.tag⟩

/-- Whether island n runs an ATTEND chunk. -/
def State.chunkRuns (s : State) (n : Nat) : Bool :=
  s.attends.any (fun e => e.2.chunks.any (fun c => c.island == n && c.st == .running))

/-- Whether island n has queued ATTEND chunks of a slice, which run before its next kernel (R212). -/
def State.chunkQueued (s : State) (n sl : Nat) : Bool :=
  s.attends.any (fun e => e.2.hat.stag.toNat == sl && e.2.chunks.any (fun c => c.island == n && c.st == .queued))

/-- The first kernel queued on island n that may start: its slice's turn, nothing running, and no ATTEND
chunk of the slice queued there (R128, R212, R490). -/
def State.nextLaunch (s : State) (n : Nat) : Option Launch :=
  if s.launches.any (fun l => l.island == n && l.running) || s.chunkRuns n || !s.isReady n then none
  else s.launches.find? (fun l => l.island == n && !(s.chunkQueued n l.slice) &&
    ((sget s.share n).cur.isNone || (sget s.share n).cur == some l.slice) && (s.slice l.slice).st == .active)

/-- Start a kernel (R490): image into the window, loader, argument block, entry. -/
def State.klaunchStart (s : State) (n : Nat) (image : List Byte) : State :=
  match s.nextLaunch n with
  | none => s
  | some l =>
    let drop (t : State) : State := { t with launches := t.launches.erase l }
    let f := if l.host then (s, some image) else s.fetchImage l.slice l.pasid l.addr
    let a : State × Acc := if l.argblk = 0 then (f.1, .ok []) else f.1.vread l.slice l.pasid l.argblk 256
    match f.2, a.2 with
    | some im, .ok args =>
      let w := s.kernelWindow l.slice n
      let st := loadStatus im false w.2
      if st ≠ 0 then (drop a.1).finish l.ctx 0x0C 0 st
      else
        let base := localBase n + w.1
        let t := ((a.1.sramStore base ((im.drop 64).take (imgCode im))).sramStore
          (localBase n + imgDs im w.1) ((im.drop (64 + imgCode im)).take (imgData im))).sramStore
          (localBase n + imgFree im w.1) args
        let u := { t with launches := t.launches.map (fun e => if e = l then { e with running := true } else e) }
        u.setSeqr n (fun z => z.enter im ⟨l.slice, l.pasid, l.arg, l.nctl, l.seed, l.klimit⟩ w.1 w.2
          (w.1 + up256 (imgCode im)) (localAddr (imgFree im w.1)) false)
    | _, _ => (drop a.1).finish l.ctx 9 0 0

/-- KLAUNCH_START. -/
def execKlaunchStart (n : Fin 16) (image : List Byte) (s : State) : Res := .next (s.klaunchStart n.val image)

/-! ### Watchdog (R158) -/

/-- The cycles that a sequencer has been stalled since its last instruction pass in `CYCLE`. -/
def State.pass (s : State) (q n : Nat) : State := s.setSeqr q (fun y => { y with cycle := y.cycle + n })

/-- WATCHDOG: fires once, when `CYCLE` has reached a non-zero `KLIMIT`; it waits while `INTRAP` is set. `stalled`: the cycles
for which the sequencer has been stalled since its last instruction, which may never complete. -/
def execWatchdog (q : Fin 49) (stalled : BitVec 32) (s : State) : Res :=
  .next (let t := s.pass q.val stalled.toNat
    let z := t.seqr q.val
    if z.run = .running ∧ z.klimit ≠ 0 ∧ z.klimit ≤ z.cycle ∧ z.fired = none then
      (t.setSeqr q.val (fun y => { y with fired := some y.cycle, wdWait := true })).takeHeld q.val
    else s)

/-- WATCHDOG_END: a kernel that has not executed `HALT` 65,536 cycles after the watchdog fired. -/
def execWatchdogEnd (q : Fin 49) (stalled : BitVec 32) (s : State) : Res :=
  .next (let t := s.pass q.val stalled.toNat
    let z := t.seqr q.val
    match z.fired with
    | some f => if z.run = .running ∧ f + 65536 ≤ z.cycle then t.endKernel q.val 0x0E else s
    | none => s)

/-! ### Kernel end (R159, R490, R491) -/

/-- The kernel's end status (R159). -/
def Seqr.endStatus (z : Seqr) : Nat :=
  if z.endCause ≠ 0 then z.endCause else if z.endCop ≠ 0 then z.endCop else z.operr % 256

/-- The end record (Table 16-9). -/
def Seqr.endRecord (z : Seqr) (kind : Nat) : List Byte :=
  leBytes 1 kind ++ leBytes 1 (if kind = 2 then 0 else z.endStatus) ++ leBytes 1 (if kind = 2 then 0 else z.endCause) ++
    leBytes 1 (z.operr / 256 % 256) ++ leBytes 4 0 ++ leBytes 8 z.trappc ++ leBytes 8 z.trapinfo ++ leBytes 8 z.cycle

/-- A sequencer without a kernel. -/
def Seqr.idle (z : Seqr) : Seqr := { (default : Seqr) with planes := z.planes, vregs := z.vregs }

/-- End the launch that runs on island n: its record, unless the slice is being destroyed, then its completion. -/
def State.endLaunch (s : State) (n kind status : Nat) : State :=
  let z := s.seqr n
  match s.launches.find? (fun l => l.island == n && l.running) with
  | none => s
  | some l =>
    let t := if (s.slice l.slice).st = .destroying then s else (s.vwrite l.slice l.pasid l.endp (z.endRecord kind)).1
    let u := { t with launches := t.launches.erase l }
    ((u.use l.slice 0 z.cycle).setSeqr n Seqr.idle).finish l.ctx status 0 0

/-- KERNEL_END: the kernel has stopped issue, and nothing is queued or in the scoreboard. -/
def execKernelEnd (n : Fin 16) (s : State) : Res :=
  .next (let z := s.seqr n.val
    if z.run = .ending ∧ z.ops = [] then s.endLaunch n.val (if z.endCause = 0 then 0 else 1) 0 else s)

/-- Abort the kernel that runs on island n (R491): SL_ABORTED. -/
def State.abortKernel (s : State) (n : Nat) : State := s.endLaunch n 2 0x0A

/-! ### Step boundary and time-share (R127, R128, R160) -/

/-- TIMESHARE_SLICE_SWITCH (R128): between two kernels of an island the turn passes to another slice; time
that a slice ran beyond its share shortens its next one. `us` is what the slice ran. -/
def execTimeshareSliceSwitch (n : Fin 16) (next : Option (Fin 512)) (us : BitVec 32) (s : State) : Res :=
  .next (if s.launches.any (fun l => l.island == n.val && l.running) || s.chunkRuns n.val then s
    else
      let sh := sget s.share n.val
      let excess := match sh.cur with
        | some sl =>
          let due := (s.slice sl).quota.islands.getD n.val 0 * 1000 / 64 - look 0 sh.excess sl
          put 0 sh.excess sl (us.toNat - due)
        | none => sh.excess
      { s with share := sput s.share n.val { cur := next.map Fin.val, excess := excess } })

end Sys2Proof.Machine
end

