-- ==== Sys2Proof/Machine/Xts.lean ====
section
/-!
DEFINITION. AES-256-XTS of the flash tier's data units (R400, IEEE 1619; log entry 1): the inverse cipher and the
two directions on whole 16-byte blocks.
-/
namespace Sys2Proof.Machine

/-- The inverse of the substitution table. -/
def aesInvSub (b : Nat) : Nat := aesS.idxOf b

/-- Shift the rows back. -/
def aesInvShift (s : List Nat) : List Nat :=
  (List.range 16).map (fun i => s.getD ((i + 16 - 4 * (i % 4)) % 16) 0)

/-- Mix one column back: the mixing applied three times, since its fourth power is the identity. -/
def aesInvMix4 (c : List Nat) : List Nat := aesMix4 (aesMix4 (aesMix4 c))

/-- Mix the four columns back. -/
def aesInvMix (s : List Nat) : List Nat := (List.range 4).flatMap (fun c => aesInvMix4 ((s.drop (4 * c)).take 4))

/-- AES-256 decryption of one 16-byte block (FIPS 197). -/
def aes256Inv (k : List Byte) (blk : List Byte) : List Byte :=
  let rk := aesRoundKeys k
  let xor (a b : List Nat) := List.zipWith (· ^^^ ·) a b
  let s0 := (aesInvShift (xor (blk.map BitVec.toNat) (rk.getD 14 []))).map aesInvSub
  let mid := (List.range 13).foldl
    (fun s r => (aesInvShift (aesInvMix (xor s (rk.getD (13 - r) [])))).map aesInvSub) s0
  (xor mid (rk.getD 0 [])).map (BitVec.ofNat 8)

/-- The next tweak: doubled in the field of XTS. -/
def xtsNext (t : Nat) : Nat := if t < 2 ^ 127 then 2 * t else (2 * t - 2 ^ 128) ^^^ 0x87

/-- The blocks of a data unit, each between two additions of its tweak. -/
def xtsBlocks (f : List Byte → List Byte) : Nat → Nat → List Byte → List Byte
  | 0, _, _ => []
  | n + 1, t, bs =>
    let x := leBytes 16 t
    let xor (a b : List Byte) := List.zipWith (· ^^^ ·) a b
    xor (f (xor (bytesAt bs 0 16) x)) x ++ xtsBlocks f n (xtsNext t) (bs.drop 16)

/-- Encrypt or decrypt a data unit under a 512-bit key and a tweak (R400). -/
def xts (decrypt : Bool) (key tweak : Nat) (bs : List Byte) : List Byte :=
  let k1 := leBytes 32 key
  let t := leNat (aes256 (leBytes 32 (key / 2 ^ 256)) (leBytes 16 tweak))
  xtsBlocks (if decrypt then aes256Inv k1 else aes256 k1) (bs.length / 16) t bs

/-- The key of a block of a space (R400). -/
def blockKey (space n : Nat) : Nat := space * 2 ^ 34 + n

/-- The compartment's media key. -/
def State.mediaKey (s : State) : Nat := (s.keys.setup.bind KeyRec.media).getD 0

/-- The tweak of a block: its number within the space, then the space code. -/
def tweakOf (key : Nat) : Nat := key % 2 ^ 34 + key / 2 ^ 34 * 2 ^ 48

end Sys2Proof.Machine
end

