-- ==== Sys2Proof/Machine/Kv.lean ====
section
/-!
DEFINITION. The KV cache manager (R181–R200): the window and its blocks, the nine commands, sharing and
copies, ceilings, floors and demotion to the flash tier.
-/
namespace Sys2Proof.Machine

/-- A command of a hardware queue of a kind: it starts only where the queue exists, is of that kind, is
not HALTED, and its slice acts on commands (R426, R437, R439). -/
def State.qcmd (s : State) (q : QCtx) (kind : Nat) (k : State → State) : State :=
  let w := s.queue q.slice.val q.slot.val
  if w.used && w.cfg.kind == kind && !w.halted && s.doorbellsLive q.slice.val then k s else s

/-- A descriptor on a hardware queue of a kind, for one command: `mine` says that it is this command's, `known` that its `OP` is one
that the queue takes. A descriptor of another command is no occasion for this one; one whose `OP` is unknown ends by `bad`. -/
def State.descriptor (s : State) (q : QCtx) (kind : Nat) (mine known : Bool) (bad k : State → State) : State :=
  if !mine && known then s else s.qcmd q kind (fun t => if mine then k t else bad t)

/-- The PASID of the queue of a command. -/
def State.qPasid (s : State) (q : QCtx) : Nat := (s.queue q.slice.val q.slot.val).cfg.pasid

/-! ### Geometry (R181, Table 6-2) -/

def Seq.d (x : Seq) : Nat := 64 * 2 ^ x.dim
def Seq.w (x : Seq) : Nat := elemWidth x.elem

/-- Bytes of a KV block. -/
def Seq.blockBytes (x : Seq) : Nat := 64 * x.d * x.w + 32 * x.d

/-- Offsets of the K headers, V elements and V headers in a block. -/
def Seq.kHdr (x : Seq) : Nat := 32 * x.d * x.w
def Seq.vEl (x : Seq) : Nat := x.kHdr + 16 * x.d
def Seq.vHdr (x : Seq) : Nat := x.vEl + 32 * x.d * x.w

/-- Bytes of a tail: 32 rows of D FP32 values (R182). -/
def Seq.tailBytes (x : Seq) : Nat := 128 * x.d

/-- The key of a layer and group. -/
def lgKey (layer g : Nat) : Nat := layer * 64 + g

/-- The key of a block index of a layer and group. -/
def blkKey (layer g i : Nat) : Nat := lgKey layer g * 16384 + i

/-! ### State access -/

def State.seq (s : State) (i : Nat) : Seq := sget s.kv.seqs i
def State.setSeq (s : State) (i : Nat) (f : Seq → Seq) : State :=
  { s with kv := { s.kv with seqs := smod s.kv.seqs i f } }
def State.kvb (s : State) (b : Nat) : KvBlock := sget s.kv.blocks b
def State.setKvb (s : State) (b : Nat) (f : KvBlock → KvBlock) : State :=
  { s with kv := { s.kv with blocks := smod s.kv.blocks b f } }

/-- The block number at an index, or 0. -/
def Seq.blk (x : Seq) (layer g i : Nat) : Nat := look 0 x.blocks (blkKey layer g i) - 1

/-- Committed length of a layer. -/
def Seq.len (x : Seq) (layer : Nat) : Nat := look 0 x.lens layer

/-- The sequences of a slice, with their indices. -/
def State.seqsOf (s : State) (sl : Nat) : List (Nat × Seq) :=
  s.kv.seqs.filter (fun e => e.2.live && e.2.slice == sl)

/-- Blocks that a sequence references. -/
def Seq.refs (x : Seq) : List Nat := x.blocks.map (fun e => e.2 - 1)

/-- The blocks that are open: the highest of a layer and group, not yet full (R182). -/
def Seq.opened (x : Seq) : List Nat :=
  (List.range x.layers).flatMap (fun l =>
    if x.len l % 256 = 0 then [] else (List.range x.groups).map (fun g => x.blk l g (x.len l / 256)))

/-- Ranges of the window that blocks and tails of a slice hold, as window offset and bytes. -/
def State.kvStore (s : State) (sl : Nat) : List (Nat × Nat) :=
  (s.kv.blocks.filter (fun e => e.2.slice == sl && e.2.va != 0)).map (fun e => (e.2.va - kvWindow, e.2.size)) ++
    (s.seqsOf sl).flatMap (fun e => e.2.tails.map (fun t => (t.2 - kvWindow, e.2.tailBytes))) ++
    (s.kv.oldTails.filter (fun t => t.slice == sl)).map (fun t => (t.va - kvWindow, t.size))

/-- Bytes of a page of a block table. DESIGN CHOICE (log entry 32): the rule gives the size of an entry, and no layout. -/
def metaPage : Nat := 4096

/-- Ranges of the window in use by a slice: blocks, tails and block tables (R183). -/
def State.kvAllocs (s : State) (sl : Nat) : List (Nat × Nat) :=
  s.kvStore sl ++ (s.seqsOf sl).flatMap (fun e => e.2.pages.map (fun a => (a - kvWindow, metaPage)))

/-- Resident bytes of a slice: blocks in stacked memory, tails, and 16 bytes per block-table entry
(R183, R193). -/
def State.kvResident (s : State) (sl : Nat) : Nat :=
  ((s.kvStore sl).map Prod.snd).sum + 16 * ((s.seqsOf sl).map (fun e => e.2.blocks.length)).sum

/-- The ceiling of a slice. -/
def State.kvCeil (s : State) (sl : Nat) : Nat := look 0 s.kv.ceil sl

/-- Whether a block is open for some sequence. -/
def State.isOpen (s : State) (sl b : Nat) : Bool := (s.seqsOf sl).any (fun e => e.2.opened.contains b)

/-- Bytes of the pinned and open blocks of a slice (R194). -/
def State.kvFloor (s : State) (sl : Nat) : Nat :=
  ((s.kv.blocks.filter (fun e => e.2.slice == sl && (e.2.pins != [] || s.isOpen sl e.1))).map (fun e => e.2.size)).sum

/-! ### Bytes of blocks and tails -/

/-- The DPA of a window address of a slice, for the KV cache manager and ATTEND work. -/
def State.kvDpa (s : State) (sl va : Nat) : Option Nat :=
  ((s.walk sl 0 va).filter (fun e => bit e 2)).map (fun e => leafAddr e va)

/-- Read the window; none at an uncorrectable sector. -/
def State.kvRead (s : State) (sl va n : Nat) : State × Option (List Byte) :=
  (pieces (pieceFuel n) va n).foldl (fun t p =>
    match t.2, t.1.kvDpa sl p.1 with
    | some bs, some a =>
      match t.1.memRead a p.2 with
      | (u, some cs) => (u, some (bs ++ cs))
      | (u, none) => (u, none)
    | _, _ => (t.1, none)) (s, some [])

/-- Write the window. -/
def State.kvWrite (s : State) (sl va : Nat) (bs : List Byte) : State :=
  (pieces (pieceFuel bs.length) va bs.length).foldl (fun t p =>
    match t.kvDpa sl p.1 with
    | some a => (t.memWrite a ((bs.drop (p.1 - va)).take p.2)).1
    | none => t) s

/-- The sectors of a window range that fail a read. -/
def State.kvBad (s : State) (sl va n : Nat) : List Nat :=
  (pieces (pieceFuel n) va n).flatMap (fun p =>
    match s.kvDpa sl p.1 with
    | some a => (sectorsOf a p.2).filter s.badSector
    | none => [])

/-- The sectors of a window range that fail a write of it: those of a FAILED stack, and bad ones that it covers in part (R167). -/
def State.kvBadW (s : State) (sl va n : Nat) : List Nat :=
  (pieces (pieceFuel n) va n).flatMap (fun p =>
    match s.kvDpa sl p.1 with
    | some a => (sectorsOf a p.2).filter (fun x => s.deadStack x || (s.poisoned x && (decide (x < a) || decide (a + p.2 < x + 64))))
    | none => [])

/-- A block's copy on flash, decrypted under the media key (R199, R400): its logical blocks lie in the spill space from `lba` on. -/
def State.kvPlain (s : State) (k : KvBlock) : List Byte :=
  ((List.range ((k.size + 4095) / 4096)).flatMap (fun i =>
    xts true s.mediaKey (tweakOf (blockKey 0xFFFE (k.lba - 1 + i))) (bytesAt k.copy (4096 * i) 4096))).take k.size

/-- Whether a block is read from flash. -/
def KvBlock.away (k : KvBlock) : Bool := k.loc == .flash || k.loc == .fetching || k.loc == .fetched

/-- The bytes of a block wherever it lies; none at an uncorrectable sector. -/
def State.kvBytes (s : State) (b : Nat) : State × Option (List Byte) :=
  let k := s.kvb b
  if k.away then (s, some (s.kvPlain k)) else s.kvRead k.slice k.va k.size

/-! ### Placement in the window (R183) -/

/-- The lowest multiple of n at which n bytes fit among ranges in use. -/
def kvFit (used : List (Nat × Nat)) (n : Nat) : Nat :=
  let free (o : Nat) : Bool := used.all (fun r => decide (o + n ≤ r.1) || decide (r.1 + r.2 ≤ o))
  let cands := 0 :: used.map (fun r => (r.1 + r.2 + n - 1) / n * n)
  (cands.filter free).foldl min (((cands.foldl max 0)))

/-- Pages of the window that n bytes at a window offset touch. -/
def kvPages (o n : Nat) : List Nat := (List.range ((o + n - 1) / 0x200000 - o / 0x200000 + 1)).map (fun i => (kvWindow + o) / 0x200000 + i)

/-- Map the missing pages of a range from the slice's quota; none where they do not fit. -/
def State.kvMapPages (s : State) (sl o n : Nat) : Option State :=
  let x := s.slice sl
  let miss := (kvPages o n).filter (fun v => !(x.pages.any (fun p => p.kv && p.vpn == v)))
  let fs := s.freeFrames miss.length
  if fs.length < miss.length || decide (x.quota.memBytes < x.memUsed + miss.length * 0x200000) then none
  else some (s.addPages sl ((miss.zip fs).map (fun p => ⟨0, p.1, p.2, true, true⟩)))

/-- Place n bytes in the window of a slice: the state and the window address. -/
def State.kvPlace (s : State) (sl n : Nat) : Option (State × Nat) :=
  let o := kvFit (s.kvAllocs sl) n
  (s.kvMapPages sl o n).map (fun t => (t, kvWindow + o))

/-- Unmap the pages of the window that nothing uses any more (R180). -/
def State.kvUnmap (s : State) (sl : Nat) : State :=
  let live := (s.kvAllocs sl).flatMap (fun r => kvPages r.1 r.2)
  s.removePages sl (fun p => p.kv && !(live.contains p.vpn))

/-! ### Demotion and room (R196, R197, R199) -/

/-- Logical blocks that n bytes occupy on the tier. -/
def lbas (n : Nat) : Nat := (n + 4095) / 4096

/-- Where n bytes fit in the KV spill space, beside the copies there and those being written. -/
def State.spillFit (s : State) (n : Nat) : Option Nat :=
  fitRun ((s.kv.blocks.filter (fun e => e.2.lba != 0)).map (fun e => (e.2.lba - 1, lbas e.2.size))) (lbas n) 0 (s.obj 0x6000 4 / 4096)

/-- `TIER_STATE` as a number. -/
def Tier.code : Tier → Nat
  | .unmounted => 0
  | .mounting => 1
  | .rw => 2
  | .readOnly => 3
  | .failed => 4

/-- Where a block of a size goes on the tier: none while the tier is read-only or its spill space is full (R199). -/
def State.canDemote (s : State) (n : Nat) : Option Nat := if s.flash.tier == .rw then s.spillFit n else none

/-- Demotion stops (R199): an event to the operator and to the slices that hold KV blocks, once. -/
def State.stopDemotion (s : State) : State :=
  if s.kv.stopped then s
  else
    let t := { s with kv := { s.kv with stopped := true } }
    (t.event .operator 0x0603 t.flash.tier.code 0 0).eventSlices
      (t.sliceIds.filter (fun sl => t.kv.blocks.any (fun e => e.2.slice == sl))) 0x0603 t.flash.tier.code 0 0

/-- Whether a block may go to flash: resident and in no floor (R194). -/
def State.demotable (s : State) (sl b : Nat) : Bool :=
  let k := s.kvb b
  k.slice == sl && (k.loc == .hbm || k.loc == .demoting) && k.va != 0 && k.pins == [] && k.caught == 0 && !k.hold && !(s.isOpen sl b)

/-- A demotion begins: the copy's place is taken. -/
def State.startDemotion (s : State) (b o : Nat) : State :=
  ({ s with kv := { s.kv with stopped := false } }).setKvb b (fun k => { k with loc := .demoting, lba := o + 1 })

/-- A demotion in progress is abandoned (R196). -/
def State.stayBlock (s : State) (b : Nat) : State :=
  s.setKvb b (fun k => if k.loc = .demoting then { k with loc := .hbm, lba := 0 } else k)

/-- A block's bytes as the tier holds them, from its logical block `lba` on (R199, R400). -/
def State.kvCipher (s : State) (lba : Nat) (bytes : List Byte) : List Byte :=
  (List.range (lbas bytes.length)).flatMap (fun i =>
    xts false s.mediaKey (tweakOf (blockKey 0xFFFE (lba + i))) (bytesAt bytes (4096 * i) 4096))

/-- The flash write of a block under demotion is complete: its storage in stacked memory is freed (R196). A block that has joined
the floor meanwhile stays (R194), and so does one that cannot be read (R171). -/
def State.spill (s : State) (b : Nat) : State :=
  let k := s.kvb b
  if !(s.demotable k.slice b) then s.stayBlock b
  else match s.kvRead k.slice k.va k.size with
    | (t, none) => t.stayBlock b
    | (t, some bytes) =>
      (((t.setKvb b (fun x => { x with loc := .flash, copy := s.kvCipher (k.lba - 1) bytes, va := 0 })).kvUnmap k.slice).count
        0x4100 9 1).use k.slice 7 1

/-- Why a command that needs storage fails: no victim or frame is left, or demotion has stopped (R193, R197, R199). -/
inductive NoRoom
  | full | stopped
deriving DecidableEq, Repr

/-- A step that needs storage. -/
abbrev KvM := Except NoRoom

/-- A step that finds none. -/
def kvOpt {α : Type} (o : Option α) : KvM α :=
  match o with
  | some a => .ok a
  | none => .error .full

/-- Make room for n resident bytes under the ceiling, demoting victims in list order one at a time. A victim whose bytes cannot be
read stays, and the next one is taken. -/
def State.kvRoom (sl n : Nat) : Nat → State → KvM State
  | 0, s => if s.kvResident sl + n ≤ s.kvCeil sl then .ok s else .error .full
  | f + 1, s =>
    if s.kvResident sl + n ≤ s.kvCeil sl then .ok s
    else
      match (look [] s.kv.victims sl).filter (s.demotable sl) with
      | [] => .error .full
      | b :: _ =>
        let t : State := { s with kv := { s.kv with victims := put [] s.kv.victims sl ((look [] s.kv.victims sl).erase b) } }
        if (s.kvb b).loc = .demoting then State.kvRoom sl n f (t.spill b)
        else match s.canDemote (s.kvb b).size with
          | none => .error .stopped
          | some o => State.kvRoom sl n f ((t.startDemotion b o).spill b)

/-- Room for n bytes in a slice's ceiling. -/
def State.room (s : State) (sl n : Nat) : KvM State := State.kvRoom sl n (look [] s.kv.victims sl).length s

/-- A new block of a slice, referenced once, resident and empty. `entry`: the bytes of a new block-table entry, 16 or none. -/
def State.newBlock (s : State) (sl size entry : Nat) : KvM (State × Nat) :=
  ((s.room sl (size + entry)).bind (fun t => kvOpt (t.kvPlace sl size))).map (fun r =>
    let b := r.1.kv.next + 1
    let k : KvBlock := { (default : KvBlock) with slice := sl, size := size, refs := 1, va := r.2, tick := s.mod.tick, mu := 128 }
    ({ r.1 with kv := { r.1.kv with next := b, blocks := sput r.1.kv.blocks b k } }, b))

/-- Set a block-table entry of a sequence; a new page holds the table's entries beyond those of its pages (R183). -/
def State.setEntry (s : State) (i key v : Nat) : KvM State :=
  let t := s.setSeq i (fun y => { y with blocks := put 0 y.blocks key v })
  let x := t.seq i
  if x.blocks.length ≤ 256 * x.pages.length then .ok t
  else (kvOpt (t.kvPlace x.slice metaPage)).map (fun r => r.1.setSeq i (fun y => { y with pages := y.pages ++ [r.2] }))

/-- Give back the pages of a block table that its entries no longer fill. -/
def State.trimTable (s : State) (i : Nat) : State :=
  (s.setSeq i (fun y => { y with pages := y.pages.take ((y.blocks.length + 255) / 256) })).kvUnmap (s.seq i).slice

/-- Free a block that nothing references and no ATTEND has yet to read (R190). -/
def State.freeIfDead (s : State) (b : Nat) : State :=
  let k := s.kvb b
  if k.refs = 0 ∧ k.caught = 0 then
    ({ s with kv := { s.kv with blocks := drop1 s.kv.blocks b } }).kvUnmap k.slice
  else s

/-- Drop one reference of a block. -/
def State.unref (s : State) (b : Nat) : State := (s.setKvb b (fun k => { k with refs := k.refs - 1 })).freeIfDead b

/-- What a KV command meets part-way, beside the want of room: nothing, a LOST block, or uncorrectable
sectors of a block or tail that it reads or writes in part. -/
inductive KvFail
  | none | lost | memErr (xs : List Nat)
deriving DecidableEq, Repr

/-- The first in R188's order of two failures. -/
def KvFail.join : KvFail → KvFail → KvFail
  | .memErr b, _ => .memErr b
  | _, .memErr b => .memErr b
  | .lost, _ => .lost
  | .none, e => e

/-- The failure of an access that met bad sectors. -/
def memFail (xs : List Nat) : KvFail := if xs = [] then .none else .memErr xs

/-- A command part-way: its effects so far and the failure met; an error where there is no room (KV_NOQUOTA, the
first of the three in R188's order). -/
abbrev KvRun := KvM (State × KvFail)

/-- Go on with a command, whatever failure it met (R188). -/
def KvRun.andThen (r : KvRun) (f : State → KvRun) : KvRun :=
  r.bind (fun x => (f x.1).map (fun y => (y.1, x.2.join y.2)))

/-- Fold a step of a command over a list. -/
def foldKv {α : Type} (f : State → α → KvRun) : State → List α → KvRun
  | s, [] => .ok (s, .none)
  | s, a :: as => KvRun.andThen (f s a) (fun t => foldKv f t as)

/-- A private copy of a block for handle index `i`, whose pin moves to it (R191, R192); the original keeps
its other references, and a demotion of it in progress is abandoned (R196). -/
def State.copyBlock (s : State) (i b entry : Nat) : KvM (State × KvFail × Nat) :=
  let k := s.kvb b
  ((s.stayBlock b).newBlock k.slice k.size entry).map (fun r =>
    let c := r.2
    let t := (r.1.setKvb c (fun y => { y with pins := if k.pins.contains i then [i] else [] })).setKvb b
      (fun y => { y with pins := y.pins.erase i })
    if k.loc = .lost then (t, .lost, c)
    else match (t.kvBytes b).2 with
      | some bs => (t.kvWrite k.slice (t.kvb c).va bs, .none, c)
      | none => (t, .memErr (t.kvBad k.slice k.va k.size), c))

/-- Storage in the window for a block on flash, under the ceiling or in place of victims (R197, R198). -/
def State.reserve (s : State) (b : Nat) : KvM State :=
  let k := s.kvb b
  if k.va ≠ 0 then .ok s
  else ((s.room k.slice k.size).bind (fun t => kvOpt (t.kvPlace k.slice k.size))).map (fun r => r.1.setKvb b (fun x => { x with va := r.2 }))

/-- Bring a block back from its spill copy (R198). -/
def State.bringBack (s : State) (b : Nat) : KvM State :=
  (s.reserve b).map (fun t =>
    let k := t.kvb b
    ((t.setKvb b (fun x => { x with loc := .hbm, copy := [], lba := 0 })).kvWrite k.slice k.va (t.kvPlain k)).count 0x4100 0x0A 1)

/-! ### Completion and checks (R186, R188) -/

/-- The completion of a KV command: handle, status, committed length. -/
def State.kvDone (s : State) (q : QCtx) (handle status len : Nat) : State := s.finish q status handle len

/-- The index of a handle of a slice, where it is current (R184). -/
def State.handleOk (s : State) (sl h : Nat) : Bool :=
  let x := s.seq (h % 2 ^ 18)
  decide (h < 2 ^ 26) && x.live && x.slice == sl && x.gen == h / 2 ^ 18

/-- A handle value of an index. -/
def State.handleOf (s : State) (i : Nat) : Nat := i + (s.seq i).gen * 2 ^ 18

/-- The committed length that a command's completion gives (R186): of the one layer it concerns, else 0. -/
def State.kvLen (s : State) (q : QCtx) (k : KvCmd) : Nat :=
  let x := s.seq (k.handle.toNat % 2 ^ 18)
  if s.handleOk q.slice.val k.handle.toNat && decide (k.layer.toNat < x.layers) then x.len k.layer.toNat else 0

/-- End a command that started in `s` (R188): with its effect, or with the failure it met and no effect but the count of the
sectors that failed it (R171). -/
def State.kvEnd (s : State) (q : QCtx) (h len : Nat) (r : KvRun) (ok : State → State) : State :=
  match r with
  | .error .full => s.kvDone q h 6 len
  | .error .stopped => s.stopDemotion.kvDone q h 6 len
  | .ok (t, .none) => ok t
  | .ok (_, .lost) => s.kvDone q h 0x0A len
  | .ok (_, .memErr xs) => (xs.foldl State.countUe s).kvDone q h 9 len

/-- A PIN that waited for a block goes on; with the last of them it completes. Where one was lost it fails and undoes what it did:
its own pins, and the demotions that it abandoned (R188). -/
def State.pinFetched (s : State) (b : Nat) (lost : Bool) : State :=
  let ps := s.kv.pinning.map (fun p => if p.waits.contains b then { p with waits := p.waits.erase b, lost := p.lost || lost } else p)
  let done := ps.filter (fun p => p.waits.isEmpty)
  let t := { s with kv := { s.kv with pinning := ps.filter (fun p => !p.waits.isEmpty) } }
  done.foldl (fun u p =>
    if p.lost then
      let v := p.fresh.foldl (fun v c => v.setKvb c (fun k => { k with pins := k.pins.erase p.idx })) u
      (p.dem.foldl (fun v d => if (v.kvb d.1).loc = .hbm then v.setKvb d.1 (fun k => { k with loc := .demoting, lba := d.2 }) else v)
        v).kvDone p.q p.result 0x0A p.len
    else u.kvDone p.q p.result 0 p.len) t

/-- The layers that a `LAYER` field names: all for 0xFFFF. -/
def Seq.layerList (x : Seq) (l : Nat) : List Nat := if l = 0xFFFF then List.range x.layers else [l]

/-- Live sequences of a slice. -/
def State.handlesUsed (s : State) (sl : Nat) : Nat := (s.seqsOf sl).length

/-- The lowest index that is not live. -/
def State.freeIndex (s : State) : Nat :=
  lowestFree ((s.kv.seqs.filter (fun e => e.2.live)).map Prod.fst) 262144 0

/-! ### CREATE and RELEASE -/

/-- KV_CREATE (R185, R187). -/
def State.kvCreate (s : State) (q : QCtx) (k : KvCmd) : State :=
  let sl := q.slice.val
  let h := k.handle.toNat
  if k.reserved ∨ k.layers.toNat = 0 ∨ 256 < k.layers.toNat ∨ k.groups.toNat = 0 ∨ 64 < k.groups.toNat ∨
      2 < k.dim.toNat ∨ 6 < k.fmt.toNat then s.kvDone q h 3 0
  else if (s.slice sl).quota.handles ≤ s.handlesUsed sl then s.kvDone q h 2 0
  else
    let i := s.freeIndex
    let t := s.setSeq i (fun x => { x with
      live := true, slice := sl, layers := k.layers.toNat, groups := k.groups.toNat, dim := k.dim.toNat
      elem := k.fmt.toNat, lens := [], blocks := [], tails := [], pages := [] })
    t.kvDone q (t.handleOf i) 0 0

/-- A KV descriptor (Table 6-3). -/
def kvCmdOf (d : List Byte) : KvCmd where
  srcfmt := BitVec.ofNat 8 (fieldAt d 1 1)
  layer := BitVec.ofNat 16 (fieldAt d 2 2)
  handle := BitVec.ofNat 32 (fieldAt d 4 4)
  src := BitVec.ofNat 32 (fieldAt d 8 4)
  pos := BitVec.ofNat 32 (fieldAt d 16 4)
  count := BitVec.ofNat 32 (fieldAt d 20 4)
  addr := BitVec.ofNat 64 (fieldAt d 24 8)
  layers := BitVec.ofNat 16 (fieldAt d 32 2)
  groups := BitVec.ofNat 8 (fieldAt d 34 1)
  dim := BitVec.ofNat 8 (fieldAt d 35 1)
  fmt := BitVec.ofNat 8 (fieldAt d 36 1)
  bytes := BitVec.ofNat 64 (fieldAt d 40 8)
  reserved := fieldAt d 37 3 != 0 || fieldAt d 48 16 != 0

/-- A command on a queue of kind KV (Table 6-3): an unknown `OP` ends with KV_FORMAT. -/
def State.kvDesc (s : State) (q : QCtx) (op : Nat) (d : List Byte) (k : KvCmd → State → State) : State :=
  let o := fieldAt d 0 1
  s.descriptor q 1 (o == op) (decide (1 ≤ o) && decide (o ≤ 9)) (fun t => t.kvDone q (fieldAt d 4 4) 3 0) (k (kvCmdOf d))

/-- KV_CREATE. -/
def execKvCreate (q : QCtx) (d : List Byte) (s : State) : Res := .next (s.kvDesc q 1 d (fun k t => t.kvCreate q k))

/-- Whether an ATTEND in flight has captured the tail at a window address of a slice (R190). -/
def State.tailCaught (s : State) (sl va : Nat) : Bool :=
  s.attends.any (fun e => e.2.hat.stag.toNat == sl && e.2.tails.any (fun t => t.2 == va))

/-- A sequence gives up a tail: a captured one is kept until its readers are done (R190). -/
def State.dropTail (s : State) (i layer g : Nat) : State :=
  let x := s.seq i
  let va := look 0 x.tails (lgKey layer g)
  let t := s.setSeq i (fun y => { y with tails := put 0 y.tails (lgKey layer g) 0 })
  if va ≠ 0 ∧ s.tailCaught x.slice va then { t with kv := { t.kv with oldTails := t.kv.oldTails ++ [⟨x.slice, va, x.tailBytes⟩] } }
  else t.kvUnmap x.slice

/-- Tails kept for readers that are done are freed (R190). -/
def State.freeTails (s : State) (sl : Nat) : State :=
  if s.kv.oldTails.any (fun t => t.slice == sl && !(s.tailCaught sl t.va)) then
    ({ s with kv := { s.kv with oldTails := s.kv.oldTails.filter (fun t => t.slice != sl || s.tailCaught sl t.va) } }).kvUnmap sl
  else s

/-- Drop a sequence with its references; its index moves to the next generation. -/
def State.dropSeq (s : State) (i : Nat) : State :=
  let x := s.seq i
  let d := x.tails.foldl (fun t e => t.dropTail i (e.1 / 64) (e.1 % 64)) s
  let t := d.setSeq i (fun y => { (default : Seq) with gen := (y.gen + 1) % 256 })
  let u := x.refs.foldl (fun v b => (v.setKvb b (fun k => { k with pins := k.pins.erase i })).unref b) t
  u.kvUnmap x.slice

/-- RELEASE (R187). -/
def State.kvRelease (s : State) (q : QCtx) (k : KvCmd) : State :=
  let h := k.handle.toNat
  if k.reserved then s.kvDone q h 3 0
  else if !(s.handleOk q.slice.val h) then s.kvDone q h 1 0
  else (s.dropSeq (h % 2 ^ 18)).kvDone q h 0 0

/-! ### Encoding of rows (R181, R182) -/

/-- Write the window for a command, with the failure that bad sectors covered in part give. -/
def State.kvPut (s : State) (sl va : Nat) (bs : List Byte) : KvRun :=
  .ok (s.kvWrite sl va bs, memFail (s.kvBadW sl va bs.length))

/-- Write the K row of a position of a block: blocks along the dimensions. -/
def State.writeK (s : State) (x : Seq) (va p : Nat) (row : List Val) : KvRun :=
  foldKv (fun t g =>
    let b := (ibfEncode x.elem true rne ((row.drop (32 * g)).take 32)).1
    let n := g * 256 + p
    KvRun.andThen (t.kvPut x.slice (va + n * 4 * x.w) (b.elBytes x.elem)) (fun u =>
      u.kvPut x.slice (va + x.kHdr + 2 * n) (leBytes 2 b.hdr))) s (List.range (x.d / 32))

/-- Write the V blocks of a group of 32 positions of a block from its rows: blocks along the positions, whole sectors of each
plane. -/
def State.writeV (s : State) (x : Seq) (va grp : Nat) (rows : List (List Val)) : KvRun :=
  let bs := (List.range x.d).map (fun d => (ibfEncode x.elem true rne (rows.map (fun r => r.getD d default))).1)
  KvRun.andThen (s.kvPut x.slice (va + x.vEl + grp * x.d * 4 * x.w) (bs.flatMap (fun b => b.elBytes x.elem))) (fun t =>
    t.kvPut x.slice (va + x.vHdr + 2 * grp * x.d) (bs.flatMap (fun b => leBytes 2 b.hdr)))

/-- The values of the V row of position p from the bytes of a block. -/
def Seq.vRow (x : Seq) (bytes : List Byte) (p : Nat) : List Val :=
  (List.range x.d).map (fun d =>
    let n := p / 32 * x.d + d
    (Blk.ofBytes x.elem (bytesAt bytes (x.vEl + n * 4 * x.w) (4 * x.w)) (bytesAt bytes (x.vHdr + 2 * n) 2)).val
      x.elem 1 true (p % 32))

/-- The values of the K row of position p from the bytes of a block. -/
def Seq.kRow (x : Seq) (bytes : List Byte) (p : Nat) : List Val :=
  (List.range (x.d / 32)).flatMap (fun g =>
    let n := g * 256 + p
    (Blk.ofBytes x.elem (bytesAt bytes (n * 4 * x.w) (4 * x.w)) (bytesAt bytes (x.kHdr + 2 * n) 2)).vals x.elem 1 true)

/-- FP32 values as bytes. -/
def f32Bytes (l : List Nat) : List Byte := l.flatMap (leBytes 4)

/-- The tail of a layer and group, allocated if it is not there. -/
def State.openTail (s : State) (i layer g : Nat) : KvM (State × Nat) :=
  let x := s.seq i
  let va := look 0 x.tails (lgKey layer g)
  if va ≠ 0 then .ok (s, va)
  else ((s.room x.slice x.tailBytes).bind (fun t => kvOpt (t.kvPlace x.slice x.tailBytes))).map (fun r =>
    (r.1.setSeq i (fun y => { y with tails := put 0 y.tails (lgKey layer g) r.2 }), r.2))

/-- The first n rows of a tail, and the failure of the sectors that cannot be read. -/
def State.tailRows (s : State) (x : Seq) (va n : Nat) : List (List Nat) × KvFail :=
  let bs := ((s.kvRead x.slice va (n * 4 * x.d)).2).getD []
  ((List.range n).map (fun r => unpackCodes 32 x.d (bytesAt bs (r * 4 * x.d) (4 * x.d))), memFail (s.kvBad x.slice va (n * 4 * x.d)))

/-- Write V rows, from row `r` on, into the tail at `va`. -/
def State.putTail (s : State) (x : Seq) (va r : Nat) (rows : List (List Nat)) : KvRun :=
  s.kvPut x.slice (va + r * 4 * x.d) (rows.flatMap f32Bytes)

/-! ### APPEND -/

/-- The block of an index of a layer and group, made fit to be changed (R190, R192): a private copy where it
is shared, or where an ATTEND captured it and it was truncated or lies on flash; brought back where it lies on
flash. -/
def State.ownBlock (s : State) (i layer g n : Nat) : KvM (State × KvFail × Nat) :=
  let b := (s.seq i).blk layer g n
  let k := s.kvb b
  if 1 < k.refs || ((k.cut || k.away) && k.caught != 0) then
    (s.copyBlock i b 0).map (fun r =>
      let t := (r.1.setSeq i (fun y => { y with blocks := put 0 y.blocks (blkKey layer g n) (r.2.2 + 1) })).unref b
      (if 1 < k.refs then t.count 0x4100 0x0D 1 else t, r.2.1, r.2.2))
  else if k.loc = .lost then .ok (s, .lost, b)
  else if k.away then (s.bringBack b).map (fun t => (t.pinFetched b false, .none, b))
  else .ok (s.stayBlock b, .none, b)

/-- The block that position p of a layer and group goes to: new at the start of a block. -/
def State.blockFor (s : State) (i layer g p : Nat) : KvM (State × KvFail × Nat) :=
  let x := s.seq i
  let key := blkKey layer g (p / 256)
  if look 0 x.blocks key = 0 then
    (s.newBlock x.slice x.blockBytes 16).bind (fun r => (r.1.setEntry i key (r.2 + 1)).map (fun t => (t, .none, r.2)))
  else s.ownBlock i layer g (p / 256)

/-- Append one position of a layer and group: its key row, and its value row into the tail; the last
position of a group of 32 encodes the group, the last of a block releases the tail (R182). -/
def State.appendOne (s : State) (i layer g p : Nat) (kr vr : List Val) : KvRun :=
  (s.blockFor i layer g p).bind (fun r =>
    (r.1.openTail i layer g).bind (fun o =>
      let x := o.1.seq i
      let va := (o.1.kvb r.2.2).va
      KvRun.andThen (.ok (o.1, r.2.1)) (fun t => KvRun.andThen (t.writeK x va (p % 256) kr) (fun u =>
        KvRun.andThen (u.putTail x o.2 (p % 32) [vr.map to32]) (fun v =>
          if p % 32 ≠ 31 then .ok (v, .none)
          else
            let rows := v.tailRows x o.2 32
            KvRun.andThen (.ok (v, rows.2)) (fun w =>
              (w.writeV x va (p % 256 / 32) (rows.1.map (fun l => l.map (elemVal 9)))).map (fun e =>
                (if p % 256 = 255 then e.1.dropTail i layer g else e.1, e.2))))))))

/-- Append positions one after another. -/
def State.appendRun (s : State) (i layer g p : Nat) (rows : List (List Val × List Val)) : KvRun :=
  foldKv (fun t (r : Nat × List Val × List Val) => t.appendOne i layer g (p + r.1) r.2.1 r.2.2) s
    ((List.range rows.length).zip rows)

/-- The rows of one group in an APPEND source: K rows then V rows. -/
def srcRows (fmt d count : Nat) (bs : List Byte) (g : Nat) : List (List Val × List Val) :=
  let w := elemWidth fmt / 8 * d
  let row (n : Nat) : List Val := (unpackCodes (elemWidth fmt) d (bytesAt bs (n * w) w)).map (elemVal fmt)
  (List.range count).map (fun r => (row (2 * g * count + r), row ((2 * g + 1) * count + r)))

/-- Append `n` positions of every group of a layer from its length `len` on. -/
def State.appendAll (s : State) (i layer len fmt n : Nat) (src : List Byte) : KvRun :=
  foldKv (fun t g => t.appendRun i layer g len (srcRows fmt (s.seq i).d n src g)) s (List.range (s.seq i).groups)

/-- APPEND (R187, R188). -/
def State.kvAppend (s : State) (q : QCtx) (k : KvCmd) : State :=
  let sl := q.slice.val
  let h := k.handle.toNat
  let i := h % 2 ^ 18
  let x := s.seq i
  let layer := k.layer.toNat
  let n := k.count.toNat
  let fmt := k.srcfmt.toNat
  let len := s.kvLen q k
  let bytes := x.groups * 2 * n * x.d * (elemWidth fmt / 8)
  if k.reserved ∨ (fmt ≠ 7 ∧ fmt ≠ 4) ∨ n = 0 ∨ 65536 < n then s.kvDone q h 3 len
  else if !(s.handleOk sl h) then s.kvDone q h 1 len
  else if x.layers ≤ layer ∨ k.pos.toNat ≠ len then s.kvDone q h 4 len
  else if 4194304 < len + n then s.kvDone q h 5 len
  else if !(s.mapped sl (s.qPasid q) k.addr.toNat bytes false) then s.kvDone q h 8 len
  else
    let r := s.vread sl (s.qPasid q) k.addr.toNat bytes
    match r.2 with
    | .ok src => s.kvEnd q h len (r.1.appendAll i layer len fmt n src) (fun t =>
        ((t.setSeq i (fun y => { y with lens := put 0 y.lens layer (len + n) })).use sl 6 n).kvDone q h 0 (len + n))
    | _ => match r.1.appendAll i layer len fmt n [] with
      | .error .full => s.kvDone q h 6 len
      | .error .stopped => s.stopDemotion.kvDone q h 6 len
      | .ok _ => r.1.kvDone q h 9 len

/-! ### FORK and TRUNCATE -/

/-- Fill a tail with the first n rows of the incomplete group of a sequence `src` at length `pos`: from its
tail, or decoded from its block (R187, R191). A sequence that goes back within its group keeps its tail; one that goes back to
another group leaves a captured tail to its readers and takes a new one (R190). -/
def State.fillTail (s : State) (src i layer g pos : Nat) : KvRun :=
  let x := s.seq src
  let n := pos % 32
  let b := x.blk layer g (pos / 256)
  let old := look 0 x.tails (lgKey layer g)
  let same := x.len layer / 32 = pos / 32 && old != 0
  if n = 0 || (same && src == i) then .ok (s, .none)
  else
    let k := s.kvb b
    let rows : List (List Nat) × KvFail :=
      if same then s.tailRows x old n
      else if k.loc = .lost then ([], .lost)
      else match (s.kvBytes b).2 with
        | some bs => ((List.range n).map (fun m => (x.vRow bs (pos % 256 / 32 * 32 + m)).map to32), .none)
        | none => ([], .memErr (s.kvBad k.slice k.va k.size))
    let t := if old != 0 && s.tailCaught x.slice old && src == i then s.dropTail i layer g else s
    (t.openTail i layer g).bind (fun r => KvRun.andThen (.ok (r.1, rows.2)) (fun u => u.putTail x r.2 0 rows.1))

/-- The layer and group pairs of a geometry. -/
def Seq.lgs (x : Seq) : List (Nat × Nat) :=
  (List.range x.layers).flatMap (fun l => (List.range x.groups).map (fun g => (l, g)))

/-- Share one block with a new handle; a block whose count would pass 65,535 is copied (R191). -/
def State.shareBlock (s : State) (i key b : Nat) : KvRun :=
  if 65535 ≤ (s.kvb b).refs then
    (s.copyBlock i b 16).bind (fun r => (r.1.setEntry i key (r.2.2 + 1)).map (fun t => (t, r.2.1)))
  else (s.room (s.kvb b).slice 16).bind (fun t =>
    ((t.setKvb b (fun k => { k with refs := k.refs + 1 })).setEntry i key (b + 1)).map (fun u => (u, .none)))

/-- The new sequence of a FORK from handle index `src` to length `pos`, with nothing shared yet. -/
def State.forkSeq (s : State) (i src pos : Nat) : State :=
  let x := s.seq src
  s.setSeq i (fun y => { x with
    gen := y.gen, lens := (List.range x.layers).foldl (fun m l => put 0 m l pos) [], blocks := [], tails := [], pages := [] })

/-- Share the first `pos` positions of every layer and group of `src` with handle index `i` (R191). -/
def State.forkAll (s : State) (i src pos : Nat) : KvRun :=
  let x := s.seq src
  foldKv (fun u (lg : Nat × Nat) =>
    KvRun.andThen (foldKv (fun v n => v.shareBlock i (blkKey lg.1 lg.2 n) (x.blk lg.1 lg.2 n)) u (List.range ((pos + 255) / 256)))
      (fun v => v.fillTail src i lg.1 lg.2 pos)) s x.lgs

/-- FORK (R187, R191). -/
def State.kvFork (s : State) (q : QCtx) (k : KvCmd) : State :=
  let sl := q.slice.val
  let h := k.handle.toNat
  let src := k.src.toNat % 2 ^ 18
  let x := s.seq src
  let pos := k.pos.toNat
  if k.reserved then s.kvDone q h 3 0
  else if !(s.handleOk sl k.src.toNat) then s.kvDone q h 1 0
  else if (s.slice sl).quota.handles ≤ s.handlesUsed sl then s.kvDone q h 2 0
  else if (List.range x.layers).any (fun l => decide (x.len l < pos)) then s.kvDone q h 4 0
  else
    let i := s.freeIndex
    s.kvEnd q h 0 ((s.forkSeq i src pos).forkAll i src pos) (fun u => u.kvDone q (u.handleOf i) 0 0)

/-- Shorten one layer and group to `pos` (R187): the tail, which goes with the open block (R182); the block that holds `pos`, which
is made private where it is shared (R192); then the blocks wholly beyond it. -/
def State.cutGroup (s : State) (i layer pos : Nat) (g : Nat) : KvRun :=
  let x := s.seq i
  if pos = x.len layer then .ok (s, .none)
  else KvRun.andThen (s.fillTail i i layer g pos) (fun t =>
    let u := if pos % 256 = 0 then t.dropTail i layer g else t
    let b := (u.seq i).blk layer g (pos / 256)
    let r : KvRun :=
      if pos % 256 = 0 then .ok (u, .none)
      else if 1 < (u.kvb b).refs then (u.ownBlock i layer g (pos / 256)).map (fun r => (r.1, r.2.1))
      else .ok (u.setKvb b (fun k => { k with cut := k.cut || k.caught != 0 }), .none)
    r.map (fun v =>
      ((((List.range ((x.len layer + 255) / 256)).filter (fun n => decide ((pos + 255) / 256 ≤ n))).foldl (fun w n =>
        ((w.setKvb (x.blk layer g n) (fun k => { k with pins := k.pins.erase i })).unref (x.blk layer g n)).setSeq i
          (fun y => { y with blocks := put 0 y.blocks (blkKey layer g n) 0 })) v.1).trimTable i, v.2)))

/-- Shorten every group of the layers named. -/
def State.cutAll (s : State) (i pos : Nat) (ls : List Nat) : KvRun :=
  foldKv (fun t l => foldKv (fun u g => u.cutGroup i l pos g) t (List.range (s.seq i).groups)) s ls

/-- TRUNCATE (R187). -/
def State.kvTruncate (s : State) (q : QCtx) (k : KvCmd) : State :=
  let h := k.handle.toNat
  let i := h % 2 ^ 18
  let x := s.seq i
  let pos := k.pos.toNat
  let ls := x.layerList k.layer.toNat
  let len := s.kvLen q k
  if k.reserved then s.kvDone q h 3 len
  else if !(s.handleOk q.slice.val h) then s.kvDone q h 1 len
  else if ls.any (fun l => decide (x.layers ≤ l) || decide (x.len l < pos)) then s.kvDone q h 4 len
  else s.kvEnd q h len (s.cutAll i pos ls)
    (fun t => (t.setSeq i (fun y => { y with lens := ls.foldl (fun m l => put 0 m l pos) y.lens })).kvDone q h 0
      (if k.layer.toNat = 0xFFFF then 0 else pos))

/-! ### PIN, UNPIN, QUERY, SETCEIL -/

/-- The blocks of a range of positions of the layers named. -/
def Seq.rangeBlocks (x : Seq) (ls : List Nat) (pos n : Nat) : List Nat :=
  if n = 0 then []
  else (ls.flatMap (fun l => (List.range x.groups).flatMap (fun g =>
    (List.range ((pos + n - 1) / 256 - pos / 256 + 1)).map (fun m => x.blk l g (pos / 256 + m))))).eraseDups

/-- Whether a range of positions lies in every layer named. -/
def Seq.rangeOk (x : Seq) (ls : List Nat) (pos n : Nat) : Bool :=
  ls.all (fun l => decide (l < x.layers) && decide (pos + n ≤ x.len l))

/-- Storage for every block on flash of a list. -/
def State.reserveAll (s : State) (bs : List Nat) : KvRun := foldKv (fun t b => (t.reserve b).map (fun u => (u, .none))) s bs

/-- PIN (R194, R197): sets the floor, takes storage for the blocks on flash and starts their reads; it completes at once where
there are none, and else with the last of them. -/
def State.kvPin (s : State) (q : QCtx) (k : KvCmd) : State :=
  let sl := q.slice.val
  let h := k.handle.toNat
  let i := h % 2 ^ 18
  let x := s.seq i
  let ls := x.layerList k.layer.toNat
  let len := s.kvLen q k
  let bs := x.rangeBlocks ls k.pos.toNat k.count.toNat
  let t := bs.foldl (fun u b => (u.stayBlock b).setKvb b (fun y => { y with pins := insSet y.pins i })) s
  let away := bs.filter (fun b => (s.kvb b).away)
  if k.reserved then s.kvDone q h 3 len
  else if !(s.handleOk sl h) then s.kvDone q h 1 len
  else if !(x.rangeOk ls k.pos.toNat k.count.toNat) then s.kvDone q h 4 len
  else if s.kvCeil sl < t.kvFloor sl then s.kvDone q h 7 len
  else s.kvEnd q h len ((t.reserveAll away).map (fun r => (r.1, if bs.any (fun b => (s.kvb b).loc == .lost) then .lost else .none)))
    (fun u =>
      if away.isEmpty then u.kvDone q h 0 len
      else
        let v := away.foldl (fun v b => v.setKvb b (fun y => if y.loc = .flash then { y with loc := .fetching } else y)) u
        { v with kv := { v.kv with pinning := v.kv.pinning ++ [⟨q, i, h, len, away,
          bs.filter (fun b => !((s.kvb b).pins.contains i)),
          (bs.filter (fun b => (s.kvb b).loc == .demoting)).map (fun b => (b, (s.kvb b).lba)), false⟩] } })

/-- UNPIN (R187). -/
def State.kvUnpin (s : State) (q : QCtx) (k : KvCmd) : State :=
  let h := k.handle.toNat
  let i := h % 2 ^ 18
  let x := s.seq i
  let ls := x.layerList k.layer.toNat
  let len := s.kvLen q k
  if k.reserved then s.kvDone q h 3 len
  else if !(s.handleOk q.slice.val h) then s.kvDone q h 1 len
  else if !(x.rangeOk ls k.pos.toNat k.count.toNat) then s.kvDone q h 4 len
  else ((x.rangeBlocks ls k.pos.toNat k.count.toNat).foldl
    (fun t b => t.setKvb b (fun y => { y with pins := y.pins.erase i })) s).kvDone q h 0 len

/-- KiB rounded up. -/
def kib (n : Nat) : Nat := (n + 1023) / 1024

/-- The QUERY record (Table 6-3a). -/
def State.kvRecord (s : State) (i first : Nat) : List Byte :=
  let x := s.seq i
  let bs := x.refs.eraseDups
  let n := min 16 (x.layers - first)
  let res := ((bs.filter (fun b => (s.kvb b).va != 0)).map (fun b => (s.kvb b).size)).sum +
    x.tails.length * x.tailBytes + 16 * x.blocks.length
  let pin := ((bs.filter (fun b => (s.kvb b).pins.contains i)).map (fun b => (s.kvb b).size)).sum
  leBytes 2 x.layers ++ leBytes 1 x.groups ++ leBytes 1 x.dim ++ leBytes 1 x.elem ++ leBytes 1 n ++ leBytes 2 first ++
    leBytes 4 (kib res) ++ leBytes 4 (kib pin) ++
    (List.range 16).flatMap (fun l => leBytes 3 (if l < n then x.len (first + l) else 0))

/-- QUERY (R187). -/
def State.kvQuery (s : State) (q : QCtx) (k : KvCmd) : State :=
  let sl := q.slice.val
  let h := k.handle.toNat
  let i := h % 2 ^ 18
  let first := if k.layer.toNat = 0xFFFF then 0 else k.layer.toNat
  if k.reserved then s.kvDone q h 3 0
  else if !(s.handleOk sl h) then s.kvDone q h 1 0
  else if (s.seq i).layers ≤ first then s.kvDone q h 4 0
  else match s.vwrite sl (s.qPasid q) k.addr.toNat (s.kvRecord i first) with
    | (_, .xlate) => s.kvDone q h 8 0
    | (t, .memerr) => ({ t with mem := s.mem, poison := s.poison }).kvDone q h 9 0
    | (t, .ok _) => t.kvDone q h 0 0

/-- KV_SETCEIL (R193, R194): the ceiling takes effect at the next tick. -/
def State.kvSetCeil (s : State) (q : QCtx) (k : KvCmd) : State :=
  let sl := q.slice.val
  let h := k.handle.toNat
  let n := k.bytes.toNat
  let x := s.slice sl
  let outside := (x.pages.filter (fun p => !p.kv)).length * 0x200000
  if k.reserved ∨ n % 0x200000 ≠ 0 then s.kvDone q h 3 0
  else if n < s.kvFloor sl then s.kvDone q h 7 0
  else if x.quota.memBytes < outside + n then s.kvDone q h 6 0
  else ({ s with kv := { s.kv with newCeil := put 0 s.kv.newCeil sl (n + 1) } }).kvDone q h 0 0

/-- KV_SETCEIL. -/
def execKvSetceil (q : QCtx) (d : List Byte) (s : State) : Res := .next (s.kvDesc q 9 d (fun k t => t.kvSetCeil q k))

/-! ### Commands in their order on a handle (R189, R190) -/

/-- The handle on which a command acts. -/
def KvWait.target (w : KvWait) : Nat := (if w.op = .fork then w.cmd.src else w.cmd.handle).toNat

/-- Carry a command out. -/
def State.kvExec (s : State) (w : KvWait) : State :=
  match w.op with
  | .fork => s.kvFork w.q w.cmd
  | .append => s.kvAppend w.q w.cmd
  | .truncate => s.kvTruncate w.q w.cmd
  | .pin => s.kvPin w.q w.cmd
  | .unpin => s.kvUnpin w.q w.cmd
  | .release => s.kvRelease w.q w.cmd
  | .query => s.kvQuery w.q w.cmd

/-- Whether an APPEND to a layer needs a tail that an ATTEND captured. -/
def State.tailHeld (s : State) (i layer : Nat) : Bool :=
  let x := s.seq i
  (List.range x.groups).any (fun g => s.tailCaught x.slice (look 0 x.tails (lgKey layer g)))

/-- Whether a command waits: behind an earlier one on its handle, of which `before` wait and others read flash, or, as an APPEND,
for a captured tail (R189, R190); those of a slice that is being destroyed end otherwise. -/
def State.kvBlocked (s : State) (before : List KvWait) (w : KvWait) : Bool :=
  (s.slice w.q.slice.val).st == .destroying || s.handleOk w.q.slice.val w.target &&
    (before.any (fun v => v.target == w.target && v.q.slice == w.q.slice) || s.kv.pinning.any (fun p => p.idx == w.target % 2 ^ 18) ||
      (w.op == .append && s.tailHeld (w.target % 2 ^ 18) w.cmd.layer.toNat))

/-- The first waiting command that may go on, with those before it and those behind it. -/
def State.kvReady (s : State) : List KvWait → List KvWait → Option (KvWait × List KvWait)
  | _, [] => none
  | before, w :: ws => if s.kvBlocked before w then s.kvReady (before ++ [w]) ws else some (w, before ++ ws)

/-- Carry out the commands that need wait no longer. -/
def State.kvDrain : Nat → State → State
  | 0, s => s
  | n + 1, s =>
    match s.kvReady [] s.kv.waiting with
    | none => s
    | some r => State.kvDrain n (({ s with kv := { s.kv with waiting := r.2 } }).kvExec r.1)

/-- Let the waiting commands go on. -/
def State.kvGoOn (s : State) : State := State.kvDrain s.kv.waiting.length s

/-- A command on a handle comes to the manager (R189). -/
def State.kvSubmit (s : State) (w : KvWait) : State :=
  if s.kvBlocked s.kv.waiting w then { s with kv := { s.kv with waiting := s.kv.waiting ++ [w] } }
  else (s.kvExec w).kvGoOn

/-- KV_FORK. -/
def execKvFork (q : QCtx) (d : List Byte) (s : State) : Res := .next (s.kvDesc q 2 d (fun k t => t.kvSubmit ⟨q, .fork, k⟩))

/-- KV_APPEND. -/
def execKvAppend (q : QCtx) (d : List Byte) (s : State) : Res := .next (s.kvDesc q 3 d (fun k t => t.kvSubmit ⟨q, .append, k⟩))

/-- KV_TRUNCATE. -/
def execKvTruncate (q : QCtx) (d : List Byte) (s : State) : Res := .next (s.kvDesc q 4 d (fun k t => t.kvSubmit ⟨q, .truncate, k⟩))

/-- KV_PIN. -/
def execKvPin (q : QCtx) (d : List Byte) (s : State) : Res := .next (s.kvDesc q 5 d (fun k t => t.kvSubmit ⟨q, .pin, k⟩))

/-- KV_UNPIN. -/
def execKvUnpin (q : QCtx) (d : List Byte) (s : State) : Res := .next (s.kvDesc q 6 d (fun k t => t.kvSubmit ⟨q, .unpin, k⟩))

/-- KV_RELEASE. -/
def execKvRelease (q : QCtx) (d : List Byte) (s : State) : Res := .next (s.kvDesc q 7 d (fun k t => t.kvSubmit ⟨q, .release, k⟩))

/-- KV_QUERY. -/
def execKvQuery (q : QCtx) (d : List Byte) (s : State) : Res := .next (s.kvDesc q 8 d (fun k t => t.kvSubmit ⟨q, .query, k⟩))

/-- The ceilings set since the last tick take effect (R193). -/
def State.applyCeilings (s : State) : State :=
  { s with kv := { s.kv with newCeil := [], ceil := s.kv.newCeil.foldl (fun m e => put 0 m e.1 (e.2 - 1)) s.kv.ceil } }

/-! ### Tiering (R195–R199) -/

/-- Demotion score of a block (R195). -/
def KvBlock.score (k : KvBlock) (tick weight : Nat) : Nat := (tick - k.tick) * 256 / (256 + weight * k.mu)

/-- The lowest place that references a block: handle index, then layer, group and block index. -/
def State.firstRef (s : State) (sl b : Nat) : Nat :=
  (s.seqsOf sl).foldr (fun e r => e.2.blocks.foldr (fun p r' =>
    if p.2 = b + 1 then e.1 * 2 ^ 40 + p.1 else r') r) (2 ^ 64)

/-- Insert into a list that is in order of `le`. -/
def insertBy {α : Type} (le : α → α → Bool) (a : α) : List α → List α
  | [] => [a]
  | b :: l => if le a b then a :: b :: l else b :: insertBy le a l

/-- Sort by insertion. -/
def sortBy {α : Type} (le : α → α → Bool) (l : List α) : List α := l.foldr (insertBy le) []

/-- The demotable blocks of a slice that are not under demotion, in score order: the higher score first, ties by place (R195). -/
def State.ranking (s : State) (sl : Nat) : List Nat :=
  let bs := (s.kv.blocks.map Prod.fst).filter (fun b => s.demotable sl b && (s.kvb b).loc == .hbm)
  (sortBy (fun (a b : Nat × Nat × Nat) => decide (b.1 < a.1) || (a.1 == b.1 && decide (a.2.1 ≤ b.2.1)))
    (bs.map (fun b => ((s.kvb b).score s.mod.tick (s.obj 0x4100 6), s.firstRef sl b, b)))).map (fun r => r.2.2)

/-- Begin demotions in order until the resident bytes left are at or below the mark. -/
def State.demoteTo (mark : Nat) : List Nat → Nat → State → State
  | [], _, s => s
  | b :: bs, left, s =>
    if left ≤ mark then s
    else
      let n := (s.kvb b).size
      match s.canDemote n with
      | some o => State.demoteTo mark bs (left - n) (s.startDemotion b o)
      | none => s.stopDemotion

/-- The tiering loop for one slice (R196). -/
def State.tierSlice (s : State) (sl : Nat) : State :=
  let c := s.kvCeil sl
  let r := s.ranking sl
  let res := s.kvResident sl - ((s.kv.blocks.filter (fun e => e.2.slice == sl && e.2.loc == .demoting)).map (fun e => e.2.size)).sum
  let t := if s.obj 0x4100 7 * c < res * 100 then State.demoteTo (s.obj 0x4100 8 * c / 100) r res s else s
  { t with kv := { t.kv with victims := put [] t.kv.victims sl ((r.filter (fun b => (t.kvb b).loc == .hbm)).take 64) } }

/-- TIER_PERIOD (R196, R199); a period stretched by load shedding is counted. -/
def execTierPeriod (late : Bool) (s : State) : Res :=
  .next (if !s.fwRuns then s
    else
      let t := if late then s.count 0x4100 0x0E 1 else s
      t.sliceIds.foldl (fun v sl => v.tierSlice sl) t)

/-- KV_DEMOTE_WRITTEN (R196): a demotion that was abandoned frees nothing. -/
def execKvDemoteWritten (b : Nat) (s : State) : Res :=
  .next (if (s.kvb b).loc = .demoting then s.spill b else s)

/-- Whether the floor of a slice has room to hold block b: pinned, open and held bytes, each block once, fit under the ceiling
(R194, R216). -/
def State.holdFits (s : State) (sl b : Nat) : Bool :=
  let floor := s.kv.blocks.filter (fun e => e.2.slice == sl && (e.1 == b || e.2.pins != [] || e.2.hold || s.isOpen sl e.1))
  decide ((floor.map (fun e => e.2.size)).sum ≤ s.kvCeil sl)

/-- A block read back becomes resident where it fits under the ceiling or in place of the first victim, and
else stays on flash (R198); one that a deferred ATTEND wanted is held while it fits (R216). -/
def State.settle (s : State) (b : Nat) : State :=
  let k := s.kvb b
  match s.bringBack b with
  | .ok t => (t.setKvb b (fun x => { x with hold := x.defer && s.holdFits k.slice b, defer := false })).pinFetched b false
  | .error _ => s.setKvb b (fun x => { x with loc := .flash, defer := false })

/-- KV_BLOCK_FETCHED (R198). -/
def State.kvFetched (s : State) (b : Nat) (ok : Bool) : State :=
  let k := s.kvb b
  if k.loc ≠ .fetching then s
  else if !ok then
    (((s.setKvb b (fun x => { x with loc := .lost, copy := [], lba := 0, va := 0 })).kvUnmap k.slice).count 0x4100 0x0C 1).pinFetched b true
  else
    let t := s.setKvb b (fun x => { x with loc := .fetched })
    if k.caught = 0 then t.settle b else t

/-- KV_BLOCK_FETCHED. -/
def execKvBlockFetched (b : Nat) (ok : Bool) (s : State) : Res := .next (s.kvFetched b ok).kvGoOn

/-- Release every handle and block of a slice (R200). -/
def State.kvDestroy (s : State) (sl : Nat) : State :=
  let t := (s.seqsOf sl).foldl (fun u e => u.dropSeq e.1) s
  let u := { t with kv := { t.kv with
    blocks := t.kv.blocks.filter (fun e => e.2.slice != sl), pinning := t.kv.pinning.filter (fun p => p.q.slice.val != sl)
    waiting := t.kv.waiting.filter (fun w => w.q.slice.val != sl), oldTails := t.kv.oldTails.filter (fun o => o.slice != sl)
    ceil := put 0 t.kv.ceil sl 0, newCeil := put 0 t.kv.newCeil sl 0, victims := put [] t.kv.victims sl [] } }
  u.kvUnmap sl

end Sys2Proof.Machine
end

