-- ==== Sys2Proof/Machine/Link.lean ====
section
/-!
DEFINITION. Epjor transactions (R237–R262): Hats and flits, queueing for a port, answers, the checks of
R249, memory transactions, doorbells and events, and the SP9's own requests (R250, R251).
-/
namespace Sys2Proof
open Sys2Proof.Machine

/-! ### Hats and flits -/

/-- The 128-bit Hat with `FSEQ`, `LEN` and `FINAL` (Table 8-2). -/
def Hat.nat (h : Hat) (seq len : Nat) (final : Bool) : Nat :=
  h.ver.toNat + h.typ.toNat * 2 ^ 2 + h.vc.toNat * 2 ^ 7 + seq % 4096 * 2 ^ 9 + h.dest.toNat * 2 ^ 21 +
    h.src.toNat * 2 ^ 42 + h.stag.toNat * 2 ^ 63 + h.pasid.toNat * 2 ^ 72 + h.ttag.toNat * 2 ^ 92 +
    len % 256 * 2 ^ 104 + b2n final * 2 ^ 112 + b2n h.enc * 2 ^ 113 + b2n h.defer * 2 ^ 114 +
    h.kslot.toNat * 2 ^ 115 + b2n h.rsv * 2 ^ 127

/-- The Hat of a 128-bit value. -/
def hatOf (n : Nat) : Hat where
  ver := BitVec.ofNat 2 n
  typ := BitVec.ofNat 5 (bits n 6 2)
  vc := BitVec.ofNat 2 (bits n 8 7)
  dest := BitVec.ofNat 21 (bits n 41 21)
  src := BitVec.ofNat 21 (bits n 62 42)
  stag := BitVec.ofNat 9 (bits n 71 63)
  pasid := BitVec.ofNat 20 (bits n 91 72)
  ttag := BitVec.ofNat 12 (bits n 103 92)
  enc := bit n 113
  defer := bit n 114
  kslot := BitVec.ofNat 12 (bits n 126 115)
  rsv := bit n 127

end Sys2Proof

namespace Sys2Proof.Machine

/-- One step of CRC-64 ECMA-182 in reflected form (R237). -/
def crc64Bit (c : Nat) : Nat := if c % 2 = 1 then (c / 2) ^^^ 0xC96C5795D7870F42 else c / 2

/-- CRC-64 with initial value and final exclusive-or of all ones. -/
def crc64 (bs : List Byte) : Nat :=
  (bs.foldl (fun c b => (List.range 8).foldl (fun x _ => crc64Bit x) (c ^^^ b.toNat)) (2 ^ 64 - 1)) ^^^ (2 ^ 64 - 1)

/-- The 256 bytes of a flit (Table 8-1). -/
def flitBytes (hat : Nat) (body : List Byte) : List Byte :=
  let b := leBytes 16 hat ++ bytesAt body 0 232
  b ++ leBytes 8 (crc64 b)

/-- The bytes of a numbered flit. -/
def Flit.bytes (f : Flit) : List Byte := flitBytes (f.hat.nat f.seq f.body.length f.final) f.body

/-- Whether a type names an answer (R247); a reserved type is taken as one that does. -/
def isRequest (t : Nat) : Bool := [0x03, 0x05, 0x06, 0x08, 0x0A, 0x0C, 0x0E].contains t || decide (0x13 ≤ t)

/-- Whether a type is an answer. -/
def isAnswer (t : Nat) : Bool := [0x04, 0x07, 0x09, 0x0B, 0x0D, 0x0F, 0x12].contains t

/-! ### Ports -/

/-- The binding of a slice and PASID on a port, where that slice exists. -/
def State.binding (s : State) (p sl pasid : Nat) : Option Nat :=
  if s.sliceExists sl then (s.binds p).find? (fun v => bits v 28 20 == sl && bits v 19 0 == pasid) else none

/-- Count an event of a port (Table 8-9). -/
def State.countPort (s : State) (p sub n : Nat) : State := if p < 8 then s.count (portObj p) sub n else s

/-! ### Encryption (R259–R261) -/

end Sys2Proof.Machine

namespace Sys2Proof
open Sys2Proof.Machine

/-- The additional authenticated data of a Hat. -/
def Hat.aad (h : Hat) : List Byte := leBytes 16 (h.nat 0 0 false)

end Sys2Proof

namespace Sys2Proof.Machine

/-- Whether a device slot is one of a slice's key slots. -/
def State.ownsSlot (s : State) (sl d : Nat) : Bool :=
  let x := s.slice sl
  decide (x.keyBase ≤ d) && decide (d < x.keyBase + x.quota.keySlots)

/-- The plain body of an encrypted transaction, or the status that refuses it (R260). -/
def State.openBody (s : State) (t : Txn) : State × (Nat ⊕ List Byte) :=
  let sl := t.hat.stag.toNat
  let d := t.hat.kslot.toNat
  let k := s.kslot d
  if !(s.ownsSlot sl d) ∨ k.st = .empty ∨ k.st = .needsKey then (s, .inl 0x08)
  else if k.st = .exhausted then (s, .inl 0x09)
  else
    let ctr := fieldAt t.body 0 8
    let n := t.body.length
    let ct := (t.body.drop 8).take (n - 24)
    match gcmOpen (leBytes 32 k.key) (slotNonce k.fixed false ctr) t.hat.aad ct (t.body.drop (n - 16)) with
    | none => (s, .inl 0x0A)
    | some plain =>
      if !(k.win0.ok 65 ctr) then (s, .inl 0x0A)
      else ((s.setKslot d (fun x => { x with win0 := x.win0.take 65 ctr })).invoke sl d, .inr plain)

/-! ### Answers (R247, R250, R261) -/

end Sys2Proof.Machine

namespace Sys2Proof
open Sys2Proof.Machine

/-- The Hat of an answer. -/
def Hat.reply (h : Hat) (typ : Nat) : Hat :=
  let e := h.enc && typ != 0x12
  { h with ver := 1, typ := BitVec.ofNat 5 typ, vc := BitVec.ofNat 2 (typeVc typ), dest := h.src, src := h.dest
           enc := e, defer := false, kslot := if e then h.kslot else 0, rsv := false }

end Sys2Proof

namespace Sys2Proof.Machine

/-- Send an ERROR, always in plain form; `DETAIL` zero but where an engine failed. -/
def State.sendError (s : State) (p : Nat) (h : Hat) (status detail : Nat) : State :=
  let b := leBytes 4 status ++ leBytes 4 detail
  (((s.emit (.epjor p 0x12 h.ttag.toNat status b)).sendOn p ownIngress (h.reply 0x12) b).countPort p 0x16 1).use
    h.stag.toNat 13 1

/-- Send an answer from a port of the crossbar: plain, or under the slot of its request with direction 1 and the slot's counter. -/
def State.sendAnswer (s : State) (ingress p : Nat) (h : Hat) (typ : Nat) (body : List Byte) : State :=
  let r := h.reply typ
  let d := h.kslot.toNat
  let k := s.kslot d
  if r.enc then
    if k.st = .exhausted then s.sendError p h 0x09 0
    else if k.st = .empty ∨ k.st = .needsKey then s.sendError p h 0x08 0
    else
      let iv := slotNonce k.fixed true k.inv
      let key := leBytes 32 k.key
      let ct := gcmCrypt key iv body
      let b := leBytes 8 k.inv ++ ct ++ gcmTag key iv r.aad ct
      (((s.invoke h.stag.toNat d).emit (.epjor p typ h.ttag.toNat 0 b)).sendOn p ingress r b).use h.stag.toNat 13 1
  else ((s.emit (.epjor p typ h.ttag.toNat 0 body)).sendOn p ingress r body).use h.stag.toNat 13 1

/-- Whether a request is in flight on a port: its source and tag (R250). -/
def Port.inFlight (x : Port) (h : Hat) : Bool := x.tags.any (fun g => g.src == h.src && g.ttag == h.ttag)

/-- Answer a request that is still in flight, from a port of the crossbar; one lost to a link reset has no answer (R265). -/
def State.replyFrom (s : State) (ingress p : Nat) (h : Hat) (typ : Nat) (body : List Byte) : State :=
  if (s.port p).tags.contains h then s.sendAnswer ingress p h typ body else s

/-- An answer of the switch island's own engines. -/
def State.reply (s : State) (p : Nat) (h : Hat) (typ : Nat) (body : List Byte) : State := s.replyFrom ownIngress p h typ body

/-- Answer a request in flight with ERROR. -/
def State.replyError (s : State) (p : Nat) (h : Hat) (status detail : Nat) : State :=
  if (s.port p).tags.contains h then s.sendError p h status detail else s

/-! ### Checks of a terminated transaction (R239, R248, R249) -/

end Sys2Proof.Machine

namespace Sys2Proof
open Sys2Proof.Machine

/-- Whether the Hat and segmentation are well formed for the type (R239). -/
def Txn.hatOk (t : Txn) : Bool :=
  let h := t.hat
  let ty := h.typ.toNat
  t.seg && h.ver == 1 && !h.rsv && decide (ty < 0x13) && h.vc.toNat == typeVc ty && (!h.defer || ty == 0x0A) &&
    (h.enc || h.kslot == 0) && (!h.enc || decide (24 ≤ t.body.length))

end Sys2Proof

namespace Sys2Proof.Machine

/-- Whether a length can be that of a plain body of a type (Table 8-4): what can be told of an encrypted body before it is
opened. -/
def lengthOk (ty n : Nat) : Bool :=
  if ty = 0x03 then n == 16
  else if ty = 0x05 ∨ ty = 0x06 then decide (17 ≤ n) && decide (n ≤ 4112)
  else if ty = 0x08 then n == 32
  else if ty = 0x0A then decide (64 ≤ n)
  else if ty = 0x0C then decide (32 ≤ n)
  else if ty = 0x0E then n == 16
  else if ty = 0x10 then n == 8
  else if ty = 0x11 then n == 24
  else true

/-- Whether a plain body is well formed for its type (Table 8-4). -/
def bodyOk (ty : Nat) (b : List Byte) : Bool :=
  let n := b.length
  let hdr := decide (16 ≤ n) && decide (fieldAt b 0 8 < 2 ^ 57) && fieldAt b 13 3 == 0
  let len := fieldAt b 8 4
  if ty = 0x03 then hdr && n == 16 && fieldAt b 12 1 == 0 && decide (1 ≤ len) && decide (len ≤ 4096)
  else if ty = 0x05 ∨ ty = 0x06 then
    hdr && fieldAt b 12 1 == 0 && decide (1 ≤ len) && decide (len ≤ 4096) && n == 16 + len
  else if ty = 0x08 then hdr && n == 32 && len == 8 && decide (fieldAt b 12 1 ≤ 1)
  else if ty = 0x0A then decide (64 ≤ n)
  else if ty = 0x0C then decide (32 ≤ n)
  else if ty = 0x0E then n == 16 && decide (fieldAt b 8 1 ≤ 1) && fieldAt b 9 7 == 0
  else if ty = 0x10 then n == 8
  else if ty = 0x11 then n == 24
  else true

/-- A posted transaction fails a check after the source check (R258): it is discarded, and the slice
hears of it. -/
def State.dropPosted (s : State) (p : Nat) (h : Hat) (status : Nat) : State :=
  (s.countPort p 0x17 1).event (.slice h.stag.toNat) 0x0802 p h.typ.toNat status

/-- Refuse a transaction: ERROR for a request, else the discard of R258. -/
def State.refuse (s : State) (p : Nat) (h : Hat) (status : Nat) : State :=
  if isRequest h.typ.toNat then s.sendError p h status 0 else s.dropPosted p h status

/-- Refuse a transaction at the switch's source and binding checks (R258, R275, R276). -/
def State.refuseAtSwitch (s : State) (p : Nat) (h : Hat) (status : Nat) : State :=
  if isRequest h.typ.toNat then s.sendError p h status 0 else s.count 0x3100 9 1

/-- Flits that a body fills (R238). -/
def flitsOf (n : Nat) : Nat := max 1 ((n + 231) / 232)

/-- Free receive buffers of a channel: the cumulative credit field advances (R244). -/
def Port.release (x : Port) (vc n : Nat) : Port :=
  { x with freed := put 0 x.freed vc ((look 0 x.freed vc + n) % 65536), owed := true }

/-- Whether the link layer has assembled a transaction that waits for its service. -/
def State.awaits (s : State) (p : Nat) (t : Txn) : Bool := (s.port p).arrived.any (fun a => a.txn == t)

/-- Take the transaction out of those assembled by the link layer. -/
def State.dropArrived (s : State) (p : Nat) (t : Txn) : State :=
  s.setPort p (fun x => { x with arrived := x.arrived.eraseP (fun a => a.txn == t) })

/-- Free the receive buffers that a transaction occupied (R244). -/
def State.freeBuffers (s : State) (p : Nat) (t : Txn) : State :=
  s.setPort p (fun x => x.release t.hat.vc.toNat (flitsOf t.body.length))

/-- Take the transaction out of those assembled by the link layer; its buffers are free. -/
def State.takeArrived (s : State) (p : Nat) (t : Txn) : State :=
  if s.awaits p t then (s.dropArrived p t).freeBuffers p t else s

/-- How a transaction arrived: as the link layer recorded it, or with the command itself. One from a tunnel passed the source
and binding checks at the SP9 it entered by (R275). -/
def State.arrivalOf (s : State) (p : Nat) (t : Txn) : Arrival :=
  ((s.port p).arrived.find? (fun a => a.txn == t)).getD
    { txn := t, ingress := if p = tunnelPort then 16 else p
      bind := if p = tunnelPort then some 0 else s.binding p t.hat.stag.toNat t.hat.pasid.toNat
      dup := isRequest t.hat.typ.toNat && (s.port p).inFlight t.hat, abort := false }

/-- Whether the switch keeps the order of two transactions of one ingress (R277): one channel and one destination. Those that
the SP9 terminates go to the internal port of their type (R273), and terminated memory transactions have no order (R253). -/
def keepsOrder (self : Option Nat) (a t : Txn) : Bool :=
  a.hat.vc == t.hat.vc && a.hat.dest == t.hat.dest &&
    (self != some t.hat.dest.toNat || (a.hat.typ == t.hat.typ && !([0x03, 0x05, 0x06, 0x08].contains t.hat.typ.toNat)))

/-- Whether every transaction that must go before this one has gone (R277). -/
def State.myTurn (s : State) (p : Nat) (t : Txn) : Bool :=
  ((s.port p).arrived.takeWhile (fun a => a.txn != t)).all
    (fun a => a.ingress != (s.arrivalOf p t).ingress || !(keepsOrder s.selfEp a.txn t))

/-- Take a transaction for termination. A request whose tag is not in flight yet has it in flight from now (R250). -/
def State.accept (s : State) (p : Nat) (t : Txn) : State :=
  if s.awaits p t then s.takeArrived p t
  else if isRequest t.hat.typ.toNat && !(s.arrivalOf p t).dup then s.setPort p (fun x => { x with tags := x.tags ++ [t.hat] })
  else s

/-- A transaction that comes out of a tunnel on a network island's port (R337). -/
def State.arriveFar (s : State) (ingress : Nat) (t : Txn) : State :=
  let mine := isRequest t.hat.typ.toNat && s.selfEp == some t.hat.dest.toNat
  s.setPort tunnelPort (fun x => { x with
    arrived := x.arrived ++ [⟨t, ingress, some 0, mine && x.inFlight t.hat, false⟩]
    tags := if mine && !(x.inFlight t.hat) then x.tags ++ [t.hat] else x.tags })

/-- Statuses of a slice whose Epjor transactions are answered with BUSY (R439). -/
def SliceState.isBusy (x : SliceState) : Bool := x == .freezing || x == .frozen || x == .restoring

/-- The slot of a slice's STEP group (R281, R299). -/
def State.stepGroup (s : State) (sl : Nat) : Option Nat :=
  (s.groups.find? (fun e => (e.2.st == .active || e.2.st == .failed) && e.2.slice == sl && e.2.step)).map Prod.fst

/-- Whether inbound writes of a slice are held at its step boundary: from the SP9's own arrival until the
actions of R303 are done (R302). -/
def State.holding (s : State) (sl : Nat) : Bool :=
  match s.stepGroup sl with
  | some k => (sget s.groups k).raised || (sget s.groups k).release.isSome
  | none => false

/-- Whether a transaction from another SP9 is held at its slice's step boundary: it would write device memory. -/
def State.heldBack (s : State) (p : Nat) (t : Txn) : Bool :=
  p == tunnelPort && [0x05, 0x06, 0x08, 0x0C].contains t.hat.typ.toNat && s.selfEp == some t.hat.dest.toNat &&
    s.holding t.hat.stag.toNat

/-- Refuse a terminated transaction at the binding check: SLICE, or for a posted one the discard of R258 and R276. -/
def State.refuseBinding (s : State) (p : Nat) (h : Hat) : State :=
  let t := s.count 0x3100 7 1
  if isRequest h.typ.toNat then t.sendError p h 0x07 0 else (t.count 0x3100 9 1).dropPosted p h 0x07

/-- Serve a transaction of an allowed type that arrives for the SP9 itself: the checks of R248 and R249 in their order, then `k`
on the plain body. -/
def State.terminate (s : State) (p : Nat) (t : Txn) (types : List Nat) (k : List Byte → State → State) : State :=
  let h := t.hat
  let ty := h.typ.toNat
  let far := p == tunnelPort
  let a := s.arrivalOf p t
  let finish (u : State) (b : List Byte) : State :=
    if !(bodyOk ty b) then u.refuse p h 0x06
    else if (u.slice h.stag.toNat).st.isBusy && isRequest ty then u.refuse p h 0x0C
    else k b (u.use h.stag.toNat 12 1)
  if (!far && !(s.port p).usable) ∨ !((types.contains ty) || decide (0x13 ≤ ty)) ∨ s.selfEp ≠ some h.dest.toNat ∨
      s.heldBack p t ∨ !(s.myTurn p t) then s
  else if !far && h.src.toNat != s.partnerEp p then (s.takeArrived p t).countPort p 0x12 1
  else
    let s := s.accept p t
    if a.abort then (if isRequest ty && !a.dup then s.sendError p h 0x0D 0 else s)
    else if s.mod.svc ≠ .normal then
      if isRequest ty then s.sendError p h 0x0E 0 else s.countPort p 0x17 1
    else match a.bind with
      | none => s.refuseBinding p h
      | some b =>
        if a.dup then (s.countPort p 0x13 1).event (.slice h.stag.toNat) 0x0801 p h.ttag.toNat 0
        else if !t.hatOk ∨ !(if h.enc then lengthOk ty (t.body.length - 24) else bodyOk ty t.body) then s.refuse p h 0x06
        else if h.enc then
          match s.openBody t with
          | (u, .inl e) => (if e = 0x0A then u.countPort p 0x15 1 else u).refuse p h e
          | (u, .inr plain) => finish u plain
        else if bit b 30 then s.refuse p h 0x08
        else finish s t.body

/-! ### Memory transactions (R252, R253) -/


/-- The status of an access to a range for a request, or the DPA of its first byte. -/
def State.epAccess (s : State) (sl pasid va n : Nat) (write : Bool) (aligned : Bool) : Nat ⊕ Nat :=
  match s.leaf sl pasid va, s.leaf sl pasid (va + n - 1) with
  | some a, some b =>
    if write && !(bit a 1 && bit b 1) then .inl 0x03
    else if !aligned then .inl 0x04
    else .inr (leafAddr a va)
  | _, _ => .inl 0x02

/-- READ: data, or the first status that applies. -/
def State.epRead (s : State) (p : Nat) (h : Hat) (b : List Byte) : State :=
  let va := fieldAt b 0 8
  let n := fieldAt b 8 4
  match s.epAccess h.stag.toNat h.pasid.toNat va n false (decide (va % 4096 + n ≤ 4096)) with
  | .inl e => s.replyError p h e 0
  | .inr a => match s.memRead a n with
    | (t, some bs) => t.replyFrom (8 + miOf a) p h 0x04 bs
    | (t, none) => t.replyError p h 0x05 0

/-- EPJOR_READ. -/
def execEpjorRead (p : Fin 9) (t : Txn) (s : State) : Res :=
  .next (s.terminate p.val t [0x03] (fun b u => u.epRead p.val t.hat b))

/-- WRITE and WRITE_FINAL: the data lands whole, and the acknowledgement says that it is visible (R253). -/
def State.epWrite (s : State) (p : Nat) (h : Hat) (b : List Byte) : State :=
  let va := fieldAt b 0 8
  let n := fieldAt b 8 4
  match s.epAccess h.stag.toNat h.pasid.toNat va n true (decide (va % 4096 + n ≤ 4096)) with
  | .inl e => s.replyError p h e 0
  | .inr a => match s.memWrite a (b.drop 16) with
    | (t, true) => t.replyFrom (8 + miOf a) p h 0x07 []
    | (t, false) => t.replyError p h 0x05 0

/-- EPJOR_WRITE. -/
def execEpjorWrite (p : Fin 9) (t : Txn) (s : State) : Res :=
  .next (s.terminate p.val t [0x05] (fun b u => u.epWrite p.val t.hat b))

/-- The writes that a WRITE_FINAL waits for (R253): those of its `SRC`, `STAG` and `PASID` that arrived before it on the port's
BULK channel and are not done. -/
def State.writesBefore (s : State) (p : Nat) (t : Txn) : List Txn :=
  (((s.port p).arrived.takeWhile (fun a => a.txn != t)).map Arrival.txn).filter (fun w =>
    (w.hat.typ == 0x05 || w.hat.typ == 0x06) && w.hat.src == t.hat.src && w.hat.stag == t.hat.stag && w.hat.pasid == t.hat.pasid)

/-- EPJOR_WRITE_FINAL: the writes before it are carried out, then it is (R253). -/
def execEpjorWriteFinal (p : Fin 9) (t : Txn) (s : State) : Res :=
  .next (((s.writesBefore p.val t).foldl (fun u w => u.terminate p.val w [0x05, 0x06] (fun b v => v.epWrite p.val w.hat b)) s).terminate
    p.val t [0x06] (fun b u => u.epWrite p.val t.hat b))

/-- The value an ATOMIC leaves (R253): FADD adds, CAS writes where the old value compares equal. -/
def atomicNew (cas : Bool) (old operand compare : Nat) : Nat :=
  if cas then (if old = compare then operand else old) else (old + operand) % 2 ^ 64

/-- ATOMIC: the old value is returned (R146, R253). -/
def State.epAtomic (s : State) (p : Nat) (h : Hat) (b : List Byte) : State :=
  let va := fieldAt b 0 8
  match s.epAccess h.stag.toNat h.pasid.toNat va 8 true (va % 8 == 0) with
  | .inl e => s.replyError p h e 0
  | .inr a => match s.memRead a 8 with
    | (t, none) => t.replyError p h 0x05 0
    | (t, some bs) =>
      let old := leNat bs
      let v := atomicNew (fieldAt b 12 1 == 1) old (fieldAt b 16 8) (fieldAt b 24 8)
      ((if v = old then t else (t.memWrite a (leBytes 8 v)).1)).replyFrom (8 + miOf a) p h 0x09 (leBytes 8 old)

/-- EPJOR_ATOMIC_FADD. -/
def execEpjorAtomicFadd (p : Fin 9) (t : Txn) (s : State) : Res :=
  .next (if !t.hat.enc && fieldAt t.body 12 1 == 1 then s
    else s.terminate p.val t [0x08] (fun b u => u.epAtomic p.val t.hat b))

/-- EPJOR_ATOMIC_CAS. -/
def execEpjorAtomicCas (p : Fin 9) (t : Txn) (s : State) : Res :=
  .next (if !t.hat.enc && fieldAt t.body 12 1 == 0 then s
    else s.terminate p.val t [0x08] (fun b u => u.epAtomic p.val t.hat b))

/-! ### Doorbells and events (R256–R258) -/

/-- The glove slot of a device queue number of a slice. -/
def State.slotOfDev (s : State) (sl dev : Nat) : Option Nat :=
  ((s.slice sl).queues.find? (fun e => e.2.used && e.2.dev == dev)).map Prod.fst

/-- A doorbell dropped: counted, and the slice told (R256). -/
def State.doorbellRefused (s : State) (p : Nat) (h : Hat) : State :=
  (s.countPort p 0x18 1).event (.slice h.stag.toNat) 0x0802 p 0x10 0

/-- A DOORBELL of an accelerator (R256, R426, R439); every kind of queue of Table 14-9 takes doorbells. -/
def State.epDoorbell (s : State) (p : Nat) (h : Hat) (b : List Byte) : State :=
  let sl := h.stag.toNat
  let v := fieldAt b 4 4
  match s.slotOfDev sl (fieldAt b 0 4 % 2 ^ 14) with
  | none => s.doorbellRefused p h
  | some slot =>
    let q := s.queue sl slot
    if 2 ^ q.cfg.log2Size < (v + 2 ^ 32 - q.dqHead) % 2 ^ 32 then s.doorbellRefused p h
    else s.produce sl slot v

/-- EPJOR_DOORBELL. -/
def execEpjorDoorbell (p : Fin 9) (t : Txn) (s : State) : Res :=
  .next (s.terminate p.val t [0x10] (fun b u => u.epDoorbell p.val t.hat b))

/-- EPJOR_EVENT (R257): the code and the data as received. -/
def execEpjorEvent (p : Fin 9) (t : Txn) (s : State) : Res :=
  .next (s.terminate p.val t [0x11] (fun b u =>
    u.ringEvent t.hat.stag.toNat (fieldAt b 0 2) (fieldAt b 2 4) (fieldAt b 6 8) (fieldAt b 14 10)))

/-! ### Own requests (R250, R251) -/

/-- The request header of an own request. -/
def OwnReq.header (r : OwnReq) : List Byte :=
  leBytes 8 r.addr ++ leBytes 4 (match r.data with | some d => d.length | none => r.len) ++ leBytes 4 0

/-- The lowest free tag of the SP9's space on a port. -/
def Port.freeTag (x : Port) : Nat := lowestFree ((x.own.filter (fun e => e.2 != .free)).map Prod.fst) 4096 0

/-- Send one own request under a tag. -/
def State.sendOwn (s : State) (p tag : Nat) (r : OwnReq) : State :=
  let typ := if r.data.isSome then 0x05 else 0x03
  ((s.setPort p (fun x => { x with own := sput x.own tag (.used r) })).sendOn p ownIngress
    (s.hatTo p typ r.slice r.pasid tag) (r.header ++ r.data.getD [])).use r.slice 13 1

/-- Send the waiting own requests of a port while tags are free. -/
def State.pumpOwn (p : Nat) : Nat → State → State
  | 0, s => s
  | n + 1, s =>
    match (s.port p).ownWait with
    | [] => s
    | r :: rs =>
      let tag := (s.port p).freeTag
      if 4096 ≤ tag then s
      else State.pumpOwn p n ((s.setPort p (fun x => { x with ownWait := rs })).sendOwn p tag r)

/-- Ask a partner: a request waits for a tag. -/
def State.ask (s : State) (p : Nat) (rs : List OwnReq) : State :=
  State.pumpOwn p rs.length (s.setPort p (fun x => { x with ownWait := x.ownWait ++ rs }))

/-- The pieces of a range of a partner's memory that cross no 4 KiB boundary: offset and length. -/
def pieces4k (va : Nat) : Nat → Nat → Nat → List (Nat × Nat)
  | 0, _, _ => []
  | k + 1, o, n =>
    if n = 0 then []
    else
      let m := min n (4096 - (va + o) % 4096)
      (o, m) :: pieces4k va k (o + m) (n - m)

/-- TAG_QUARANTINE_END (R251). -/
def execTagQuarantineEnd (p : Fin 8) (tag : BitVec 12) (s : State) : Res :=
  .next (if sget (s.port p.val).own tag.toNat = .quarantined then
      let t := s.setPort p.val (fun x => { x with own := sput x.own tag.toNat .free })
      State.pumpOwn p.val (t.port p.val).ownWait.length t
    else s)

end Sys2Proof.Machine
end

