-- ==== Sys2Proof/Machine/Attend.lean ====
section
/-!
DEFINITION. Cache-side attention (R202–R216): the checks and the capture of an ATTEND, its chunks, the merge of
their partials, the response, fetch stalls and deadlines.
-/
namespace Sys2Proof.Machine

/-! ### FP32 helpers (R206–R208) -/

/-- −∞ in FP32. -/
def negInf32 : Nat := 0xFF800000

/-- The empty partial (R205). -/
def emptyPart (d : Nat) : Part := ⟨negInf32, 0, List.replicate d 0⟩

/-- The larger of two FP32 codes; a NaN propagates, and +0 lies above −0 (R208). -/
def attMax (a b : Nat) : Nat :=
  if elemVal 9 a = .nan ∨ elemVal 9 b = .nan then nanCode 9
  else if (elemVal 9 a).isZero && (elemVal 9 b).isZero then min a b
  else if (elemVal 9 a).lt (elemVal 9 b) then b else a

/-- `exp` of the special-function unit, with exp(−∞) = 0 and a NaN carried through (R206, R208). -/
def attExp (a : Nat) : Nat := if a = negInf32 then 0 else if elemVal 9 a = .nan then nanCode 9 else sfu 1 a

/-- Whether an FP32 code is above zero. -/
def pos32 (a : Nat) : Bool := (Val.fin false 0 1).lt (elemVal 9 a)

/-- The merge of two partials (R207). -/
def mergePart (a b : Part) : Part :=
  if (elemVal 9 a.l).isZero then b
  else if (elemVal 9 b.l).isZero then a
  else
    let m := attMax a.m b.m
    let wa := mul32 a.l (attExp (sub32 a.m m))
    let wb := mul32 b.l (attExp (sub32 b.m m))
    let l := add32 wa wb
    let r := sfu 3 l
    ⟨m, l, List.zipWith (fun x y => fma32 (mul32 wb r) y (mul32 (mul32 wa r) x)) a.o b.o⟩

/-- The fold factor (R205): the largest power of two, at most 32, with R at most 256 / F. -/
def foldOf (rows : Nat) : Nat := ([32, 16, 8, 4, 2].find? (fun f => decide (rows * f ≤ 256))).getD 1

/-! ### One block of one row (R205, R206) -/

/-- The geometry of the captured sequence. -/
def Attend.geo (a : Attend) : Seq := { (default : Seq) with dim := a.dim, elem := a.elem }

/-- The head dimension. -/
def Attend.d (a : Attend) : Nat := a.geo.d

/-- The query of a row of a group, as values. -/
def Attend.query (a : Attend) (g row : Nat) : List Val :=
  let w := elemWidth a.qfmt
  let n := ((g - a.grp) * a.rows + row) * a.d * w / 8
  (unpackCodes w a.d (bytesAt a.queries n (a.d * w / 8))).map (elemVal a.qfmt)

/-- One past the last position of a chunk that a row sees (R204). -/
def Attend.limit (a : Attend) (row hi : Nat) : Nat := if a.causal then min hi (a.qpos + row / a.heads + 1) else hi

/-- The first tail position: the start of the incomplete group of 32 (R182). -/
def Attend.tailStart (a : Attend) : Nat := a.len / 32 * 32

/-- The weights of 256 scores after ibf8 (R82, R206). -/
def weights (s : List Nat) (mb : Nat) : List Val :=
  (List.range 8).flatMap (fun j =>
    (ibfEncode 4 true rne (((s.drop (32 * j)).take 32).map (fun v => elemVal 9 (attExp (sub32 v mb))))).1.vals 4 1 true)

/-- One block of the loop of R206 for one row: the accumulators and the weights noted for R209. -/
def Attend.blockRow (a : Attend) (g bi lo hi row : Nat) (ks vs tails : List (List Val)) (q : List Val)
    (acc : Part × List Weight) : Part × List Weight :=
  let f := foldOf a.rows
  let lim := a.limit row hi
  let live (i : Nat) : Bool := decide (lo ≤ bi * 256 + i) && decide (bi * 256 + i < lim)
  let s := (List.range 256).map (fun i => if live i then mul32 a.scale (mmaCell f 0 q (ks.getD i [])) else negInf32)
  let mb := s.foldl attMax acc.1.m
  if mb = negInf32 then acc
  else
    let alpha := attExp (sub32 acc.1.m mb)
    let pv := weights s mb
    let pq := pv.map to32
    let sum := canon32 pq
    let main := (List.range 256).map (fun i => if a.tailStart ≤ bi * 256 + i then .fin false 0 1 else pv.getD i default)
    let o := (List.range a.d).map (fun d =>
      fma32 alpha (acc.1.o.getD d 0) (mmaCell f 0 main (vs.map (fun v => v.getD d (.fin false 0 1)))))
    let tp := (List.range 256).filter (fun i => decide (a.tailStart ≤ bi * 256 + i) && live i)
    let o' := tp.foldl (fun r i =>
      List.zipWith (fun x v => fma32 (pq.getD i 0) (to32 v) x) r (tails.getD (bi * 256 + i - a.tailStart) [])) o
    (⟨mb, fma32 alpha acc.1.l sum, o'⟩, acc.2 ++ [⟨g, bi, row, sum, mb⟩])

/-- The partial that a row's accumulators give at the end of a chunk. -/
def Part.close (p : Part) : Part :=
  if pos32 p.l then ⟨p.m, p.l, p.o.map (fun x => mul32 x (sfu 3 p.l))⟩ else emptyPart p.o.length

/-- The blocks of a chunk. -/
def Chunk.blks (c : Chunk) : List Nat := (List.range ((c.hi + 255) / 256 - c.lo / 256)).map (fun i => c.lo / 256 + i)

/-- The block number captured for a block of a group. -/
def Attend.captured (a : Attend) (g bi : Nat) : Nat := look 0 a.blocks (g * 16384 + bi)

/-- The rows of a captured tail, from its bytes. -/
def Attend.tailRows (a : Attend) (bs : List Byte) : List (List Val) :=
  (List.range (a.len - a.tailStart)).map (fun r =>
    (unpackCodes 32 a.d (bytesAt bs (r * 4 * a.d) (4 * a.d))).map (elemVal 9))

/-- The partials of a chunk from the bytes of its blocks and of its group's tail. -/
def Attend.chunkRows (a : Attend) (c : Chunk) (data : List (List Byte)) (tail : List Byte) : List Part × List Weight :=
  let x := a.geo
  let ks := data.map (fun b => (List.range 256).map (x.kRow b))
  let vs := data.map (fun b => (List.range 256).map (x.vRow b))
  let tails := a.tailRows tail
  let rs := (List.range a.rows).map (fun row =>
    let q := a.query c.grp row
    (List.range data.length).foldl (fun acc j =>
      a.blockRow c.grp (c.lo / 256 + j) c.lo c.hi row (ks.getD j []) (vs.getD j []) tails q acc) (emptyPart a.d, []))
  (rs.map (fun r => r.1.close), rs.flatMap Prod.snd)

/-! ### State access and responses (R210) -/

def State.att (s : State) (i : Nat) : Attend := sget s.attends i
def State.setAtt (s : State) (i : Nat) (f : Attend → Attend) : State := { s with attends := smod s.attends i f }

/-- The response header (Table 7-2). -/
def attHeader (status chunks len ready : Nat) : List Byte :=
  leBytes 1 status ++ [0] ++ leBytes 2 (min chunks 0xFFFF) ++ leBytes 4 len ++ leBytes 4 ready ++ leBytes 4 0

/-- Count a completion with a status, for the device and the slice. -/
def State.countAtt (s : State) (sl status : Nat) : State :=
  if status = 0 then (s.count 0x4140 4 1).use sl 4 1
  else if status = 1 then (s.count 0x4140 5 1).use sl 5 1
  else s.count 0x4140 6 1

/-- Answer an ATTEND that failed before it was in flight. -/
def State.attFail (s : State) (p : Nat) (h : Hat) (status chunks len : Nat) : State :=
  (s.countAtt h.stag.toNat status).reply p h 0x0B (attHeader status chunks len 0)

/-- Chunks per group. -/
def Attend.perGroup (a : Attend) : Nat := if a.ngrp = 0 then 0 else a.chunks.length / a.ngrp

/-! ### Capture and its end (R190, R204, R214) -/

/-- The block numbers an ATTEND holds. -/
def Attend.held (a : Attend) : List Nat := a.blocks.map Prod.snd

/-- Capture one block: it stays in its tier, and a flash read starts where it lies on flash. -/
def State.capture1 (s : State) (b : Nat) : State :=
  (s.stayBlock b).setKvb b (fun k => { k with caught := k.caught + 1, loc := if k.loc = .flash then .fetching else k.loc })

/-- Release one captured block: freed where nothing references it, settled where it waits for this. -/
def State.release1 (s : State) (b : Nat) : State :=
  let t := s.setKvb b (fun k => { k with caught := k.caught - 1 })
  let k := t.kvb b
  if k.caught ≠ 0 then t
  else if k.refs = 0 then t.freeIfDead b
  else if k.loc = .fetched then t.settle b
  else t

/-- Take an ATTEND out of flight and release what it captured. -/
def State.dropAtt (s : State) (i : Nat) : State :=
  let a := s.att i
  ((a.held.foldl State.release1 { s with attends := drop1 s.attends i }).freeTails a.hat.stag.toNat).kvGoOn

/-- End an ATTEND with a status and no rows. -/
def State.endAtt (s : State) (i status ready : Nat) : State :=
  let a := s.att i
  ((s.dropAtt i).countAtt a.hat.stag.toNat status).reply a.port a.hat 0x0B (attHeader status a.perGroup a.len ready)

/-- End every ATTEND that a predicate selects: with AT_ABORTED, or without an answer. -/
def State.endAtts (s : State) (p : Attend → Bool) (answer : Bool) : State :=
  ((s.attends.filter (fun e => p e.2)).map Prod.fst).foldl (fun t i =>
    if answer then t.endAtt i 9 0 else (t.dropAtt i).count 0x4140 6 1) s

/-- End the ATTENDs of a slice with AT_ABORTED (R213). -/
def State.abortAtts (s : State) (sl : Nat) : State := s.endAtts (fun a => a.hat.stag.toNat == sl) true

/-! ### Serving islands (R211, R212) -/

/-- The islands that can serve ATTEND work of a slice. -/
def State.serving (s : State) (sl : Nat) : List Nat :=
  let x := s.slice sl
  (List.range 16).filter (fun n => s.isReady n && look 0 x.windows n != 0 && decide (2 ≤ x.quota.islands.getD n 0))

/-- Whether a block can be read in stacked memory. -/
def KvBlock.readable (k : KvBlock) : Bool := k.loc == .hbm || k.loc == .demoting || k.loc == .fetched

/-- Whether every block of a chunk is readable. -/
def State.chunkReady (s : State) (a : Attend) (c : Chunk) : Bool :=
  c.blks.all (fun bi => (s.kvb (a.captured c.grp bi)).readable)

/-- Move an ATTEND's unfinished chunks off an island whose readiness bit has cleared. -/
def State.moveChunks1 (s : State) (n i : Nat) : State :=
  let a := s.att i
  let mv := a.chunks.filter (fun c => c.island == n && c.st != .done)
  if mv.isEmpty then s
  else match s.serving a.hat.stag.toNat with
    | [] => s.endAtt i 7 0
    | m :: _ =>
      (s.setAtt i (fun y => { y with chunks := y.chunks.map (fun c =>
        if c.island == n && c.st != .done then { c with island := m, st := .queued } else c) })).count 0x4140 7 mv.length

/-- Move the unfinished chunks of every ATTEND off an island (R212). -/
def State.moveChunks (s : State) (n : Nat) : State := (s.attends.map Prod.fst).foldl (fun t i => t.moveChunks1 n i) s

/-! ### Arrival (R202–R204, R214) -/

/-- Whether the fields of a request are in range (R203), all but the ranges and the number of chunks. -/
def attFormatOk (b : List Byte) (d : Nat) : Bool :=
  let n := fieldAt b 7 1
  let q := fieldAt b 16 1
  let r := fieldAt b 17 1 * fieldAt b 18 1
  [4, 5, 7].contains q && decide (1 ≤ fieldAt b 17 1) && decide (fieldAt b 17 1 ≤ 64) && decide (1 ≤ fieldAt b 18 1) &&
    decide (fieldAt b 18 1 ≤ 16) && decide (1 ≤ n) && decide (n ≤ 64) && decide (fieldAt b 19 1 ≤ 8) &&
    (match elemVal 9 (fieldAt b 20 4) with | .fin .. => true | _ => false) &&
    decide (r ≤ 256) && decide (n * r * d ≤ 32768) && decide (fieldAt b 30 2 ≤ 1) && fieldAt b 32 32 == 0 &&
    b.length == 64 + n * r * d * (elemWidth q / 8)

/-- The non-empty chunks of a range on the grid of C blocks (R206). -/
def spans (ps pe log : Nat) : List (Nat × Nat) :=
  let w := 256 * 2 ^ log
  if pe ≤ ps then []
  else (List.range ((pe - 1) / w + 1 - ps / w)).map (fun i =>
    (max ps ((ps / w + i) * w), min pe ((ps / w + i + 1) * w)))

/-- The tails of the groups served that an ATTEND captures: those whose rows it reads (R190). -/
def Seq.captureTails (x : Seq) (layer pe : Nat) (gs : List Nat) : Store Nat :=
  if x.len layer % 32 = 0 ∨ pe ≤ x.len layer / 32 * 32 then []
  else gs.foldl (fun t g => put 0 t g (look 0 x.tails (lgKey layer g))) []

/-- Put a checked ATTEND in flight: capture, chunks queued to the serving islands in turn, flash reads. -/
def State.attStart (s : State) (p : Nat) (h : Hat) (b : List Byte) (x : Seq) (ps pe : Nat) (isl : List Nat) : State :=
  let layer := fieldAt b 4 2
  let gs := (List.range (fieldAt b 7 1)).map (fun i => fieldAt b 6 1 + i)
  let sp := spans ps pe (fieldAt b 19 1)
  let cs := gs.flatMap (fun g => sp.map (fun r => (g, r)))
  let bis := if pe ≤ ps then [] else (List.range ((pe - 1) / 256 + 1 - ps / 256)).map (fun i => ps / 256 + i)
  let caps := gs.flatMap (fun g => bis.map (fun i => (g * 16384 + i, x.blk layer g i)))
  let away := caps.any (fun c => (s.kvb c.2).away)
  let a : Attend := {
    port := p, hat := h, dim := x.dim, elem := x.elem, len := x.len layer, rows := fieldAt b 17 1 * fieldAt b 18 1
    heads := fieldAt b 17 1, qfmt := fieldAt b 16 1, scale := fieldAt b 20 4, causal := fieldAt b 30 2 == 1
    qpos := fieldAt b 24 4, deadline := if h.defer then fieldAt b 28 2 else 0, grp := fieldAt b 6 1, ngrp := fieldAt b 7 1
    queries := b.drop 64, blocks := caps, tails := x.captureTails layer pe gs
    chunks := (List.range cs.length).map (fun i =>
      let c := cs.getD i (0, 0, 0)
      ⟨c.1, c.2.1, c.2.2, isl.getD (i % isl.length) 0, .queued, [], []⟩) }
  let t := caps.foldl (fun u c => u.capture1 c.2) s
  let u := if away then (t.count 0x4100 0x0B 1).use x.slice 8 1 else t
  { u with attends := ins u.attends (lowestFree (u.attends.map Prod.fst) 2048 0) a }

/-- An ATTEND of an accelerator. -/
def State.epAttend (s : State) (p : Nat) (h : Hat) (b : List Byte) : State :=
  let sl := h.stag.toNat
  let hd := fieldAt b 0 4
  let x := s.seq (hd % 2 ^ 18)
  let layer := fieldAt b 4 2
  let len := if layer < x.layers then x.len layer else 0
  let ps := fieldAt b 8 4
  let pe := if fieldAt b 12 4 = 0xFFFFFFFF then len else fieldAt b 12 4
  let n := (spans ps pe (fieldAt b 19 1)).length
  if 2048 ≤ s.attends.length then s.attFail p h 8 0 0
  else if !(s.handleOk sl hd) then s.attFail p h 2 0 0
  else if !(attFormatOk b x.d) then s.attFail p h 3 0 len
  else if x.layers ≤ layer ∨ x.groups < fieldAt b 6 1 + fieldAt b 7 1 ∨ pe < ps ∨ len < pe then s.attFail p h 4 0 len
  else if 65536 < fieldAt b 7 1 * n then s.attFail p h 3 n len
  else
    let lost := ps < pe && (List.range (fieldAt b 7 1)).any (fun g =>
      (List.range ((pe - 1) / 256 + 1 - ps / 256)).any (fun i =>
        (s.kvb (x.blk layer (fieldAt b 6 1 + g) (ps / 256 + i))).loc == .lost))
    match s.serving sl with
    | [] => s.attFail p h 7 n len
    | isl => if lost then s.attFail p h 5 n len else s.attStart p h b x ps pe isl

/-- EPJOR_ATTEND. -/
def execEpjorAttend (p : Fin 9) (t : Txn) (s : State) : Res :=
  .next (s.terminate p.val t [0x0A] (fun b u => u.epAttend p.val t.hat b))

/-! ### Chunks (R206, R212, R214) -/

/-- Change one chunk. -/
def State.setChunk (s : State) (i c : Nat) (f : Chunk → Chunk) : State :=
  s.setAtt i (fun a => { a with chunks := modAt a.chunks c f })

/-- ATTEND_CHUNK_START: the island is ready and runs neither a kernel nor another chunk, the slice has its
turn there (R128), and every block of the chunk is readable. A chunk with a LOST block ends its ATTEND. -/
def State.chunkStart (s : State) (i c : Nat) : State :=
  let a := s.att i
  match a.chunks[c]? with
  | none => s
  | some k =>
    let n := k.island
    let sl := a.hat.stag.toNat
    let free := s.isReady n && !(s.launches.any (fun l => l.island == n && l.running)) && !(s.chunkRuns n) &&
      ((sget s.share n).cur.isNone || (sget s.share n).cur == some sl)
    if k.st ≠ .queued then s
    else if k.blks.any (fun bi => (s.kvb (a.captured k.grp bi)).loc == .lost) then s.endAtt i 5 0
    else if free && s.chunkReady a k then s.setChunk i c (fun y => { y with st := .running })
    else s

/-- ATTEND_CHUNK_START. -/
def execAttendChunkStart (i : Fin 2048) (c : Nat) (s : State) : Res := .next (s.chunkStart i.val c)

/-- Read the blocks of a chunk; none at an uncorrectable sector. -/
def State.chunkData (s : State) (a : Attend) (c : Chunk) : State × Option (List (List Byte)) :=
  c.blks.foldl (fun t bi =>
    match t.2 with
    | none => t
    | some ds => match t.1.kvBytes (a.captured c.grp bi) with
      | (u, some bs) => (u, some (ds ++ [bs]))
      | (u, none) => (u, none)) (s, some [])

/-- Read the captured tail rows of a chunk's group, where the chunk needs them; none at an uncorrectable sector. -/
def State.chunkTail (s : State) (a : Attend) (c : Chunk) : State × Option (List Byte) :=
  if a.tailStart < c.hi ∧ a.tailStart < a.len then
    s.kvRead a.hat.stag.toNat (look 0 a.tails c.grp) ((a.len - a.tailStart) * 4 * a.d)
  else (s, some [])

/-- ATTEND_CHUNK_COMPLETE: the chunk's partials are formed from the blocks and tail rows captured. -/
def State.chunkDone (s : State) (i c : Nat) : State :=
  let a := s.att i
  match a.chunks[c]? with
  | none => s
  | some k =>
    if k.st ≠ .running then s
    else match s.chunkData a k with
      | (t, none) => t.endAtt i 6 0
      | (t, some ds) =>
        match t.chunkTail a k with
        | (u, none) => u.endAtt i 6 0
        | (u, some tail) =>
          let r := a.chunkRows k ds tail
          u.setChunk i c (fun y => { y with st := .done, parts := r.1, stats := r.2 })

/-- ATTEND_CHUNK_COMPLETE. -/
def execAttendChunkComplete (i : Fin 2048) (c : Nat) (s : State) : Res := .next (s.chunkDone i.val c)

/-! ### Deadlines (R215, R216) -/

/-- ATTEND_DEADLINE: an ATTEND with `DEFER_OK` and a deadline completes AT_DEFERRED where a block it needs is
not readable; `ready` is the estimate of the fetches' end. Its fetches go on, and what they bring in is wanted. -/
def State.attDeadline (s : State) (i ready : Nat) : State :=
  let a := s.att i
  let waits := a.held.any (fun b => !((s.kvb b).readable) && (s.kvb b).loc != .lost)
  if a.deadline = 0 ∨ !waits then s
  else
    (a.held.foldl (fun t b => t.setKvb b (fun k => { k with defer := k.defer || k.loc == .fetching || k.loc == .fetched })) s).endAtt
      i 1 ready

/-- ATTEND_DEADLINE. -/
def execAttendDeadline (i : Fin 2048) (ready : BitVec 32) (s : State) : Res := .next (s.attDeadline i.val ready.toNat)

/-- DEFER_HOLD_EXPIRE (R216): the block leaves the floor. -/
def execDeferHoldExpire (b : Nat) (s : State) : Res := .next (s.setKvb b (fun k => { k with hold := false }))

/-! ### Completion (R207–R210) -/

/-- The final partial of a row: its chunk partials by the canonical tree. -/
def Attend.final (a : Attend) (g row : Nat) : Part :=
  let ps := (a.chunks.filter (fun c => c.grp == g)).map (fun c => c.parts.getD row (emptyPart a.d))
  canonTree mergePart (emptyPart a.d) ps.length ps

/-- One row of the response: O in BF16, then m and l. -/
def Part.bytes (p : Part) : List Byte :=
  p.o.flatMap (fun x => leBytes 2 (convert 7 rne (elemVal 9 x)).1) ++ leBytes 4 p.m ++ leBytes 4 p.l

/-- The rows of the response. -/
def Attend.rowBytes (a : Attend) : List Byte :=
  (List.range a.ngrp).flatMap (fun i => (List.range a.rows).flatMap (fun r => Part.bytes (a.final (a.grp + i) r)))

/-- A row's fraction on one block (R209). -/
def Attend.fraction (a : Attend) (w : Weight) : Val :=
  let p := a.final w.grp w.row
  if !(pos32 p.l) then .fin false 0 1
  else match elemVal 9 p.l with
    | .fin _ n d => ((elemVal 9 w.sum).mul (elemVal 9 (attExp (sub32 w.max p.m)))).mul (.fin false d n)
    | _ => .fin false 0 1

/-- `s` of R195 for a block: none where the share is not a number. -/
def Attend.share (a : Attend) (g bi : Nat) : Option Nat :=
  let ws := (a.chunks.flatMap Chunk.stats).filter (fun w => w.grp == g && w.blk == bi)
  match (ws.map a.fraction).foldl Val.add (.fin false 0 1) with
  | .fin _ n d => some (min 255 (255 * n / (d * (a.rows * a.ngrp))))
  | _ => none

/-- Note that an ATTEND has read a block (R195): its tick and mass; a share that is no number leaves a free
value in its place. -/
def State.noteRead (a : Attend) (s : State) (e : Nat × Nat) : State :=
  let sh := a.share (e.1 / 16384) (e.1 % 16384)
  let t := if sh.isSome then s else s.tick1
  t.setKvb e.2 (fun k => { k with
    tick := s.mod.tick, mu := (3 * k.mu + sh.getD (Config.free s.fresh % 256)) / 4 })

/-- ATTEND_COMPLETE: every chunk is done. -/
def State.attComplete (s : State) (i : Nat) : State :=
  let a := s.att i
  if (s.attends.any (fun e => e.1 == i)) && a.chunks.all (fun c => c.st == .done) then
    let t := a.blocks.foldl (State.noteRead a) s
    ((t.dropAtt i).countAtt a.hat.stag.toNat 0).reply a.port a.hat 0x0B (attHeader 0 a.perGroup a.len 0 ++ a.rowBytes)
  else s

/-- ATTEND_COMPLETE. -/
def execAttendComplete (i : Fin 2048) (s : State) : Res := .next (s.attComplete i.val)

end Sys2Proof.Machine
end

