-- ==== Sys2Proof/Machine/Sched.lean ====
section
/-!
DEFINITION. Traffic scheduling, shaping and guarantees (R341–R352, R356): the transmit queues of the logical
ports, their buckets and finish tags, the slice shapers and the samples. Times are in ns (log entry 20).
-/
namespace Sys2Proof.Machine

def State.setNet (s : State) (f : Net → Net) : State := { s with net := f s.net }

/-- The time of a command; it never goes back. -/
def State.at (s : State) (now : Nat) : State := s.setNet (fun n => { n with now := max n.now now })

/-! ### Ports (Table 10-1) -/

/-- The mode of the physical port of a logical port, and the port itself. -/
def State.ethMode (s : State) (p : Nat) : Nat := s.obj (0x3400 + p) 2

/-- Whether the mode of its physical port creates a logical port. -/
def State.lportExists (s : State) (l : Nat) : Bool := decide (l < 32) && decide (l % 4 < 2 ^ (s.ethMode (l / 4)))

/-- Whether a logical port is up. -/
def State.lportUp (s : State) (l : Nat) : Bool := bit s.net.up l

/-- Count an event of a logical port (Table 10-13). -/
def State.portCount (s : State) (l k n : Nat) : State := s.count (0x3400 + l / 4) (0x10 + 0x10 * (l % 4) + k) n

/-- The nominal rate of a logical port of a physical port, MB/s (R350). -/
def State.nominal (s : State) (p : Nat) : Nat := 100000 / 2 ^ (s.ethMode p)

/-- The capacity C of a physical port's logical ports (R351). -/
def State.capacity (s : State) (p : Nat) : Nat :=
  let lim := s.obj (0x3710 + p) 2
  if lim = 0 then s.nominal p else min lim (s.nominal p)

/-! ### Configuration records (Tables 11-1, 11-2) -/

/-- The record that a queue has by default. -/
def qDflt (q : Nat) : Nat :=
  if q = 0 then 64 + 5000 * 2 ^ 32 + 65536 * 2 ^ 96 + 1048576 * 2 ^ 128
  else 1 + 2 ^ 16 + 65536 * 2 ^ 96 + 1048576 * 2 ^ 128

/-- The record of a queue of a physical port, and its fields. -/
def State.qcfg (s : State) (p q : Nat) : Nat := look (qDflt q) s.net.qcfg (p * 2048 + q)
def qWeight (r : Nat) : Nat := bits r 15 0
def qRank (r : Nat) : Nat := bits r 16 16
def qZero (r : Nat) : Bool := bit r 17
def qMin (r : Nat) : Nat := bits r 63 32
def qMax (r : Nat) : Nat := bits r 95 64
def qBurst (r : Nat) : Nat := bits r 127 96
def qLimit (r : Nat) : Nat := bits r 159 128

/-- The slice shaper record of a slice in a network island, and its fields. -/
def ssDflt : Nat := 4194304 * 2 ^ 32
def State.sscfg (s : State) (k : Nat) : Nat := look ssDflt s.net.sscfg k
def ssMax (r : Nat) : Nat := bits r 31 0
def ssBurst (r : Nat) : Nat := bits r 63 32
def ssZero (r : Nat) : Bool := bit r 64

/-- The queues of a port whose record is not that of Table 11-1, and queue 0. -/
def State.portQueues (s : State) (p : Nat) : List Nat :=
  0 :: ((s.net.qcfg.map Prod.fst).filter (fun k => k / 2048 == p && k % 2048 != 0)).map (fun k => k % 2048)

/-- S0 and S1 of a port, for the records that `rec` gives (R350, R351). -/
def guarSum (rank : Nat) (rs : List Nat) : Nat := ((rs.filter (fun r => qRank r == rank)).map qMin).sum

/-- S0 or S1 of a port. -/
def State.guarS (s : State) (p rank : Nat) : Nat := guarSum rank ((s.portQueues p).map (s.qcfg p))

/-- The effective guarantee of a queue, MB/s (R351). -/
def State.guarantee (s : State) (p q : Nat) : Nat :=
  let r := s.qcfg p q
  let c := s.capacity p
  let s0 := s.guarS p 0
  let s1 := s.guarS p 1
  if s0 + s1 ≤ c then qMin r
  else if s0 ≤ c then (if qRank r = 0 then qMin r else qMin r * (c - s0) / s1)
  else if qRank r = 0 then qMin r * c / s0 else 0

/-- The factor applied to rank 1, in 1/65,536 (R351). -/
def State.guarFactor (s : State) (p : Nat) : Nat :=
  let c := s.capacity p
  let s0 := s.guarS p 0
  let s1 := s.guarS p 1
  if s0 + s1 ≤ c then 65536 else if s0 ≤ c then (c - s0) * 65536 / s1 else 0

/-! ### Buckets (R345, R347–R349) -/

/-- The balance of a bucket in 1/65,536 byte, filled at `rate` MB/s up to `cap` bytes; none is a full one. -/
def balance (b : Option Bucket) (rate cap now : Nat) : Int :=
  match b with
  | none => (cap * 65536 : Nat)
  | some x => min ((cap * 65536 : Nat) : Int) (x.tok + ((rate * (now - x.last) * 65536 / 1000 : Nat) : Int))

/-- A bucket after a charge of n bytes. -/
def charge (b : Option Bucket) (rate cap now n : Nat) : Bucket :=
  ⟨balance b rate cap now - ((n * 65536 : Nat) : Int), now⟩

/-- The counted length of a frame on a physical port (R341). -/
def State.counted (s : State) (p len : Nat) : Nat :=
  (max 1 ((len : Int) + signed 32 (s.obj (0x3710 + p) 1))).toNat

/-- The depth of a guarantee bucket (R345). -/
def State.guarDepth (s : State) (p : Nat) : Nat := 2 * s.counted p (s.obj (0x3400 + p) 4)

/-- Queue q of logical port l. -/
def State.txq (s : State) (l q : Nat) : TxQueue := sget s.net.txq (l * 2048 + q)
def State.setTxq (s : State) (l q : Nat) (f : TxQueue → TxQueue) : State :=
  s.setNet (fun n => { n with txq := smod n.txq (l * 2048 + q) f })

/-- Whether a queue's shaper permits it (R347). -/
def State.shaperOpen (s : State) (l q : Nat) : Bool :=
  let r := s.qcfg (l / 4) q
  qMax r == 0 || decide (0 < balance (s.txq l q).shaper (qMax r) (qBurst r) s.net.now)

/-- Whether a queue's guarantee bucket holds anything. -/
def State.guarOpen (s : State) (l q : Nat) : Bool :=
  decide (0 < balance (s.txq l q).guar (s.guarantee (l / 4) q) (s.guarDepth (l / 4)) s.net.now)

/-- The shaper of a slice in island `ni`, as a key. -/
def ssKey (sl : Nat) (ni : Nat) : Nat := sl + 512 * ni

/-- The balance of a slice shaper; an unshaped one holds `BURST` (R348). -/
def State.ssBalance (s : State) (k : Nat) : Int :=
  let r := s.sscfg k
  if ssMax r = 0 then ((ssBurst r * 65536 : Nat) : Int)
  else balance (sget s.net.ss k).bucket (ssMax r) (ssBurst r) s.net.now

/-- Charge a slice shaper; it saturates at −2^47 bytes (R348). -/
def State.ssCharge (s : State) (k n : Nat) : State :=
  let r := s.sscfg k
  if ssMax r = 0 then s
  else
    let b := charge (sget s.net.ss k).bucket (ssMax r) (ssBurst r) s.net.now n
    s.setNet (fun x => { x with ss := smod x.ss k (fun y => { y with
      bucket := some { b with tok := max b.tok (-((2 ^ 47 * 65536 : Nat) : Int)) } }) })

/-- The bucket of a shaper at a configuration change (R349). -/
def resetBucket (zero : Bool) (now : Nat) : Option Bucket := if zero then some ⟨0, now⟩ else none

/-! ### Queues (R343–R346) -/

/-- Whether tag a precedes tag b in serial-number arithmetic (R344). -/
def precedes (a b : Nat) : Bool :=
  let d := (b + 2 ^ 64 - a) % 2 ^ 64
  decide (1 ≤ d) && decide (d ≤ 2 ^ 63 - 1)

/-- The tag of a queue whose head is a packet of counted length `len`. -/
def headTag (v f len weight : Nat) : Nat := ((if precedes v f then f else v) + len * 65536 / weight) % 2 ^ 64

/-- Bytes in a queue. -/
def TxQueue.bytes (t : TxQueue) : Nat := (t.pkts.map (fun p => p.frame.length)).sum

/-- Put a frame into a queue (R344, R346). -/
def State.enqueue (s : State) (l q : Nat) (frame : List Byte) (seq : Option (Nat × Nat)) : State :=
  let w := qWeight (s.qcfg (l / 4) q)
  let c := s.counted (l / 4) frame.length
  s.setTxq l q (fun t => { t with
    pkts := t.pkts ++ [⟨frame, seq, s.net.now⟩]
    tag := if t.pkts = [] then headTag (look 0 s.net.vtime l) t.tag c w else t.tag })

/-- The eligible queues of a logical port (R343). -/
def State.eligible (s : State) (l : Nat) : List Nat :=
  ((s.net.txq.filter (fun e => e.1 / 2048 == l && e.2.pkts != [])).map (fun e => e.1 % 2048)).filter (s.shaperOpen l)

/-- The queue of a tier with the smallest tag, the lowest number on a tie. -/
def State.pickQueue (s : State) (l : Nat) : List Nat → Option Nat
  | [] => none
  | q :: qs => match s.pickQueue l qs with
    | none => some q
    | some r => some (if precedes (s.txq l r).tag (s.txq l q).tag then r else q)

/-- The queue that a transmit opportunity serves. -/
def State.chosen (s : State) (l : Nat) : Option Nat :=
  let es := s.eligible l
  let tier (r : Nat) : List Nat := es.filter (fun q => qRank (s.qcfg (l / 4) q) == r && s.guarOpen l q)
  if tier 0 ≠ [] then s.pickQueue l (tier 0)
  else if tier 1 ≠ [] then s.pickQueue l (tier 1)
  else s.pickQueue l es

/-- TX_OPPORTUNITY: the chosen queue's head leaves and is charged. -/
def State.txOpportunity (s : State) (l : Nat) : State :=
  if !(s.lportUp l) then s
  else match s.chosen l with
    | none => s
    | some q => match (s.txq l q).pkts with
      | [] => s
      | p :: ps =>
        let r := s.qcfg (l / 4) q
        let c := s.counted (l / 4) p.frame.length
        let v := (s.txq l q).tag
        let t := (s.setNet (fun n => { n with vtime := put 0 n.vtime l v })).setTxq l q (fun x => { x with
          pkts := ps
          tag := match ps with
            | [] => v
            | y :: _ => headTag v v (s.counted (l / 4) y.frame.length) (qWeight r)
          shaper := if qMax r = 0 then x.shaper else some (charge x.shaper (qMax r) (qBurst r) s.net.now c)
          guar := some (charge x.guar (s.guarantee (l / 4) q) (s.guarDepth (l / 4)) s.net.now c)
          stat := { x.stat with sent := wrap48 (x.stat.sent + 1), bytes := wrap48 (x.stat.bytes + c) } })
        let u := match p.seq with
          | none => t
          | some (k, psn) => t.setNet (fun n => { n with conns := smod n.conns k (fun (x : Conn) => { x with
              recs := x.recs.map (fun (e : Nat × Sent) => if e.1 = psn then (e.1, { e.2 with at_ := s.net.now }) else e) }) })
        ((u.portCount l 1 1).portCount l 3 p.frame.length).emit (.frame l p.frame)

/-- TX_OPPORTUNITY. -/
def execTxOpportunity (l : Fin 32) (now : Nat) (s : State) : Res := .next ((s.at now).txOpportunity l.val)

/-- Discard what the queues of a logical port hold (R346). -/
def State.discardQueues (s : State) (l : Nat) : State :=
  s.setNet (fun n => { n with txq := smapAll n.txq (fun k t => if k / 2048 = l then
    { t with pkts := [], stat := { t.stat with discards := wrap48 (t.stat.discards + t.pkts.length) } } else t) })

/-! ### Links (R307, R309, R346) -/

/-- ETH_LINK_UP: the link of a logical port comes up. -/
def execEthLinkUp (l : Fin 32) (s : State) : Res :=
  .next (if s.lportExists l.val && s.obj (0x3400 + l.val / 4) 1 == 1 && s.isReady (21 + l.val / 16) && s.pins.ref156 &&
      bit s.pins.cables (8 + l.val / 8) then
    s.setNet (fun n => { n with up := setBit n.up l.val true }) else s)

/-- A logical port goes down: its queues are discarded and it retrains. -/
def State.ethDown (s : State) (l : Nat) : State :=
  if !(s.lportUp l) then s
  else
    let t := (s.setNet (fun n => { n with up := setBit n.up l false })).discardQueues l
    ((t.portCount l 0xB 1).total 4 1).bin 5 (8 + l) 1

/-- ETH_LINK_DOWN. -/
def execEthLinkDown (l : Fin 32) (s : State) : Res := .next (s.ethDown l.val)

/-! ### Writes of records (R349, R350, R357) -/

/-- The selected queue and physical port, and the selected slice shaper. -/
def State.qSel (s : State) : Nat := bits (s.obj 0x3700 1) 13 0
def State.ssSel (s : State) : Nat := bits (s.obj 0x3700 4) 8 0 + 512 * bits (s.obj 0x3700 4) 15 15

/-- A record as writes that wait for the tick leave it. -/
def State.pendRec (s : State) (idx sub sel now : Nat) : Nat :=
  ((s.dict.pend.filter (fun w => w.key == idx * 256 + sub && w.sel == sel)).getLast?.map PendWrite.value).getD now

/-- The record of a queue with pending values counted; `3700:01` gives queue [10:0] and port [13:11]. -/
def State.qNext (s : State) (p q : Nat) : Nat := s.pendRec 0x3700 2 (p * 2048 + q) (s.qcfg p q)

/-- The sum of `MIN_RATE` of a port with pending values counted, where queue q has record v. -/
def State.minSum (s : State) (p q v : Nat) : Nat :=
  let ps := (s.dict.pend.filter (fun w => w.key == 0x370002 && w.sel / 2048 == p)).map (fun w => w.sel % 2048)
  (((q :: s.portQueues p ++ ps).eraseDups).map (fun x => if x = q then qMin v else qMin (s.qNext p x))).sum

/-- Check of Q_CONFIG: an abort code. DEDUCED (log entry 25): that a record with `MAX_RATE` 0 is always accepted excuses it from
the comparison with `MIN_RATE` alone, not from the sum. -/
def State.qConfigCheck (s : State) (v : Nat) : Nat :=
  let p := s.qSel / 2048
  let q := s.qSel % 2048
  if qWeight v = 0 ∨ 100000 < qMax v ∨ qBurst v < 256 ∨ 16777216 < qBurst v ∨
      qLimit v < 16384 ∨ 16777216 < qLimit v then 4
  else if qMax v ≠ 0 ∧ qMax v < qMin v then 4
  else if s.minSum p q (s.qNext p q) < s.minSum p q v ∧ s.nominal p < s.minSum p q v then 4
  else 0

/-- Q_CONFIG takes effect at the tick: the buckets of the queue on every logical port are set (R349). -/
def State.qConfigApply (s : State) (sel v : Nat) : State :=
  let p := sel / 2048
  s.setNet (fun n => { n with
    qcfg := put (qDflt (sel % 2048)) n.qcfg sel v
    txq := smapAll n.txq (fun k t => if k / 2048 / 4 = p ∧ k % 2048 = sel % 2048 then
      { t with shaper := resetBucket (qZero v) n.now, guar := none } else t) })

/-- A queue that has no entry yet is given one where its shaper starts at 0. -/
def State.qConfigZero (s : State) (sel v : Nat) : State :=
  if !(qZero v) then s
  else (List.range 4).foldl (fun t i =>
    t.setTxq (sel / 2048 * 4 + i) (sel % 2048) (fun x => { x with shaper := some ⟨0, s.net.now⟩ })) s

/-- Check of SS_CONFIG. -/
def ssConfigCheck (v : Nat) : Nat :=
  if 400000 < ssMax v ∨ ssBurst v < 256 ∨ 268435456 < ssBurst v then 4 else 0

/-- SS_CONFIG takes effect at the tick. -/
def State.ssConfigApply (s : State) (sel v : Nat) : State :=
  s.setNet (fun n => { n with
    sscfg := put ssDflt n.sscfg sel v
    ss := smod n.ss sel (fun y => { y with bucket := resetBucket (ssZero v) n.now }) })

/-- Before a tick changes guarantees, every guarantee bucket is filled at the rate that held until now. -/
def State.settleGuar (s : State) : State :=
  s.setNet (fun n => { n with txq := smapAll n.txq (fun k t => { t with guar := t.guar.map (fun _ =>
    charge t.guar (s.guarantee (k / 2048 / 4) (k % 2048)) (s.guarDepth (k / 2048 / 4)) n.now 0) }) })

/-- Slices that hold a connection whose class names a queue with a guarantee on a port (R352). -/
def State.guarSlices (s : State) (p : Nat) : List Nat :=
  ((s.net.conns.filter (fun e => !e.2.device && 
    qMin (s.qcfg p (s.obj (0x3510 + e.2.cls) 0x10)) != 0)).map (fun e => e.2.slice)).eraseDups

/-- The guarantees of one port at a tick: sums, factor, and events where the factor changes (R351, R352). -/
def State.guarTick (s : State) (p : Nat) : State :=
  let f := s.guarFactor p
  let old := s.obj (0x3710 + p) 3
  let t := ((s.setObj (0x3710 + p) 4 (s.guarS p 0)).setObj (0x3710 + p) 5 (s.guarS p 1)).setObj (0x3710 + p) 3 f
  if f = old then t
  else
    let l := t.guarSlices p
    (((t.event .operator 0x0B01 p f (t.capacity p)).eventSlices l 0x0B01 p f (t.capacity p))).count (0x3710 + p) 6
      (1 + l.length)

/-! ### Sampling (R356) -/

/-- QUEUE_SAMPLE: one sample of every queue of every logical port that is up. -/
def State.queueSample (s : State) : State :=
  if !s.background then s else s.setNet (fun n => { n with
    samples := (List.range 32).foldl (fun m l => if bit n.up l then put 0 m l (look 0 m l + 1) else m) n.samples
    txq := smapAll n.txq (fun k t => if !(bit n.up (k / 2048)) then t else
      let d := t.bytes
      let y := match t.pkts with | [] => 0 | p :: _ => n.now - p.at_
      let g := t.stat
      { t with stat := { g with
        n := g.n + 1
        dMin := if g.n = 0 then d else min g.dMin d, dSum := g.dSum + d, dMax := max g.dMax d
        yMin := if g.n = 0 then y else min g.yMin y, ySum := g.ySum + y, yMax := max g.yMax y } }) })

/-- QUEUE_SAMPLE. -/
def execQueueSample (now : Nat) (s : State) : Res := .next ((s.at now).queueSample)

/-- The bit length of a number, as the bin of histogram 13. -/
def bitLength (n : Nat) : Nat := if n = 0 then 0 else Nat.log2 n + 1

/-- A number as a saturating U32. -/
def sat32 (n : Nat) : Nat := min n (2 ^ 32 - 1)

/-- SAMPLE_WINDOW_END: the window's values are latched. -/
def State.windowEnd (s : State) : State :=
  let tot (k : Nat) : Nat := look 0 s.net.samples (k / 2048)
  let t := s.setNet (fun n => { n with
    winLast := n.samples, samples := [], winEnd := s.mod.tick
    txq := smapAll n.txq (fun k x =>
      let g := x.stat
      let all := decide (g.n = tot k) && decide (0 < g.n)
      let mean (v : Nat) : Nat := if tot k = 0 then 0 else v / tot k
      { x with stat := { g with
        n := 0, dMin := 0, dSum := 0, dMax := 0, yMin := 0, ySum := 0, yMax := 0
        latched := [if all then g.dMin else 0, mean g.dSum, g.dMax,
          if all then sat32 g.yMin else 0, sat32 (mean g.ySum), sat32 g.yMax] } }) })
  let worst (p : Nat) : Nat :=
    ((s.net.txq.filter (fun e => e.1 / 2048 / 4 == p)).map (fun e => sat32 e.2.stat.yMax)).foldl max 0
  let ps := List.range 8
  ((t.acc (fun r => { r with qdelay := ps.foldl (fun m p => maxInto m p (worst p)) r.qdelay })).bin 13
    (bitLength ((ps.map worst).foldl max 0)) 1)

/-- A write of `SAMPLE_WINDOW` takes effect: a change ends the window (R356). -/
def State.windowApply (s : State) (v : Nat) : State :=
  let t := s.setObj 0x3700 7 v
  if v = s.obj 0x3700 7 then t else t.windowEnd

/-- SAMPLE_WINDOW_END, at a tick that is a multiple of `SAMPLE_WINDOW`, once. -/
def execSampleWindowEnd (s : State) : Res :=
  .next (if s.mod.tick % s.obj 0x3700 7 = 0 ∧ s.net.winEnd ≠ s.mod.tick then s.windowEnd else s)

end Sys2Proof.Machine
end

