-- ==== Sys2Proof/Machine/Frame.lean ====
section
/-!
DEFINITION. Ethernet frames (R308–R312, R327): check sums, the parser and its classification key, and the frames
that the SP9 builds. A frame here runs from the destination address to the FCS.
-/
namespace Sys2Proof.Machine

/-! ### Check codes -/

/-- One bit of the reflected CRC-32 of IEEE 802.3 (log entry 1). -/
def crc32Bit (c : Nat) : Nat := if c % 2 = 1 then (c / 2) ^^^ 0xEDB88320 else c / 2

/-- The FCS of a frame's other bytes. -/
def crc32 (bs : List Byte) : Nat :=
  (bs.foldl (fun c b => Nat.repeat crc32Bit 8 (c ^^^ b.toNat)) 0xFFFFFFFF) ^^^ 0xFFFFFFFF

/-- A frame with its FCS. -/
def withFcs (bs : List Byte) : List Byte := bs ++ leBytes 4 (crc32 bs)

/-- The sum of the 16-bit words of a byte string in network byte order. -/
def sum16 : List Byte → Nat
  | a :: b :: r => a.toNat * 256 + b.toNat + sum16 r
  | [a] => a.toNat * 256
  | [] => 0

/-- The internet checksum. -/
def inetSum (bs : List Byte) : Nat :=
  let fold (n : Nat) : Nat := n % 65536 + n / 65536
  65535 - fold (fold (fold (sum16 bs)))

/-! ### Parsing (Table 10-2) -/

/-- What the parser finds. `l4` is the offset behind the IP header, `l3` that of the IP header. -/
structure Parsed where
  etype  : Nat
  tci    : Option Nat
  sip    : Nat
  dip    : Nat
  proto  : Nat
  tclass : Nat            -- DSCP and ECN
  flow   : Nat
  v4     : Bool
  v6     : Bool
  badSum : Bool           -- the IPv4 header's checksum fails
  ports  : Bool
  sport  : Nat
  dport  : Nat
  tflags : Nat
  l3     : Nat
  l4     : Nat
deriving DecidableEq, Repr, Inhabited

/-- A field of a frame in network byte order. -/
def netAt (f : List Byte) (o n : Nat) : Nat := beNat (bytesAt f o n)

/-- The IPv4-mapped form of an IPv4 address (R312). -/
def mapped4 (a : Nat) : Nat := 0xFFFF * 2 ^ 32 + a

/-- The IPv6 extension headers from a next-header value: the final one and the offset behind, within the
bounds of Table 10-2. -/
def extHeaders (f : List Byte) : Nat → Nat → Bool → Nat → Option (Nat × Nat)
  | 0, h, _, o => if [0, 60, 43, 44, 50, 51, 135, 139, 140].contains h then none else some (h, o)
  | n + 1, h, first, o =>
    if (h = 0 ∧ first) ∨ h = 60 then
      let len := 8 * (netAt f (o + 1) 1 + 1)
      if 64 < len then none else extHeaders f n (netAt f o 1) false (o + len)
    else if [0, 43, 44, 50, 51, 135, 139, 140].contains h then none
    else some (h, o)

/-- Add the fields of layer 4; none where the header does not end within the first 256 bytes. -/
def parseL4 (f : List Byte) (p : Parsed) : Option Parsed :=
  let need := if p.proto = 17 then 8 else if p.proto = 6 then 20 else 0
  if min 256 (f.length - 4) < p.l4 + need then none
  else if need = 0 then some p
  else some { p with
    ports := true, sport := netAt f p.l4 2, dport := netAt f (p.l4 + 2) 2
    tflags := if p.proto = 6 then netAt f (p.l4 + 13) 1 else 0 }

/-- Parse layer 3 from offset o. -/
def parseL3 (f : List Byte) (o etype : Nat) (tci : Option Nat) : Option Parsed :=
  let b : Parsed := { (default : Parsed) with etype := etype, tci := tci, l3 := o, l4 := o }
  if etype = 0x0800 then
    if f.length - 4 < o + 20 ∨ netAt f o 1 ≠ 0x45 ∨ netAt f (o + 6) 2 % 16384 ≠ 0 then none
    else parseL4 f { b with
      sip := mapped4 (netAt f (o + 12) 4), dip := mapped4 (netAt f (o + 16) 4), proto := netAt f (o + 9) 1
      tclass := netAt f (o + 1) 1, v4 := true, badSum := inetSum (bytesAt f o 20) != 0, l4 := o + 20 }
  else if etype = 0x86DD then
    if f.length - 4 < o + 40 ∨ netAt f o 1 / 16 ≠ 6 then none
    else match extHeaders f 2 (netAt f (o + 6) 1) true (o + 40) with
      | none => none
      | some (h, l) => parseL4 f { b with
          sip := netAt f (o + 8) 16, dip := netAt f (o + 24) 16, proto := h
          tclass := bits (netAt f o 2) 11 4, flow := netAt f o 4 % 2 ^ 20, v6 := true, l4 := l }
  else some b

/-- Parse a frame (R310). -/
def parse (f : List Byte) : Option Parsed :=
  let e := netAt f 12 2
  if e = 0x8100 then
    let e2 := netAt f 16 2
    if e2 = 0x8100 ∨ e2 = 0x88A8 ∨ e2 < 0x0600 then none else parseL3 f 18 e2 (some (netAt f 14 2))
  else if e = 0x88A8 ∨ e < 0x0600 then none
  else parseL3 f 14 e none

/-- The sum of a UDP packet and its pseudo-header: 0 where its checksum is right. -/
def udpSum (f : List Byte) (p : Parsed) : Nat :=
  let n := netAt f (p.l4 + 4) 2
  let ends := if p.v4 then beBytes 4 (p.sip % 2 ^ 32) ++ beBytes 4 (p.dip % 2 ^ 32) else beBytes 16 p.sip ++ beBytes 16 p.dip
  inetSum (ends ++ beBytes 4 17 ++ beBytes 4 n ++ bytesAt f p.l4 n)

/-! ### Addresses (R308, R321, Table 10-14) -/

/-- The MAC address of a logical port (R308). -/
def macOf (l : Nat) : Nat := (beNat (leBytes 6 Config.macBase) + l) % 2 ^ 48

/-- The fabric address of endpoint e; none while `FABRIC_PREFIX` is all zero. -/
def State.fabric (s : State) (e : Nat) : Option Nat :=
  let pre := beNat (leBytes 16 (s.obj 0x3500 2)) / 2 ^ 32
  if s.obj 0x3500 2 = 0 then none else some (pre * 2 ^ 32 + e)

/-- An entry of the address table. -/
structure AddrEnt where
  ip6    : Nat
  ip4    : Nat
  vlan   : Nat
  slice  : Nat
  device : Bool
  ports  : Nat
  has6   : Bool
  has4   : Bool
deriving DecidableEq, Repr, Inhabited

/-- Entry i of the address table. -/
def State.addr (s : State) (i : Nat) : AddrEnt :=
  let b := leBytes 32 (look 0 s.net.addrs i)
  { ip6 := beNat (bytesAt b 0 16), ip4 := beNat (bytesAt b 16 4), vlan := fieldAt b 20 2
    slice := fieldAt b 22 2 % 512, device := bit (fieldAt b 22 2) 15, ports := fieldAt b 24 4
    has6 := bit (fieldAt b 28 1) 0, has4 := bit (fieldAt b 28 1) 1 }

/-- Whether an entry holds an address of a key's form. -/
def AddrEnt.holds (a : AddrEnt) (ip : Nat) : Bool := (a.has6 && a.ip6 == ip) || (a.has4 && mapped4 a.ip4 == ip)

/-- The entry of the address table that holds an address. -/
def State.addrOf (s : State) (ip : Nat) : Option AddrEnt :=
  ((s.net.addrs.map (fun e => s.addr e.1)).find? (fun a => a.holds ip))

/-- This SP9's own fabric address; `3000…` names its endpoint as `SELF_EP`. -/
def State.ownFabric (s : State) (self : Option Nat) : Option Nat := self.bind s.fabric

/-! ### Frames sent (R309, R327) -/

/-- Link layer: next hop, own address, and a tag where [15] of `vlan` asks for one. -/
def l2Header (dmac l vlan etype : Nat) : List Byte :=
  beBytes 6 dmac ++ beBytes 6 (macOf l) ++
    (if bit vlan 15 then beBytes 2 0x8100 ++ beBytes 2 (vlan % 4096 + Config.frameField 3 % 16 * 4096) else []) ++ beBytes 2 etype

/-- An IPv4 header for n bytes of payload. -/
def ip4Header (src dst proto tclass n : Nat) : List Byte :=
  let h (c : Nat) : List Byte := beBytes 2 (0x4500 + tclass) ++ beBytes 2 (20 + n) ++
    beBytes 2 (Config.frameField 2 % 65536) ++ beBytes 2 0 ++ beBytes 1 (Config.frameField 0 % 256) ++ beBytes 1 proto ++ beBytes 2 c ++
    beBytes 4 src ++ beBytes 4 dst
  h (inetSum (h 0))

/-- An IPv6 header for n bytes of payload. -/
def ip6Header (src dst proto tclass n : Nat) : List Byte :=
  beBytes 4 (6 * 2 ^ 28 + tclass * 2 ^ 20 + Config.frameField 1 % 2 ^ 20) ++ beBytes 2 n ++ beBytes 1 proto ++
    beBytes 1 (Config.frameField 0 % 256) ++ beBytes 16 src ++ beBytes 16 dst

/-- A UDP packet with a non-zero checksum. -/
def udpPacket (v4 : Bool) (src dst sport dport : Nat) (data : List Byte) : List Byte :=
  let n := 8 + data.length
  let u (c : Nat) : List Byte := beBytes 2 sport ++ beBytes 2 dport ++ beBytes 2 n ++ beBytes 2 c ++ data
  let w := if v4 then 4 else 16
  let c := inetSum (beBytes w src ++ beBytes w dst ++ beBytes 4 17 ++ beBytes 4 n ++ u 0)
  u (if c = 0 then 65535 else c)

/-- A frame of at least 64 bytes. -/
def frameOf (bs : List Byte) : List Byte := withFcs (bs ++ List.replicate (60 - bs.length) 0)

/-- A UDP frame. -/
def udpFrame (v4 : Bool) (dmac l vlan src dst tclass sport dport : Nat) (data : List Byte) : List Byte :=
  let u := udpPacket v4 src dst sport dport data
  frameOf (l2Header dmac l vlan (if v4 then 0x0800 else 0x86DD) ++
    (if v4 then ip4Header src dst 17 tclass u.length else ip6Header src dst 17 tclass u.length) ++ u)

/-- The next hop of a logical port (R309); 0 where it carries no transport traffic. -/
def State.nextHop (s : State) (l : Nat) : Nat := beNat (leBytes 6 (s.obj (0x3400 + l / 4) (6 + l % 4)))

/-! ### Payloads and device connections -/

/-- The payload size of an island's packets (R327). -/
def State.paySize (s : State) (ni : Nat) : Nat :=
  let m := ((List.range 4).map (fun p => s.obj (0x3400 + 4 * ni + p) 4)).foldl min 9216
  min 4096 ((m - 126) / 256 * 256)

/-- Cut a byte string into pieces: offset, bytes, first, last. -/
def cutBytes (size : Nat) (bs : List Byte) : List (Nat × List Byte × Bool × Bool) :=
  let n := (bs.length + size - 1) / size
  (List.range n).map (fun i => (i * size, (bs.drop (i * size)).take size, i == 0, i + 1 == n))

/-- A device connection of a class to a peer, on an island. -/
def State.deviceConn (s : State) (peer cls ni : Nat) : Option Nat :=
  (s.net.conns.find? (fun e => e.2.device && e.2.peer == peer && e.2.cls == cls && e.1 % 2 == ni &&
    (e.2.st == .connecting || e.2.st == .established))).map Prod.fst

end Sys2Proof.Machine
end

