-- ==== Sys2Proof/Machine/Manifest.lean ====
section
/-!
DEFINITION. Readers of manifests of version 2 and 1 (R373, R381), and the digests of shards.
-/
namespace Sys2Proof.Machine

/-- A shard entry of a manifest. -/
structure ManShard where
  tid    : Nat
  kind   : Nat
  fmt    : Nat
  off    : Nat
  len    : Nat
  start  : List Nat
  extent : List Nat
  digest : List Byte
deriving DecidableEq, Repr, Inhabited

/-- Six U64 entries read, the first n of them. -/
def sixAt (b : List Byte) (o n : Nat) : List Nat := (List.range n).map (fun i => fieldAt b (o + 8 * i) 8)

/-- Entry i of a manifest of version 2, and of version 1 (R381). -/
def manEntry (b : List Byte) (t i : Nat) : ManShard :=
  let o := 64 + 64 * t + 192 * i
  let k := ((List.range t).find? (fun x => fieldAt b (64 + 64 * x) 4 == fieldAt b o 4)).getD t
  let nd := fieldAt b (64 + 64 * k + 5) 1
  { tid := fieldAt b o 4, kind := fieldAt b (o + 4) 1, fmt := fieldAt b (64 + 64 * k + 4) 1, off := fieldAt b (o + 8) 8
    len := fieldAt b (o + 16) 8, start := sixAt b (o + 24) nd, extent := sixAt b (o + 72) nd, digest := bytesAt b (o + 120) 48 }
def manEntry1 (b : List Byte) (i : Nat) : ManShard :=
  let o := 64 + 80 * i
  { tid := 0, kind := 0, fmt := 0, off := fieldAt b (o + 8) 8, len := fieldAt b (o + 16) 8, start := [], extent := []
    digest := bytesAt b (o + 32) 48 }

def manVersion (b : List Byte) : Nat := fieldAt b 4 2

/-- The entries of a copy's manifest. -/
def manShards (b : List Byte) : List ManShard :=
  (List.range (fieldAt b 40 4)).map (if manVersion b = 1 then manEntry1 b else manEntry b (fieldAt b 36 4))

/-- Where the tag of a manifest stands. -/
def manTagAt (b : List Byte) : Nat :=
  64 + 64 * fieldAt b 36 4 + (if manVersion b = 1 then 80 else 192) * fieldAt b 40 4

/-! ### Copies on flash (R370, R400) -/

/-- Encrypt or decrypt the logical blocks of the checkpoint space from one on. -/
def State.ckptCipher (s : State) (decrypt : Bool) (lba : Nat) (b : List Byte) : List Byte :=
  (List.range ((b.length + 4095) / 4096)).flatMap (fun i =>
    xts decrypt s.mediaKey (tweakOf (blockKey 0xFFFD (lba + i))) (bytesAt b (4096 * i) 4096))

/-- What a copy on flash holds. -/
def State.copyData (s : State) (c : FlashCopy) : List Byte := (s.ckptCipher true c.lba c.data).take c.len

/-- Whether a shard's bytes agree with its digest. -/
def shardOk (b : List Byte) (e : ManShard) : Bool := sha384 (bytesAt b e.off e.len) == e.digest

end Sys2Proof.Machine
end

