-- ==== Sys2Proof/Machine/CkptFault.lean ====
section
/-!
DEFINITION. Jobs: cohort messages (R384), the end of notices (R372), abandoned generations, and incidents with
their census views (R374, R375).
-/
namespace Sys2Proof.Machine

/-- The job of a slice; state NONE where it has none. -/
def State.job (s : State) (sl : Nat) : Job := sget s.ckpt.jobs sl
def State.setJob (s : State) (sl : Nat) (f : Job → Job) : State :=
  { s with ckpt := { s.ckpt with jobs := smod s.ckpt.jobs sl f } }

/-- Events of a job to the operator and the slice. -/
def State.jobEvent (s : State) (sl code a0 a1 a2 : Nat) : State :=
  (s.event .operator code a0 a1 a2).event (.slice sl) code a0 a1 a2

/-- A cohort message (Table 12-12), in network byte order (R6). -/
def Job.msg (j : Job) (kind flags count gen : Nat) (body : List Byte) : List Byte :=
  beBytes 1 kind ++ beBytes 1 flags ++ beBytes 2 0 ++ beBytes 4 j.index ++ beBytes 8 j.id ++ beBytes 4 j.incident ++
    beBytes 4 count ++ beBytes 8 gen ++ beBytes 4 body.length ++ beBytes 4 0 ++ body

/-- The device connection of class 0 that a job reaches a node by (R384). -/
def State.cohortConn (s : State) (sl node : Nat) : Option Nat :=
  (s.fabric ((s.job sl).nodes.getD node 0)).bind (fun peer => s.deviceConn peer 0 0)

/-- Send a cohort message to a node: a SEND on its device connection of class 0 (R384). -/
def State.cohort (s : State) (sl node kind flags count gen : Nat) (body : List Byte) : State :=
  let msg := (s.job sl).msg kind flags count gen body
  let t := s.emit (.cohort node msg)
  match s.cohortConn sl node with
  | some k =>
    { t with net := { t.net with conns := smod t.net.conns k (fun c => { c with
        outs := c.outs ++ (cutBytes (s.paySize 0) msg).map (fun e => (c.msn, .cohort c.sendNo e.1 e.2.1 e.2.2.1 e.2.2.2))
        msn := (c.msn + 1) % 2 ^ 32, sendNo := c.sendNo + 1, lastUse := s.net.now }) } }
  | none => t

/-- A cohort message that arrives. -/
structure CohortMsg where
  kind     : Nat
  flags    : Nat
  sender   : Nat
  job      : Nat
  incident : Nat
  count    : Nat
  gen      : Nat
  body     : List Byte
deriving DecidableEq, Repr, Inhabited

/-- The message that bytes hold, in network byte order (Table 12-12). -/
def cohortOf (b : List Byte) : CohortMsg :=
  let f (o n : Nat) : Nat := beNat (bytesAt b o n)
  { kind := f 0 1, flags := f 1 1, sender := f 4 4, job := f 8 8, incident := f 16 4, count := f 20 4, gen := f 24 8
    body := bytesAt b 40 (f 32 4) }

/-- The census links of node j among m: j ± 2^i (R375). -/
def linksOf (m j : Nat) : List Nat :=
  ((List.range 32).filter (fun i => decide (2 ^ i < m) || (i == 0 && decide (1 < m)))).flatMap
    (fun i => [(j + 2 ^ i) % m, (j + m - 2 ^ i % m) % m]) |>.eraseDups |>.filter (fun x => x != j)

/-- Whether a census link is live: a heartbeat came within `FAIL_MS`. -/
def State.linkLive (s : State) (sl node : Nat) : Bool :=
  let b := look 0 (s.job sl).beats node
  decide (0 < b) && decide (s.mod.tick + 1 - b ≤ s.obj 0x5100 2)

/-- A map of nodes as bytes. -/
def nodeMap (m : Nat) (l : List Nat) : List Byte :=
  (List.range ((m + 7) / 8)).map (fun i =>
    BitVec.ofNat 8 (((List.range 8).map (fun b => if l.contains (8 * i + b) then 2 ^ b else 0)).sum))

/-- A census view as a message body: two generations, then the maps of the side and of their holders. -/
def View.bytes (v : View) (m : Nat) : List Byte :=
  let g (i : Nat) : Nat × List Nat := v.gens.getD i (0, [])
  beBytes 8 (g 0).1 ++ beBytes 8 (g 1).1 ++ nodeMap m v.side ++ nodeMap m (g 0).2 ++ nodeMap m (g 1).2

/-- Send the view on every live link. -/
def State.sendView (s : State) (sl : Nat) : State :=
  let j := s.job sl
  ((linksOf j.nodes.length j.index).filter (s.linkLive sl)).foldl (fun t n =>
    t.cohort sl n 0x0A 0 0 0 (j.view.bytes j.nodes.length)) (s.setJob sl (fun y => { y with viewTick := s.mod.tick }))

/-- Put generations into order, the highest two (R375). -/
def topTwo (gs : List (Nat × List Nat)) : List (Nat × List Nat) :=
  let ns := ((gs.map Prod.fst).filter (fun g => g != 0)).eraseDups
  let a := ns.foldl max 0
  let b := (ns.filter (fun g => g != a)).foldl max 0
  ([a, b].filter (fun g => g != 0)).map (fun g =>
    (g, ((gs.filter (fun e => e.1 == g)).flatMap Prod.snd).eraseDups))

/-- The old indices whose copy of generation g this node holds verified. -/
def State.holds (s : State) (sl g : Nat) : List Nat :=
  let j := s.job sl
  let m := j.nodes.length
  let pred := if m = 0 then 0 else (j.index + m - 1) % m
  (if j.buddyGen = g ∧ 1 < m then [pred] else []) ++
    (s.ckpt.copies.filter (fun c => c.job == j.id && c.gen == g)).map (fun c => if c.pred then pred else j.index)

/-- This node's own view. -/
def State.ownView (s : State) (sl : Nat) : View :=
  let j := s.job sl
  let gs := [j.genC, j.genS] ++ (s.ckpt.copies.filter (fun c => c.job == j.id)).map FlashCopy.gen
  { side := [j.index], gens := topTwo (gs.map (fun g => (g, s.holds sl g))) }

/-! ### Notices and generations -/

/-- Complete a notice where it was accepted: its status, the event, and the completions of admin commands (R372). -/
def State.noticeDone (s : State) (sl : Nat) (n : Notice) (status gen : Nat) : State :=
  if n.source = 0 then s else
  let t := (s.setJob sl (fun j => { j with status := status, source := n.source })).jobEvent sl 0x0C03 status gen (s.job sl).id
  n.tags.foldl (fun u g => u.admDone 0 status gen g) t

/-- Merge two notices (R364): pre-emption if any is, the earliest non-zero deadline. -/
def Notice.merge (a b : Notice) : Notice :=
  { pre := a.pre || b.pre
    deadline := if a.deadline = 0 then b.deadline else if b.deadline = 0 then a.deadline else min a.deadline b.deadline
    source := if b.source = 0 then a.source else b.source, tags := a.tags ++ b.tags, acked := a.acked && b.acked }

/-- Whether a generation is in progress and not yet COMMITTED. -/
def Phase.open (p : Phase) : Bool := p == .marked || p == .cut || p == .copying || p == .copied

/-- Abandon the generation in progress (Table 12-5). A job that a pre-emption notice ends does not continue after
an uncorrectable read (R383). -/
def State.abandon (s : State) (sl status : Nat) : State :=
  let j := s.job sl
  if !j.phase.open then s
  else
    let t := (s.setJob sl (fun y => { y with
      phase := .abandoned, attached := none, mark := 0, acks := [], taking := false, verified := false, ups := []
      image := [], unread := [], genP := 0
      st := if status = 6 ∧ y.st = .armed ∧ (y.attached.map Notice.pre).getD false then .stopped else y.st })).count 0x5000 9 1
    match j.attached with
    | some n => t.noticeDone sl n status j.genP
    | none => t

/-- A notice completes at once where the job is in CENSUS or RECOVERING; a pre-emption notice turns the job to STOPPED when RESTORE
completes (R383). -/
def State.noticeHeld (s : State) (sl : Nat) (n : Notice) : State :=
  (s.setJob sl (fun y => { y with stopAfter := y.stopAfter || n.pre })).noticeDone sl n 0 (s.job sl).restoreGen

/-- Enter CENSUS under an incident number (R374, R375). DESIGN CHOICE (log entry 36): a notice that waits for a cut then completes as
one that comes in CENSUS. -/
def State.enterCensus (s : State) (sl n : Nat) : State :=
  let t := (s.abandon sl 7).setJob sl (fun y => { y with
    st := .census, incident := n, decision := 0, missing := [], notice := none, asked := [] })
  let u := ((t.setJob sl (fun y => { y with view := t.ownView sl })).sendView sl).count 0x5100 8 1
  match (s.job sl).notice with
  | some x => u.noticeHeld sl x
  | none => u

/-- A job fault: an incident one above the highest number seen. A job that has fenced stays FENCED (R377). -/
def State.jobFault (s : State) (sl : Nat) : State :=
  let j := s.job sl
  if j.st = .none ∨ j.st = .fenced then s else s.enterCensus sl (j.incident + 1)

end Sys2Proof.Machine
end

