-- ==== Sys2Proof/Machine/EthRx.lean ====
section
/-!
DEFINITION. What a network island does with a frame that arrives (R308–R318, R353–R355): filter, parse, classify,
meter and deliver; the exception ring; the classifier's writes and the spreading record.
-/
namespace Sys2Proof.Machine

/-! ### Key and entries (R312–R314) -/

/-- The device addresses: the fabric address, and those the table marks so. -/
def State.isDevAddr (s : State) (ip : Nat) : Bool :=
  s.ownFabric s.selfEp == some ip || (match s.addrOf ip with | some a => a.device | none => false)

/-- Whether a parsed packet is a transport packet (R311). -/
def State.isTransport (s : State) (p : Parsed) : Bool :=
  (p.v4 || p.v6) && p.proto == 17 && p.ports && p.dport == s.obj 0x3500 1 && s.isDevAddr p.dip

/-- The classification key of Table 10-3. -/
def State.clsKey (s : State) (l : Nat) (f : List Byte) (p : Parsed) : Nat :=
  let x := s.isTransport p
  let tci := p.tci.getD 0
  let own := (s.addrOf p.dip).isSome
  let dev := s.isDevAddr p.dip
  let ip := p.v4 || p.v6
  netAt f 0 6 + netAt f 6 6 * 2 ^ 48 + p.etype * 2 ^ 96 + tci % 4096 * 2 ^ 112 + tci / 2 ^ 13 * 2 ^ 124 +
    b2n p.tci.isSome * 2 ^ 127 + p.sip * 2 ^ 128 + p.dip * 2 ^ 256 + p.proto * 2 ^ 384 +
    p.tclass / 4 * 2 ^ 392 + p.tclass % 4 * 2 ^ 398 + p.flow * 2 ^ 400 + p.sport * 2 ^ 420 + p.dport * 2 ^ 436 +
    p.tflags * 2 ^ 452 +
    (if x then netAt f (p.l4 + 12) 4 % 2 ^ 17 * 2 ^ 460 + netAt f (p.l4 + 9) 1 % 16 * 2 ^ 477 else 0) + l * 2 ^ 481 +
    b2n p.v4 * 2 ^ 486 + b2n p.v6 * 2 ^ 487 + b2n p.ports * 2 ^ 488 + b2n x * 2 ^ 489 +
    b2n (ip && own) * 2 ^ 490 + b2n (ip && dev) * 2 ^ 491 +
    (if ip && own && !dev then (match s.addrOf p.dip with | some a => a.slice | none => 0) * 2 ^ 492 else 0)

/-- The owner of a classification entry: 0 nobody, 1 the operator, 2 + slice (R314). -/
def State.clsOwner (s : State) (i : Nat) : Nat :=
  if i < s.obj 0x3600 2 then 1
  else match s.host.slices.find? (fun e => e.2.st != .free && decide (e.2.clsBase ≤ i) && decide (i < e.2.clsBase + e.2.quota.cls)) with
    | some e => 2 + e.1
    | none => 0

/-- Whether an entry acts on a packet with key k. -/
def State.clsMatch (s : State) (i : Nat) (e : ClsEntry) (k : Nat) : Bool :=
  bit e.action 63 && ((k ^^^ e.key) &&& e.mask) == 0 &&
    (match s.clsOwner i with
      | 0 => false
      | 1 => true
      | o => bit k 490 && !bit k 491 && bits k 500 492 == o - 2)

/-- The entry that a packet takes: the lowest index that matches. -/
def State.classify (s : State) (k : Nat) : Option (Nat × ClsEntry) :=
  s.net.cls.find? (fun e => s.clsMatch e.1 e.2 k)

/-! ### Meters (R353, R354) -/

/-- The record of a policer; red is dropped by default (Table 11-3). -/
def polDflt : Nat := 0x1000
def State.polcfg (s : State) (k : Nat) : Nat := look polDflt s.net.polcfg k

/-- The colour a meter gives (0 green, 1 yellow, 2 red) from the two balances, before and after. `pre` is the
colour the packet has. -/
def colourOf (two : Bool) (c e n : Int) (pre : Nat) : Nat × Int × Int :=
  if two then
    if pre = 2 ∨ e < n then (2, c, e) else if pre = 1 ∨ c < n then (1, c, e - n) else (0, c - n, e - n)
  else if pre = 0 ∧ n ≤ c then (0, c - n, e)
  else if pre ≤ 1 ∧ n ≤ e then (1, c, e - n)
  else (2, c, e)

/-- Meter a frame of n bytes on island `ni`: its colour. RFC 2697 fills the second bucket with what the first
cannot take. -/
def State.meter (s : State) (pol ni n pre : Nat) : State × Nat :=
  let r := s.polcfg pol
  let k := pol + 4096 * ni
  let m := sget s.net.meters k
  let two := bits r 7 0 == 1
  let cap (hi lo : Nat) : Int := ((bits r hi lo * 65536 : Nat) : Int)
  let c0 := match m.c with | some b => b.tok | none => cap 127 96
  let e0 := match m.e with | some b => b.tok | none => cap 159 128
  let add (rate : Nat) : Int := match m.c with
    | some b => ((rate * (s.net.now - b.last) * 65536 / 1000 : Nat) : Int)
    | none => 0
  let c1 := min (cap 127 96) (c0 + add (bits r 63 32))
  let e1 := min (cap 159 128) (e0 + (if two then add (bits r 95 64) else c0 + add (bits r 63 32) - c1))
  let x := colourOf two c1 e1 ((n * 65536 : Nat) : Int) (if bit r 8 then pre else 0)
  (s.setNet (fun y => { y with meters := smod y.meters k (fun _ =>
    ⟨some ⟨x.2.1, y.now⟩, some ⟨x.2.2, y.now⟩⟩) }), x.1)

/-- Add to a policer's counter. -/
def State.polCount (s : State) (pol i n : Nat) : State :=
  s.setNet (fun y => { y with polst := put 0 y.polst (pol * 8 + i) (wrap48 (look 0 y.polst (pol * 8 + i) + n)) })

/-- A frame with its DSCP replaced (R354). -/
def remark (f : List Byte) (p : Parsed) (dscp : Nat) : List Byte :=
  let tc := dscp * 4 + p.tclass % 4
  if p.v4 then
    let h := splice (splice (bytesAt f p.l3 20) 1 (beBytes 1 tc)) 10 (beBytes 2 0)
    splice f p.l3 (splice h 10 (beBytes 2 (inetSum h)))
  else if p.v6 then splice f p.l3 (beBytes 2 (netAt f p.l3 2 / 4096 * 4096 + tc * 16 + netAt f p.l3 2 % 16))
  else f

/-- Meter a packet: the frame that continues, or none where it is dropped. -/
def State.police (s : State) (pol ni : Nat) (f : List Byte) (p : Parsed) : State × Option (List Byte) :=
  if pol = 0xFFF then (s, some f)
  else
    let ip := p.v4 || p.v6
    let pre := if ip then bits (s.obj 0x3800 4) (2 * (p.tclass / 4) + 1) (2 * (p.tclass / 4)) else 0
    let m := s.meter pol ni f.length pre
    let r := s.polcfg pol
    let t := m.1.polCount pol m.2 1
    let act := if m.2 = 0 then 0 else if m.2 = 1 then bits r 10 9 else bits r 12 11
    if act = 2 then ((t.polCount pol 4 1).polCount pol 5 f.length, none)
    else if act = 1 && ip then
      (t.polCount pol 3 1, some (remark f p (if m.2 = 1 then bits r 21 16 else bits r 29 24)))
    else (t, some f)

/-! ### Delivery (R313, R316, R318, R439) -/

/-- The receive hash (R318): reflected CRC-32C from a seed. -/
def rxHash (seed : Nat) (bs : List Byte) : Nat :=
  (bs.foldl (fun c b => Nat.repeat crc32cBit 8 (c ^^^ b.toNat)) seed) ^^^ 0xFFFFFFFF

/-- The spreading record of a slice (Table 10-5). -/
def State.spreadRec (s : State) (sl : Nat) : List Byte := look [] s.net.spread sl

/-- The fields that `HMASK` selects, in network byte order. -/
def hashFields (mask : Nat) (f : List Byte) (p : Parsed) (x : Bool) : List Byte :=
  let w := if p.v4 then 4 else 16
  let fs := [beBytes w p.sip, beBytes w p.dip, beBytes 2 p.sport, beBytes 2 p.dport, beBytes 1 p.proto,
    beBytes 2 (p.tci.getD 0 % 4096), beBytes 3 p.flow, beBytes 4 (if x then netAt f (p.l4 + 12) 4 % 2 ^ 17 else 0)]
  (List.range 8).flatMap (fun i => if bit mask i then fs.getD i [] else [])

/-- The key of a RECV queue. -/
def recvKey (sl slot : Nat) : Nat := sl * 1024 + slot

/-- A packet dropped for a slice (R318, R439). -/
def State.rxDrop (s : State) (sl : Nat) : State := (s.count (0xA100 + sl) 5 1).use sl 17 1

/-- Deliver a frame to a receive queue of a slice: the oldest buffer takes it. -/
def State.deliverTo (s : State) (sl dev entry : Nat) (f : List Byte) : State :=
  let x := s.slice sl
  let data := f.take (f.length - 4)
  if x.st = .freezing ∨ x.st = .frozen ∨ x.st = .restoring then s.rxDrop sl
  else match s.slotOfDev sl dev with
    | none => s
    | some slot =>
      let q := s.queue sl slot
      let k := recvKey sl slot
      match (sget s.net.recv k).bufs with
      | [] => s
      | (i, b) :: _ =>
        if q.cfg.kind ≠ 8 ∨ q.halted then s
        else match s.vwrite sl q.cfg.pasid b.addr (data.take b.len) with
          | (t, .ok _) =>
            ((t.setNet (fun n => { n with recv := smod n.recv k (fun r => { r with bufs := drop1 r.bufs i }) })).use sl 15
              f.length).finish ⟨Fin.ofNat _ sl, Fin.ofNat _ slot, b.tag⟩ (b2n (decide (b.len < data.length))) data.length entry
          | (t, _) => t

/-- Where SLICE_RSS sends a packet. -/
def State.rssQueue (s : State) (sl : Nat) (f : List Byte) (p : Parsed) : Option Nat :=
  let r := s.spreadRec sl
  let h := rxHash (fieldAt r 4 4) (hashFields (fieldAt r 0 2) f p (s.isTransport p))
  let e := fieldAt r (8 + 2 * (h % 512)) 2
  if bit e 15 then some (e % 2 ^ 14) else none

/-- Send a packet to the exception ring: one of `EXC_RATE` a second up to `EXC_BURST`, 4,096 waiting (R316). -/
def State.except (s : State) (l : Nat) (f : List Byte) : State :=
  let cap : Int := ((s.obj 0x3500 0xC * 65536 : Nat) : Int)
  let tok := match s.net.excTok with
    | none => cap
    | some b => min cap (b.tok + ((s.obj 0x3500 0xB * (s.net.now - b.last) * 65536 / 1000000000 : Nat) : Int))
  if tok < 65536 then
    (s.setNet (fun n => { n with excTok := some ⟨tok, n.now⟩ })).count 0x3500 0x10 1
  else
    let t := s.setNet (fun n => { n with excTok := some ⟨tok - 65536, n.now⟩ })
    if 4096 ≤ t.net.exc.length then t.count 0x3500 0x11 1
    else t.setNet (fun n => { n with exc := n.exc ++ [⟨l, f⟩] })

/-- The transport header of a frame (Table 10-8); none where it is malformed. -/
def xpOf (l : Nat) (f : List Byte) (p : Parsed) : Option XpPkt :=
  let h := p.l4 + 8
  let fl := netAt f (h + 2) 1
  let n := netAt f (h + 30) 2
  let have_ := netAt f (p.l4 + 4) 2 - 40
  let extra := if bit fl 3 then 24 else 0
  if netAt f h 1 ≠ 1 ∨ 0xF ≤ netAt f (h + 1) 1 ∨ have_ < n + extra then none
  else some {
    ni := decide (16 ≤ l), src := BitVec.ofNat 128 p.sip, dst := BitVec.ofNat 128 p.dip, ce := p.tclass % 4 == 3
    op := BitVec.ofNat 4 (netAt f (h + 1) 1)
    final := bit fl 0, first := bit fl 1, last := bit fl 2, enc := bit fl 3, ackreq := bit fl 4, notify := bit fl 5
    incarn := BitVec.ofNat 8 (netAt f (h + 3) 1), dconn := BitVec.ofNat 32 (netAt f (h + 4) 4)
    psn := BitVec.ofNat 32 (netAt f (h + 8) 4), msn := BitVec.ofNat 32 (netAt f (h + 12) 4)
    addr := BitVec.ofNat 64 (netAt f (h + 16) 8), aux := BitVec.ofNat 32 (netAt f (h + 24) 4)
    kslot := BitVec.ofNat 16 (netAt f (h + 28) 2), data := bytesAt f (h + 32) (n + extra) }

/-- Hand a transport packet to the engine. -/
def State.toEngine (s : State) (l : Nat) (f : List Byte) (p : Parsed) : State :=
  match xpOf l f p with
  | some x =>
    let c := sget s.net.conns x.dconn.toNat
    let t := s.setNet (fun n => { n with xpIn := n.xpIn ++ [x] })
    if c.st = .closed ∨ c.device then t else t.use c.slice 15 f.length
  | none => s.count 0x3500 0x13 1

/-- Classify, meter and deliver a parsed packet (R313). -/
def State.dispatch (s : State) (l : Nat) (f : List Byte) (p : Parsed) : State :=
  let x := s.isTransport p
  match s.classify (s.clsKey l f p) with
  | none => if x then s.toEngine l f p else (s.count 0x3600 7 1).except l f
  | some (i, e) =>
    let t := if bit e.action 38 then
        s.setNet (fun n => { n with cls := smod n.cls i (fun y => { y with hits := wrap48 (y.hits + 1) }) }) else s
    let m := t.police (bits e.action 37 26) (l / 16) f p
    match m.2 with
    | none => m.1
    | some g =>
      let sl := match s.clsOwner i with | 0 => 0 | 1 => bits e.action 11 3 | o => o - 2
      match bits e.action 2 0 with
      | 1 => match m.1.rssQueue sl g p with
        | some q => m.1.deliverTo sl q i g
        | none => m.1.rxDrop sl
      | 2 => m.1.deliverTo sl (bits e.action 25 12) i g
      | 3 => m.1.except l g
      | 4 => if x then m.1.toEngine l g p else m.1
      | _ => m.1

/-- A frame that has passed the MAC filter. -/
def State.parsePacket (s : State) (l : Nat) (f : List Byte) : State :=
  match parse f with
  | none => (s.portCount l 0xA 1).except l f
  | some p =>
    let t := if p.tclass % 4 = 3 then s.portCount l 0xC 1 else s
    if p.etype = 0x8808 then t.portCount l 9 1
    else if p.badSum then t.count 0x3500 0x14 1
    else if t.isTransport p then
      let h := p.l4 + 8
      if (netAt f (p.l4 + 6) 2 = 0 ∧ p.v6) ∨ (netAt f (p.l4 + 6) 2 ≠ 0 ∧ udpSum f p ≠ 0) then t.count 0x3500 0x14 1
      else if netAt f h 1 ≠ 1 ∨ 0xF ≤ netAt f (h + 1) 1 then t.count 0x3500 0x13 1
      else t.dispatch l f p
    else t.dispatch l f p

/-- ETH_FRAME_RECEIVE: a frame from its destination address to the FCS, with the FEC's counts. -/
def State.frameReceive (s : State) (l : Nat) (f : List Byte) (corrected uncorrected : Nat) : State :=
  if !(s.lportUp l) then s
  else
    let t := (((s.portCount l 0 1).portCount l 2 f.length).portCount l 5 corrected).portCount l 6 uncorrected
    let n := f.length
    if s.obj (0x3400 + l / 4) 4 < n ∨ n < 64 then t.portCount l 7 1
    else if fieldAt f (n - 4) 4 ≠ crc32 (f.take (n - 4)) then t.portCount l 4 1
    else if netAt f 0 1 % 2 = 0 ∧ netAt f 0 6 ≠ macOf l then t.portCount l 8 1
    else t.parsePacket l f

/-- ETH_FRAME_RECEIVE. -/
def execEthFrameReceive (l : Fin 32) (frame : List Byte) (corrected uncorrected now : Nat) (s : State) : Res :=
  .next ((s.at now).frameReceive l.val frame corrected uncorrected)

/-! ### The firmware's answers (R316) -/

/-- The valid address of the table that a logical port answers for. -/
def State.answersFor (s : State) (l ip : Nat) : Bool :=
  match s.addrOf ip with
  | some a => bit a.ports l
  | none => false

/-- The answer to an exception packet, without FCS: ARP, neighbour solicitation, echo. -/
def State.excAnswer (s : State) (l : Nat) (f : List Byte) : Option (List Byte) :=
  match parse f with
  | none => none
  | some p =>
    let vlan := match p.tci with | some t => t % 4096 + 32768 | none => 0
    let l2 (d e : Nat) : List Byte := l2Header d l vlan e
    let o := p.l4
    if p.etype = 0x0806 then
      if netAt f o 8 = 0x0001080006040001 ∧ s.answersFor l (mapped4 (netAt f (o + 24) 4)) then
        some (l2 (netAt f (o + 8) 6) 0x0806 ++ beBytes 8 0x0001080006040002 ++ beBytes 6 (macOf l) ++
          beBytes 4 (netAt f (o + 24) 4) ++ bytesAt f (o + 8) 10)
      else none
    else if p.v6 ∧ p.proto = 58 ∧ netAt f o 1 = 135 ∧ s.answersFor l (netAt f (o + 8) 16) then
      let tgt := netAt f (o + 8) 16
      let m (c : Nat) : List Byte := beBytes 2 (136 * 256) ++ beBytes 2 c ++ beBytes 4 0x60000000 ++ beBytes 16 tgt ++
        beBytes 2 0x0201 ++ beBytes 6 (macOf l)
      let h := ip6Header tgt p.sip 58 0 32
      let c := inetSum (beBytes 16 tgt ++ beBytes 16 p.sip ++ beBytes 4 32 ++ beBytes 4 58 ++ m 0)
      some (l2 (netAt f 6 6) 0x86DD ++ splice h 7 (beBytes 1 255) ++ m c)
    else if p.v4 ∧ p.proto = 1 ∧ netAt f o 1 = 8 ∧ s.isDevAddr p.dip then
      let n := netAt f (p.l3 + 2) 2 - 20
      let m (c : Nat) : List Byte := beBytes 2 0 ++ beBytes 2 c ++ bytesAt f (o + 4) (n - 4)
      some (l2 (netAt f 6 6) 0x0800 ++ ip4Header (p.dip % 2 ^ 32) (p.sip % 2 ^ 32) 1 0 n ++ m (inetSum (m 0)))
    else if p.v6 ∧ p.proto = 58 ∧ netAt f o 1 = 128 ∧ s.isDevAddr p.dip then
      let n := netAt f (p.l3 + 4) 2 + p.l3 + 40 - o
      let m (c : Nat) : List Byte := beBytes 2 (129 * 256) ++ beBytes 2 c ++ bytesAt f (o + 4) (n - 4)
      let c := inetSum (beBytes 16 p.dip ++ beBytes 16 p.sip ++ beBytes 4 n ++ beBytes 4 58 ++ m 0)
      some (l2 (netAt f 6 6) 0x86DD ++ ip6Header p.dip p.sip 58 0 n ++ m c)
    else none

/-- EXCEPTION_PACKET_SERVE: the firmware takes the oldest packet of the ring; answers leave through queue 0. -/
def State.serveException (s : State) : State :=
  match s.net.exc with
  | [] => s
  | x :: xs =>
    if !s.fwRuns then s
    else
      let t := s.setNet (fun n => { n with exc := xs })
      match t.excAnswer x.lport x.frame with
      | some b => if t.lportUp x.lport then t.enqueue x.lport 0 (frameOf b) none else t
      | none => t.setNet (fun n => { n with excDone := n.excDone + 1 })

/-- EXCEPTION_PACKET_SERVE. -/
def execExceptionPacketServe (now : Nat) (s : State) : Res := .next ((s.at now).serveException)

/-! ### Writes (R314, R315, R317, R355) -/

/-- Check of CLS_WRITE: `INDEX`, key, mask and action in that order. `op`: the OPERATOR role. -/
def State.clsWriteCheck (s : State) (op : Bool) (v : Nat) : Nat :=
  let i := v % 2 ^ 32
  let a := v / 2 ^ 1056
  let o := s.clsOwner i
  let pol := bits a 37 26
  if i < s.obj 0x3600 2 ∧ !op ∧ i < 8192 then 9
  else if 8192 ≤ i ∨ o = 0 ∨ 4 < bits a 2 0 then 4
  else if pol ≠ 0xFFF ∧ (let r := bits (s.polcfg pol) 175 160
      if o = 1 then !(bit r 15) else decide (r ≠ o - 2)) then 4
  else if bit (sget s.net.cls i).action 63 then 8
  else 0

/-- CLS_WRITE takes effect: the hit counter starts again. -/
def State.clsWriteApply (s : State) (v : Nat) : State :=
  let i := v % 2 ^ 32
  s.setNet (fun n => { n with cls := sput n.cls i ⟨bits v 543 32, bits v 1055 544, v / 2 ^ 1056, 0⟩ })

/-- Check of CLS_VALID. -/
def State.clsValidCheck (s : State) (op : Bool) (v : Nat) : Nat :=
  let i := v % 8192
  if s.clsOwner i = 1 ∧ !op then 9 else if s.clsOwner i = 0 ∨ bits v 30 13 ≠ 0 then 4 else 0

/-- CLS_VALID takes effect. -/
def State.clsValidApply (s : State) (v : Nat) : State :=
  s.setNet (fun n => { n with cls := smod n.cls (v % 8192) (fun e => { e with action := setBit e.action 63 (bit v 31) }) })

/-- Check of POL_CONFIG. -/
def State.polConfigCheck (s : State) (pol v : Nat) : Nat :=
  let two := bits v 7 0 == 1
  let own := bits v 175 160
  let old := bits (s.pendRec 0x3800 2 pol (s.polcfg pol)) 175 160
  if 1 < bits v 7 0 ∨ bits v 10 9 = 3 ∨ bits v 12 11 = 0 ∨ bits v 12 11 = 3 ∨ (two ∧ bits v 95 64 < bits v 63 32) ∨ (!two ∧ bits v 95 64 ≠ 0) ∨ bits v 127 96 < 9216 ∨
      (two ∧ bits v 159 128 < 9216) ∨ bits own 14 9 ≠ 0 then 4
  else if own ≠ old ∧ s.net.cls.any (fun e => bits e.2.action 37 26 == pol && e.2.action != 0) then 4
  else 0

/-- POL_CONFIG takes effect at the tick and refills every instance (R355). -/
def State.polConfigApply (s : State) (pol v : Nat) : State :=
  s.setNet (fun n => { n with
    polcfg := put polDflt n.polcfg pol v
    meters := n.meters.filter (fun e => e.1 % 4096 != pol) })

/-- Whether a spreading record is well formed: no reserved field of it is set (Table 10-5). -/
def spreadOk (b : List Byte) : Bool :=
  fieldAt b 1 1 == 0 && fieldAt b 2 2 == 0 && (List.range 512).all (fun i => !bit (fieldAt b (8 + 2 * i) 2) 14) &&
    (List.range 512).all (fun i => bits (fieldAt b (1032 + 4 * i) 4) 30 21 == 0)

/-- SPREAD (R317, R436). -/
def execSpread (sl : Fin 512) (d : List Byte) (s : State) : Res :=
  .next (s.ctrl sl 4 d (fun tag t => t.ctrlRead sl tag (fieldAt d 8 8) 3080 0 (fun u b =>
    if !(spreadOk b) then u.finish (ctrlCtx sl tag) 1 0 0
    else (u.setNet (fun n => { n with spread := put [] n.spread sl.val b })).finish (ctrlCtx sl tag) 0 0 0)))

/-- RECV_POST (R336): a receive buffer of a RECV queue. -/
def execRecvPost (q : QCtx) (addr : BitVec 64) (len : BitVec 32) (s : State) : Res :=
  .next (s.qcmd q 8 (fun t => t.setNet (fun n => { n with
    recv := smod n.recv (recvKey q.slice.val q.slot.val) (fun r => { r with
      bufs := ins r.bufs r.posted ⟨addr.toNat, len.toNat, q.tag⟩, posted := r.posted + 1 }) })))

end Sys2Proof.Machine
end

