-- ==== Sys2Proof/Machine/Xp.lean ====
section
/-!
DEFINITION. The remote memory transport, sending side (R319–R333, R339): connections, paths, transport frames,
errors, acknowledgements, and the commands of software.
-/
namespace Sys2Proof.Machine

/-! ### Connections (R320–R323) -/

/-- Connection k; CLOSED where it is unused. -/
def State.conn (s : State) (k : Nat) : Conn := sget s.net.conns k
def State.setConn (s : State) (k : Nat) (f : Conn → Conn) : State :=
  s.setNet (fun n => { n with conns := smod n.conns k f })

/-- An object of a connection's class (Table 10-15). -/
def State.cls (s : State) (c : Conn) (sub : Nat) : Nat := s.obj (0x3510 + c.cls) sub

/-- The incarnation of an unused connection number (R323). -/
def State.freshIncarn (s : State) (k : Nat) : Nat := (Config.incarnation s.nor.boots k + look 0 s.net.incarn k) % 256

/-- Connections that a slice has taken: its own and those of its groups (R282, R320). -/
def State.connsUsed (s : State) (sl : Nat) : Nat :=
  (s.net.conns.filter (fun e => !e.2.device && e.2.slice == sl && e.2.st != .closed)).length

/-- Release a connection: CLOSED, its incarnation one higher. -/
def State.closeConn (s : State) (k : Nat) : State :=
  let c := s.conn k
  let t := s.setNet (fun n => { n with conns := drop1 n.conns k, incarn := put 0 n.incarn k (look 0 n.incarn k + 1) })
  match c.opener with
  | some q => t.finish q 0 k c.incarn
  | none => t

/-- The lowest unused connection number. -/
def State.freeConn (s : State) : Nat := lowestFree (s.net.conns.map Prod.fst) 131072 0

/-- Connections that the SP9 opened for its own use. -/
def State.deviceConns (s : State) : Nat := (s.net.conns.filter (fun e => e.2.device)).length

/-- A rate within the bounds of a class (R333). -/
def State.clampRate (s : State) (c : Conn) (r : Nat) : Nat := max (s.cls c 2) (min (s.cls c 3) r)

/-- A connection as it starts. -/
def State.newConn (s : State) (k : Nat) (c : Conn) : Conn :=
  { c with incarn := s.freshIncarn k, rate := s.clampRate c (s.cls c 1) }

/-! ### Addresses and paths (R309, R319, R321, R327) -/

/-- The addresses of a connection's packets and their VLAN field. -/
structure Ends where
  src  : Nat
  dst  : Nat
  v4   : Bool
  vlan : Nat
deriving DecidableEq, Repr

/-- The ends of a connection. -/
def State.endsOf (s : State) (c : Conn) : Option Ends :=
  if c.laddr = 0xFFFF then (s.ownFabric s.selfEp).map (fun a => ⟨a, c.peer, false, s.obj 0x3500 3⟩)
  else
    let a := s.addr c.laddr
    some (if c.ipv4 then ⟨a.ip4, c.peer % 2 ^ 32, true, a.vlan⟩ else ⟨a.ip6, c.peer, false, a.vlan⟩)

/-- Whether a logical port can carry transport traffic of an island. -/
def State.lportQualifies (s : State) (ni l : Nat) : Bool := s.lportUp l && l / 16 == ni && s.nextHop l != 0

/-- The path of a packet: logical port and UDP source port (R319). -/
def State.pathOf (s : State) (k : Nat) (c : Conn) (psn count : Nat) : Option (Nat × Nat) :=
  let msg := beBytes 4 k ++ beBytes 4 (psn / 2 ^ (s.cls c 0xB)) ++ beBytes 1 count
  if c.device then
    let ls := (List.range 32).filter (s.lportQualifies (k % 2))
    let h := rxHash 0 msg
    (ls[h % ls.length]?).map (fun l => (l, 0xC000 + h % 2 ^ 14))
  else
    let r := s.spreadRec c.slice
    let i := rxHash (fieldAt r 4 4) msg % 512
    (((List.range 512).map (fun j => fieldAt r (1032 + 4 * ((i + j) % 512)) 4)).find?
      (fun e => bit e 31 && s.lportQualifies (k % 2) (bits e 20 16))).map (fun e => (bits e 20 16, bits e 15 0))

/-! ### Packets (Tables 10-8, 10-9) -/

/-- What a transport packet says beside its connection. -/
structure XpOut where
  op    : Nat
  flags : Nat
  psn   : Nat
  msn   : Nat
  addr  : Nat
  aux   : Nat
  data  : List Byte
deriving DecidableEq, Repr, Inhabited

/-- The transport header. -/
def xpHeader (x : XpOut) (enc : Bool) (incarn dconn kslot : Nat) : List Byte :=
  beBytes 1 1 ++ beBytes 1 x.op ++ beBytes 1 (x.flags + if enc then 8 else 0) ++ beBytes 1 incarn ++ beBytes 4 dconn ++
    beBytes 4 x.psn ++ beBytes 4 x.msn ++ beBytes 8 x.addr ++ beBytes 4 x.aux ++ beBytes 2 (if enc then kslot else 0) ++
    beBytes 2 x.data.length

/-- Whether an opcode is encrypted where its connection is: sequenced ones and ACK (R339). -/
def xpSealed (op : Nat) : Bool := decide (4 ≤ op) && op != 0xE

/-- Seal a payload under the connection's key slot; none where the slot is not ACTIVE (R339). -/
def State.seal (s : State) (c : Conn) (hdr data : List Byte) : State × Option (List Byte) :=
  let k := s.kslot c.kslot
  if k.st ≠ .active then (s, none)
  else
    let key := leBytes 32 k.key
    let iv := slotNonce k.fixed (!c.starter) k.inv
    let ct := gcmCrypt key iv data
    (s.invoke c.slice c.kslot, some (beBytes 8 k.inv ++ ct ++ gcmTag key iv hdr ct))

/-- Put a transport packet into the queue of its class on a logical port and charge the slice (R345, R348). -/
def State.putFrame (s : State) (k : Nat) (c : Conn) (e : Ends) (path : Nat × Nat) (op : Nat) (xp : List Byte)
    (seq : Option (Nat × Nat)) : State × Nat :=
  let tc := s.cls c 0xF * 4 + if op = 0xC then 0 else 2
  let f := udpFrame e.v4 (s.nextHop path.1) path.1 e.vlan e.src e.dst tc path.2 (s.obj 0x3500 1) xp
  let t := s.enqueue path.1 (s.cls c 0x10) f seq
  (if c.device then t else (t.ssCharge (ssKey c.slice (k % 2)) (s.counted (path.1 / 4) f.length)).use c.slice 14 f.length, f.length)

/-- How a packet's sending ends: bytes queued, no path, or a key slot at its limit. -/
inductive SendRes
  | sent (n : Nat) | noPath | noKey
deriving DecidableEq, Repr

/-- Send a packet of a connection; `count` is its transmission count. -/
def State.sendXp (s : State) (k : Nat) (c : Conn) (x : XpOut) (count : Nat) (seq : Option (Nat × Nat)) : State × SendRes :=
  match s.endsOf c, s.pathOf k c x.psn count with
  | some e, some path =>
    let enc := c.enc && xpSealed x.op
    let h := xpHeader x enc c.pincarn (if x.op = 0 then 0xFFFFFFFF else c.pconn) c.kslot
    if enc then match s.seal c h x.data with
      | (t, some d) => let r := t.putFrame k c e path x.op (h ++ d) seq; (r.1, .sent r.2)
      | (t, none) => (t, .noKey)
    else let r := s.putFrame k c e path x.op (h ++ x.data) seq; (r.1, .sent r.2)
  | _, _ => (s, .noPath)

/-- Send a packet that is neither sequenced nor encrypted. -/
def State.sendCtl (s : State) (k op : Nat) (data : List Byte) : State :=
  (s.sendXp k (s.conn k) { (default : XpOut) with op := op, data := data } 0 none).1

/-- Send CONNECT. -/
def State.sendConnect (s : State) (k : Nat) : State :=
  let c := s.conn k
  s.sendCtl k 0 (beBytes 4 k ++ beBytes 1 c.incarn ++ beBytes 1 c.cls ++ beBytes 1 (b2n c.enc) ++ beBytes 1 0 ++ beBytes 8 c.rdv)

/-! ### ERROR (Table 10-7, R325, R326) -/

/-- Answer the transactions of a tunnel that the peer has not acknowledged (R337). -/
def State.failTunnels (s : State) (c : Conn) : State :=
  c.tunnels.foldl (fun t u => if isRequest u.txn.hat.typ.toNat then t.sendError u.port u.txn.hat 0x0B 0 else t) s

/-- Enter ERROR. `code` gives the status of each work request not completed; `reset`: send RESET (R325). DESIGN CHOICE (log entry 39):
a connection in LISTEN or CONNECTING knows no peer connection to send it to, and sends none. -/
def State.connError (s : State) (k status : Nat) (code : Wr → Nat) (reset : Bool) : State :=
  let c := s.conn k
  if c.st = .closed ∨ c.st = .error then s
  else
    let t := if reset && (c.st == .established || c.st == .closing) then s.sendCtl k 3 [] else s
    let u := c.wrs.foldl (fun v w => v.finish w.q (if w.done then w.status else code w) 0 0) t
    let v := match c.opener with
      | some q => u.finish q status k c.incarn
      | none => u
    let w := (v.setConn k (fun x => { x with
      st := .error, status := status, wrs := [], recs := [], outs := [], finals := [], tunnels := [], opener := none
      rxSends := [], part := [], ready := [], heldPsns := [] })).count 0x3500 0x1C 1
    if c.device then
      let y := w.failTunnels c
      (y.ckpt.jobs.filter (fun e => (e.2.nodes.map (fun n => y.fabric n)).contains (some c.peer))).foldl
        (fun z e => z.jobFault e.1) y
    else w

/-- Every request fails with XP_RESET, but one that has a status of its own. -/
def resetBut (msn status : Nat) (w : Wr) : Nat := if w.msn = msn then status else 0x07

/-- An error that no request caused. -/
def State.connReset (s : State) (k status : Nat) (reset : Bool) : State := s.connError k status (fun _ => 0x07) reset

/-- Every connection whose key slot has reached its usage limit enters ERROR with XP_KEY_EXHAUSTED (R325). -/
def State.keyLimits (s : State) : State :=
  ((s.net.conns.filter (fun e => e.2.enc && (e.2.st == .established || e.2.st == .closing) &&
    (s.kslot e.2.kslot).st == .exhausted)).map Prod.fst).foldl (fun t k => t.connReset k 0x0C true) s

/-- An end from outside: every request fails with XP_ABORTED (R326). -/
def State.connAbort (s : State) (k : Nat) : State := s.connError k 0x0E (fun _ => 0x0E) true

/-- A network island is reset (R38): its connections lose their state. DESIGN CHOICE (log entry 39): they enter ERROR with XP_ABORTED,
and nothing is sent. -/
def State.abortNi (s : State) (ni : Nat) : State :=
  ((s.net.conns.filter (fun e => e.1 % 2 == ni)).map Prod.fst).foldl (fun t k => t.connError k 0x0E (fun _ => 0x0E) false) s

/-- The slice connections that an outside event ends. -/
def State.abortConns (s : State) (p : Nat → Bool) : State :=
  ((s.net.conns.filter (fun e => !e.2.device && p e.2.slice)).map Prod.fst).foldl (fun t k => t.connAbort k) s

/-- Release the connections of a destroyed slice. -/
def State.dropConns (s : State) (sl : Nat) : State :=
  let t := s.abortConns (fun x => x == sl)
  ((t.net.conns.filter (fun e => !e.2.device && e.2.slice == sl)).map Prod.fst).foldl (fun u k => u.closeConn k) t

/-- Release every connection, with RESET on those that are ESTABLISHED (R326). -/
def State.dropAllConns (s : State) : State :=
  (s.net.conns.map Prod.fst).foldl (fun t k =>
    (if (t.conn k).st = .established then t.sendCtl k 3 [] else t).closeConn k) s

/-! ### Acknowledgements (R330, R334) -/

/-- The ACK payload (Table 10-10). -/
def Conn.ackData (c : Conn) (hold : Bool) : List Byte :=
  let sack := (c.got.map (fun p => let i := (p + 2 ^ 32 - c.cum - 1) % 2 ^ 32; if i < 256 then 2 ^ i else 0)).sum
  beBytes 4 c.cum ++ beBytes 4 c.ce ++ beBytes 1 (b2n hold) ++ beBytes 7 0 ++ beBytes 32 sack

/-- Send an ACK. -/
def State.sendAck (s : State) (k : Nat) : State :=
  let c := s.conn k
  let r := s.sendXp k c { (default : XpOut) with op := 0xC, data := c.ackData (!c.device && s.holding c.slice) } 0 none
  match r.2 with
  | .noKey => r.1.connReset k 0x0C true
  | _ => r.1.setConn k (fun x => { x with unacked := 0 })

/-- ACK_DELAY_EXPIRE. -/
def execAckDelayExpire (k : Fin 131072) (now : Nat) (s : State) : Res :=
  .next (if (s.conn k.val).unacked ≠ 0 then ((s.at now).sendAck k.val).keyLimits else s)

/-- The hold of a slice ends: an ACK with HOLD = 0 on each of its connections (R334). -/
def State.holdEnd (s : State) (sl : Nat) : State :=
  ((s.net.conns.filter (fun e => !e.2.device && e.2.slice == sl && (e.2.st == .established || e.2.st == .closing))).map Prod.fst).foldl (fun t k =>
    (t.setConn k (fun c => { c with heldPsns := [] })).sendAck k) s

/-! ### Commands of software (R322, Table 10-6) -/

/-- The class, key and queues of a CONN command of OPEN or LISTEN, as a connection. -/
def connOf (sl : Nat) (c : ConnCmd) (starter : Bool) : Conn :=
  { (default : Conn) with
    slice := sl, cls := c.cls.toNat % 16, enc := bit c.flags.toNat 0, ipv4 := bit c.flags.toNat 1
    anyPeer := bit c.flags.toNat 2, allow := bits c.flags.toNat 5 3, sq := c.sq.toNat, rq := c.rq.toNat
    peer := c.peer.toNat, rdv := c.rdv.toNat, pasid := c.pasid.toNat, kslot := c.kslot.toNat, laddr := c.laddr.toNat
    starter := starter, st := if starter then .connecting else .listen }

/-- The glove slot of a device queue of a kind. -/
def State.queueOfKind (s : State) (sl dev kind : Nat) : Option Nat :=
  match s.slotOfDev sl dev with
  | some q => if (s.queue sl q).cfg.kind = kind then some q else none
  | none => none

/-- The fields of a connection command (Table 10-6); the address of the peer is in network byte order. -/
def connCmdOf (d : List Byte) : ConnCmd where
  cls := BitVec.ofNat 8 (fieldAt d 1 1)
  flags := BitVec.ofNat 8 (fieldAt d 2 1)
  conn := BitVec.ofNat 32 (fieldAt d 4 4)
  sq := BitVec.ofNat 16 (fieldAt d 12 2)
  rq := BitVec.ofNat 16 (fieldAt d 14 2)
  peer := BitVec.ofNat 128 (beNat (bytesAt d 16 16))
  rdv := BitVec.ofNat 64 (fieldAt d 32 8)
  pasid := BitVec.ofNat 32 (fieldAt d 40 4)
  kslot := BitVec.ofNat 16 (fieldAt d 44 2)
  laddr := BitVec.ofNat 16 (fieldAt d 46 2)
  addr := BitVec.ofNat 64 (fieldAt d 48 8)
  reserved := fieldAt d 3 1 != 0 || fieldAt d 56 8 != 0

/-- A command on a queue of kind CONN: an unknown `OP` ends with XP_FORMAT. -/
def State.connDesc (s : State) (q : QCtx) (op : Nat) (d : List Byte) (k : ConnCmd → State → State) : State :=
  let o := fieldAt d 0 1
  s.descriptor q 4 (o == op) (decide (1 ≤ o) && decide (o ≤ 6)) (fun t => t.finish q 0x01 (fieldAt d 4 4) 0) (k (connCmdOf d))

/-- Whether OPEN's or LISTEN's fields are in order. -/
def State.connFieldsOk (s : State) (sl : Nat) (c : ConnCmd) (starter : Bool) : Bool :=
  let a := s.addr c.laddr.toNat
  !c.reserved && decide (1 ≤ c.cls.toNat) && decide (c.cls.toNat ≤ 15) && bits c.flags.toNat 7 6 == 0 &&
    !(starter && bit c.flags.toNat 2) && (s.slice sl).pasids.contains c.pasid.toNat &&
    (s.queueOfKind sl c.sq.toNat 7).isSome && (s.queueOfKind sl c.rq.toNat 8).isSome &&
    !(s.net.conns.any (fun e => !e.2.device && e.2.slice == sl && (e.2.sq == c.sq.toNat || e.2.rq == c.rq.toNat))) &&
    (if c.laddr.toNat = 0xFFFF then !(bit c.flags.toNat 1)
     else decide (c.laddr.toNat < 1024) && a.device && (if bit c.flags.toNat 1 then a.has4 else a.has6))

/-- OPEN or LISTEN: FORMAT, KEY, NOQUOTA and REFUSED in that order. DESIGN CHOICE (log entry 39): XP_REFUSED also where the network
island of the connection is not ready (R33); the chapter names no status for it. -/
def State.connStart (s : State) (q : QCtx) (c : ConnCmd) (starter : Bool) : State :=
  let sl := q.slice.val
  let x := connOf sl c starter
  if !(s.connFieldsOk sl c starter) then s.finish q 0x01 0 0
  else if x.enc && (!(s.ownsSlot sl x.kslot) || (s.kslot x.kslot).st == .empty || (s.kslot x.kslot).st == .needsKey) then
    s.finish q 0x0B 0 0
  else if (s.slice sl).quota.conns ≤ s.connsUsed sl ∨ 131072 ≤ s.net.conns.length then s.finish q 0x0A 0 0
  else if !(s.isReady (21 + s.freeConn % 2)) ∨ (x.laddr = 0xFFFF ∧ s.ownFabric s.selfEp = none) then s.finish q 0x08 0 0
  else
    let k := s.freeConn
    let r := match (s.queueOfKind sl x.rq 8) with
      | some slot => let b := sget s.net.recv (recvKey sl slot); (b.bufs.headD (b.posted, default)).1
      | none => 0
    let y := s.newConn k { x with rqBase := r, tries := b2n starter, opener := if starter then some q else none }
    let t := s.setConn k (fun _ => y)
    if starter then t.sendConnect k else t.finish q 0 k y.incarn

/-- CONN_OPEN: it completes with the outcome of the CONNECT. -/
def execConnOpen (q : QCtx) (d : List Byte) (now : Nat) (s : State) : Res :=
  .next (s.connDesc q 1 d (fun c t => (t.at now).connStart q c true))

/-- CONN_LISTEN: it completes at once with the connection's number. -/
def execConnListen (q : QCtx) (d : List Byte) (now : Nat) (s : State) : Res :=
  .next (s.connDesc q 2 d (fun c t => (t.at now).connStart q c false))

/-- A command that names a connection of its slice; XP_STATE where `ok` is false of it. -/
def State.onConn (s : State) (q : QCtx) (c : ConnCmd) (ok : Conn → Bool) (k : State → Conn → State) : State :=
  let x := s.conn c.conn.toNat
  if c.reserved then s.finish q 0x01 c.conn.toNat 0
  else if x.st = .closed ∨ x.device ∨ x.cls = 0 ∨ x.slice ≠ q.slice.val ∨ !(ok x) then s.finish q 0x0D c.conn.toNat x.incarn
  else k s x

/-- Whether everything a connection has posted is done. -/
def Conn.quiet (c : Conn) : Bool := c.wrs.isEmpty && c.recs.isEmpty && c.outs.isEmpty

/-- Carry a CLOSING connection on: CLOSE is sent once nothing is outstanding, and CLOSED follows the peer's. -/
def State.tryClose (s : State) (k : Nat) : State :=
  let c := s.conn k
  if c.st ≠ .closing ∨ !c.quiet then s
  else
    let t := if c.closeTx then s else (s.sendCtl k 0xE []).setConn k (fun x => { x with closeTx := true })
    if c.closeRx then t.closeConn k else t

/-- CONN_CLOSE. -/
def execConnClose (q : QCtx) (d : List Byte) (now : Nat) (s : State) : Res :=
  .next (s.connDesc q 3 d (fun c t => (t.at now).onConn q c (fun x => x.st == .listen || x.st == .established || x.st == .error)
    (fun u x =>
      let k := c.conn.toNat
      let v := u.setConn k (fun y => { y with opener := some q })
      if x.st = .established then (v.setConn k (fun y => { y with st := .closing })).tryClose k else v.closeConn k)))

/-- CONN_RESET. -/
def execConnReset (q : QCtx) (d : List Byte) (now : Nat) (s : State) : Res :=
  .next (s.connDesc q 4 d (fun c t => (t.at now).onConn q c (fun x => x.st == .connecting || x.st == .established || x.st == .closing)
    (fun u x => (u.connReset c.conn.toNat 0x07 true).finish q 0 c.conn.toNat x.incarn)))

/-- CONN_QUERY: the manual does not lay out the 64 bytes, which are free. -/
def execConnQuery (q : QCtx) (d : List Byte) (s : State) : Res :=
  .next (s.connDesc q 5 d (fun c t => t.onConn q c (fun _ => true) (fun u x =>
    match u.vwrite q.slice.val (u.qPasid q) c.addr.toNat (leBytes 64 (Config.free u.fresh)) with
    | (v, .ok _) => (v.tick1).finish q 0 c.conn.toNat x.incarn
    | (v, .xlate) => v.finish q 0x02 c.conn.toNat x.incarn
    | (v, .memerr) => v.finish q 0x03 c.conn.toNat x.incarn)))

/-- CONN_MODIFY: class and ALLOW flags. -/
def execConnModify (q : QCtx) (d : List Byte) (s : State) : Res :=
  .next (s.connDesc q 6 d (fun c t => t.onConn q c (fun _ => true) (fun u x =>
    if c.cls.toNat = 0 ∨ 15 < c.cls.toNat ∨ bits c.flags.toNat 7 6 ≠ 0 then u.finish q 0x01 c.conn.toNat x.incarn
    else (u.setConn c.conn.toNat (fun y => { y with cls := c.cls.toNat, allow := bits c.flags.toNat 5 3 })).finish q 0
      c.conn.toNat x.incarn)))

/-- CONNECT_RETRY: every 1 ms in CONNECTING; the sixteenth unanswered CONNECT ends in ERROR. -/
def execConnectRetry (k : Fin 131072) (now : Nat) (s : State) : Res :=
  let c := s.conn k.val
  .next (if c.st ≠ .connecting then s
    else if 16 ≤ c.tries then (s.at now).connReset k.val 0x09 true
    else ((s.at now).setConn k.val (fun x => { x with tries := x.tries + 1 })).sendConnect k.val)

/-- CLOSING_TIMEOUT: 4 × RTO after CLOSING. -/
def execClosingTimeout (k : Fin 131072) (s : State) : Res :=
  let c := s.conn k.val
  .next (if c.st ≠ .closing then s
    else (c.wrs.foldl (fun v w => v.finish w.q (if w.done then w.status else 0x07) 0 0) s).closeConn k.val)

/-! ### Work requests (R335, R336, Table 10-11) -/

/-- The fields of a work request (Table 10-11). -/
def wrCmdOf (d : List Byte) : WrCmd where
  final := bit (fieldAt d 1 1) 0
  notify := bit (fieldAt d 1 1) 1
  fence := bit (fieldAt d 1 1) 2
  laddr := BitVec.ofNat 64 (fieldAt d 8 8)
  raddr := BitVec.ofNat 64 (fieldAt d 16 8)
  len := BitVec.ofNat 32 (fieldAt d 24 4)
  imm := BitVec.ofNat 32 (fieldAt d 28 4)
  operand := BitVec.ofNat 64 (fieldAt d 32 8)
  compare := BitVec.ofNat 64 (fieldAt d 40 8)
  reserved := decide (8 ≤ fieldAt d 1 1) || decide (1 < fieldAt d 2 1) || fieldAt d 3 1 != 0 || fieldAt d 48 16 != 0

/-- The connection whose send queue a queue is. -/
def State.connOfQueue (s : State) (q : QCtx) : Option Nat :=
  (s.net.conns.find? (fun e => !e.2.device && e.2.slice == q.slice.val && e.2.sq == (s.queue q.slice.val q.slot.val).dev)).map Prod.fst

/-- The local check of a work request: the status that ends it, or 0. -/
def State.wrCheck (s : State) (c : Conn) (op : Nat) (w : WrCmd) : Nat :=
  let n := w.len.toNat
  if w.reserved ∨ (w.notify ∧ !w.final) ∨ (if op = 3 then n ≠ 8 else n = 0 ∨ 2 ^ 30 < n) then 0x01
  else if c.st = .error then 0x07
  else if c.st ≠ .established then 0x0D
  else if !(s.mapped c.slice c.pasid w.laddr.toNat n (op == 2 || op == 3)) then 0x02
  else 0

/-- Post a work request. DESIGN CHOICE (log entry 39): while the connection's network island is not ready it is refused with XP_STATE
(R33). -/
def State.postWr (s : State) (q : QCtx) (op : Nat) (cas : Bool) (w : WrCmd) : State :=
  match s.connOfQueue q with
  | none => s.finish q 0x0D 0 0
  | some k =>
    let c := s.conn k
    let chk := s.wrCheck c op w
    let st := if chk = 0 ∧ !(s.isReady (21 + k % 2)) then 0x0D else chk
    if st ≠ 0 ∧ c.wrs = [] then s.finish q st 0 0
    else
      s.setConn k (fun x => { x with
        wrs := x.wrs ++ [⟨q, op, cas, w, x.msn, 0, 0, st != 0, st⟩], msn := (x.msn + 1) % 2 ^ 32 })

/-- A work request of one `OP`, and for an ATOMIC of one `AOP`. -/
def State.wrDesc (s : State) (q : QCtx) (op : Nat) (cas : Bool) (d : List Byte) : State :=
  let o := fieldAt d 0 1
  s.descriptor q 7 (o == op && (op != 3 || (fieldAt d 2 1 == 1) == cas)) (decide (1 ≤ o) && decide (o ≤ 4))
    (fun t => t.finish q 0x01 0 0) (fun t => t.postWr q op cas (wrCmdOf d))

/-- WR_WRITE. -/
def execWrWrite (q : QCtx) (d : List Byte) (s : State) : Res := .next (s.wrDesc q 1 false d)

/-- WR_READ. -/
def execWrRead (q : QCtx) (d : List Byte) (s : State) : Res := .next (s.wrDesc q 2 false d)

/-- WR_ATOMIC_FADD. -/
def execWrAtomicFadd (q : QCtx) (d : List Byte) (s : State) : Res := .next (s.wrDesc q 3 false d)

/-- WR_ATOMIC_CAS. -/
def execWrAtomicCas (q : QCtx) (d : List Byte) (s : State) : Res := .next (s.wrDesc q 3 true d)

/-- WR_SEND. -/
def execWrSend (q : QCtx) (d : List Byte) (s : State) : Res := .next (s.wrDesc q 4 false d)

/-- Whether a work request has had its effect: sent and acknowledged, or all data placed. -/
def Conn.wrDone (c : Conn) (w : Wr) : Bool :=
  w.done || (if w.op = 1 ∨ w.op = 4 then
      decide (w.sent = w.cmd.len.toNat) && !(c.recs.any (fun e => e.2.msn == w.msn && !e.2.acked &&
        (match e.2.body with | .write .. | .send .. => true | _ => false)))
    else decide (w.got = w.cmd.len.toNat))

/-- WR_COMPLETE: the oldest work request completes. -/
def State.wrComplete (s : State) (k : Nat) : State :=
  let c := s.conn k
  match c.wrs with
  | [] => s
  | w :: ws =>
    if c.wrDone w then ((s.setConn k (fun x => { x with wrs := ws })).finish w.q w.status w.cmd.len.toNat 0).tryClose k else s

/-- WR_COMPLETE. -/
def execWrComplete (k : Fin 131072) (now : Nat) (s : State) : Res := .next ((s.at now).wrComplete k.val)

/-! ### Sequenced packets (R328, R332, R348) -/

/-- The flags of a packet. -/
def xpFlags (final first last notify : Bool) : Nat :=
  b2n final + 2 * b2n first + 4 * b2n last + 16 * b2n last + 32 * b2n notify

/-- The copy that BUDDY space names on this node, for the endpoint that a device connection leads to; none where the access is not
allowed. Its area is read by the nodes of a table that the job holds, in recovery or for the drain of a committed generation (R368,
R370, Table 12-4). -/
def State.buddyCopy (s : State) (c : Conn) (addr : Nat) : Option (List Byte) :=
  let ok (j : Job) : Bool := c.device && ((j.nodes ++ j.old).map s.fabric).contains (some c.peer) &&
    (j.st == .recovering || j.st == .fenced || decide (j.genS < j.genC))
  (s.ckpt.jobs.find? (fun e => ok e.2)).bind (fun e =>
    if bits addr 62 61 = 0 then some e.2.buddy
    else (s.ckpt.copies.find? (fun x =>
      x.job == e.2.id && x.pred == decide (bits addr 62 61 = 2) && x.slotB == bit addr 60)).map s.copyData)

/-- Whether bytes of a copy on flash belong to a shard whose digest fails: its holder verifies a whole shard before it serves any byte
of it (R380). -/
def State.digestBad (s : State) (c : Conn) (addr n : Nat) : Bool :=
  let off := addr % 2 ^ 60
  bits addr 62 61 != 0 && (s.buddyCopy c addr).any (fun b => (manShards b).any (fun e =>
    decide (e.off < off + n) && decide (off < e.off + e.len) && !(shardOk b e)))

/-- What a read of BUDDY space yields; none where it is answered with XP_REM_ACCESS. -/
def State.buddyRead (s : State) (c : Conn) (addr n : Nat) : Option (List Byte) :=
  let off := addr % 2 ^ 60
  (s.buddyCopy c addr).bind (fun b => if off + n ≤ b.length ∧ !(s.digestBad c addr n) then some (bytesAt b off n) else none)

/-- What a body sends: opcode, flags, address, AUX and data, the data read from its source now (R328). -/
def State.bodyOut (s : State) (c : Conn) (b : Body) : State × (Nat ⊕ (Nat × Nat × Nat × Nat × List Byte)) :=
  let read (a n : Nat) (k : List Byte → Nat × Nat × Nat × Nat × List Byte) : State × (Nat ⊕ (Nat × Nat × Nat × Nat × List Byte)) :=
    match s.vread c.slice c.pasid a n with
    | (t, .ok bs) => (t, .inr (k bs))
    | (t, .xlate) => (t, .inl 0x02)
    | (t, .memerr) => (t, .inl 0x03)
  match b with
  | .write ra la n imm fin no fi la_ => read la n (fun bs => (4, xpFlags fin fi la_ no, ra, if no then imm else 0, bs))
  | .readReq ra n => (s, .inr (5, xpFlags false true true false, ra, n, []))
  | .readRsp off la n fi l =>
    if la < 2 ^ 63 then read la n (fun bs => (6, xpFlags false fi l false, off, 0, bs))
    else match s.buddyRead c la n with
      | some bs => (s, .inr (6, xpFlags false fi l false, off, 0, bs))
      | none => (s, .inl 0x03)
  | .atomic ra cas x y => (s, .inr (7, xpFlags false true true false, ra, b2n cas, beBytes 8 x ++ beBytes 8 y))
  | .atomicRsp v => (s, .inr (8, xpFlags false true true false, 0, 0, beBytes 8 v))
  | .send no off la n imm fi l => read la n (fun bs => (9, xpFlags false fi l false, no * 2 ^ 32 + off, if l then imm else 0, bs))
  | .epjor off d fi l => (s, .inr (0xA, xpFlags false fi l false, 0, off, d))
  | .copy a d fin => (s, .inr (4, xpFlags fin true true false, a, 0, d))
  | .coll _ h d => (s, .inr (0xB, xpFlags false true true false, 0, 0, h ++ d))
  | .cohort no off d fi l => (s, .inr (9, xpFlags false fi l false, no * 2 ^ 32 + off, 0, d))

/-- Whether a body is of a gated kind: WRITE, READ_REQ, ATOMIC, SEND and COLL (R348). DESIGN CHOICE (log entry 39): EPJOR is
of neither list; it is charged to no slice bucket and never held. -/
def Body.gated : Body → Bool
  | .readRsp .. | .atomicRsp .. | .epjor .. => false
  | .write .. | .readReq .. | .atomic .. | .send .. | .copy .. | .coll .. | .cohort .. => true

/-- The next body of a work request, and how far it takes it. -/
def Wr.next (w : Wr) (sendNo size : Nat) : Body × Nat :=
  let n := w.cmd.len.toNat
  let m := min size (n - w.sent)
  let last := decide (w.sent + m = n)
  let la := w.cmd.laddr.toNat + w.sent
  if w.op = 1 then
    (.write (w.cmd.raddr.toNat + w.sent) la m w.cmd.imm.toNat (w.cmd.final && last) (w.cmd.notify && last) (w.sent == 0) last, w.sent + m)
  else if w.op = 2 then (.readReq w.cmd.raddr.toNat n, n)
  else if w.op = 3 then (.atomic w.cmd.raddr.toNat w.cas w.cmd.operand.toNat w.cmd.compare.toNat, n)
  else (.send sendNo w.sent la m w.cmd.imm.toNat (w.sent == 0) last, w.sent + m)

/-- The work request that sends next: in posting order, one with FENCE only once it is the oldest (R336). -/
def nextWr (fst : Bool) : List Wr → Option Wr
  | [] => none
  | w :: ws =>
    if w.done || decide (w.sent = w.cmd.len.toNat) then nextWr false ws
    else if w.cmd.fence && !fst then none
    else some w

/-- The next new packet of a connection: its MSN and body, and the connection after it has left the queue of
things to send. -/
def Conn.nextNew (c : Conn) (size : Nat) : Option (Nat × Body × Conn) :=
  match c.outs with
  | (m, b) :: os => some (m, b, { c with outs := os })
  | [] => match nextWr true c.wrs with
    | none => none
    | some w =>
      let r := w.next c.sendNo size
      some (w.msn, r.1, { c with
        sendNo := if w.op = 4 ∧ r.2 = w.cmd.len.toNat then c.sendNo + 1 else c.sendNo
        wrs := c.wrs.map (fun x => if x.msn = w.msn then { x with sent := r.2 } else x) })

/-- Whether the window and the replay record let a new packet have PSN p (R328): 0 yes, 1 window, 2 wrap. -/
def Conn.admits (c : Conn) (window : Nat) : Nat :=
  if window ≤ (c.psn + 2 ^ 32 - c.una) % 2 ^ 32 then 1
  else if c.recs.any (fun e => e.1 == (c.psn + 2 ^ 31) % 2 ^ 32) then 2 else 0

/-- Whether a gated packet may enter its queue: the slice bucket, which device connections do not have, and `QLIMIT`
(R346, R348). -/
def State.gateOpen (s : State) (k : Nat) (c : Conn) (path : Nat × Nat) : Bool :=
  (c.device || decide (0 < s.ssBalance (ssKey c.slice (k % 2)))) &&
    decide ((s.txq path.1 (s.cls c 0x10)).bytes < qLimit (s.qcfg (path.1 / 4) (s.cls c 0x10)))

/-- Count a packet that waits on the slice bucket, once (R348). -/
def State.ssWait (s : State) (k : Nat) (c : Conn) : State :=
  if c.waited ∨ c.device ∨ 0 < s.ssBalance (ssKey c.slice (k % 2)) then s
  else (s.setNet (fun n => { n with ss := smod n.ss (ssKey c.slice (k % 2)) (fun y => { y with waits := wrap48 (y.waits + 1) }) })).setConn k
    (fun x => { x with waited := true })

/-- Transmit a body under a PSN: `after` is the connection as it then stands, but for rate and pacing. -/
def State.transmit (s : State) (k : Nat) (c after : Conn) (psn msn count : Nat) (b : Body) : State :=
  match s.pathOf k c psn count with
  | none => s
  | some path =>
    if b.gated && !(s.gateOpen k c path) then s.ssWait k c
    else match s.bodyOut c b with
      | (t, .inl st) => t.connError k st (resetBut msn st) true
      | (t, .inr (op, fl, a, x, d)) =>
        match t.sendXp k c ⟨op, fl, psn, msn, a, x, d⟩ count (some (k, psn)) with
        | (u, .sent n) =>
          u.setConn k (fun _ => { after with
            waited := false, pace := max c.pace s.net.now + (if c.rate = 0 then 0 else n * 1000 / c.rate) })
        | (u, .noPath) => u
        | (u, .noKey) => u.connError k 0x0C (resetBut msn 0x0C) true

/-- XP_PACKET_ENQUEUE: the lowest PSN that wants a retransmission, else a new packet. -/
def State.packetEnqueue (s : State) (k : Nat) : State :=
  let c := s.conn k
  if (c.st ≠ .established ∧ c.st ≠ .closing) ∨ s.net.now < c.pace then s
  else match c.recs.find? (fun e => e.2.queued && !e.2.acked) with
    | some (psn, r) =>
      let t := s.transmit k c { c with recs := c.recs.map (fun e => if e.1 = psn then
        (psn, { e.2 with count := e.2.count + 1, at_ := s.net.now, queued := false }) else e) } psn r.msn (r.count + 1) r.body
      if ((t.conn k).recs.find? (fun e => e.1 == psn)).map (fun e => e.2.count) = some (r.count + 1) then
        let u := t.count 0x3500 0x16 1
        if c.device then u else u.use c.slice 16 1
      else t
    | none =>
      match c.nextNew (s.paySize (k % 2)) with
      | none => s
      | some (m, b, d) => match c.admits (s.cls c 0xC) with
        | 0 => s.transmit k c { d with
            psn := (c.psn + 1) % 2 ^ 32, recs := c.recs ++ [(c.psn, ⟨m, b, 1, s.net.now, false, false⟩)] } c.psn m 1 b
        | 2 => s.count 0x3500 0x18 1
        | _ => s

/-- XP_PACKET_ENQUEUE. -/
def execXpPacketEnqueue (k : Fin 131072) (now : Nat) (s : State) : Res := .next ((s.at now).packetEnqueue k.val).keyLimits

/-! ### Timers of the sender (R331, R333, R334, R337) -/

/-- Ask for a retransmission of the packets that a predicate selects among those not marked received. -/
def Conn.retry (c : Conn) (p : Nat → Sent → Bool) : Conn :=
  { c with recs := c.recs.map (fun e => if !e.2.acked && p e.1 e.2 then (e.1, { e.2 with queued := true }) else e) }

/-- Packets shown missing while a later one is marked received, once REORDER_US have passed (R331). -/
def Conn.reorder (c : Conn) (us now : Nat) : Conn :=
  match (c.recs.filter (fun e => e.2.acked)).getLast? with
  | none => c
  | some (last, _) => c.retry (fun p r => decide ((last + 2 ^ 32 - p) % 2 ^ 32 < 2 ^ 31) && decide (r.at_ + us * 1000 ≤ now))

/-- REORDER_EXPIRE. -/
def execReorderExpire (k : Fin 131072) (now : Nat) (s : State) : Res :=
  .next ((s.at now).setConn k.val (fun c => c.reorder (s.cls c 0xA) (max s.net.now now)))

/-- RTO_EXPIRE: the timeout has passed without an advance of CUM. -/
def State.rtoExpire (s : State) (k : Nat) : State :=
  let c := s.conn k
  if c.recs = [] then s
  else if c.hold then s.setConn k (fun x => x.retry (fun p _ => p == x.una))
  else
    let t := (s.count 0x3500 0x17 1).bin 6 (50 + k % 2) 1
    if s.cls c 9 ≤ c.timeouts then
      t.connError k 0x06 (resetBut ((c.recs.headD default).2.msn) 0x06) true
    else t.setConn k (fun x => { (x.retry (fun _ _ => true)) with
      timeouts := x.timeouts + 1, rate := s.clampRate x (x.rate / 2) })

/-- RTO_EXPIRE. -/
def execRtoExpire (k : Fin 131072) (now : Nat) (s : State) : Res := .next ((s.at now).rtoExpire k.val)

/-- AI_INTERVAL_EXPIRE. -/
def execAiIntervalExpire (k : Fin 131072) (s : State) : Res :=
  .next (if (s.conn k.val).st = .closed then s else s.setConn k.val (fun c => { c with
    ceSeen := false, rate := if c.ceSeen then c.rate else s.clampRate c (c.rate + s.cls c 6) }))

/-- Open a device connection to a fabric address (R321, R337). -/
def State.openDevice (s : State) (peer cls ni : Nat) : State × Option Nat :=
  let used := s.net.conns.map Prod.fst
  let k := lowestFree (used.filterMap (fun x => if x % 2 = ni then some (x / 2) else none)) 65536 0 * 2 + ni
  if s.ownFabric s.selfEp = none ∨ s.obj 0x3500 7 ≤ s.deviceConns ∨ 131072 ≤ k then (s, none)
  else
    let c : Conn := { (default : Conn) with
      device := true, cls := cls, peer := peer, laddr := 0xFFFF, starter := true, st := .connecting, tries := 1 }
    ((s.setConn k (fun _ => s.newConn k c)).sendConnect k, some k)

/-- Send an Epjor transaction through the tunnel to a fabric address, opened on first use (R337). -/
def State.tunnel (s : State) (port : Nat) (peer : Nat) (t : Txn) : State × Bool :=
  let r := match s.deviceConn peer 0 0 with
    | some k => (s, some k)
    | none => s.openDevice peer 0 0
  match r.2 with
  | none => (r.1, false)
  | some k =>
    let bs := leBytes 16 (t.hat.nat 0 0 false) ++ t.body
    (r.1.setConn k (fun c => { c with
      outs := c.outs ++ (cutBytes (s.paySize 0) bs).map (fun e => (c.msn, .epjor e.1 e.2.1 e.2.2.1 e.2.2.2))
      tunnels := c.tunnels ++ [⟨port, t, c.msn⟩], msn := (c.msn + 1) % 2 ^ 32, lastUse := s.net.now }), true)

/-- TUNNEL_IDLE_EXPIRE: a tunnel that this SP9 opened is closed after `TUNNEL_IDLE` ms without traffic (R337). -/
def execTunnelIdleExpire (k : Fin 131072) (now : Nat) (s : State) : Res :=
  let c := s.conn k.val
  let t := s.at now
  .next (if !c.device ∨ !c.starter ∨ c.cls ≠ 0 ∨ c.st ≠ .established then s
    else if c.quiet && decide (c.lastUse + s.obj 0x3500 8 * 1000000 ≤ t.net.now) then
      (t.setConn k.val (fun x => { x with st := .closing })).tryClose k.val
    else s)

end Sys2Proof.Machine
end

