-- ==== Sys2Proof/Machine/Barrier.lean ====
section
/-!
DEFINITION. The barrier hub (R294–R297): groups, the barrier tree, arrivals and their answers, releases and
timeouts.
-/
namespace Sys2Proof.Machine

/-! ### Groups -/

def State.group (s : State) (k : Nat) : Group := sget s.groups k
def State.setGroup (s : State) (k : Nat) (f : Group → Group) : State := { s with groups := smod s.groups k f }

/-- Whether a group takes calls and arrivals. -/
def Group.live (g : Group) : Bool := g.st == .active || g.st == .failed

/-- The slot of a live group of a slice by `GROUP_ID` (R280). -/
def State.groupSlot (s : State) (sl id : Nat) : Option Nat :=
  (s.groups.find? (fun e => e.2.live && e.2.slice == sl && e.2.id == id)).map Prod.fst

/-- Groups that exist (`GROUPS_ACTIVE`). -/
def State.groupsActive (s : State) : Nat := s.groups.length

/-- The first rank of node j, and one past its last (R281). -/
def Group.lo (g : Group) (j : Nat) : Nat := (g.nodes.getD j (0, 0)).2
def Group.hi (g : Group) (j : Nat) : Nat := if j + 1 < g.nodes.length then (g.nodes.getD (j + 1) (0, 0)).2 else g.ranks

/-- The node that a rank belongs to. -/
def Group.nodeOf (g : Group) (r : Nat) : Nat := (g.nodes.takeWhile (fun e => decide (e.2 ≤ r))).length - 1

/-! ### The barrier tree (R294) -/

/-- The parent of node j: the first of levels 2 to 4 at which it is not its own. -/
def parentOf (j : Nat) : Option Nat :=
  if j = 0 then none
  else some (if j % 64 ≠ 0 then j / 64 * 64 else if j % 4096 ≠ 0 then j / 4096 * 4096 else j / 262144 * 262144)

/-- The children of node j among m nodes: at each level at which it gathers. -/
def childrenOf (m j : Nat) : List Nat :=
  [1, 64, 4096].flatMap (fun w =>
    if j % (64 * w) = 0 then ((List.range 63).map (fun i => j + (i + 1) * w)).filter (fun c => decide (c < m)) else [])

/-- Whether this node's subtree is complete for the current epoch: every local member, the SP9's own arrival
in a STEP group, and every child node. -/
def Group.complete (g : Group) : Bool :=
  (List.range g.members.length).all g.arrived.contains && (!g.step || g.raised) &&
    (childrenOf g.nodes.length g.index).all g.kids.contains

/-! ### Messages to other nodes (R282, R294, R338, Table 10-10) -/

/-- The connection of a group to another node. -/
def State.nodeConn (s : State) (k node : Nat) : Option Nat :=
  (s.net.conns.find? (fun e => e.2.group == some (k, node))).map Prod.fst

/-- The COLL payload before the data (Table 10-10), in network byte order (R6). -/
def collHeader (id seq kind code run lo n eoff : Nat) : List Byte :=
  beBytes 4 id ++ beBytes 4 seq ++ beBytes 1 kind ++ beBytes 1 code ++ [0, 0] ++ beBytes 4 run ++ beBytes 4 lo ++ beBytes 4 n ++
    beBytes 8 eoff

/-- Put bodies into what a connection has to send, under the next message number. -/
def State.queueBodies (s : State) (c : Nat) (bs : List Body) : State :=
  s.setConn c (fun x => { x with outs := x.outs ++ bs.map (fun b => (x.msn, b)), msn := (x.msn + 1) % 2 ^ 32 })

/-- The packets of a message: its data cut to what a packet carries beside the payload header, each with the first element that
it carries; `el` is the number of elements in a number of bytes. -/
def collBodies (size id seq kind code run lo n eoff : Nat) (el : Nat × Nat) (data : List Byte) : List Body :=
  if data = [] then [.coll kind (collHeader id seq kind code run lo n eoff) []]
  else (cutBytes ((size - 32) / 24 * 24) data).map (fun p =>
    .coll kind (collHeader id seq kind code run lo n (eoff + p.1 * el.1 / el.2)) p.2.1)

/-- Send a message of a group to a node on its connection there. -/
def State.collMsg (s : State) (k node kind code seq run lo n eoff : Nat) (el : Nat × Nat) (data : List Byte) : State :=
  match s.nodeConn k node with
  | some c => s.queueBodies c (collBodies (s.paySize (c % 2)) (s.group k).id seq kind code run lo n eoff el data)
  | none => s

/-- A BARRIER or STEP message of the Control Strait between the switch island and another (Table 9-9). -/
def State.csHub (s : State) (k dest src epoch act code : Nat) : State :=
  s.emit (.cs (csm dest src (if (s.group k).step then 3 else 2)
    (k * 2 ^ 38 + epoch % 2 ^ 16 * 2 ^ 22 + act * 2 ^ 20 + code % 256 * 2 ^ 12)))

/-- The network island that a group reaches a node by. -/
def State.nodeNi (s : State) (k node : Nat) : Nat := 21 + (match s.nodeConn k node with
  | some c => c % 2
  | none => 0)

/-! ### Answers (R295) -/

/-- Numbers of the SYNC_RSP statuses: 0 OK, 1 STALE, 2 EARLY, 3 BADGROUP, 4 TIMEOUT, 5 ABORTED; and the same
in the code space of Table 9-6. -/
def collCode (c : Nat) : Nat := [0, 0x0B, 0x0C, 0x01, 0x08, 0x09].getD c 0x02

/-- Answer an arrival: with SYNC_RSP, with a completion that echoes the group and the epoch, or by the end of a kernel's
operation, which a BARRIER message tells its island (R297). -/
def State.answerWaiter (s : State) (k group epoch code : Nat) : Waiter → State
  | .sync p h => s.reply p h 0x0F (leBytes 4 group ++ leBytes 4 epoch ++ leBytes 1 code ++ List.replicate 7 0)
  | .call q => s.finish q (collCode code) group epoch
  | .cop q num =>
    match (s.seqr q).ops.find? (fun o => o.num == num) with
    | some o =>
      (s.emit (.cs (csm q 20 2 (k * 2 ^ 38 + epoch % 2 ^ 16 * 2 ^ 22 + (if code = 0 then 1 else 2) * 2 ^ 20 + code % 256 * 2 ^ 12)))).copDone
        q o (collCode code) false
    | none => s

/-- Tell a node of a group: kind, epoch and code. The switch island passes the message to a network island, which sends it
(R297, R338). -/
def State.tellNode (s : State) (k node kind epoch code : Nat) : State :=
  ((s.emit (.coll node kind (s.group k).id epoch (leBytes 1 code))).csHub k (s.nodeNi k node) 20 epoch kind code).collMsg
    k node kind code epoch 0 0 0 0 (1, 1) []

/-- End the holds of a slice's kernels at the step boundary, each by a STEP message (R297, R302); one released without OK keeps
the code in `OPERR` (R295). -/
def State.releaseHolds (s : State) (k code : Nat) : State :=
  let g := s.group k
  (List.range 16).foldl (fun u n =>
    if (u.seqr n).slice = g.slice ∧ (u.seqr n).stepHold then
      (u.csHub k n 20 (u.seqr n).stepEpoch (if code = 0 then 1 else 2) code).setSeqr n (fun z => { z with
        stepHold := false, operr := if code = 0 then z.operr else operrAdd z.operr (collCode code) 30 })
    else u) s

/-- Release every held arrival of a group with a code, and the holds of the slice's kernels (R295, R302). -/
def State.releaseWaiters (s : State) (k code : Nat) : State :=
  let g := s.group k
  let t := g.waiting.foldl (fun u w => u.answerWaiter k g.id g.epoch code w.2) (s.setGroup k (fun y => { y with
    waiting := [], arrived := [], kids := [], raised := false, passed := false }))
  if g.step then t.releaseHolds k code else t

/-- Pass this node's completion up the tree once its subtree is complete (R294). -/
def State.passUp (s : State) (k : Nat) : State :=
  let g := s.group k
  match parentOf g.index with
  | some p =>
    if g.complete && !g.passed && g.st == .active then
      (s.tellNode k p 0 g.epoch 0).setGroup k (fun y => { y with passed := true })
    else s
  | none => s

/-- An arrival by a member for an epoch (R295, R296). -/
def State.arrive (s : State) (k m epoch : Nat) (w : Waiter) : State :=
  let g := s.group k
  if g.step ∧ (s.job g.slice).st = .fenced then s.answerWaiter k g.id epoch 5 w
  else if g.st = .failed then s.answerWaiter k g.id epoch 4 w
  else if epoch = g.epoch then
    (s.setGroup k (fun y => { y with
      waiting := y.waiting ++ [(m, w)], arrived := insSet y.arrived m })).passUp k
  else if epoch + 1 = g.epoch && g.done then s.answerWaiter k g.id epoch 0 w
  else if epoch < g.epoch then s.answerWaiter k g.id epoch 1 w
  else s.answerWaiter k g.id epoch 2 w

/-- The member of a group that an accelerator's port and source name. -/
def Group.accelOf (g : Group) (p : Nat) (h : Hat) : Option Nat :=
  g.members.findIdx? (fun m => m.accel && m.port == p && m.endpoint == h.src.toNat && m.pasid == h.pasid.toNat)

/-- A SYNC of an accelerator: an arrival at the barrier of the group it names (R255, R295). -/
def State.syncArrive (s : State) (p : Nat) (h : Hat) (b : List Byte) : State :=
  let id := fieldAt b 0 4
  let e := fieldAt b 4 4
  match s.groupSlot h.stag.toNat id with
  | none => s.answerWaiter 0 id e 3 (.sync p h)
  | some k => match (s.group k).accelOf p h with
    | none => s.answerWaiter k id e 3 (.sync p h)
    | some m => s.arrive k m e (.sync p h)

/-- EPJOR_SYNC_BARRIER (R295). -/
def execEpjorSyncBarrier (p : Fin 9) (t : Txn) (s : State) : Res :=
  .next (if !t.hat.enc && fieldAt t.body 8 1 == 1 then s
    else s.terminate p.val t [0x0E] (fun b u => u.syncArrive p.val t.hat b))

/-- EPJOR_SYNC_STEP_ARRIVE (R299). -/
def execEpjorSyncStepArrive (p : Fin 9) (t : Txn) (s : State) : Res :=
  .next (if !t.hat.enc && fieldAt t.body 8 1 == 0 then s
    else s.terminate p.val t [0x0E] (fun b u => u.syncArrive p.val t.hat b))

/-- The member of a group whose member queue is a queue. -/
def Group.memberOfQueue (g : Group) (dev : Nat) : Option Nat := g.members.findIdx? (fun m => m.queue == dev)

/-- The fields of a call descriptor (Table 9-5). -/
def collOf (d : List Byte) : CollCmd where
  mode := BitVec.ofNat 8 (fieldAt d 1 1)
  fmt := BitVec.ofNat 8 (fieldAt d 2 1)
  round := BitVec.ofNat 8 (fieldAt d 3 1)
  group := BitVec.ofNat 32 (fieldAt d 4 4)
  cseq := BitVec.ofNat 32 (fieldAt d 8 4)
  rank := BitVec.ofNat 32 (fieldAt d 12 4)
  send := BitVec.ofNat 64 (fieldAt d 16 8)
  recv := BitVec.ofNat 64 (fieldAt d 24 8)
  count := BitVec.ofNat 64 (fieldAt d 32 8)
  root := BitVec.ofNat 32 (fieldAt d 40 4)
  tid := BitVec.ofNat 16 (fieldAt d 48 2)
  seed := BitVec.ofNat 64 (fieldAt d 56 8)
  reserved := fieldAt d 50 6 != 0

/-- The `OP` codes of a COLL queue (R283). -/
def collOps : List Nat := [0x01, 0x02, 0x10, 0x11, 0x12, 0x13, 0x14, 0x15, 0x16]

/-- A descriptor on a COLL queue, for the command of one `OP`: an unknown `OP` ends with COLL_FORMAT (Table 9-6), and a
descriptor of another command is no occasion for this one. DESIGN CHOICE (log entry 35): while the switch island is not ready every
request is refused with COLL_ABORTED (R33); the chapter names no status for it. -/
def State.collDesc (s : State) (q : QCtx) (op : Nat) (d : List Byte) (k : CollCmd → State → State) : State :=
  let o := fieldAt d 0 1
  let no (code : Nat) (t : State) : State := t.finish q code (fieldAt d 4 4) (fieldAt d 8 4)
  s.descriptor q 3 (o == op) (collOps.contains o) (fun t => no (if t.isReady 20 then 0x02 else 0x09) t)
    (fun t => if t.isReady 20 then k (collOf d) t else no 0x09 t)

/-- A BARRIER or ARRIVE call (R295, R299, R283). -/
def State.callArrive (s : State) (q : QCtx) (c : CollCmd) : State :=
  let sl := q.slice.val
  let id := c.group.toNat
  match s.groupSlot sl id with
  | none => s.finish q 0x01 id c.root.toNat
  | some k =>
    match (s.group k).memberOfQueue (s.queue sl q.slot.val).dev with
    | none => s.finish q 0x02 id c.root.toNat
    | some m =>
      if c.reserved ∨ c.mode ≠ 0 ∨ c.cseq ≠ 0 ∨ ((s.group k).members.getD m default).rank ≠ c.rank.toNat then
        s.finish q 0x02 id c.root.toNat
      else s.arrive k m c.root.toNat (.call q)

/-- CALL_BARRIER. -/
def execCallBarrier (q : QCtx) (d : List Byte) (s : State) : Res := .next (s.collDesc q 0x15 d (fun c t => t.callArrive q c))

/-- CALL_ARRIVE. -/
def execCallArrive (q : QCtx) (d : List Byte) (s : State) : Res := .next (s.collDesc q 0x16 d (fun c t => t.callArrive q c))

/-- The group of a kernel's slice whose SLICE member has a queue, and that member. -/
def State.kernelMember (s : State) (sl dev : Nat) : Option (Nat × Nat) :=
  s.groups.findSome? (fun e =>
    if e.2.live && e.2.slice == sl then
      (e.2.members.findIdx? (fun m => !m.accel && m.queue == dev)).map (fun m => (e.1, m))
    else none)

/-- The STEP group of a slice, and its SLICE member that has a queue (R299). -/
def State.stepMember (s : State) (sl dev : Nat) : Option (Nat × Nat) :=
  match s.stepGroup sl with
  | some k => ((s.group k).members.findIdx? (fun m => !m.accel && m.queue == dev)).map (fun m => (k, m))
  | none => none

/-! ### Completion, release and timeout (R295, R296) -/

/-- The release of an epoch at this node: passed to the children; members are answered at once, in a STEP
group with the actions of R303. -/
def State.releaseEpoch (s : State) (k epoch code : Nat) : State :=
  let g := s.group k
  let t := (childrenOf g.nodes.length g.index).foldl (fun u c => u.tellNode k c (if code = 0 then 1 else 2) epoch code) s
  if code ≠ 0 then
    let u := t.releaseWaiters k code
    if code = 4 then u.setGroup k (fun y => { y with st := .failed }) else u
  else if g.step then t.setGroup k (fun y => { y with release := some epoch })
  else
    ((t.releaseWaiters k 0).setGroup k (fun y => { y with epoch := y.epoch + 1, done := true })).count 0x3200 7 1

/-- The event GROUP_FAILED (R296); a STEP group's failure is a fault of its job (R374). -/
def State.groupFailed (s : State) (k : Nat) : State :=
  let g := s.group k
  let t := (s.event (.slice g.slice) 0x0901 g.id g.epoch 0).event .operator 0x0901 g.id g.epoch 0
  if g.step then t.jobFault g.slice else t

/-- COLL_PKT_ARRIVE (R338): a child node's subtree has arrived. -/
def execCollPktArrive (p : CollPkt) (s : State) : Res :=
  .next (match s.groupSlot p.slice.val p.group.toNat with
  | none => s
  | some k =>
    let g := s.group k
    if g.st = .active ∧ p.seq.toNat = g.epoch ∧ (childrenOf g.nodes.length g.index).contains p.node.toNat then
      ((s.csHub k 20 (s.nodeNi k p.node.toNat) g.epoch 0 0).setGroup k (fun y => { y with kids := insSet y.kids p.node.toNat })).passUp k
    else s)

/-- Release and failure messages from the parent node. -/
def State.fromParent (s : State) (p : CollPkt) (code : Nat) : State :=
  match s.groupSlot p.slice.val p.group.toNat with
  | none => s
  | some k =>
    let g := s.group k
    if g.st = .active ∧ p.seq.toNat = g.epoch ∧ parentOf g.index = some p.node.toNat ∧ g.release = none then
      let t := (s.csHub k 20 (s.nodeNi k p.node.toNat) g.epoch (if code = 0 then 1 else 2) code).releaseEpoch k g.epoch code
      if code = 4 then t.groupFailed k else t
    else s

/-- COLL_PKT_RELEASE (R338). -/
def execCollPktRelease (p : CollPkt) (s : State) : Res := .next (s.fromParent p p.code.toNat)

/-- COLL_PKT_FAIL (R338, R296): a failure carries its status, TIMEOUT where it names none. -/
def execCollPktFail (p : CollPkt) (s : State) : Res :=
  .next (s.fromParent p (if p.code = 0 then 4 else p.code.toNat))

/-! ### Kernels of the tensor islands (R127, R160, R283, R295) -/

/-- Issue a `COLL` operation to the collectives engine (R149). -/
def State.collOp (s : State) (h : Hdr) (kind : Nat) (ra : BitVec 5) (queue : BitVec 14) (k : Ctx → State → State) : State :=
  s.instr h (h.word 0x7A (ra.toNat * 65536 + queue.toNat * 4 + kind)) false false [ra] [] 1 (fun c t =>
    match t.issue c 30 0 (.coll kind queue.toNat ((t.seqr c.q).gpr ra.toNat).toNat) with
    | .ok u => .ok (k c u)
    | r => r)

/-- COLL_DOORBELL. -/
def execCollDoorbell (h : Hdr) (ra : BitVec 5) (queue : BitVec 14) (s : State) : Res :=
  .next (s.collOp h 0 ra queue (fun _ t => t))

/-- COLL_ARRIVE: the sequencer issues nothing more until it has signalled its arrival (R127, R160). -/
def execCollArrive (h : Hdr) (ra : BitVec 5) (queue : BitVec 14) (s : State) : Res :=
  .next (s.collOp h 1 ra queue (fun c t => t.setSeqr c.q (fun z => { z with arriving := some (z.issued - 1) })))

/-- COLL_BARRIER. -/
def execCollBarrier (h : Hdr) (ra : BitVec 5) (queue : BitVec 14) (s : State) : Res :=
  .next (s.collOp h 2 ra queue (fun _ t => t))

/-- What a `COLL` operation does when the collectives engine starts it: a doorbell sets the producer index
of a COLL queue of the slice, an arrival at a barrier waits for its answer. -/
def State.collStart (s : State) (q : Nat) (o : CopOp) (kind queue v : Nat) : State :=
  let sl := (s.seqr q).slice
  if !(s.isReady 20) then s.copDone q o 0x09 false
  else if kind = 0 then
    match s.slotOfDev sl queue with
    | some slot =>
      if (s.queue sl slot).cfg.kind = 3 then (s.produce sl slot (v % 2 ^ 32)).copDone q o 0 false
      else s.copDone q o 0x02 false
    | none => s.copDone q o 0x02 false
  else if kind = 2 then
    match s.kernelMember sl queue with
    | some (k, m) =>
      (s.emit (.cs (csm 20 q 2 (k * 2 ^ 38 + v % 2 ^ 16 * 2 ^ 22)))).arrive k m (v % 2 ^ 32) (.cop q o.num)
    | none => s.copDone q o 0x01 false
  else s

/-- COP_OP_START (R125). -/
def execCopOpStart (q : Fin 49) (num : Nat) (s : State) : Res :=
  let z := s.seqr q.val
  .next (match z.ops.find? (fun o => o.num == num) with
  | some o =>
    if !o.started && z.mayStart q.val o then
      let t := s.setSeqr q.val (fun y => { y with ops := y.ops.map (fun e => if e.num = num then { e with started := true } else e) })
      match o.kind with
      | .coll kind queue v => t.collStart q.val o kind queue v
      | _ => t
    else s
  | none => s)

/-- The arrival of a kernel at its slice's step boundary is signalled; it counts as the arrival of the SLICE
member that its queue names, and a code other than OK ends the operation (R160, R295, R299). -/
def State.kernelArrival (s : State) (q num : Nat) : State :=
  let z := s.seqr q
  match z.ops.find? (fun o => o.num == num) with
  | some o =>
    match o.kind with
    | .coll 1 queue v =>
      let e := v % 2 ^ 32
      match s.stepMember z.slice queue with
      | none => (s.copDone q o 0x01 false).setSeqr q (fun y => { y with arriving := none })
      | some (k, m) =>
        let g := s.group k
        if g.st = .active ∧ e = g.epoch ∧ (s.job g.slice).st ≠ .fenced then
          let t := (s.copDone q o 0 false).setSeqr q (fun y => { y with arriving := none, stepHold := true, stepEpoch := e })
          ((t.emit (.cs (csm 20 q 3 (k * 2 ^ 38 + e % 2 ^ 16 * 2 ^ 22)))).setGroup k (fun y => { y with
            arrived := insSet y.arrived m })).passUp k
        else
          let code := if (s.job g.slice).st = .fenced then 5 else if g.st = .failed then 4 else if e + 1 = g.epoch ∧ g.done then 0 else if e < g.epoch then 1 else 2
          (s.copDone q o (collCode code) false).setSeqr q (fun y => { y with arriving := none })
    | _ => s
  | none => s

/-! ### Control Strait messages (R297) -/

/-- A kernel's `COLL` BARRIER operation that a message's slot and epoch name, with the member that it arrives as. -/
def State.barrierOp (s : State) (n slot epoch : Nat) : Option (CopOp × Nat × Nat) :=
  (s.seqr n).ops.findSome? (fun o => match o.kind with
    | .coll 2 queue v => match s.kernelMember (s.seqr n).slice queue with
      | some (k, m) => if o.started ∧ k = slot ∧ v % 2 ^ 16 = epoch then some (o, m, v % 2 ^ 32) else none
      | none => none
    | _ => none)

/-- What a BARRIER or STEP message does at its destination (Table 9-9). At the switch island an ARRIVE of a tensor island is the
arrival of its kernel, counted once; at a tensor island a RELEASE or FAIL ends, with its `CODE`, the operation that waits for
the epoch, or the hold at the step boundary. -/
def State.hubMessage (s : State) (src dest cls pl : Nat) : State :=
  let slot := bits pl 49 38
  let epoch := bits pl 37 22
  let act := bits pl 21 20
  let code := bits pl 19 12
  if dest = 20 ∧ src < 16 ∧ act = 0 then
    if cls = 2 then match s.barrierOp src slot epoch with
      | some (o, m, e) =>
        if (s.group slot).waiting.any (fun w => w.2 == .cop src o.num) then s else s.arrive slot m e (.cop src o.num)
      | none => s
    else match (s.seqr src).arriving with
      | some num => if (s.seqr src).ops.all (fun o => o.num == num) then s.kernelArrival src num else s
      | none => s
  else if dest < 16 ∧ (act = 1 ∨ act = 2) then
    if cls = 2 then match s.barrierOp dest slot epoch with
      | some (o, _, _) => (s.setGroup slot (fun g => { g with waiting := g.waiting.filter (fun w => w.2 != .cop dest o.num) })).copDone
          dest o (collCode code) false
      | none => s
    else
      let z := s.seqr dest
      if z.stepHold ∧ z.slice = (s.group slot).slice ∧ z.stepEpoch % 2 ^ 16 = epoch then
        s.setSeqr dest (fun z => { z with stepHold := false, operr := if code = 0 then z.operr else operrAdd z.operr (collCode code) 30 })
      else s
  else s

/-- A BARRIER or STEP message: carried, and where its destination takes it, obeyed. -/
def State.csBarrier (s : State) (src dest cls pl : Nat) (err : CsErr) : State :=
  let t := s.csSend (csm dest src cls pl) err
  if err = .uncorrectable ∨ !(s.csTakes dest cls) then t else t.hubMessage src dest cls pl

/-- CS_BARRIER (R23, R297). -/
def execCsBarrier (src : Fin 26) (dest : BitVec 5) (pl : BitVec 50) (err : CsErr) (s : State) : Res :=
  .next (s.csBarrier src.val dest.toNat 2 pl.toNat err)

/-- CS_STEP (R23, R297). -/
def execCsStep (src : Fin 26) (dest : BitVec 5) (pl : BitVec 50) (err : CsErr) (s : State) : Res :=
  .next (s.csBarrier src.val dest.toNat 3 pl.toNat err)

/-- TI_BOUNDARY_SIGNAL (R127): once nothing but the arrival itself is left in the scoreboard. -/
def execTiBoundarySignal (q : Fin 49) (s : State) : Res :=
  let z := s.seqr q.val
  .next (match z.arriving with
  | some num => if z.ops.all (fun o => o.num == num) then (s.kernelArrival q.val num).takeHeld q.val else s
  | none => s)

end Sys2Proof.Machine
end

