-- ==== Sys2Proof/Machine/Coll.lean ====
section
/-!
DEFINITION. The collectives engine (R280–R291): groups, calls, partials by the canonical tree, exact lanes,
owners and results.
-/
namespace Sys2Proof.Machine

/-! ### Group creation and destruction (R280–R282) -/

/-- The COLL queue of a slice with a device queue number. -/
def State.collQueue (s : State) (sl dev : Nat) : Bool :=
  match s.slotOfDev sl dev with
  | some slot => (s.queue sl slot).cfg.kind == 3
  | none => false

/-- A local member entry (Table 9-4). -/
def memberOf (b : List Byte) : Member where
  rank := fieldAt b 0 4
  accel := fieldAt b 4 1 == 0
  port := fieldAt b 5 1
  queue := fieldAt b 6 2 % 2 ^ 14
  endpoint := fieldAt b 8 4 % 2 ^ 21
  pasid := fieldAt b 12 4 % 2 ^ 20

/-- Whether a member entry's reserved bits are zero and its kind and port are in range. -/
def memberRaw (b : List Byte) : Bool :=
  decide (fieldAt b 4 1 ≤ 1) && decide (fieldAt b 5 1 ≤ 7) && (fieldAt b 4 1 == 0 || fieldAt b 5 1 == 0) &&
    decide (fieldAt b 6 2 < 2 ^ 14) && decide (fieldAt b 8 4 < 2 ^ 21) && decide (fieldAt b 12 4 < 2 ^ 20)

/-- Whether a list rises strictly. -/
def rising : List Nat → Bool
  | a :: b :: l => decide (a < b) && rising (b :: l)
  | _ => true

/-- Whether a descriptor with its tables makes a group (R281). -/
def State.groupOk (s : State) (sl : Nat) (d nt lt : List Byte) (g : Group) : Bool :=
  let only := g.only
  fieldAt d 4 2 < 4 && fieldAt d 6 1 ≤ 2 && fieldAt d 7 1 = 0 && fieldAt d 26 2 = 0 && fieldAt d 56 8 = 0 &&
  decide (1 ≤ g.ranks) && decide (g.ranks ≤ 2097152) &&
  decide (1 ≤ g.nodes.length) && decide (g.nodes.length ≤ 262144) && (only || decide (g.nodes.length ≤ 4096)) &&
  decide (g.index < g.nodes.length) && decide (fieldAt d 24 2 ≤ 64) &&
  (only || (decide (0 < g.stage) && g.stage % 0x200000 == 0)) &&
  (List.range g.nodes.length).all (fun j => fieldAt nt (8 * j) 4 < 2 ^ 21) &&
  (g.nodes.headD (0, 1)).2 == 0 && rising (g.nodes.map Prod.snd) && g.nodes.all (fun e => decide (e.2 < g.ranks)) &&
  (List.range g.members.length).all (fun i => memberRaw (bytesAt lt (16 * i) 16)) &&
  g.members.length == g.hi g.index - g.lo g.index &&
  (List.range g.members.length).all (fun i => g.members.any (fun m => m.rank == g.lo g.index + i)) &&
  g.members.all (fun m => s.collQueue sl m.queue) &&
  (g.members.map Member.queue).eraseDups.length == g.members.length &&
  g.members.all (fun m => if m.accel then
      (s.binding m.port sl m.pasid).isSome && m.endpoint == s.partnerEp m.port
    else (s.slice sl).pasids.contains m.pasid) &&
  some (g.nodes.getD g.index (0, 0)).1 == s.selfEp &&
  !(s.groups.any (fun e => e.2.slice == sl && (e.2.id == g.id || (g.step && e.2.step))))

/-- The group of a descriptor with its tables (Table 9-3). -/
def State.groupOf (s : State) (sl : Nat) (q : QCtx) (d nt lt : List Byte) : Group :=
  let m := fieldAt d 12 4
  let only := bit (fieldAt d 4 2) 1
  let j := fieldAt d 16 4
  { (default : Group) with
    st := .creating, slice := sl, id := fieldAt d 0 4, step := bit (fieldAt d 4 2) 0, only := only, algo := fieldAt d 6 1
    ranks := fieldAt d 8 4, index := j
    timeout := if fieldAt d 20 4 = 0 then s.obj 0x3200 4 else fieldAt d 20 4
    nodes := (List.range m).map (fun i => (fieldAt nt (8 * i) 4 % 2 ^ 21, fieldAt nt (8 * i + 4) 4))
    members := (List.range (fieldAt d 24 2)).map (fun i => memberOf (bytesAt lt (16 * i) 16))
    stage := fieldAt d 48 8, epoch := fieldAt d 28 4, creator := some q }

/-- The nodes that this one holds a connection to: every other node, or for a `BARRIER_ONLY` group the parent and the children in
the barrier tree (R282). -/
def Group.peers (g : Group) : List Nat :=
  if g.only then (parentOf g.index).toList ++ childrenOf g.nodes.length g.index
  else (List.range g.nodes.length).filter (· != g.index)

/-- The connection of a group to a node, as it is made: of class 0 (R338), to the node's fabric address (R321). DESIGN CHOICE (log
entry 35): it listens until the group is registered, for a `RENDEZVOUS` made of the group's identifier. -/
def State.groupConn (s : State) (k : Nat) (g : Group) (node : Nat) : Conn :=
  let peer := s.fabric (g.nodes.getD node (0, 0)).1
  let ok := peer.isSome && (s.ownFabric s.selfEp).isSome
  { (default : Conn) with
    st := if ok then .listen else .error, status := if ok then 0 else 8, slice := g.slice, peer := peer.getD 0
    rdv := 2 ^ 32 + g.id, sq := 2 ^ 16, rq := 2 ^ 16, laddr := 0xFFFF, group := some (k, node) }

/-- Make the connections of a group. -/
def State.openGroup (s : State) (k : Nat) : State :=
  let g := s.group k
  g.peers.foldl (fun t node => let c := t.freeConn; t.setConn c (fun _ => t.newConn c (t.groupConn k g node))) s

/-- Once every node has registered the group, the node with the lower index opens each connection. -/
def State.joinGroup (s : State) (k : Nat) : State :=
  (s.group k).peers.foldl (fun t node =>
    match t.nodeConn k node with
    | some c =>
      if (s.group k).index < node ∧ (t.conn c).st = .listen then
        (t.setConn c (fun x => { x with st := .connecting, starter := true, tries := 1 })).sendConnect c
      else t
    | none => t) s

/-- Give up the connections of a group. -/
def State.closeGroup (s : State) (k : Nat) : State :=
  let own (c : Conn) : Bool := (c.group.map Prod.fst) == some k
  ((s.net.conns.filter (fun e => own e.2)).map Prod.fst).foldl (fun t c =>
    if (t.conn c).st = .established then
      (t.setConn c (fun x => { x with st := .closing, group := none })).tryClose c
    else t.closeConn c) s

/-- Whether a GROUP_CREATE or GROUP_DESTROY leaves every field but `OP`, `GROUP_ID`, `SEND` and `TAG` zero (R283). -/
def groupCmdOk (c : List Byte) : Bool :=
  fieldAt c 1 3 == 0 && fieldAt c 8 8 == 0 && fieldAt c 24 20 == 0 && fieldAt c 48 16 == 0

/-- GROUP_CREATE (R280–R282): the group exists once every node has registered it. -/
def State.groupCreate (s : State) (q : QCtx) (c : List Byte) : State :=
  let sl := q.slice.val
  let pasid := s.qPasid q
  let id := fieldAt c 4 4
  match s.vread sl pasid (fieldAt c 16 8) 64 with
  | (t, .ok d) =>
    match t.vread sl pasid (fieldAt d 32 8) (8 * min 262144 (fieldAt d 12 4)) with
    | (u, .ok nt) =>
      match u.vread sl pasid (fieldAt d 40 8) (16 * min 64 (fieldAt d 24 2)) with
      | (v, .ok lt) =>
        let g := v.groupOf sl q d nt lt
        let k := lowestFree (v.groups.map Prod.fst) 4096 0
        let n := g.peers.length
        if !(groupCmdOk c) ∨ g.id ≠ id ∨ 262144 < fieldAt d 12 4 ∨ 64 < fieldAt d 24 2 ∨ !(v.groupOk sl d nt lt g) then v.finish q 0x02 id 0
        else if 4096 ≤ k ∨ (v.slice sl).quota.conns < v.connsUsed sl + n ∨ 131072 < v.net.conns.length + n then v.finish q 0x0A id 0
        else ({ v with groups := sput v.groups k g }).openGroup k
      | (v, _) => v.finish q 0x05 id 0
    | (u, _) => u.finish q 0x05 id 0
  | (t, _) => t.finish q 0x05 id 0

/-- GROUP_CREATE. -/
def execGroupCreate (q : QCtx) (d : List Byte) (s : State) : Res :=
  .next (s.collDesc q 0x01 d (fun _ t => t.groupCreate q d))

/-- GROUP_REGISTERED (R282). -/
def execGroupRegistered (k : Fin 4096) (s : State) : Res :=
  let g := s.group k.val
  .next (match g.creator with
  | some q => if g.st = .creating then
      ((s.setGroup k.val (fun y => { y with st := .active, creator := none })).joinGroup k.val).finish q 0 g.id 0 else s
  | none => s)

/-- GROUP_CREATE_TIMEOUT (R282). -/
def execGroupCreateTimeout (k : Fin 4096) (s : State) : Res :=
  let g := s.group k.val
  .next (match g.creator with
  | some q => if g.st = .creating then
      (let t := s.closeGroup k.val; { t with groups := drop1 t.groups k.val }).finish q 0x08 g.id 0 else s
  | none => s)

/-! ### Calls: posts (R283, R284) -/

/-- The call of a `CSEQ`. -/
def Group.call (g : Group) (c : Nat) : Option Call := g.calls.find? (fun x => x.cseq == c)

/-- Change a call. -/
def State.setCall (s : State) (k c : Nat) (f : Call → Call) : State :=
  s.setGroup k (fun g => { g with calls := g.calls.map (fun x => if x.cseq = c then f x else x) })

/-- Complete one rank's post with a status, echoing the group and `CSEQ` (R285). -/
def State.endPost (s : State) (p : Post) (status : Nat) : State :=
  s.finish p.q status p.cmd.group.toNat p.cmd.cseq.toNat

/-- Whether an operation reduces. -/
def reduces (op : Nat) : Bool := op == 0x10 || op == 0x11

/-- Whether the fields of a call are in range for its operation (Table 9-5). -/
def callOk (op : Nat) (c : CollCmd) : Bool :=
  let elem := c.fmt.toNat % 16
  let scale := bits c.fmt.toNat 5 4
  !c.reserved && decide (c.fmt.toNat < 64) && decide (c.round.toNat < 8) && decide (c.round.toNat % 4 ≤ 2) &&
    (if reduces op then decide (c.mode.toNat ≤ 2) && scale == 0 && [4, 5, 6, 7, 8, 9].contains elem
     else c.mode == 0 && fmtValid elem scale) &&
    (op == 0x13 || c.root == 0)

/-- Post one rank's part of a call; one that ended here without this rank, as when the node was fenced, ends with COLL_ABORTED. -/
def State.postCall (s : State) (q : QCtx) (op : Nat) (c : CollCmd) : State :=
  let sl := q.slice.val
  let dev := (s.queue sl q.slot.val).dev
  let late := match s.stepGroup sl with
    | some k => ((s.group k).memberOfQueue dev).any (s.group k).arrived.contains
    | none => false
  let p : Post := ⟨q, op, c, late⟩
  match s.groupSlot sl c.group.toNat with
  | none => s.endPost p 0x01
  | some k =>
    let g := s.group k
    match g.memberOfQueue dev with
    | none => s.endPost p 0x02
    | some m =>
      let r := (g.members.getD m default).rank
      if g.step ∧ (s.job sl).st = .fenced then s.endPost p 0x09
      else if !(callOk op c) ∨ g.only ∨ r ≠ c.rank.toNat ∨ (op = 0x13 ∧ g.ranks ≤ c.root.toNat) then s.endPost p 0x02
      else if c.cseq.toNat ≠ look 0 g.next r then s.endPost p 0x04
      else
        let n := c.cseq.toNat
        let t := s.setGroup k (fun y => { y with next := put 0 y.next r (n + 1) })
        if n < g.ended then t.endPost p 0x09
        else match g.call n with
        | some _ => t.setCall k n (fun x => { x with posts := x.posts ++ [p] })
        | none => t.setGroup k (fun y => { y with calls := y.calls ++ [{ (default : Call) with cseq := n, posts := [p] }] })

/-- ALL_REDUCE. -/
def execAllReduce (q : QCtx) (d : List Byte) (s : State) : Res :=
  .next (s.collDesc q 0x10 d (fun c t => t.postCall q 0x10 c))

/-- REDUCE_SCATTER. -/
def execReduceScatter (q : QCtx) (d : List Byte) (s : State) : Res :=
  .next (s.collDesc q 0x11 d (fun c t => t.postCall q 0x11 c))

/-- ALL_GATHER. -/
def execAllGather (q : QCtx) (d : List Byte) (s : State) : Res :=
  .next (s.collDesc q 0x12 d (fun c t => t.postCall q 0x12 c))

/-- BROADCAST. -/
def execBroadcast (q : QCtx) (d : List Byte) (s : State) : Res :=
  .next (s.collDesc q 0x13 d (fun c t => t.postCall q 0x13 c))

/-- ALL_TO_ALL. -/
def execAllToAll (q : QCtx) (d : List Byte) (s : State) : Res :=
  .next (s.collDesc q 0x14 d (fun c t => t.postCall q 0x14 c))

/-! ### Geometry of a call -/

def Call.cmd (x : Call) : CollCmd := (x.posts.headD default).cmd
def Call.op (x : Call) : Nat := (x.posts.headD default).op
def Call.elem (x : Call) : Nat := x.cmd.fmt.toNat % 16
def Call.count (x : Call) : Nat := x.cmd.count.toNat

/-- Bytes of n elements in a format, block headers after the elements. -/
def fmtBytes (fmt n : Nat) : Nat :=
  (n * elemWidth (fmt % 16) + 7) / 8 + (if bits fmt 5 4 = 0 then 0 else n / 32 * hdrBytes (bits fmt 5 4) false)

/-- Bytes that a rank sends and receives. -/
def Call.sendBytes (x : Call) (n : Nat) : Nat :=
  let b := fmtBytes x.cmd.fmt.toNat x.count
  if x.op = 0x11 ∨ x.op = 0x14 then n * b else b
def Call.recvBytes (x : Call) (n : Nat) : Nat :=
  let b := fmtBytes x.cmd.fmt.toNat x.count
  if x.op = 0x12 ∨ x.op = 0x14 then n * b else b

/-- Whether a rank's send buffer is read: in a broadcast, the root's alone. -/
def Call.reads (x : Call) (r : Nat) : Bool := x.op != 0x13 || x.cmd.root.toNat == r

/-- Elements of a reduction. -/
def Call.elems (x : Call) (n : Nat) : Nat := if x.op = 0x11 then n * x.count else x.count

/-- Elements of a run and the number of runs (R288). -/
def Call.per (x : Call) : Nat := x.seg / 4
def Call.runs (x : Call) (n : Nat) : Nat := if x.per = 0 then 0 else (x.elems n + x.per - 1) / x.per
def Call.runLen (x : Call) (n i : Nat) : Nat := min x.per (x.elems n - i * x.per)

/-! ### Reduction (R287–R289) -/

/-- A contribution as the engine adds it: FP32 codes, or 64-bit integers (R96, R100). -/
def contribCodes (e : Nat) (cs : List Nat) : List Nat :=
  cs.map (fun c => match elemVal e c with
    | .fin s n d => if isInt e then unsigned 64 ((if s then -1 else 1) * ((n / d : Nat) : Int)) else to32 (.fin s n d)
    | v => to32 v)

/-- Addition of two codes. -/
def addCode (int : Bool) (a b : Nat) : Nat := if int then (a + b) % 2 ^ 64 else add32 a b

/-- Element by element. -/
def addVec (int : Bool) (a b : List Nat) : List Nat := List.zipWith (addCode int) a b

/-- The maximal subtrees of the canonical tree over [lo, lo+n) that lie in [a, b) (R287). -/
def subtrees (a b : Nat) : Nat → Nat → Nat → List (Nat × Nat)
  | 0, _, _ => []
  | f + 1, lo, n =>
    if n = 0 ∨ lo + n ≤ a ∨ b ≤ lo then []
    else if a ≤ lo ∧ lo + n ≤ b then [(lo, n)]
    else
      let h := (n + 1) / 2
      subtrees a b f lo h ++ subtrees a b f (lo + h) (n - h)

/-- Everything, once its pieces make up n items. -/
def whole {α : Type} (m : Store (List α)) (n : Nat) : Option (List α) :=
  let l := m.flatMap Prod.snd
  if l.length = n then some l else none

/-- The codes of a partial that have come. -/
def CPart.codes (p : CPart) : List Nat := p.data.flatMap Prod.snd

/-- The partial over a subtree from local contributions: by the tree under CANON, in order of arrival
otherwise. -/
def partialOf (int canon : Bool) (cs : List (Nat × List Nat)) (t : Nat × Nat) : CPart :=
  let mine := cs.filter (fun c => decide (t.1 ≤ c.1) && decide (c.1 < t.1 + t.2))
  let vs := if canon then (List.range t.2).map (fun i => ((mine.find? (fun c => c.1 == t.1 + i)).map Prod.snd).getD [])
    else mine.map Prod.snd
  ⟨t.1, t.2, [(0, if canon then canonTree (addVec int) [] vs.length vs else vs.tail.foldl (addVec int) (vs.headD []))]⟩

/-- The partial set of ranks [a, b) of n ranks. -/
def partialSet (int canon : Bool) (n a b : Nat) (cs : List (Nat × List Nat)) : List CPart :=
  (subtrees a b (n + 1) 0 n).map (partialOf int canon cs)

/-- Take a piece of a partial, which begins with element o of the run. -/
def addPart (ps : List CPart) (lo n o : Nat) (xs : List Nat) : List CPart :=
  if ps.any (fun p => p.lo == lo && p.n == n) then
    ps.map (fun p => if p.lo = lo ∧ p.n = n then { p with data := ins p.data o xs } else p)
  else ps ++ [⟨lo, n, [(o, xs)]⟩]

/-- Join partials of w codes up the canonical tree; none where one is missing. -/
def joinCanon (int : Bool) (w : Nat) (ps : List CPart) : Nat → Nat → Nat → Option (List Nat)
  | 0, _, _ => none
  | f + 1, lo, n =>
    match ps.find? (fun p => p.lo == lo && p.n == n) with
    | some p => whole p.data w
    | none =>
      if n ≤ 1 then none
      else
        let h := (n + 1) / 2
        match joinCanon int w ps f lo h, joinCanon int w ps f (lo + h) (n - h) with
        | some a, some b => some (addVec int a b)
        | _, _ => none

/-- The whole sum of a reduction of w elements from its partials, once they cover every rank. -/
def Red.total (r : Red) (int canon : Bool) (n w : Nat) : Option (List Nat) :=
  if canon then joinCanon int w r.parts (n + 1) 0 n
  else if r.parts.all (fun p => p.codes.length == w) && (r.parts.map CPart.n).sum == n then
    some ((r.parts.tail.map CPart.codes).foldl (addVec int) ((r.parts.map CPart.codes).headD []))
  else none

/-- The values of a contribution's FP32 codes. -/
def vals32 (cs : List Nat) : List Val := cs.map (elemVal 9)

/-- Blocks of 32 of a list. -/
def blocks32 {α : Type} : Nat → List α → List (List α)
  | 0, _ => []
  | f + 1, l => if l.isEmpty then [] else l.take 32 :: blocks32 f (l.drop 32)

/-- The exponent bytes of a node: the largest of its contributions', by block (R98, R289). -/
def nodeExps (cs : List (Nat × List Nat)) : List Nat :=
  let each := cs.map (fun c => (blocks32 c.2.length (vals32 c.2)).map exactByte)
  each.tail.foldl (List.zipWith max) (each.headD [])

/-- The lane sums of a node under the global bytes, as 32-bit integers. -/
def nodeLanes (g : List Nat) (cs : List (Nat × List Nat)) : List Nat :=
  let each := cs.map (fun c => (List.range c.2.length).map (fun i =>
    exactLane (g.getD (i / 32) 0) (elemVal 9 (c.2.getD i 0))))
  (each.tail.foldl (List.zipWith (· + ·)) (each.headD [])).map (unsigned 32)

/-! Ring and tree (R289, R290). DESIGN CHOICE (log entry 35): the rules name a ring and a tree and give no shape. -/

/-- Whether a phase runs by ring: as `ALGO` selects, AUTO from 1 MiB of FP32. -/
def useRing (algo count : Nat) : Bool := algo == 1 || (algo == 0 && decide (2 ^ 20 ≤ 4 * count))

/-- The nodes after a node in a chain that begins at the owner or source: the next in a ring, two in a tree. -/
def chainKids (ring : Bool) (l : List Nat) (me : Nat) : List Nat :=
  match l.findIdx? (· == me) with
  | some i => (if ring then [i + 1] else [2 * i + 1, 2 * i + 2]).filterMap (fun j => l[j]?)
  | none => []

/-- The node before a node in a chain. -/
def chainParent (ring : Bool) (l : List Nat) (me : Nat) : Option Nat :=
  match l.findIdx? (· == me) with
  | some 0 => none
  | some i => l[if ring then i - 1 else (i - 1) / 2]?
  | none => none

/-- The chain of m nodes that begins at one, with the nodes that take part. -/
def chainFrom (m first : Nat) (part : Nat → Bool) : List Nat :=
  ((List.range m).map (fun i => (first + i) % m)).filter (fun j => j == first || part j)

/-- What several nodes have sent, once all of it has come. -/
def gathered (m : Store (Store (List Nat))) (l : List Nat) (n : Nat) : Option (List (List Nat)) :=
  l.mapM (fun j => whole (look [] m j) n)

/-- Messages of a reduction: node, kind and content. -/
abbrev RedMsgs : Type := List (Nat × Nat × List Nat)

/-- Pass 1 upwards: the largest of the exponent bytes of this node and of those after it. -/
def Red.upExps (r : Red) (me : Nat) (up : Option Nat) (kids : List Nat) (n : Nat) : Red × RedMsgs :=
  if r.expOut then (r, [])
  else match gathered r.exps (me :: kids) ((n + 31) / 32) with
    | some es =>
      let e := es.tail.foldl (List.zipWith max) (es.headD [])
      match up with
      | some p => ({ r with expOut := true }, [(p, 3, e)])
      | none => ({ r with expOut := true, glob := [(0, e)] }, [])
    | none => (r, [])

/-- Pass 1 downwards, the global bytes, and this node's lanes under them. -/
def Red.downGlob (r : Red) (me : Nat) (kids : List Nat) (n : Nat) : Red × RedMsgs :=
  match whole r.glob ((n + 31) / 32) with
  | some g =>
    let x := if r.contrib.isEmpty then r
      else { r with contrib := [], lanes := ins r.lanes me [(0, nodeLanes g r.contrib)] }
    if r.globOut then (x, []) else ({ x with globOut := true }, kids.map (fun c => (c, 3, g)))
  | none => (r, [])

/-- Pass 2: the lane sums of this node and of those after it, as 32-bit integers. -/
def Red.upLanes (r : Red) (me : Nat) (up : Option Nat) (kids : List Nat) (n : Nat) : Red × RedMsgs :=
  if r.laneOut then (r, [])
  else match gathered r.lanes (me :: kids) n with
    | some ls =>
      let l := ls.tail.foldl (List.zipWith (fun a b => (a + b) % 2 ^ 32)) (ls.headD [])
      match up with
      | some p => ({ r with laneOut := true }, [(p, 5, l)])
      | none => ({ r with laneOut := true, sum := some l }, [])
    | none => (r, [])

/-- Carry an EXACT reduction of n elements as far as what has come allows. -/
def Red.exactStep (r : Red) (me : Nat) (up : Option Nat) (kids : List Nat) (n : Nat) : Red × RedMsgs :=
  let a := r.upExps me up kids n
  let b := a.1.downGlob me kids n
  let c := b.1.upLanes me up kids n
  (c.1, a.2 ++ b.2 ++ c.2)

/-- Whether this node has nothing more to pass on of an EXACT reduction. -/
def Red.passed (r : Red) : Bool := r.expOut && r.globOut && r.laneOut

/-- The exact sums at the owner. -/
def Red.exact (r : Red) : Option (List Val) :=
  r.sum.map (fun l =>
    let g := r.glob.flatMap Prod.snd
    (List.range l.length).map (fun i => exactVal (g.getD (i / 32) 0) (signed 32 (l.getD i 0))))

/-- Bytes of codes in a packet, 8 for integers and 4 otherwise, in network byte order (R6). -/
def codeBytes (int : Bool) (l : List Nat) : List Byte := l.flatMap (beBytes (if int then 8 else 4))

/-- Codes of a packet's bytes. -/
def bytesCodes (int : Bool) (b : List Byte) : List Nat :=
  let w := if int then 8 else 4
  (List.range (b.length / w)).map (fun i => beNat (bytesAt b (w * i) w))

/-- The data of a reduction's message, and its elements in a number of bytes. -/
def msgData (kind : Nat) (l : List Nat) : List Byte := if kind = 3 then l.map (BitVec.ofNat 8) else codeBytes false l
def msgRatio (kind : Nat) : Nat × Nat := if kind = 3 then (32, 1) else (1, 4)

/-- Take a piece of exponent bytes or of lane sums from a node: exponent bytes of the node before this one are the global ones. -/
def Red.takeExps (r : Red) (up : Option Nat) (node o : Nat) (l : List Nat) : Red :=
  if up = some node then { r with glob := ins r.glob (o / 32) l }
  else { r with exps := ins r.exps node (ins (look [] r.exps node) (o / 32) l) }
def Red.takeLanes (r : Red) (node o : Nat) (l : List Nat) : Red :=
  { r with lanes := ins r.lanes node (ins (look [] r.lanes node) o l) }

/-- Staging that a reduction occupies: CANON partials, of w bytes an element, and EXACT contributions that wait for pass 1
(R291). -/
def Red.bytes (r : Red) (mode w : Nat) : Nat :=
  if mode = 1 then w * (r.parts.map (fun p => p.codes.length)).sum
  else if mode = 2 then 4 * (r.contrib.map (fun e => e.2.length)).foldl max 0
  else 0

/-- Convert reduced values once into the output format (R290). -/
def Call.convert (x : Call) (first : Nat) (vs : List Val) : List Byte :=
  let e := x.elem
  let c := x.cmd
  packCodes (elemWidth e) ((List.range vs.length).map (fun i =>
    (Machine.convert e (rndOf c.round.toNat c.seed.toNat c.tid.toNat (first + i)) (vs.getD i (.fin false 0 1))).1))

/-! ### Failure and completion (R285) -/

/-- Send a packet of a call to a node: kind, then the run, subtree and element as in Table 10-10. -/
def State.collSend (s : State) (k node kind seq run lo n eoff : Nat) (el : Nat × Nat) (data : List Byte) : State :=
  let g := s.group k
  ((s.emit (.coll node kind g.id seq (beBytes 4 run ++ beBytes 4 lo ++ beBytes 4 n ++ beBytes 8 eoff ++ data))).use
    g.slice 11 data.length).collMsg k node kind 0 seq run lo n eoff el data

/-- The nodes of a group but this one. -/
def Group.others (g : Group) : List Nat := (List.range g.nodes.length).filter (· != g.index)

/-- Account for the staging of a group, charged to its slice's stacked memory and never above `STAGE_BYTES` (R291). -/
def State.restage (s : State) (k : Nat) : State :=
  let g := s.group k
  let calls := (g.calls.map (fun x => if x.fail.isSome then 0 else
    (x.reds.map (fun e => e.2.bytes x.cmd.mode.toNat (if isInt x.elem then 8 else 4))).sum)).sum
  let sets := ((s.opt.sets.filter (fun e => e.2.slice == g.slice && e.2.group == g.id)).map (fun e =>
    (e.2.reds.map (fun r => r.2.bytes e.2.mode 4)).sum)).sum
  let n := min g.stage (calls + sets)
  if n = g.staged then s
  else (s.setSlice g.slice (fun y => { y with memUsed := y.memUsed + n - g.staged })).setGroup k (fun y => { y with staged := n })

/-- A call fails at this node: it sends its failure mark to every other node (R285). -/
def State.callFail (s : State) (k c status : Nat) : State :=
  match (s.group k).call c with
  | none => s
  | some x =>
    if x.fail.isSome then s
    else
      let t := (s.setCall k c (fun y => { y with fail := some status })).restage k
      if status = 0x07 then t else (s.group k).others.foldl (fun u n => u.collSend k n 8 c 0 0 0 0 (1, 1) []) t

/-- Whether this node has done its part in every reduction and move of a call. -/
def Call.doneRuns (x : Call) (n : Nat) : Bool := x.next == (if reduces x.op then x.runs n else 1) && x.reds.isEmpty

/-- Whether a call has ended: it failed, or its results are written and this node owes the others nothing more. -/
def Call.ended (x : Call) (n : Nat) : Bool := x.fail.isSome || (x.writing && x.writes == 0 && x.doneRuns n)

/-- End a call: every local rank that posted it receives its completion. -/
def State.endCall (s : State) (k c : Nat) : State :=
  match (s.group k).call c with
  | none => s
  | some x =>
    let t := x.posts.foldl (fun u p => u.endPost p (x.fail.getD 0)) s
    let u := (t.setGroup k (fun g => { g with calls := g.calls.filter (fun y => y.cseq != c), ended := max g.ended (c + 1) })).use (s.group k).slice 10 1
    (u.restage k).count 0x3200 (if x.fail.isNone then 5 else 6) 1

/-- COLL_CALL_COMPLETE (R284, R285): calls of a group complete in `CSEQ` order, once every local rank has posted
them or the node is fenced. -/
def execCollCallComplete (k : Fin 4096) (c : BitVec 32) (s : State) : Res :=
  let g := s.group k.val
  .next (match g.call c.toNat with
  | some x => if x.ended g.ranks && (x.posts.length == g.members.length || x.fail == some 9) && c.toNat == g.ended then s.endCall k.val c.toNat else s
  | none => s)

/-- COLL_CALL_TIMEOUT. -/
def execCollCallTimeout (k : Fin 4096) (c : BitVec 32) (s : State) : Res :=
  .next (match (s.group k.val).call c.toNat with
  | some x => if x.started && !(x.ended (s.group k.val).ranks) then s.callFail k.val c.toNat 0x08 else s
  | none => s)

/-! ### The course of a call -/

/-- The member of a rank. -/
def Group.member (g : Group) (r : Nat) : Member := (g.members.find? (fun m => m.rank == r)).getD default

/-- Read one rank's send buffer: a slice's at once, an accelerator's with READs (R286). -/
def State.gatherRank (k c n : Nat) (s : State) (p : Post) : State :=
  let g := s.group k
  let r := p.cmd.rank.toNat
  let m := g.member r
  let a := p.cmd.send.toNat
  if m.accel then
    if !(s.port m.port).usable then s.callFail k c 0x06
    else
      let ps := pieces4k a (n / 4096 + 2) 0 n
      (s.setCall k c (fun y => { y with
        want := y.want + ps.length, send := ins y.send r (List.replicate n 0) })).ask m.port
        (ps.map (fun o => ⟨.collRead k c r o.1, g.slice, m.pasid, a + o.1, o.2, none⟩))
  else match s.vread g.slice m.pasid a n with
    | (t, .ok bs) => t.setCall k c (fun y => { y with send := ins y.send r bs })
    | (t, _) => t.callFail k c 0x05

/-- Whether a rank's receive buffer can be written, where it lies in a slice. -/
def State.recvOk (s : State) (k n : Nat) (p : Post) : Bool :=
  let g := s.group k
  let m := g.member p.cmd.rank.toNat
  m.accel || s.mapped g.slice m.pasid p.cmd.recv.toNat n true

/-- The local contributions of a run, in order of the ranks' posts. -/
def Call.contribs (x : Call) (n i : Nat) : List (Nat × List Nat) :=
  let w := elemWidth x.elem
  x.posts.map (fun p =>
    let r := p.cmd.rank.toNat
    let bs := bytesAt (look [] x.send r) (i * x.per * w / 8) (x.runLen n i * w / 8)
    (r, contribCodes x.elem (unpackCodes w (x.runLen n i) bs)))

/-- Change the reduction of a run of a call. -/
def Call.setRed (x : Call) (i : Nat) (f : Red → Red) : Call := { x with reds := smod x.reds i f }

/-- Whether a call reduces under EXACT; integers never do (R100, R289). -/
def Call.exact (x : Call) : Bool := x.cmd.mode == 2 && !isInt x.elem

/-- Whether a node needs a run: all of them, or in a reduce-scatter those that its ranks' shares meet. -/
def Group.needs (g : Group) (x : Call) (node i : Nat) : Bool :=
  x.op != 0x11 || (decide (g.lo node * x.count < (i + 1) * x.per) && decide (i * x.per < g.hi node * x.count))

/-- The owner of a run (R288), and the chain by which its EXACT lanes travel. -/
def Group.owner (g : Group) (i : Nat) : Nat := i % g.nodes.length
def Group.redChain (g : Group) (i : Nat) : List Nat := chainFrom g.nodes.length (g.owner i) (fun _ => true)

/-- Whether the phases of a call run by ring. -/
def Group.rings (g : Group) (x : Call) : Bool := useRing g.algo x.count

/-- The nodes to which this one passes a result (R290): a run's, from its owner, among the nodes that need it; or what a rank sends,
from its node. What goes to one rank alone goes to its node directly. -/
def Group.resultKids (g : Group) (x : Call) (run lo : Nat) : List Nat :=
  let m := g.nodes.length
  if reduces x.op then chainKids (g.rings x) (chainFrom m (g.owner run) (fun j => g.needs x j run)) g.index
  else if x.op = 0x14 then []
  else chainKids (g.rings x) (chainFrom m (g.nodeOf lo) (fun _ => true)) g.index

/-- Elements in a number of bytes of a call's format. -/
def Call.ratio (x : Call) : Nat × Nat := (8, elemWidth x.elem)

/-- The key under which a result is kept: its run, subtree and count as its packet names them. -/
def Call.key (x : Call) (n i : Nat) : Nat :=
  if reduces x.op then i
  else if x.op = 0x14 then i / n * 2 ^ 32 + i % n * 2 ^ 64
  else i * 2 ^ 32 + 2 ^ 64

/-- Take a piece of a result. -/
def Call.addRes (x : Call) (key o : Nat) (b : List Byte) : Call :=
  { x with res := ins x.res key (ins (look [] x.res key) o b) }

/-- Send this node's part of one run: its partials to the run's owner, or its exponent bytes. -/
def State.sendRun (k c : Nat) (s : State) (i : Nat) : State :=
  let g := s.group k
  match g.call c with
  | none => s
  | some x =>
    let n := g.ranks
    let cs := x.contribs n i
    let int := isInt x.elem
    if x.exact then
      s.setCall k c (fun y => y.setRed i (fun r => { r with contrib := cs, exps := ins r.exps g.index [(0, nodeExps cs)] }))
    else
      let ps := partialSet int (x.cmd.mode == 1) n (g.lo g.index) (g.hi g.index) cs
      if g.owner i = g.index then s.setCall k c (fun y => y.setRed i (fun r => { r with parts := r.parts ++ ps }))
      else ps.foldl (fun u p => u.collSend k (g.owner i) 4 c i p.lo p.n (i * x.per) (1, if int then 8 else 4)
        (codeBytes int p.codes)) s

/-- Carry an EXACT run on. -/
def State.exactRun (k c : Nat) (s : State) (i : Nat) : State :=
  let g := s.group k
  match g.call c with
  | none => s
  | some x =>
    if !x.exact then s
    else
      let ring := g.rings x
      let r := (sget x.reds i).exactStep g.index (chainParent ring (g.redChain i) g.index) (chainKids ring (g.redChain i) g.index)
        (x.runLen g.ranks i)
      let t := s.setCall k c (fun y => { y with
        reds := if r.1.passed && g.owner i != g.index then drop1 y.reds i else ins y.reds i r.1 })
      r.2.foldl (fun u m => u.collSend k m.1 m.2.1 c i 0 0 (i * x.per) (msgRatio m.2.1) (msgData m.2.1 m.2.2)) t

/-- The reduced values of an owned run, once it is complete. -/
def Group.runVals (g : Group) (x : Call) (i : Nat) : Option (List Val) :=
  let r := sget x.reds i
  let int := isInt x.elem
  if x.exact then r.exact
  else (r.total int (x.cmd.mode == 1) g.ranks (x.runLen g.ranks i)).map (fun l =>
    if int then l.map (fun v => let z := signed 64 v; Val.fin (decide (z < 0)) z.natAbs 1) else vals32 l)

/-- The owner of a complete run converts it and sends the result to the nodes that need it. -/
def State.ownRun (k c : Nat) (s : State) (i : Nat) : State :=
  let g := s.group k
  match g.call c with
  | none => s
  | some x =>
    if g.owner i ≠ g.index ∨ x.owned.contains i ∨ x.next ≤ i then s
    else match g.runVals x i with
      | none => s
      | some vs =>
        let b := x.convert (i * x.per) vs
        let t := s.setCall k c (fun y => { (y.addRes i 0 b) with reds := drop1 y.reds i, owned := insSet y.owned i })
        (g.resultKids x i 0).foldl (fun u m => u.collSend k m 6 c i 0 0 (i * x.per) x.ratio b) t

/-- Carry a run on that this node takes part in. -/
def State.advanceRun (k c : Nat) (s : State) (i : Nat) : State := ((s.exactRun k c i).restage k).ownRun k c i

/-- Staging that a run needs at this node: the partials of every node at a CANON owner, contributions under EXACT (R291). -/
def Group.runNeed (g : Group) (x : Call) (i : Nat) : Nat :=
  let len := x.runLen g.ranks i
  if x.exact then 4 * len
  else if x.cmd.mode == 1 && g.owner i == g.index then
    (if isInt x.elem then 8 else 4) * len *
      ((List.range g.nodes.length).map (fun j => (subtrees (g.lo j) (g.hi j) (g.ranks + 1) 0 g.ranks).length)).sum
  else 0

/-- Whether the engine may begin the next run of a call: what it has in progress stays within `STAGE_BYTES` and the slice's
quota. DESIGN CHOICE (log entry 35): with nothing in progress it begins, so that a small limit never stops a call. -/
def State.mayBegin (s : State) (k : Nat) (x : Call) : Bool :=
  let g := s.group k
  let y := s.slice g.slice
  let busy := (g.calls.map (fun z => if z.started && z.fail.isNone then
    ((z.reds.filter (fun e => decide (e.1 < z.next))).map (fun e => g.runNeed z e.1)).sum else 0)).sum
  busy == 0 || decide (busy + g.runNeed x x.next ≤ min g.stage (g.staged + (y.quota.memBytes - y.memUsed)))

/-- Begin the next run of a call where there is room. -/
def State.beginRun (k c : Nat) (s : State) (_ : Nat) : State :=
  let g := s.group k
  match g.call c with
  | none => s
  | some x =>
    if x.runs g.ranks ≤ x.next ∨ !(s.mayBegin k x) then s
    else ((s.setCall k c (fun y => { y with next := y.next + 1 })).sendRun k c x.next).advanceRun k c x.next

/-- The results that this node needs, by key, with the bytes of each: runs, ranks, or pairs of ranks. -/
def Group.wanted (g : Group) (x : Call) : List (Nat × Nat) :=
  let n := g.ranks
  let w := elemWidth x.elem
  let b := fmtBytes x.cmd.fmt.toNat x.count
  let all (l : List Nat) : List (Nat × Nat) := l.map (fun i => (x.key n i, b))
  if reduces x.op then ((List.range (x.runs n)).filter (g.needs x g.index)).map (fun i => (i, x.runLen n i * w / 8))
  else if x.op = 0x12 then all (List.range n)
  else if x.op = 0x13 then all [x.cmd.root.toNat]
  else all ((List.range n).flatMap (fun a => x.posts.map (fun p => a * n + p.cmd.rank.toNat)))

/-- Move a rank's own data of a call that does not reduce: kept, and sent to the nodes that need it. -/
def State.sendMove (k c : Nat) (s : State) (p : Post) : State :=
  let g := s.group k
  match g.call c with
  | none => s
  | some x =>
    let n := g.ranks
    let r := p.cmd.rank.toNat
    let b := look [] x.send r
    if x.op = 0x14 then
      let w := fmtBytes x.cmd.fmt.toNat x.count
      (List.range n).foldl (fun u d =>
        let part := bytesAt b (d * w) w
        if g.nodeOf d = g.index then u.setCall k c (fun y => y.addRes (x.key n (r * n + d)) 0 part)
        else u.collSend k (g.nodeOf d) 6 c 0 r d 0 x.ratio part) s
    else if x.reads r then
      (g.resultKids x 0 r).foldl (fun u m => u.collSend k m 6 c 0 r 1 0 x.ratio b) (s.setCall k c (fun y => y.addRes (x.key n r) 0 b))
    else s

/-- What a rank receives, once every result is there. -/
def Group.received (g : Group) (x : Call) (r : Nat) : List Byte :=
  let n := g.ranks
  let get (i : Nat) : List Byte := (look [] x.res (x.key n i)).flatMap Prod.snd
  if x.op = 0x10 then (List.range (x.runs n)).flatMap get
  else if x.op = 0x11 then
    let w := elemWidth x.elem
    let all := (List.range (x.runs n)).flatMap (fun i => if x.res.any (fun e => e.1 == i) then get i
      else List.replicate (x.runLen n i * w / 8) 0)
    bytesAt all (r * x.count * w / 8) (x.count * w / 8)
  else if x.op = 0x12 then (List.range n).flatMap get
  else if x.op = 0x13 then get x.cmd.root.toNat
  else (List.range n).flatMap (fun a => get (a * n + r))

/-- Write one rank's results into its receive buffer (R286). -/
def State.deliverRank (k c : Nat) (s : State) (p : Post) : State :=
  let g := s.group k
  match g.call c with
  | none => s
  | some x =>
    let r := p.cmd.rank.toNat
    let m := g.member r
    let a := p.cmd.recv.toNat
    let b := g.received x r
    if m.accel then
      if !(s.port m.port).usable then s.callFail k c 0x06
      else
        let ps := pieces4k a (b.length / 4096 + 2) 0 b.length
        (s.setCall k c (fun y => { y with writes := y.writes + ps.length })).ask m.port
          (ps.map (fun o => ⟨.collWrite k c r, g.slice, m.pasid, a + o.1, o.2, some (bytesAt b o.1 o.2)⟩))
    else match s.vwrite g.slice m.pasid a b with
      | (t, .ok _) => t
      | (t, _) => t.callFail k c 0x05

/-- Advance a started call as far as what has arrived allows. -/
def State.pumpCall (s : State) (k c : Nat) : State :=
  let g := s.group k
  match g.call c with
  | none => s
  | some x =>
    if !x.started || x.fail.isSome || x.want != 0 then s
    else
      let t := if reduces x.op then
          (List.range (x.runs g.ranks - x.next)).foldl (State.beginRun k c) ((x.reds.map Prod.fst).foldl (State.advanceRun k c) s)
        else if x.next = 0 then x.posts.foldl (State.sendMove k c) (s.setCall k c (fun y => { y with next := 1 }))
        else s
      match (t.group k).call c with
      | none => t
      | some y =>
        if !y.writing && (g.wanted y).all (fun e => (whole (look [] y.res e.1) e.2).isSome) then
          y.posts.foldl (State.deliverRank k c) (t.setCall k c (fun z => { z with writing := true }))
        else t

/-- Whether the local ranks' posts of a call agree (R284). -/
def Call.agree (x : Call) : Bool :=
  let c := x.cmd
  x.posts.all (fun p => p.op == x.op && p.cmd.mode == c.mode && p.cmd.fmt == c.fmt && p.cmd.round == c.round &&
    p.cmd.count == c.count && (x.op != 0x13 || p.cmd.root == c.root))

/-- The key of a RESULT packet's data. -/
def resultKey (p : CollPkt) : Nat := p.run.toNat + p.lo.toNat * 2 ^ 32 + p.n.toNat * 2 ^ 64

/-- What a data packet adds to a reduction of a run that begins with element `base`; `up` is the node before this one. -/
def Red.take (r : Red) (int : Bool) (up : Option Nat) (base kind : Nat) (p : CollPkt) : Red :=
  let o := p.eoff.toNat - base
  let node := p.node.toNat
  match kind with
  | 3 => r.takeExps up node o (p.data.map BitVec.toNat)
  | 4 => { r with parts := addPart r.parts p.lo.toNat p.n.toNat o (bytesCodes int p.data) }
  | 5 => r.takeLanes node o (bytesCodes false p.data)
  | _ => { r with marks := insSet r.marks node }

/-- A data packet of a started call: part of a reduction that this node still takes part in, or a result, which goes on to the
nodes after this one at once (R290). -/
def State.collTake (k c : Nat) (s : State) (h : HeldPkt) : State :=
  let g := s.group k
  let p := h.pkt
  let i := p.run.toNat
  match g.call c with
  | none => s
  | some x =>
    if x.fail.isSome then s
    else if h.kind = 6 then
      let t := s.setCall k c (fun y => y.addRes (resultKey p) (p.eoff.toNat - (if reduces x.op then i * x.per else 0)) p.data)
      ((g.resultKids x i p.lo.toNat).foldl (fun u m =>
        u.collSend k m 6 c i p.lo.toNat p.n.toNat p.eoff.toNat x.ratio p.data) t).pumpCall k c
    else if !(reduces x.op) ∨ x.runs g.ranks ≤ i ∨ (i < x.next ∧ x.reds.all (fun e => e.1 != i)) then s
    else
      ((s.setCall k c (fun y => y.setRed i (fun r =>
        r.take (isInt x.elem) (chainParent (g.rings x) (g.redChain i) g.index) (i * x.per) h.kind p))).restage k).pumpCall k c

/-- COLL_CALL_START (R284): once every local rank has posted it, at most 16 at once; what other nodes have sent for it is taken
then. -/
def State.callStart (s : State) (k c : Nat) : State :=
  let g := s.group k
  match g.call c with
  | none => s
  | some x =>
    if g.st ≠ .active ∨ x.started ∨ x.posts.length ≠ g.members.length ∨
        16 ≤ (g.calls.filter (fun y => y.started && !(y.ended g.ranks))).length then s
    else if !x.agree then (s.callFail k c 0x03)
    else
      let t := s.setCall k c (fun y => { y with started := true, seg := s.obj 0x3200 3, early := [] })
      let n := g.ranks
      if !(x.posts.all (s.recvOk k (x.recvBytes n))) then t.callFail k c 0x05
      else
        x.early.foldl (State.collTake k c)
          (((x.posts.filter (fun p => x.reads p.cmd.rank.toNat)).foldl (State.gatherRank k c (x.sendBytes n)) t).pumpCall k c)

/-- COLL_CALL_START. -/
def execCollCallStart (k : Fin 4096) (c : BitVec 32) (s : State) : Res := .next (s.callStart k.val c.toNat)

/-! ### Packets from other nodes (R285, R288–R290, R302) -/

/-- The call of a packet, made where this node has not heard of it; none for a call that is over here. -/
def State.callOfPkt (s : State) (k : Nat) (p : CollPkt) : Option State :=
  let g := s.group k
  let c := p.seq.toNat
  if p.node.toNat = g.index ∨ g.nodes.length ≤ p.node.toNat ∨ c < g.ended then none
  else some (if (g.call c).isSome then s
    else s.setGroup k (fun y => { y with calls := y.calls ++ [{ (default : Call) with cseq := c }] }))

/-- A data packet for a call: taken, or kept until the call starts here. -/
def State.collData (s : State) (h : HeldPkt) : State :=
  let p := h.pkt
  match s.groupSlot p.slice.val p.group.toNat with
  | none => s
  | some k => match s.callOfPkt k p with
    | none => s
    | some t =>
      let c := p.seq.toNat
      match (t.group k).call c with
      | some x => if x.started then t.collTake k c h else t.setCall k c (fun y => { y with early := y.early ++ [h] })
      | none => t

/-- COLL_PKT_FAILMARK: another node failed the call. -/
def execCollPktFailmark (p : CollPkt) (s : State) : Res :=
  .next (match s.groupSlot p.slice.val p.group.toNat with
  | none => s
  | some k => match s.callOfPkt k p with
    | none => s
    | some t => t.callFail k p.seq.toNat 0x07)

/-- The answers to the engine's own requests (R286): data read, or a write acknowledged; a failure fails the
call with COLL_LINK. -/
def State.collAnswer (s : State) (o : ReqOp) (ans : Option (List Byte)) : State :=
  match o, ans with
  | .collRead k c r off, some bs =>
    (s.setCall k c (fun x => { x with want := x.want - 1, send := ins x.send r (splice (look [] x.send r) off bs) })).pumpCall k c
  | .collWrite k c _, some _ => s.setCall k c (fun x => { x with writes := x.writes - 1 })
  | .collRead k c _ _, none => s.callFail k c 0x06
  | .collWrite k c _, none => s.callFail k c 0x06
  | _, _ => s

/-! ### Destruction (R282) -/

/-- End a group: calls in progress end with COLL_ABORTED, held arrivals with ABORTED. -/
def State.dropGroup (s : State) (k : Nat) : State :=
  let g := s.group k
  let t := g.calls.foldl (fun u x => (u.callFail k x.cseq 0x09).endCall k x.cseq) s
  let u := (t.releaseWaiters k 5).closeGroup k
  let v := u.setSlice g.slice (fun y => { y with memUsed := y.memUsed - (u.group k).staged })
  { v with groups := drop1 v.groups k }

/-- Destroy every group of a slice (R282, R304). -/
def State.dropGroups (s : State) (sl : Nat) : State :=
  ((s.groups.filter (fun e => e.2.slice == sl)).map Prod.fst).foldl (fun t k => t.dropGroup k) s

/-- GROUP_DESTROY. -/
def execGroupDestroy (q : QCtx) (d : List Byte) (s : State) : Res :=
  let id := fieldAt d 4 4
  .next (s.collDesc q 0x02 d (fun _ t =>
    if !(groupCmdOk d) then t.finish q 0x02 id 0
    else match t.groupSlot q.slice.val id with
      | none => t.finish q 0x01 id 0
      | some k => (t.dropGroup k).finish q 0 id 0))

end Sys2Proof.Machine
end

