-- ==== Sys2Proof/Machine/Fec.lean ====
section
/-!
DEFINITION. Forward error correction of the Epjor links (R234): RS(68,64) over GF(2^8), the 272-byte block of a flit, and the
striping of blocks over lanes.
-/
namespace Sys2Proof.Machine

/-! ### GF(2^8) with x^8 + x^4 + x^3 + x^2 + 1 -/

/-- Multiplication by α. -/
def gfDouble (a : Nat) : Nat := if a < 128 then 2 * a else (2 * a) ^^^ 0x11D

/-- The product of two field elements. -/
def gfMul (a b : Nat) : Nat :=
  (List.range 8).foldl (fun acc i => if bit b (7 - i) then gfDouble acc ^^^ a else gfDouble acc) 0

/-- A power of an element. -/
def gfPow (a n : Nat) : Nat := (List.range n).foldl (fun acc _ => gfMul acc a) 1

/-- The inverse of a non-zero element: its 254th power. -/
def gfInv (a : Nat) : Nat :=
  let sq (x : Nat) : Nat := gfMul x x
  let r := (List.range 6).foldl (fun (e : Nat × Nat) _ => let q := sq e.1; (q, gfMul e.2 q)) (sq a, sq a)
  r.2

/-! ### Codewords -/

/-- The value of a codeword's polynomial at a point: its first symbol is the highest coefficient. DEDUCED (log entry 53): the
rule names no order; the symbols are taken in the order of their bytes, as parity that follows the flit asks. -/
def rsEval (x : Nat) (c : List Nat) : Nat := c.foldl (fun acc d => gfMul acc x ^^^ d) 0

/-- The syndromes at the roots α^0 to α^3 of the generator. -/
def rsSyndromes (c : List Nat) : List Nat := [1, 2, 4, 8].map (fun x => rsEval x c)

/-- The generator with roots α^0 to α^3, without its leading coefficient, highest first. -/
def rsGen : List Nat :=
  [1, 2, 4, 8].foldl (fun g r => (List.range (g.length + 1)).map (fun i =>
    (if i < g.length then g.getD i 0 else 0) ^^^ (if i = 0 then r else gfMul (g.getD (i - 1) 0) r))) []

/-- The four parity symbols of 64 data symbols. -/
def rsParity (d : List Nat) : List Nat :=
  d.foldl (fun p x =>
    let f := x ^^^ p.getD 0 0
    (List.range 4).map (fun i => p.getD (i + 1) 0 ^^^ gfMul (rsGen.getD i 0) f)) [0, 0, 0, 0]

/-- The element α^(67−j) of symbol j of a codeword. -/
def rsLocator (j : Nat) : Nat := gfPow 2 (67 - j)

/-- Exclusive-or a value into symbol j. -/
def rsFlip (c : List Nat) (j e : Nat) : List Nat := c.modify j (fun x => x ^^^ e)

/-- Correct up to two symbols of a codeword: the codeword and how many were corrected, none where it cannot be corrected. -/
def rsFix (c : List Nat) : Option (List Nat × Nat) :=
  let s (i : Nat) : Nat := (rsSyndromes c).getD i 0
  let det := gfMul (s 0) (s 2) ^^^ gfMul (s 1) (s 1)
  if s 0 = 0 ∧ s 1 = 0 ∧ s 2 = 0 ∧ s 3 = 0 then some (c, 0)
  else if det = 0 then
    match (List.range 68).find? (fun j => gfMul (s 0) (rsLocator j) == s 1) with
    | some j =>
      if s 0 ≠ 0 ∧ gfMul (s 1) (rsLocator j) = s 2 ∧ gfMul (s 2) (rsLocator j) = s 3 then some (rsFlip c j (s 0), 1) else none
    | none => none
  else
    let inv := gfInv det
    let s1 := gfMul inv (gfMul (s 0) (s 3) ^^^ gfMul (s 1) (s 2))
    let s2 := gfMul inv (gfMul (s 1) (s 3) ^^^ gfMul (s 2) (s 2))
    match (List.range 68).filter (fun j => gfMul (rsLocator j) (rsLocator j) ^^^ gfMul s1 (rsLocator j) ^^^ s2 == 0) with
    | [i, j] =>
      let e := gfMul (gfInv (rsLocator i ^^^ rsLocator j)) (s 1 ^^^ gfMul (s 0) (rsLocator j))
      if e = 0 ∨ e = s 0 then none else some (rsFlip (rsFlip c i e) j (s 0 ^^^ e), 2)
    | _ => none

/-! ### Blocks -/

/-- Every fourth byte of a list, `n` of them. -/
def everyFourth : Nat → List Byte → List Nat
  | 0, _ => []
  | n + 1, b => (b.headD 0).toNat :: everyFourth n (b.drop 4)

/-- Codeword w of a flit or a block: bytes w, w + 4, … (R234). -/
def codeword (b : List Byte) (w n : Nat) : List Nat := everyFourth n (b.drop w)

/-- The bytes of four interleaved symbol lists, `n` symbols of each. -/
def interleave : Nat → List (List Nat) → List Byte
  | 0, _ => []
  | n + 1, cs => cs.map (fun c => BitVec.ofNat 8 (c.headD 0)) ++ interleave n (cs.map List.tail)

/-- The 272-byte block of a flit: the flit, then the 16 parity bytes. -/
def fecEncode (flit : List Byte) : List Byte := flit ++ interleave 4 ((List.range 4).map (fun w => rsParity (codeword flit w 64)))

/-- The flit of a received block and the symbols corrected, or none where a codeword cannot be corrected. -/
def fecDecode (block : List Byte) : Option (List Byte × Nat) :=
  match rsFix (codeword block 0 68), rsFix (codeword block 1 68), rsFix (codeword block 2 68), rsFix (codeword block 3 68) with
  | some a, some b, some c, some d => some (interleave 64 [a.1, b.1, c.1, d.1], a.2 + b.2 + c.2 + d.2)
  | _, _, _, _ => none

/-- What each active lane carries of a block, byte by byte in turn from place `start` among them (R234). -/
def stripe (lanes : List Nat) (start : Nat) (block : List Byte) : List (Nat × List Byte) :=
  lanes.zipIdx.map (fun l => (l.1, (block.zipIdx.filter (fun b => (start + b.2) % lanes.length == l.2)).map Prod.fst))

end Sys2Proof.Machine
end

