-- ==== Sys2Proof/Machine/Flash.lean ====
section
/-!
DEFINITION. Storage queues (R386–R399): the commands on volumes, the write buffer, and the end of commands.
-/
namespace Sys2Proof.Machine

def State.setFlash (s : State) (f : Flash → Flash) : State := { s with flash := f s.flash }


/-- Volume v. -/
def State.vol (s : State) (v : Nat) : Volume := sget s.flash.vols v
def State.setVol (s : State) (v : Nat) (f : Volume → Volume) : State := s.setFlash (fun x => { x with vols := smod x.vols v f })

/-! ### Encryption (R400) -/



/-! ### Content of a block (R392, R395, R401, R409) -/

/-- The physical page that a unit is mapped to, where the block is not trimmed. -/
def Flash.pageOf (f : Flash) (key : Nat) : Option Nat :=
  let e := sget f.map (key / 4)
  if e.page = 0 ∨ e.dead.contains key then none else some (e.page - 1)

/-- What a READ finds for a block: none where it is unreadable. -/
def State.blockData (s : State) (key : Nat) : Option (List Byte) :=
  match s.flash.buf.find? (fun e => e.1 == key) with
  | some e => if e.2.bad then none else some e.2.data
  | none => match s.flash.pageOf key with
    | none => some (List.replicate 4096 0)
    | some p =>
      let g := sget s.flash.pages p
      if g.bad.contains (key % 4) then none
      else match g.data.getD (key % 4) none with
        | some c => some (xts true s.mediaKey (tweakOf key) c)
        | none => some (List.replicate 4096 0)

/-- Whether a block is written. -/
def Flash.written (f : Flash) (key : Nat) : Bool :=
  f.buf.any (fun e => e.1 == key) || (match f.pageOf key with
    | some p => ((sget f.pages p).data.getD (key % 4) none).isSome || (sget f.pages p).bad.contains (key % 4)
    | none => false)

/-- Written bytes of a volume. -/
def State.volWritten (s : State) (v : Nat) : Nat :=
  let us := (s.flash.map.map Prod.fst).filter (fun u => u * 4 / 2 ^ 34 == v)
  let ks := (us.flatMap (fun u => (List.range 4).map (fun i => 4 * u + i))) ++
    (s.flash.buf.map Prod.fst).filter (fun k => k / 2 ^ 34 == v)
  4096 * (ks.eraseDups.filter s.flash.written).length

/-! ### Commands: checks and ends (R388–R390, R399) -/

end Sys2Proof.Machine
namespace Sys2Proof
open Sys2Proof.Machine

/-- The command of a descriptor (Table 13-3). -/
def storDescOf (d : List Byte) : StorDesc where
  flags := BitVec.ofNat 8 (fieldAt d 1 1)
  vol := BitVec.ofNat 16 (fieldAt d 2 2)
  lba := BitVec.ofNat 64 (fieldAt d 8 8)
  count := BitVec.ofNat 32 (fieldAt d 16 4)
  buf := BitVec.ofNat 64 (fieldAt d 24 8)
  reserved := fieldAt d 20 4 != 0 || fieldAt d 32 32 != 0

def StorDesc.space (c : StorDesc) : Nat := bits c.flags.toNat 1 0
def StorDesc.port (c : StorDesc) : Nat := bits c.flags.toNat 4 2

/-- The buffer space of a command. -/
def StorDesc.bufSpace (c : StorDesc) : BufSpace :=
  if c.space = 0 then .slice else if c.space = 1 then .host else .accel c.port

/-- Whether a descriptor's fields are in range; `lo`, `hi` bound its `COUNT`. -/
def StorDesc.ok (c : StorDesc) (lo hi : Nat) (aligned : Bool) : Bool :=
  !c.reserved && decide (c.space ≤ 2) && (c.space == 2 || c.port == 0) && decide (c.flags.toNat < 32) &&
    decide (c.vol.toNat < 1024) && decide (lo ≤ c.count.toNat) && decide (c.count.toNat ≤ hi) &&
    (!aligned || c.buf.toNat % 4096 == 0)

end Sys2Proof
namespace Sys2Proof.Machine

/-- Whether a buffer of n bytes can be reached. `host` tells it of host memory. -/
def State.bufOk (s : State) (q : QCtx) (sp : BufSpace) (a n : Nat) (write host : Bool) : Bool :=
  match sp with
  | .slice => s.mapped q.slice.val (s.qPasid q) a n write
  | .host => host
  | .accel p => (s.port p).usable && (s.binding p q.slice.val (s.qPasid q)).isSome

/-- The checks of a storage command: FORMAT, DOWN, NOVOL, RANGE, WORN and XLATE in that order, then `k`. `write` marks WRITE and TRIM,
`reach` is the last check. -/
def State.stor (s : State) (q : QCtx) (c : StorDesc) (fmt write : Bool) (reach : State → Bool) (k : State → State) : State :=
  let v := s.vol c.vol.toNat
  let no (st : Nat) : State := s.finish q st 0 0xFFFFFFFF
  if !fmt then no 0x01
  else if !(s.isReady 24) ∨ (s.flash.tier ≠ .rw ∧ s.flash.tier ≠ .readOnly) then no 0x08
  else if !v.valid ∨ v.owner ≠ q.slice.val then no 0x02
  else if v.size / 4096 < c.lba.toNat + c.count.toNat then no 0x03
  else if write && (s.flash.tier == .readOnly || v.ro) then no 0x07
  else if !(reach s) then no 0x04
  else k s

/-- The command in progress with a number. -/
def State.cmd (s : State) (id : Nat) : Option StorCmd := s.flash.cmds.find? (fun c => c.id == id)

/-- Change a command. -/
def State.setCmd (s : State) (id : Nat) (f : StorCmd → StorCmd) : State :=
  s.setFlash (fun x => { x with cmds := x.cmds.map (fun c => if c.id = id then f c else c) })

/-- End a command with a status and the offset of the first failing block. -/
def State.storEnd (s : State) (c : StorCmd) (status off : Nat) : State :=
  (s.setFlash (fun x => { x with cmds := x.cmds.filter (fun y => y.id != c.id) })).finish c.q status c.done off

/-- A new command in progress, with the lowest free number. -/
def State.newCmd (s : State) (q : QCtx) (op : StorOp) (c : StorDesc) : StorCmd :=
  { id := lowestFree (s.flash.cmds.map StorCmd.id) 65536 0, want := 0, fail := none, held := false, q := q, op := op
    vol := c.vol.toNat, lba := c.lba.toNat, count := c.count.toNat, space := c.bufSpace, buf := c.buf.toNat, done := 0
    data := [], seq := s.flash.seq }

/-- Whether an earlier-started WRITE or TRIM of the same queue that has not completed overlaps a range of blocks. -/
def State.behind (s : State) (q : QCtx) (id vol lba n : Nat) : Bool :=
  (s.flash.cmds.takeWhile (fun c => c.id != id)).any (fun c =>
    (c.op == .write || c.op == .trim) && c.vol == vol && c.q.slice == q.slice && c.q.slot == q.slot &&
      decide (c.lba < lba + n) && decide (lba < c.lba + c.count))

/-! ### WRITE (R391, R393) -/

/-- Blocks that the buffer can still take: 8 GiB hold 2,097,152. -/
def Flash.room (f : Flash) : Nat := 2097152 - f.buf.length

/-- The buffer accepts one block. -/
def State.acceptBlock (s : State) (key : Nat) (data : List Byte) : State :=
  s.setFlash (fun f => { f with
    buf := ins f.buf key ⟨data, f.seq + 1, match f.buf.find? (fun e => e.1 == key) with
      | some e => if e.2.prog then f.seq + 1 else e.2.old
      | none => f.seq + 1, false, false⟩
    seq := f.seq + 1 })

/-- Accept the blocks of a WRITE in order while they have come and the buffer has room. -/
def State.acceptRun (id : Nat) : Nat → State → State
  | 0, s => s
  | n + 1, s =>
    match s.cmd id with
    | none => s
    | some c =>
      let d := c.data.getD c.done []
      if d.isEmpty || (s.flash.room == 0 && !(s.flash.buf.any (fun e => e.1 == blockKey c.vol (c.lba + c.done)))) then s
      else
        let t := (s.acceptBlock (blockKey c.vol (c.lba + c.done)) d).setCmd id (fun y => { y with done := y.done + 1 })
        State.acceptRun id n (((t.setVol c.vol (fun v => { v with hostWr := wrap48 (v.hostWr + 4096) })).count 0x6000 0x10 4096).use
          c.q.slice.val 19 4096)

/-- Carry a WRITE as far as it can go: it completes with its last block, or ends at a block whose transfer
failed. -/
def State.pumpWrite (s : State) (id : Nat) : State :=
  match s.cmd id with
  | none => s
  | some c =>
    if c.op ≠ .write ∨ s.behind c.q id c.vol c.lba c.count then s
    else
      let t := State.acceptRun id c.count s
      match t.cmd id with
      | none => t
      | some d =>
        if d.done = d.count then t.storEnd d 0 0xFFFFFFFF
        else match d.fail with
          | some st => if d.want = 0 && (d.data.getD d.done []).isEmpty then t.storEnd d st d.done else t
          | none => t

/-- The blocks of a buffer in slice memory up to the first uncorrectable one. -/
def State.readBlocks (s : State) (sl pasid a : Nat) : Nat → State × List (List Byte) × Bool
  | 0 => (s, [], true)
  | n + 1 =>
    let r := s.readBlocks sl pasid a n
    if !r.2.2 then r
    else match r.1.vread sl pasid (a + n * 4096) 4096 with
      | (t, .ok bs) => (t, r.2.1 ++ [bs], true)
      | (t, _) => (t, r.2.1, false)

/-- STOR_WRITE. `host` is the buffer's content where it lies in host memory and can be reached. -/
def State.storWrite (s : State) (q : QCtx) (c : StorDesc) (host : Option (List Byte)) : State :=
  let n := c.count.toNat
  let pasid := s.qPasid q
  s.stor q c (c.ok 1 1024 true) true (fun t => t.bufOk q c.bufSpace c.buf.toNat (n * 4096) false host.isSome) (fun t =>
    let d := t.newCmd q .write c
    let put (u : State) (e : StorCmd) : State := u.setFlash (fun f => { f with cmds := f.cmds ++ [e] })
    match c.bufSpace with
    | .slice =>
      let r := t.readBlocks q.slice.val pasid c.buf.toNat n
      (put r.1 { d with data := r.2.1, fail := if r.2.2 then none else some 0x05 }).pumpWrite d.id
    | .host =>
      let b := host.getD []
      ((put t { d with data := (List.range n).map (fun i => bytesAt b (i * 4096) 4096) }).use q.slice.val 20 (n * 4096)).pumpWrite d.id
    | .accel p =>
      (put t { d with data := List.replicate n [], want := n }).ask p
        ((List.range n).map (fun i => ⟨.storRead d.id (i * 4096), q.slice.val, pasid, c.buf.toNat + i * 4096, 4096, none⟩)))

/-! ### READ (R392, R408, R409) -/

/-- The block table's entry of a physical block. -/
def State.pblk (s : State) (b : Nat) : PBlk := sget s.flash.blks b
def State.setPblk (s : State) (b : Nat) (f : PBlk → PBlk) : State := s.setFlash (fun x => { x with blks := smod x.blks b f })

/-- The die of a physical page or block (R401): channel and die of a page number. -/
def dieOfPage (p : Nat) : Nat := p / 2 ^ 25
def dieOfBlk (b : Nat) : Nat := b / 2 ^ 14

/-- The pages that a READ needs from media. -/
def State.readPages (s : State) (c : StorCmd) : List Nat :=
  ((List.range c.count).filterMap (fun i =>
    let k := blockKey c.vol (c.lba + i)
    if s.flash.buf.any (fun e => e.1 == k) then none else s.flash.pageOf k)).eraseDups

/-- The erase in progress on a die. -/
def State.eraseOn (s : State) (die : Nat) : Option Nat :=
  (s.flash.blks.find? (fun e => e.2.st == .erasing && dieOfBlk e.1 == die)).map Prod.fst

/-- STOR_READ: the command starts; an erase on a die it reads is suspended, at most eight times. -/
def State.storRead (s : State) (q : QCtx) (c : StorDesc) (host : Bool) : State :=
  s.stor q c (c.ok 1 1024 true) false (fun t => t.bufOk q c.bufSpace c.buf.toNat (c.count.toNat * 4096) true host) (fun t =>
    let d := t.newCmd q .read c
    let dies := ((t.readPages d).map dieOfPage).eraseDups
    let full := dies.any (fun e => match t.eraseOn e with | some b => decide (8 ≤ (t.pblk b).susp) | none => false)
    let u := dies.foldl (fun v e => match v.eraseOn e with
      | some b => if (v.pblk b).susp < 8 then (v.setPblk b (fun y => { y with susp := y.susp + 1 })).count 0x6000 0x15 1 else v
      | none => v) t
    u.setFlash (fun f => { f with cmds := f.cmds ++ [{ d with held := full }] }))

/-- Record that blocks of a READ were found unreadable on media (R409). -/
def State.noteBad (s : State) (c : StorCmd) (bad : List Nat) : State :=
  bad.foldl (fun t i =>
    let k := blockKey c.vol (c.lba + i)
    if c.count ≤ i ∨ t.flash.buf.any (fun e => e.1 == k) then t
    else match t.flash.pageOf k with
      | some p => t.setFlash (fun f => { f with pages := smod f.pages p (fun g => { g with bad := insSet g.bad (k % 4) }) })
      | none => t) s

/-- Put one block of a READ into its buffer; the status with which that fails. -/
def State.putBlock (s : State) (c : StorCmd) (i : Nat) (d : List Byte) : State × Option Nat :=
  let a := c.buf + i * 4096
  match c.space with
  | .slice => match s.vwrite c.q.slice.val (s.qPasid c.q) a d with
    | (t, .ok _) => (t, none)
    | (t, .xlate) => (t, some 0x04)
    | (t, .memerr) => (t, some 0x05)
  | .host => ((s.emit (.hostWrite (some (s.qPasid c.q)) a d)).use c.q.slice.val 20 4096, none)
  | .accel p =>
    ((s.setCmd c.id (fun y => { y with want := y.want + 1 })).ask p
      [⟨.storWrite c.id (i * 4096), c.q.slice.val, s.qPasid c.q, a, d.length, some d⟩], none)

/-- Deliver the blocks of a READ from block i on: blocks delivered, first unreadable block, block at which the
buffer failed with its status. -/
def State.deliver (c : StorCmd) : Nat → Nat → State → Nat → Option Nat → State × Nat × Option Nat × Option (Nat × Nat)
  | 0, _, s, n, bad => (s, n, bad, none)
  | k + 1, i, s, n, bad =>
    match s.blockData (blockKey c.vol (c.lba + i)) with
    | none => State.deliver c k (i + 1) ((s.count 0x6000 0x14 1).total 2 1) n (some (bad.getD i))
    | some d =>
      match s.putBlock c i d with
      | (t, none) => State.deliver c k (i + 1) t (n + 1) bad
      | (t, some st) => (t, n, bad, some (i, st))

/-- End a READ that has delivered what it could. -/
def State.readEnd (s : State) (c : StorCmd) (bad : Option Nat) : State :=
  match c.fail, bad with
  | some st, _ => s.storEnd c st (c.seq % 2 ^ 32)
  | none, some i => s.storEnd c 0x06 i
  | none, none => s.storEnd c 0 0xFFFFFFFF

/-- Codewords corrected, by bin of histogram 7 (four to a channel, two dies each), and read-level retries by channel (Table 18-4). -/
def State.mediaRead (s : State) (corrected : List (Fin 64 × Nat)) (retries : List (Fin 16 × Nat)) : State :=
  let t := corrected.foldl (fun u e => u.bin 7 e.1.val e.2) (s.count 0x6000 0x13 ((corrected.map Prod.snd).sum))
  retries.foldl (fun u e => u.bin 6 (34 + e.1.val) e.2) t

/-- STOR_READ_COMPLETE: `bad` are the blocks of the command that seven retries left unreadable, `corrected` and `retries`
the codewords corrected and the read-level retries. -/
def State.readComplete (s : State) (id : Nat) (bad : List Nat) (corrected : List (Fin 64 × Nat)) (retries : List (Fin 16 × Nat)) : State :=
  match s.cmd id with
  | none => s
  | some c =>
    let pages := s.readPages c
    if c.op ≠ .read ∨ c.want ≠ 0 ∨ s.behind c.q id c.vol c.lba c.count ∨
        (c.held && pages.any (fun p => (s.eraseOn (dieOfPage p)).isSome)) then s
    else
      let t := (pages.foldl (fun u p => u.setPblk (p / 2048) (fun y => { y with reads := y.reads + 1 })) (s.noteBad c bad)).mediaRead
        corrected retries
      let r := State.deliver c c.count 0 t 0 none
      let n := r.2.1
      let u := ((r.1.setVol c.vol (fun v => { v with rd := wrap48 (v.rd + 4096 * n) })).count 0x6000 0x12 (4096 * n)).use
        c.q.slice.val 18 (4096 * n)
      let v := u.setCmd id (fun y => { y with
        done := n, fail := r.2.2.2.map Prod.snd, seq := ((r.2.2.2.map Prod.fst).orElse (fun _ => r.2.2.1)).getD 0xFFFFFFFF })
      match v.cmd id with
      | none => v
      | some d => if d.want ≠ 0 then v else v.readEnd d r.2.2.1

/-! ### Answers of accelerators (R390) -/

/-- The answer to one of FI's own requests: data read, a write acknowledged, or a failure. -/
def State.storAnswer (s : State) (o : ReqOp) (ans : Option (List Byte)) : State :=
  match o, ans with
  | .storRead id off, some bs =>
    (s.setCmd id (fun y => { y with want := y.want - 1, data := y.data.set (off / 4096) bs })).pumpWrite id
  | .storRead id _, none =>
    (s.setCmd id (fun y => { y with want := y.want - 1, fail := some 0x04 })).pumpWrite id
  | .storWrite id off, r =>
    let t := s.setCmd id (fun y =>
      if r.isSome then { y with want := y.want - 1 }
      else { y with want := y.want - 1, fail := some 0x04, seq := min y.seq (off / 4096), done := min y.done (off / 4096) })
    match t.cmd id with
    | some c => if c.want ≠ 0 then t else t.readEnd c (if c.seq = 0xFFFFFFFF then none else some c.seq)
    | none => t
  | _, _ => s

/-! ### TRIM, QUERY (R395, R396) -/

/-- Make the blocks of a range unwritten in the buffer and the map. -/
def State.trimRange (s : State) (first n : Nat) : State :=
  let inside (k : Nat) : Bool := decide (first ≤ k) && decide (k < first + n)
  s.setFlash (fun f => { f with
    seq := f.seq + 1
    buf := f.buf.filter (fun e => !inside e.1)
    map := smapAll f.map (fun u e => { e with dead :=
      ((List.range 4).map (fun i => 4 * u + i)).foldl (fun d k => if inside k then insSet d k else d) e.dead }) })

/-- A TRIM starts; it ends once no earlier WRITE or TRIM of its queue that it overlaps is in progress (R393). -/
def State.storTrim (s : State) (q : QCtx) (c : StorDesc) : State :=
  s.stor q c (c.ok 1 (2 ^ 24) false) true (fun _ => true) (fun t =>
    t.setFlash (fun f => { f with cmds := f.cmds ++ [t.newCmd q .trim c] }))

/-- The end of a TRIM, with its record in the journal buffer. The record stands for the writes of the buffer that it drops, too. -/
def State.trimEnd (s : State) (c : StorCmd) : State :=
  let first := blockKey c.vol c.lba
  let oldest := ((s.flash.buf.filter (fun e => decide (first ≤ e.1) && decide (e.1 < first + c.count))).map (fun e => e.2.old)).foldl
    min (s.flash.seq + 1)
  ((s.trimRange first c.count).setFlash (fun f => { f with waiting := f.waiting ++ [.trim first c.count oldest] })).storEnd c 0 0xFFFFFFFF

/-- The QUERY record (R396). -/
def State.volRecord (s : State) (v : Nat) : List Byte :=
  let x := s.vol v
  leBytes 8 x.size ++ leBytes 8 (s.volWritten v) ++ leBytes 1 s.flash.tier.code ++ leBytes 1 (b2n x.ro) ++
    List.replicate 14 0 ++ leBytes 8 x.hostWr ++ leBytes 8 x.rd ++ List.replicate 16 0

/-- A QUERY. -/
def State.storQuery (s : State) (q : QCtx) (c : StorDesc) (host : Bool) : State :=
  s.stor q c (c.ok 0 0 false) false (fun t => t.bufOk q c.bufSpace c.buf.toNat 64 true host) (fun t =>
    let b := t.volRecord c.vol.toNat
    match c.bufSpace with
    | .slice => match t.vwrite q.slice.val (t.qPasid q) c.buf.toNat b with
      | (u, .ok _) => u.finish q 0 0 0xFFFFFFFF
      | (u, _) => u.finish q 0x05 0 0
    | .host => ((t.emit (.hostWrite (some (t.qPasid q)) c.buf.toNat b)).use q.slice.val 20 64).finish q 0 0 0xFFFFFFFF
    | .accel p =>
      let d := { (t.newCmd q .query c) with want := 1, seq := 0xFFFFFFFF }
      (t.setFlash (fun f => { f with cmds := f.cmds ++ [d] })).ask p
        [⟨.storWrite d.id 0, q.slice.val, t.qPasid q, c.buf.toNat, 64, some b⟩])

/-! ### FLUSH and the journal (R394, R402, R403) -/

/-- The acceptance number and volume of a journal record that a FLUSH can wait for. -/
def JRec.waits (r : JRec) (vol seq : Nat) : Bool :=
  match r with
  | .map u _ n => u * 4 / 2 ^ 34 == vol && decide (n ≤ seq)
  | .trim first _ n => first / 2 ^ 34 == vol && decide (n ≤ seq)
  | _ => false

/-- Whether everything of a volume up to an acceptance number is on media and recorded. -/
def Flash.flushed (f : Flash) (vol seq : Nat) : Bool :=
  !(f.buf.any (fun e => e.1 / 2 ^ 34 == vol && decide (e.2.old ≤ seq))) &&
    !((f.waiting ++ f.flight).any (fun r => r.waits vol seq))

/-- Complete the FLUSHes whose writes are durable. -/
def State.endFlushes (s : State) : State :=
  (s.flash.cmds.filter (fun c => c.op == .flush && s.flash.flushed c.vol c.seq)).foldl (fun t c =>
    (t.storEnd c 0 0xFFFFFFFF).count 0x6000 0x1B 1) s

/-- Start programming a journal checkpoint with the records that wait: one page on two dies. -/
def State.journalStart (s : State) : State :=
  if s.flash.waiting = [] ∨ s.flash.flight ≠ [] then s
  else (s.setFlash (fun f => { f with flight := f.waiting, waiting := [] })).count 0x6000 0x11 32768

/-- A FLUSH starts. -/
def State.storFlush (s : State) (q : QCtx) (c : StorDesc) : State :=
  s.stor q c (c.ok 0 0 false) false (fun _ => true) (fun t =>
    ((t.setFlash (fun f => { f with cmds := f.cmds ++ [t.newCmd q .flush c] })).journalStart).endFlushes)

/-! ### The commands (Table 13-3, R388) -/

/-- Start a command. -/
def State.storRun (s : State) (w : StorWait) : State :=
  let c := storDescOf w.desc
  match fieldAt w.desc 0 1 with
  | 1 => s.storWrite w.q c w.data
  | 2 => s.storRead w.q c w.host
  | 3 => s.storFlush w.q c
  | 4 => s.storTrim w.q c
  | 5 => s.storQuery w.q c w.host
  | _ => s.finish w.q 0x01 0 0xFFFFFFFF

/-- What can go on now: a TRIM behind nothing, else the oldest command that waits for one of the 65,536 places. -/
def State.storNext (s : State) : Option State :=
  match s.flash.cmds.find? (fun c => c.op == .trim && !(s.behind c.q c.id c.vol c.lba c.count)) with
  | some c => some (s.trimEnd c)
  | none => match s.flash.queued with
    | w :: ws => if s.flash.cmds.length < 65536 then some ((s.setFlash (fun f => { f with queued := ws })).storRun w) else none
    | [] => none

/-- Carry on what can go on. -/
def State.storPump : Nat → State → State
  | 0, s => s
  | n + 1, s => match s.storNext with
    | some t => State.storPump n t
    | none => s
def State.storGoOn (s : State) : State := State.storPump (2 * (s.flash.cmds.length + s.flash.queued.length)) s

/-- A 64-byte descriptor on a queue of kind STOR: commands start in queue order, and one beyond the limit waits. -/
def State.storDesc (s : State) (q : QCtx) (op : Nat) (d : List Byte) (data : Option (List Byte)) (host : Bool) : State :=
  let o := fieldAt d 0 1
  s.descriptor q 6 (o == op) (decide (1 ≤ o) && decide (o ≤ 5)) (fun t => t.finish q 0x01 0 0xFFFFFFFF) (fun t =>
    (t.setFlash (fun f => { f with queued := f.queued ++ [⟨q, d, data, host⟩] })).storGoOn)

/-- STOR_WRITE; `host` is the buffer's content where it lies in host memory and can be reached. -/
def execStorWrite (q : QCtx) (d : List Byte) (host : Option (List Byte)) (s : State) : Res := .next (s.storDesc q 1 d host false)

/-- STOR_WRITE_COMPLETE: a WRITE that waited goes on. -/
def execStorWriteComplete (id : Nat) (s : State) : Res := .next (s.pumpWrite id).storGoOn

/-- STOR_READ; `host`: the buffer lies in host memory and can be reached. -/
def execStorRead (q : QCtx) (d : List Byte) (host : Bool) (s : State) : Res := .next (s.storDesc q 2 d none host)

/-- STOR_READ_COMPLETE. -/
def execStorReadComplete (id : Nat) (bad : List Nat) (corrected : List (Fin 64 × Nat)) (retries : List (Fin 16 × Nat)) (s : State) : Res :=
  .next (s.readComplete id bad corrected retries).storGoOn

/-- STOR_FLUSH. -/
def execStorFlush (q : QCtx) (d : List Byte) (s : State) : Res := .next (s.storDesc q 3 d none false)

/-- STOR_TRIM. -/
def execStorTrim (q : QCtx) (d : List Byte) (s : State) : Res := .next (s.storDesc q 4 d none false)

/-- STOR_QUERY; `host` as for STOR_READ. -/
def execStorQuery (q : QCtx) (d : List Byte) (host : Bool) (s : State) : Res := .next (s.storDesc q 5 d none host)

/-- JOURNAL_TIMER (R402): 1 ms has passed while records wait, or 16 KiB of them have gathered. -/
def execJournalTimer (s : State) : Res :=
  .next (if s.flash.tier = .rw ∨ s.flash.tier = .readOnly then s.journalStart else s)

/-! ### Ends from outside (R387, R398) -/

/-- End the storage commands that a predicate selects with SQ_ABORTED. -/
def State.abortStor (s : State) (p : StorCmd → Bool) : State :=
  let mine (w : StorWait) : Bool := p (s.newCmd w.q .flush (storDescOf w.desc))
  let t := (s.flash.cmds.filter p).foldl (fun t c => t.storEnd c 0x09 0) s
  let u := (t.flash.queued.filter mine).foldl (fun v w => v.finish w.q 0x09 0 0) t
  (u.setFlash (fun f => { f with queued := f.queued.filter (fun w => !mine w) })).storGoOn

/-- Destroy a volume (R387). -/
def State.volDestroy (s : State) (v : Nat) : State :=
  let t := s.abortStor (fun c => c.vol == v)
  let of (k : Nat) : Bool := k / 2 ^ 34 == v
  t.setFlash (fun f => { f with
    buf := f.buf.filter (fun e => !of e.1), lost := f.lost.filter (fun r => !of r.1)
    map := f.map.filter (fun e => !of (4 * e.1)), dmap := f.dmap.filter (fun e => !of (4 * e.1))
    waiting := f.waiting.filter (fun r => !r.waits v f.seq) ++ [.volume v true], flight := f.flight.filter (fun r => !r.waits v f.seq) })

/-- Apply a volume record at the tick (R387, R417). -/
def State.applyVol (s : State) (v rec16 : Nat) : State :=
  let valid := bit rec16 80
  let x := s.vol v
  let t := if x.valid && !valid then s.volDestroy v else s
  let u := t.setFlash (fun f => { f with waiting := f.waiting ++ [.volume v false] })
  u.setVol v (fun y =>
    if valid then { y with size := bits rec16 63 0, owner := bits rec16 72 64, valid := true, ro := bit rec16 81 }
    else default)

end Sys2Proof.Machine
end

