-- ==== Sys2Proof/Machine/Ports.lean ====
section
/-!
DEFINITION. The Epjor ports (R236–R251, R263–R278): training and port states, the link layer with replay and
credits, the transmitter, forwarding by the switch, and the answers to the SP9's own requests.
-/
namespace Sys2Proof.Machine

/-! ### Link reset (R265) -/

/-- The port whose partner a transaction came from; the tunnels where none is. -/
def State.originOf (s : State) (h : Hat) : Nat :=
  ((List.range 8).find? (fun q => s.partnerEp q == h.src.toNat)).getD tunnelPort

/-- The end of one of the SP9's requests: its answer's data, or a failure. -/
def State.ownEnd (s : State) (r : OwnReq) (ans : Option (List Byte)) : State :=
  match r.op with
  | .collRead .. => s.collAnswer r.op ans
  | .collWrite .. => s.collAnswer r.op ans
  | .storRead .. => (s.storAnswer r.op ans).storGoOn
  | .storWrite .. => (s.storAnswer r.op ans).storGoOn

/-- A port with its link layer empty; the state, the cause and the lanes stay (R245, R265). -/
def Port.empty (x : Port) : Port :=
  { (default : Port) with st := x.st, cause := x.cause, lanes := x.lanes, excluded := x.excluded, partner := x.partner, retrains := x.retrains }

/-- Transactions that wait for an egress or are being sent, by their Hats. -/
def Port.queued (x : Port) : List Hat :=
  x.out.flatMap (fun e => (e.2.cur.take 1).map Flit.hat ++ e.2.wait.flatMap (fun w => (w.flits.take 1).map Flit.hat))

/-- The receive buffers of Epjor ports that transactions waiting for this egress occupy: port, channel and flits. -/
def Port.occupies (x : Port) : List (Nat × Nat × Nat) :=
  x.out.flatMap (fun e => (if e.2.credit then [(e.2.last, e.1, e.2.cur.length)] else []) ++
    (e.2.wait.filter Queued.credit).map (fun w => (w.ingress, e.1, w.flits.length)))

/-- An ingress port starts afresh: what it sent before occupies none of its buffers. -/
def Port.forgets (x : Port) (p : Nat) : Port :=
  { x with out := smapAll x.out (fun _ e => { e with
      credit := e.credit && e.last != p, wait := e.wait.map (fun w => { w with credit := w.credit && w.ingress != p }) }) }

/-- SYNCs of a port that are not answered yet get no answer (R265); their arrivals stand (R304). -/
def State.dropSyncs (s : State) (p : Nat) : State :=
  { s with groups := smapAll s.groups (fun _ g => { g with waiting := g.waiting.filter (fun w => match w.2 with
      | .sync q _ => q != p
      | _ => true) }) }

/-- The requests of the SP9 that have no answer yet. -/
def Port.ownReqs (x : Port) : List OwnReq :=
  (x.own.filterMap (fun e => match e.2 with
    | .used r => some r
    | _ => none)) ++ x.ownWait

/-- A port leaves ACTIVE or RETRAIN (R265): everything on the link is lost; forwarded transactions are refused with
UNREACH and their buffers freed (R276), SYNCs and ATTENDs get no answer, and own requests fail with LINK. -/
def State.linkReset (s : State) (p cause : Nat) (next : LinkState) : State :=
  let x := s.port p
  let r := (x.occupies.filter (fun b => b.1 != p)).foldl (fun v b => v.setPort b.1 (fun y => y.release b.2.1 b.2.2)) s
  let q := (List.range 8).foldl (fun v i => v.setPort i (fun y => y.forgets p)) r
  let t := (q.setPort p (fun y => { y.empty with st := next, cause := cause, lanes := 0, excluded := none })).dropSyncs p
  let u := (x.queued.filter (fun h => some h.src.toNat != s.selfEp)).foldl (fun v h => v.refuseAtSwitch (s.originOf h) h 0x0B) t
  let v := (x.ownReqs.foldl (fun w r => w.ownEnd r none) u).endAtts (fun a => a.port == p) false
  let slices := ((s.binds p).map (fun b => bits b 28 20)).eraseDups
  (((v.total 3 1).event .operator 0x0804 p cause 0)).eventSlices slices 0x0804 p cause 0

/-- Leave for DOWN or DISABLED: with a link reset from ACTIVE and RETRAIN. From another state an excluded lane stays excluded but
where `ENABLE` = 0, which is a link reset by its own description (R264, Table 8-9). -/
def State.leavePort (s : State) (p cause : Nat) (next : LinkState) : State :=
  if (s.port p).usable then s.linkReset p cause next
  else s.setPort p (fun y => { y with
    st := next, cause := cause, lanes := 0, excluded := if next = .disabled then none else y.excluded })

/-! ### Training (Table 8-7) -/

def State.enabledPort (s : State) (p : Nat) : Bool := s.obj (portObj p) 2 == 1

/-- A command for a port in a state. -/
def State.inState (s : State) (p : Nat) (st : LinkState) (k : Port → State → State) : State :=
  if (s.port p).st = st then k (s.port p) s else s

/-- Set bits of a lane mask, as a list. -/
def laneList (m : Nat) : List Nat := (List.range 8).filter (bit m)

/-- `LANES_ACTIVE` with one lane spared or none. -/
def lanesWith (e : Option Nat) : Nat := match e with
  | some l => 255 - 2 ^ l
  | none => 255

/-- Spare a lane: it is shown, and the operator hears of it (R264). -/
def State.spareLane (s : State) (p l : Nat) : State :=
  (s.setPort p (fun x => { x with excluded := some l, lanes := lanesWith (some l), failing := [] })).event
    .operator 0x0803 p (lanesWith (some l)) 0

/-- PORT_DETECT_POLL: signal on at least seven lanes, which takes the reference clock and a cable. -/
def execPortDetectPoll (p : Fin 8) (signal : BitVec 8) (s : State) : Res :=
  .next (s.inState p.val .detect (fun _ t =>
    if t.pins.ref156 && bit t.pins.cables p.val && decide (7 ≤ (laneList signal.toNat).length) then
      t.setPort p.val (fun x => { x with st := .equalise })
    else t))

/-- EQUALISE_COMPLETE: no lane is out or one, the excluded one counted; or more, counted in `TRAIN_FAILS` (R264). -/
def execEqualiseComplete (p : Fin 8) (failed : BitVec 8) (s : State) : Res :=
  .next (s.inState p.val .equalise (fun x t =>
    match (x.excluded.toList ++ laneList failed.toNat).eraseDups with
    | [] => t.setPort p.val (fun x => { x with st := .align, lanes := 255 })
    | [l] =>
      let u := t.setPort p.val (fun x => { x with st := .align, lanes := lanesWith (some l) })
      if x.excluded = some l then u else u.spareLane p.val l
    | _ => (t.setPort p.val (fun x => { x with st := .detect })).countSat (portObj p.val) 0x11 (2 ^ 32 - 1) 1))

/-- ALIGN_COMPLETE. -/
def execAlignComplete (p : Fin 8) (s : State) : Res :=
  .next (s.inState p.val .align (fun _ t => t.setPort p.val (fun x => { x with st := .config })))

/-- ALIGN_TIMEOUT. -/
def execAlignTimeout (p : Fin 8) (s : State) : Res :=
  .next (s.inState p.val .align (fun _ t => t.setPort p.val (fun x => { x with st := .detect, lanes := 0 })))

/-- A port's receive buffers, in flits (Table 8-5). -/
def recvCredits (vc : Nat) : Nat := [256, 512, 1024, 64].getD vc 0

/-- The CONFIG body of the SP9 (Table 8-5). -/
def configBody (ep lanes : Nat) : List Byte :=
  [1, 0, 0, 0] ++ leBytes 4 ep ++ leBytes 2 256 ++ leBytes 2 512 ++ leBytes 2 1024 ++ leBytes 2 64 ++ leBytes 2 512 ++
    leBytes 1 lanes

/-- A link flit: `VER`, `TYPE`, `VC` and `LEN`, every other Hat field zero. -/
def linkFlit (typ vc : Nat) (body : List Byte) : List Byte :=
  flitBytes (1 + typ * 4 + vc * 2 ^ 7 + body.length * 2 ^ 104) body

/-- Send a flit's block over the active lanes, with an alignment marker every 16,384 blocks (R234). -/
def State.putFlit (s : State) (p : Nat) (flit : List Byte) : State :=
  let x := s.port p
  let ls := laneList x.lanes
  let t := if x.sinceMark = 0 then s.emit (.markers p ls) else s
  ((t.emit (.lanes p (stripe ls x.laneAt (fecEncode flit)))).emit (.flit p flit)).setPort p (fun y => { y with
    laneAt := (y.laneAt + 272) % ls.length, sinceMark := (y.sinceMark + 1) % 16384 })

/-- A received block (R234, R237): its corrected symbols are counted, and the flit is given where no codeword and no CRC fails. -/
def State.takeBlock (s : State) (p : Nat) (block : List Byte) : State × Option (List Byte) :=
  match fecDecode block with
  | none => (s.count (portObj p) 0x0E 1, none)
  | some (f, n) =>
    let t := s.count (portObj p) 0x0D n
    if crc64 (bytesAt f 0 248) = fieldAt f 248 8 then (t, some f) else (t.count (portObj p) 0x0E 1, none)

/-- The `TYPE` of a flit. -/
def flitType (f : List Byte) : Nat := bits (fieldAt f 0 16) 6 2

/-- CONFIG_FLIT_SEND (R263, R305): none while `SELF_EP` is not valid. -/
def execConfigFlitSend (p : Fin 8) (s : State) : Res :=
  .next (s.inState p.val .config (fun x t =>
    match t.selfEp with
    | some e => t.putFlit p.val (linkFlit 2 3 (configBody e x.lanes))
    | none => t))

/-- Why a partner's CONFIG is not accepted: the `DOWN_CAUSE`, 0 where it is (Table 8-5). -/
def configCause (b : LinkConfig) (partner : Nat) : Nat :=
  let cr (i : Nat) : Nat := (b.cred.getD i 0).toNat
  if b.proto ≠ 1 ∨ b.role ≠ 1 ∨ b.zero ≠ 0 then 1
  else if partner = 0x1FFFFF ∨ b.endpoint.toNat ≠ partner then 2
  else if cr 0 < 128 ∨ cr 1 < 128 ∨ cr 2 < 128 ∨ cr 3 < 16 ∨ b.replay.toNat < 256 then 3
  else 0

/-- CONFIG_FLIT_RECEIVE (R245): the port enters ACTIVE with its link layer afresh, or goes DOWN. -/
def State.configReceive (s : State) (p : Nat) (b : LinkConfig) : State :=
  s.inState p .config (fun x t =>
    if t.selfEp.isNone then t
    else if configCause b (t.partnerEp p) ≠ 0 then t.leavePort p (configCause b (t.partnerEp p)) .down
    else
      let u := x.ownReqs.foldl (fun w r => w.ownEnd r none) t
      u.setPort p (fun y => { y.empty with
        st := .active, cause := 0, partner := b.endpoint.toNat
        grant := (List.range 4).foldl (fun m i => put 0 m i (recvCredits i)) []
        cred := (List.range 4).foldl (fun m i => put 0 m i (b.cred.getD i 0).toNat) [] }))

/-- The CONFIG body of a flit (Table 8-5). -/
def configOf (f : List Byte) : LinkConfig where
  proto := BitVec.ofNat 8 (fieldAt f 16 1)
  role := BitVec.ofNat 8 (fieldAt f 17 1)
  zero := BitVec.ofNat 16 (fieldAt f 18 2)
  endpoint := BitVec.ofNat 32 (fieldAt f 20 4)
  cred := (List.range 4).map (fun i => BitVec.ofNat 16 (fieldAt f (24 + 2 * i) 2))
  replay := BitVec.ofNat 16 (fieldAt f 32 2)
  lanemap := BitVec.ofNat 8 (fieldAt f 34 1)

/-- CONFIG_FLIT_RECEIVE. A block that fails brings nothing. -/
def execConfigFlitReceive (p : Fin 8) (block : List Byte) (s : State) : Res :=
  .next (s.inState p.val .config (fun _ s =>
    match s.takeBlock p.val block with
    | (t, none) => t
    | (t, some f) => if flitType f = 2 then t.configReceive p.val (configOf f) else s))

/-- CONFIG_TIMEOUT (R263, R305). -/
def execConfigTimeout (p : Fin 8) (s : State) : Res :=
  .next (s.inState p.val .config (fun _ t => t.leavePort p.val (if t.selfEp.isNone then 2 else 7) .down))

/-- Enter RETRAIN, which keeps everything (R243); a fourth entry within one second takes the port DOWN (Table 8-7). -/
def State.enterRetrain (s : State) (p : Nat) : State :=
  let x := s.port p
  if x.st ≠ .active then s
  else
    let recent := x.retrains.filter (fun t => decide (s.mod.tick < t + 1000))
    let t := ((s.setPort p (fun y => { y with st := .retrain, retrains := recent ++ [s.mod.tick] })).count (portObj p) 0x10 1).bin 5 p 1
    if 3 ≤ recent.length then t.linkReset p 5 .down else t

/-- A flit with its replays forgotten. -/
def Flit.fresh (f : Flit) : Flit := { f with tries := 0 }

/-- RETRAIN_COMPLETE: lanes that failed are excluded, at most one; the transmitter replays from the oldest
unacknowledged flit (R243, R264). -/
def State.retrainEnd (s : State) (p : Nat) (ok : Bool) (failed : Nat) : State :=
  s.inState p .retrain (fun x t =>
    let bad := (x.excluded.toList ++ x.failing ++ laneList failed).eraseDups
    if !ok then t.linkReset p 5 .down
    else if 2 ≤ bad.length then t.linkReset p 4 .down
    else
      let u := t.setPort p (fun y => { y with st := .active, replay := y.replay.map Flit.fresh, resend := y.replay.map Flit.fresh, nak := false })
      match bad with
      | [l] => if x.excluded = some l then u else u.spareLane p l
      | _ => u)

/-- RETRAIN_COMPLETE. -/
def execRetrainComplete (p : Fin 8) (ok : Bool) (failed : BitVec 8) (s : State) : Res := .next (s.retrainEnd p.val ok failed.toNat)

/-- DOWN_HOLD_EXPIRE. -/
def execDownHoldExpire (p : Fin 8) (s : State) : Res :=
  .next (s.inState p.val .down (fun _ t =>
    if t.obj (portObj p.val) 8 = 1 ∧ t.enabledPort p.val then t.setPort p.val (fun x => { x with st := .detect }) else t))

/-- A lane in use fails (R264): it is excluded at a retrain, and a second one takes the port DOWN. -/
def State.laneFails (s : State) (p l : Nat) : State :=
  let x := s.port p
  if !x.usable ∨ x.excluded = some l ∨ x.failing.contains l then s
  else if x.excluded.isSome ∨ x.failing ≠ [] then s.linkReset p 4 .down
  else (s.setPort p (fun y => { y with failing := [l] })).enterRetrain p

/-- LANE_LOCK_LOSS. -/
def execLaneLockLoss (p : Fin 8) (lane : Fin 8) (s : State) : Res := .next (s.laneFails p.val lane.val)

/-- LANE_SYMBOL_LIMIT. -/
def execLaneSymbolLimit (p : Fin 8) (lane : Fin 8) (s : State) : Res := .next (s.laneFails p.val lane.val)

/-- `REQ_RETRAIN` at its tick, and `LREQ` of the partner (R240, R268). -/
def State.portRequest (s : State) (p req : Nat) : State :=
  if req = 1 then s.enterRetrain p
  else if req = 2 ∧ (s.port p).usable then s.linkReset p 8 .down
  else s

/-- The port's part of a management tick: `ENABLE`, `PARTNER_EP`, and the way out of DISABLED (Table 8-7, Table 8-9). -/
def State.portTick (s : State) (p : Nat) : State :=
  let x := s.port p
  if !(s.enabledPort p) then (if x.st = .disabled then s else s.leavePort p x.cause .disabled)
  else if x.st = .disabled then
    (if s.isReady 20 && s.mod.svc != .boot then s.setPort p (fun y => { y with st := .detect }) else s)
  else if x.usable && x.partner != s.partnerEp p then s.linkReset p 2 .down
  else s

/-! ### Receiving (R240–R244) -/

/-- Discard a numbered flit, or a block that may have held one; the first discard owes a NAK (R241, R242). -/
def Port.discard (x : Port) : Port :=
  if x.nak then { x with rxSince := true } else { x with nak := true, nakOwed := true, rxSince := true }

/-- Append a flit to the transaction in arrival on its channel (R238): whether its tag is in flight counts at its first flit, the
binding at its last. -/
def Port.assemble (x : Port) (p : Nat) (h : Hat) (len : Nat) (final : Bool) (body : List Byte) (dup : Bool)
    (bind : Hat → Option Nat) : Port :=
  let vc := h.vc.toNat
  let old := (look none x.part vc).getD ⟨h, [], 0, false, dup, false⟩
  let n := old.flits + 1
  let bad := old.bad || old.hat != h || decide (232 < len) || (!final && len != 232) || (len == 0 && (n != 1 || !final)) ||
    decide (320 < n)
  let b := old.body ++ body.take (min len 232)
  if final then
    ({ x with part := put none x.part vc none
              arrived := x.arrived ++ [⟨⟨old.hat, b, !bad⟩, p, bind old.hat, old.dup, old.abort⟩] } : Port).release vc (n - flitsOf b.length)
  else { x with part := put none x.part vc (some ⟨old.hat, b, n, bad, old.dup, old.abort⟩) }

/-- NUMBERED_FLIT_RECEIVE (R234, R237, R241, R244, R250). A block that holds a link flit is no occasion for it. -/
def State.flitReceive (s : State) (p : Nat) (block : List Byte) : State :=
  s.inState p .active (fun x s =>
    match s.takeBlock p block with
    | (t, none) => t.setPort p Port.discard
    | (t, some flit) =>
      let hat := fieldAt flit 0 16
      let h := hatOf hat
      let vc := h.vc.toNat
      let mine := isRequest h.typ.toNat && s.selfEp == some h.dest.toNat && h.src.toNat == s.partnerEp p
      let dup := mine && x.inFlight h
      if flitType flit < 3 then s
      else if bits hat 20 9 ≠ x.rxSeq then t.setPort p Port.discard
      else if look 0 x.grant vc = 0 then t.linkReset p 6 .down
      else
        (t.count (portObj p) 0x0C 1).setPort p (fun y => ({ y with
          rxSeq := (y.rxSeq + 1) % 4096, rxAny := true, nak := false, owed := true, rxSince := true
          grant := put 0 y.grant vc (look 0 y.grant vc - 1)
          tags := if (look none y.part vc).isNone && mine && !dup then y.tags ++ [h] else y.tags } : Port).assemble p h
            (bits hat 111 104) (bit hat 112) (bytesAt flit 16 232) dup (fun g => s.binding p g.stag.toNat g.pasid.toNat)))

/-- NUMBERED_FLIT_RECEIVE. -/
def execNumberedFlitReceive (p : Fin 8) (block : List Byte) (s : State) : Res := .next (s.flitReceive p.val block)

/-- Start a replay from place i of the replay buffer; one FSEQ replayed eight times without ACK passing it leads to RETRAIN
(R241, R243). -/
def State.startReplay (s : State) (p i : Nat) : State :=
  let again (y : Port) : List Flit := (y.replay.drop i).map (fun f => { f with tries := f.tries + 1 })
  let t := ((s.setPort p (fun y => { y with replay := y.replay.take i ++ again y, resend := again y })).count (portObj p) 0x0F 1).bin 6 p 1
  if (t.port p).replay.any (fun f => decide (8 ≤ f.tries)) then t.enterRetrain p else t

/-- The LCTL body of a flit (Table 8-3). -/
def lctlOf (f : List Byte) : Lctl where
  ack := if bit (fieldAt f 16 2) 15 then some (BitVec.ofNat 12 (fieldAt f 16 2)) else none
  nak := if bit (fieldAt f 18 2) 15 then some (BitVec.ofNat 12 (fieldAt f 18 2)) else none
  cred := (List.range 4).map (fun i => BitVec.ofNat 16 (fieldAt f (20 + 2 * i) 2))
  lreq := BitVec.ofNat 8 (fieldAt f 28 1)
  lanemap := BitVec.ofNat 8 (fieldAt f 29 1)

/-- `ACK` of the partner: the flits up to it leave the replay buffer (R240). -/
def Port.acked (y : Port) (b : Lctl) : Port :=
  match b.ack.bind (fun a => y.replay.findIdx? (fun f => f.seq == a.toNat)) with
  | some i =>
    let gone := (y.replay.take (i + 1)).map Flit.seq
    { y with replay := y.replay.drop (i + 1), resend := y.resend.filter (fun f => !(gone.contains f.seq)) }
  | none => y

/-- The partner's cumulative credit fields (R242, R244). -/
def Port.credited (y : Port) (b : Lctl) : Port := { y with
  cred := (List.range 4).foldl (fun m c => put 0 m c (look 0 y.cred c + ((b.cred.getD c 0).toNat + 65536 - look 0 y.seen c) % 65536)) y.cred
  seen := (List.range 4).foldl (fun m c => put 0 m c (b.cred.getD c 0).toNat) y.seen }

/-- An LCTL body (R240–R244): ACK, credits, NAK, and the partner's request. -/
def State.lctlReceive (s : State) (p : Nat) (b : Lctl) : State :=
  let t := s.setPort p (fun y => (y.acked b).credited b)
  let u := match b.nak.bind (fun a => (t.port p).replay.findIdx? (fun f => f.seq == a.toNat)) with
    | some i => t.startReplay p i
    | none => t
  u.portRequest p b.lreq.toNat

/-- LCTL_FLIT_RECEIVE. A block that fails is treated as a numbered flit with a CRC error: what it held cannot be told (R234). -/
def execLctlFlitReceive (p : Fin 8) (block : List Byte) (s : State) : Res :=
  .next (s.inState p.val .active (fun _ s =>
    match s.takeBlock p.val block with
    | (t, none) => t.setPort p.val Port.discard
    | (t, some f) => if flitType f = 1 then t.lctlReceive p.val (lctlOf f) else s))

/-- IDLE_FLIT_RECEIVE (R236): discarded; its corrected symbols count. -/
def execIdleFlitReceive (p : Fin 8) (block : List Byte) (s : State) : Res :=
  .next (s.inState p.val .active (fun _ s =>
    match s.takeBlock p.val block with
    | (t, none) => t.setPort p.val Port.discard
    | (t, some f) => if flitType f = 0 then t else s))

/-- REPLAY_TIMEOUT (R241). -/
def execReplayTimeout (p : Fin 8) (s : State) : Res :=
  .next (s.inState p.val .active (fun x t => if x.replay.isEmpty then t else t.startReplay p.val 0))

/-! ### Transmitting (R236, R242, R246) -/

/-- The LCTL body (Table 8-3). -/
def Port.lctl (x : Port) : List Byte :=
  leBytes 2 (if x.rxAny then (x.rxSeq + 4095) % 4096 + 0x8000 else 0) ++ leBytes 2 (if x.nakOwed then x.rxSeq + 0x8000 else 0) ++
    (List.range 4).flatMap (fun c => leBytes 2 (look 0 x.freed c)) ++ [0] ++ leBytes 1 x.lanes

/-- A slot taken by a flit: how long ago IDLE and LCTL flits were sent (R236, R242). -/
def Port.slot (x : Port) (idle lctl : Bool) : Port :=
  { x with busy := if idle then 0 else x.busy + 1, quiet := if lctl then 0 else x.quiet + 1, rxSince := x.rxSince && !lctl }

/-- Send an IDLE flit. -/
def State.sendIdle (s : State) (p : Nat) : State := (s.putFlit p (linkFlit 0 0 [])).setPort p (fun y => y.slot true false)

/-- The partner may use the credit that an LCTL flit tells it of (R244). -/
def Port.tells (x : Port) : Port :=
  { x with
    grant := (List.range 4).foldl (fun m c => put 0 m c (look 0 x.grant c + (look 0 x.freed c + 65536 - look 0 x.told c) % 65536)) x.grant
    told := x.freed }

/-- Send an LCTL flit. -/
def State.sendLctl (s : State) (p : Nat) : State :=
  (s.putFlit p (linkFlit 1 0 (s.port p).lctl)).setPort p (fun y => { y.tells.slot false true with owed := false, nakOwed := false })

/-- Whether the next slot must be IDLE: 2,047 slots without one have passed (R236); the last of them is kept for a NAK, which goes
in the next slot (R242). -/
def Port.mustIdle (x : Port) : Bool := decide (2047 ≤ x.busy) || (decide (2046 ≤ x.busy) && !x.nakOwed)

/-- LCTL_SEND: after an IDLE flit where one is due. -/
def execLctlSend (p : Fin 8) (s : State) : Res :=
  .next (s.inState p.val .active (fun x t => (if x.mustIdle then t.sendIdle p.val else t).sendLctl p.val))

/-- Begin the next waiting transaction of an egress, ingresses in turn (R272, R278). -/
def Egress.load (e : Egress) : Egress :=
  if e.cur ≠ [] then e
  else
    let key (w : Queued) : Nat := (w.ingress + 31 - e.last) % 32
    match e.wait.foldl (fun (b : Option Queued) w => match b with
      | some v => if key w < key v then some w else b
      | none => some w) none with
    | some w => { cur := w.flits, credit := w.credit, wait := e.wait.erase w, last := w.ingress }
    | none => e

/-- The channel whose turn it is: CTL, RSP, then REQ and BULK in turn; a channel needs a credit and a place in the
replay buffer (R240, R244, R246). -/
def Port.turn (x : Port) : Option Nat :=
  let has (c : Nat) : Bool := let e := sget x.out c
    (e.cur != [] || e.wait != []) && look 0 x.cred c != 0 && decide (x.replay.length < 512)
  if has 3 then some 3 else if has 1 then some 1
  else if has 0 && (!x.bulkNext || !(has 2)) then some 0
  else if has 2 then some 2 else none

/-- Whether a tag in flight is the one that an answer ends (R250): its requester, tag, slice and address space. -/
def endsTag (a g : Hat) : Bool := g.src == a.dest && g.ttag == a.ttag && g.stag == a.stag && g.pasid == a.pasid

/-- Send the next flit of a channel. The flit leaves the receive buffer of the Epjor port that it came by (R278), and the last one
of an answer of the SP9 ends its tag (R250). -/
def State.sendFlit (s : State) (p c : Nat) : State :=
  let e := (sget (s.port p).out c).load
  match e.cur with
  | [] => s
  | f :: fs =>
    let g : Flit := { f with seq := (s.port p).txSeq }
    let t := ((s.putFlit p g.bytes).count (portObj p) 0x0B 1).setPort p (fun y => { y.slot false false with
      out := sput y.out c { e with cur := fs, credit := e.credit && !fs.isEmpty }
      txSeq := (y.txSeq + 1) % 4096, replay := y.replay ++ [g], cred := put 0 y.cred c (look 0 y.cred c - 1)
      bulkNext := if c = 0 then true else if c = 2 then false else y.bulkNext })
    let u := if e.credit then t.setPort e.last (fun y => y.release c 1) else t
    if g.final && isAnswer g.hat.typ.toNat && some g.hat.src.toNat == s.selfEp then
      u.setPort p (fun y => { y with tags := y.tags.eraseP (endsTag g.hat) })
    else u

/-- FLIT_SLOT_TRANSMIT (R236, R242, R246): a NAK, an IDLE where one is due, LCTL where one is owed or 64 slots have passed while
numbered flits arrived, replays, the channels, else IDLE. -/
def State.slotTransmit (s : State) (p : Nat) : State :=
  s.inState p .active (fun x t =>
    if x.mustIdle then t.sendIdle p
    else if x.nakOwed || x.owed || (x.rxSince && decide (63 ≤ x.quiet)) then t.sendLctl p
    else match x.resend with
      | f :: fs => (t.putFlit p f.bytes).setPort p (fun y => { y.slot false false with resend := fs })
      | [] => match x.turn with
        | some c => t.sendFlit p c
        | none => t.sendIdle p)

/-- FLIT_SLOT_TRANSMIT. -/
def execFlitSlotTransmit (p : Fin 8) (s : State) : Res := .next (s.slotTransmit p.val)

/-! ### Answers to the SP9's own requests (R250, R251) -/

/-- Whether an answer suits a request: its data, or a failure; none where it does not. -/
def OwnReq.answer (r : OwnReq) (t : Txn) : Option (Option (List Byte)) :=
  let ty := t.hat.typ.toNat
  if !t.hatOk || t.hat.enc then none
  else if ty = 0x12 then (if t.body.length = 8 then some none else none)
  else if r.data.isSome then (if ty = 0x07 ∧ t.body = [] then some (some []) else none)
  else if ty = 0x04 ∧ t.body.length = r.len then some (some t.body) else none

/-- EPJOR_ANSWER_RECEIVE (R248, R249, R251): outside NORMAL the SP9 terminates nothing, and its request ends at `RSP_TIMEOUT`. -/
def State.answerReceive (s : State) (p : Nat) (t : Txn) : State :=
  let h := t.hat
  let a := s.arrivalOf p t
  let u := s.takeArrived p t
  if !(s.port p).usable ∨ !(isAnswer h.typ.toNat) ∨ s.selfEp ≠ some h.dest.toNat ∨ !(s.myTurn p t) then s
  else if h.src.toNat ≠ s.partnerEp p then u.countPort p 0x12 1
  else if s.mod.svc ≠ .normal then u
  else if a.bind.isNone then (u.count 0x3100 7 1).refuseAtSwitch p h 0x07
  else match sget (s.port p).own h.ttag.toNat with
    | .used r =>
      match r.answer t with
      | none => u.dropPosted p h 0x06
      | some a =>
        let v := u.setPort p (fun x => { x with own := sput x.own h.ttag.toNat .free })
        let w := if h.typ = 0x12 then v.countPort p 0x17 1 else v
        let z := w.ownEnd r a
        (State.pumpOwn p (z.port p).ownWait.length z).use h.stag.toNat 12 1
    | _ => u.countPort p 0x14 1

/-- EPJOR_ANSWER_RECEIVE. -/
def execEpjorAnswerReceive (p : Fin 8) (t : Txn) (s : State) : Res := .next (s.answerReceive p.val t)

/-- EPJOR_RSP_TIMEOUT (R251). -/
def execEpjorRspTimeout (p : Fin 8) (tag : BitVec 12) (s : State) : Res :=
  .next (match sget (s.port p.val).own tag.toNat with
  | .used r => (s.setPort p.val (fun x => { x with own := sput x.own tag.toNat .quarantined })).ownEnd r none
  | _ => s)

/-! ### Forwarding (R273–R278) -/

/-- The serving SP9 of an endpoint (R274), with the cache's part of the lookup. -/
def State.routeLookup (s : State) (ep : Nat) : State × Option Nat :=
  let e := look 0 s.routes ep
  let t := if s.routeCache.contains ep then s
    else { s with routeCache := (ep :: s.routeCache).take 16384 }.count 0x3100 8 1
  (t, if bit e 31 then some (bits e 20 0) else none)

/-- Route a transaction that passed its ingress checks: to a local port, whose egress it waits for in the buffer it arrived in;
through a tunnel; or refused (R262, R273, R275, R278). -/
def State.routeTxn (s : State) (p ingress : Nat) (credit encReq : Bool) (t : Txn) : State :=
  let h := t.hat
  let done (u : State) : State := if credit then u.freeBuffers p t else u
  let refused (u : State) (status : Nat) : State := (done u).refuseAtSwitch p h status
  let unreach (u : State) : State := refused (u.count 0x3100 6 1) 0x0B
  if !h.enc && encReq then refused s 0x08
  else match (List.range 8).find? (fun q => s.partnerEp q == h.dest.toNat && (s.port q).usable) with
    | some q =>
      match s.binding q h.stag.toNat h.pasid.toNat with
      | none => refused (s.count 0x3100 7 1) 0x07
      | some b =>
        if (!h.enc && bit b 30) || (h.enc && p != tunnelPort && !(s.ownsSlot h.stag.toNat h.kslot.toNat)) then refused s 0x08
        else (s.count 0x3100 5 1).queueOn q ingress credit h t.body
    | none =>
      match s.routeLookup h.dest.toNat with
      | (u, some sp) =>
        if some sp = s.selfEp then unreach u
        else match u.fabric sp with
          | none => unreach u
          | some peer =>
            match u.tunnel p peer t with
            | (v, true) => done (v.count 0x3100 5 1)
            | (v, false) => unreach v
      | (u, none) => unreach u

/-- EPJOR_FORWARD: a transaction of a port for another endpoint, or one that came through a tunnel or answers one that
did (port 8). -/
def State.forward (s : State) (p : Nat) (t : Txn) : State :=
  let h := t.hat
  let a := s.arrivalOf p t
  if p = tunnelPort then
    if s.net.toTunnel.contains t then
      let u := { s with net := { s.net with toTunnel := s.net.toTunnel.erase t } }
      let v := if isAnswer h.typ.toNat then u.setPort tunnelPort (fun y => { y with tags := y.tags.eraseP (endsTag h) }) else u
      v.routeTxn p ownIngress false false t
    else if some h.dest.toNat = s.selfEp ∨ !(s.myTurn p t) then s
    else (s.dropArrived p t).routeTxn p a.ingress false false t
  else if !(s.port p).usable ∨ some h.dest.toNat = s.selfEp ∨ !(s.myTurn p t) then s
  else if h.src.toNat ≠ s.partnerEp p then (s.takeArrived p t).countPort p 0x12 1
  else match a.bind with
    | none => ((s.takeArrived p t).count 0x3100 7 1).refuseAtSwitch p h 0x07
    | some b => (s.dropArrived p t).routeTxn p a.ingress (s.awaits p t) (bit b 30) t

/-- EPJOR_FORWARD. -/
def execEpjorForward (p : Fin 9) (t : Txn) (s : State) : Res := .next (s.forward p.val t)

/-! ### Port and route objects (R268, R269, R274, R305) -/

/-- A binding in force or pending at slot i of a port. -/
def State.pendBind (s : State) (p i : Nat) : Nat := s.pendRec (portObj p) (0x20 + i) 0 (s.obj (portObj p) (0x20 + i))

/-- Checks of a binding (R269): RANGE for a reserved bit, a second entry with the pair, a FREE slice, or a PASID that the
slice does not hold. -/
def State.bindCheck (s : State) (p i v : Nat) : Nat :=
  let pair (b : Nat) : Nat := bits b 28 0
  if bit v 29 then 4
  else if !(bit v 31) then 0
  else if (List.range 16).any (fun j => j != i && bit (s.pendBind p j) 31 && pair (s.pendBind p j) == pair v) then 4
  else if !(s.sliceExists (bits v 28 20)) ∨ !((s.slice (bits v 28 20)).pasids.contains (bits v 19 0)) then 4
  else 0

/-- `ROUTE_BLOCK`: 256 entries from `ROUTE_INDEX`; RANGE for a reserved bit (R274). -/
def routeCheck (b : List Byte) : Nat :=
  if b.length ≠ 1024 then 4
  else if (List.range 256).any (fun i => bits (fieldAt b (4 * i) 4) 30 21 != 0) then 4 else 0
def State.routeApply (s : State) (b : List Byte) : State :=
  let base := s.obj 0x3100 2
  { s with
    routes := (List.range 256).foldl (fun m i => put 0 m (base + i) (fieldAt b (4 * i) 4)) s.routes
    routeCache := s.routeCache.filter (fun e => decide (e < base) || decide (base + 256 ≤ e)) }

/-- `ROUTE_VALID`. -/
def State.routeValid (s : State) : Nat := (s.routes.filter (fun e => bit e.2 31)).length

end Sys2Proof.Machine
end

