-- ==== Sys2Proof/Machine/OptMath.lean ====
section
/-!
DEFINITION. The arithmetic of the optimizer kernels (R223, R224): bias corrections, the built-in updates of one
element, and the LAMB ratio, on FP32 codes.
-/
namespace Sys2Proof.Machine

/-- A quotient rounded to 53 bits, nearest with ties to even: a binary64 result in normal range. -/
def rd53 (n d : Nat) : Nat × Nat :=
  if n = 0 then (0, 1)
  else
    let k := 52 - flog2 n d
    let (a, b) := scale2 n d k
    scale2 (roundQ rne false a b) 1 (-k)

/-- A big float `m · 2^e` cut to 320 bits. -/
def cutBig (p : Nat × Int) : Nat × Int :=
  let k := p.1.log2 + 1 - 320
  (p.1 / 2 ^ k, p.2 + k)

/-- Powers by squaring, kept to 320 bits. -/
def powBig : Nat → Nat → Nat × Int → Nat × Int → Nat × Int
  | 0, _, _, acc => acc
  | f + 1, t, b, acc =>
    if t = 0 then acc
    else powBig f (t / 2) (cutBig (b.1 * b.1, b.2 + b.2))
      (if t % 2 = 1 then cutBig (acc.1 * b.1, acc.2 + b.2) else acc)

/-- `1 / (1 − β^t)` formed in binary64 and rounded to FP32 (R223), the power correctly rounded. -/
def biasInv (beta t : Nat) : Nat :=
  match elemVal 9 beta with
  | .nan => nanCode 9
  | .inf s => if s && t % 2 == 1 then 0 else 0x80000000
  | .fin s n d =>
    let p := powBig 40 t (n, -(d.log2 : Int)) (1, 0)
    let neg := s && t % 2 == 1
    let top := (p.1.log2 : Int) + p.2
    if p.1 = 0 ∨ top < -1100 then 0x3F800000
    else if 1023 < top then (if neg then 0 else 0x80000000)
    else
      let (a, b) := scale2 p.1 1 p.2
      let (a, b) := rd53 a b
      if neg then
        let (x, y) := rd53 (b + a) b
        let (u, v) := rd53 y x
        to32 (.fin false u v)
      else if a = b then 0x7F800000
      else
        let (x, y) := rd53 (if a < b then b - a else a - b) b
        let (u, v) := rd53 y x
        to32 (.fin (decide (b < a)) u v)

/-- `1 − x` in FP32. -/
def oneMinus (x : Nat) : Nat := sub32 0x3F800000 x

/-- The negated code. -/
def neg32 (x : Nat) : Nat := x ^^^ 0x80000000

/-- `sign` of R223. -/
def sign32 (x : Nat) : Nat :=
  match elemVal 9 x with
  | .nan => nanCode 9
  | v => if v.isZero then 0 else if v.lt (.fin false 0 1) then 0xBF800000 else 0x3F800000

/-- `CONST` of Table 7-14: k₁, k₂, c₁, c₂ for generation t, from the step's `HYPER`. -/
def optConst (h : List Nat) (t : Nat) : List Nat :=
  [oneMinus (h.getD 2 0), oneMinus (h.getD 3 0), biasInv (h.getD 2 0) t, biasInv (h.getD 3 0) t]

/-- One element through a built-in kernel (Table 7-9, R223): the new values of its slots. -/
def optElem (kernel pass ratio : Nat) (h k st : List Nat) (grad : Nat) : List Nat :=
  let y (i : Nat) : Nat := h.getD i 0
  let lr := y 0
  let wd := y 1
  let w := st.getD 0 0
  let m := st.getD 1 0
  let gs := mul32 (y 5) grad
  if kernel = 1 then
    let g := fma32 wd w gs
    let m' := fma32 (y 2) m g
    let d := if (elemVal 9 (y 6)).isZero then m' else fma32 (y 2) m' g
    [fma32 (neg32 lr) d w, m']
  else if kernel = 5 then
    let u := sign32 (fma32 (y 2) m (mul32 (k.getD 0 0) gs))
    [fma32 (neg32 lr) (fma32 wd w u) w, fma32 (y 3) m (mul32 (k.getD 1 0) gs)]
  else if pass = 2 then [fma32 (mul32 (neg32 lr) ratio) (st.getD 3 0) w, m, st.getD 2 0, st.getD 3 0]
  else
    let g := if kernel = 2 then fma32 wd w gs else gs
    let m' := fma32 (y 2) m (mul32 (k.getD 0 0) g)
    let v' := fma32 (y 3) (st.getD 2 0) (mul32 (k.getD 1 0) (mul32 g g))
    let u := mul32 (mul32 m' (k.getD 2 0)) (sfu 4 (fma32 v' (k.getD 3 0) (y 4)))
    if kernel = 4 then [w, m', v', fma32 wd w u]
    else
      let d := mul32 (neg32 lr) (if kernel = 2 then u else fma32 wd w u)
      let z := sub32 d (st.getD 3 0)
      let s := add32 w z
      [s, m', v', sub32 (sub32 s w) z]

/-- One unit: slots in, slots out. -/
def optUnit (kernel pass ratio : Nat) (h k : List Nat) (slots : List (List Nat)) (g : List Nat) : List (List Nat) :=
  let es := (List.range g.length).map (fun e =>
    optElem kernel pass ratio h k (slots.map (fun s => s.getD e 0)) (g.getD e 0))
  (List.range slots.length).map (fun j => es.map (fun e => e.getD j 0))

/-- Whether a code is a NaN or an infinity. -/
def nonFinite (x : Nat) : Bool := match elemVal 9 x with | .fin .. => false | _ => true

/-- The square root in FP32, correctly rounded. -/
def sqrt32 (x : Nat) : Nat :=
  match elemVal 9 x with
  | .nan => nanCode 9
  | .inf s => if s then nanCode 9 else x
  | .fin s n d =>
    if n = 0 then x
    else if s then nanCode 9
    else
      let e := flog2 n d / 2
      let (a, b) := scale2 n d (2 * (60 - e))
      let r := isqrt (a / b) 70 0
      let (p, q) := scale2 (2 * r + (if r * r * b = a then 0 else 1)) 2 (e - 60)
      to32 (.fin false p q)

/-- The LAMB ratio (R224). -/
def lambRatio (w u clip : Nat) : Nat :=
  if (elemVal 9 w).isZero || (elemVal 9 u).isZero then 0x3F800000
  else
    let r := mul32 (sqrt32 w) (sfu 4 u)
    if !((elemVal 9 clip).isZero) && (elemVal 9 clip).lt (elemVal 9 r) then clip else r

end Sys2Proof.Machine
end

