-- ==== Sys2Proof/Machine/Opt.lean ====
section
/-!
DEFINITION. Optimizer sets (R217–R231): the OPT commands, GRAD transactions and their reduction, units on the
near-memory sequencers, emission, and the commit at a step boundary.
-/
namespace Sys2Proof.Machine

/-! ### Access -/

def State.optSet (s : State) (i : Nat) : OptSet := sget s.opt.sets i
def State.setOpt (s : State) (f : Opt → Opt) : State := { s with opt := f s.opt }
def State.modSet (s : State) (i : Nat) (f : OptSet → OptSet) : State := s.setOpt (fun o => { o with sets := smod o.sets i f })

/-- U, the elements of a unit (R218). -/
def OptSet.u (x : OptSet) : Nat := if x.slots = 0 then 256 else 512 / x.slots

/-- Units of the shard. -/
def OptSet.units (x : OptSet) : Nat := (x.hi - x.lo) / x.u

/-- The sets of a slice, by index. -/
def State.setsOf (s : State) (sl : Nat) : List (Nat × OptSet) := s.opt.sets.filter (fun e => e.2.slice == sl)

/-- The index that a handle of a slice names. -/
def State.setIdx (s : State) (sl h : Nat) : Option Nat :=
  let i := h % 4096
  if h < 2 ^ 20 ∧ (s.setsOf sl).any (fun e => e.1 == i && e.2.hgen == h / 4096) then some i else none

/-- The handle of a set. -/
def State.setHandle (s : State) (i : Nat) : Nat := i + (s.optSet i).hgen * 4096

/-- FP32 codes of bytes. -/
def codes32 (n : Nat) (bs : List Byte) : List Nat := unpackCodes 32 n bs

/-! ### Emission layout (R80, R223) -/

def OptSet.eElem (x : OptSet) : Nat := bits x.efmt 3 0
def OptSet.eScale (x : OptSet) : Nat := bits x.efmt 5 4
def OptSet.ePacked (x : OptSet) : Bool := bit x.efmt 6

/-- Bytes of a unit's elements and of its headers. -/
def OptSet.eBytes (x : OptSet) : Nat := x.u * elemWidth x.eElem / 8
def OptSet.hBytes (x : OptSet) : Nat := x.u / 32 * hdrBytes x.eScale x.ePacked

/-- Offset of the header plane from `EMIT_VA`, and the bytes of both planes. DESIGN CHOICE (log entry 50): the descriptor gives
`EMIT_VA` alone; the header plane begins at the first 256-byte boundary after the element plane (R80). -/
def OptSet.hPlane (x : OptSet) : Nat := (x.units * x.eBytes + 255) / 256 * 256
def OptSet.emitBytes (x : OptSet) : Nat := x.hPlane + x.units * x.hBytes

/-! ### Destruction (R217, R227) -/

/-- Destroy a set: its handle's generation moves on, and its units leave the queue. -/
def State.dropSet (s : State) (i : Nat) : State :=
  let x := s.optSet i
  s.setOpt (fun o => { o with
    sets := drop1 o.sets i, gens := put 0 o.gens i ((x.hgen + 1) % 256), queue := o.queue.filter (fun r => r.set != i) })

/-- Whether a sequencer runs a unit of a set. -/
def State.setRuns (s : State) (i : Nat) : Bool := s.opt.nm.any (fun e => (e.2.run.map UnitRun.set) == some i)

/-- Destroy every set and tenant kernel of a slice (R227); units in progress are given up. -/
def State.optDestroy (s : State) (sl : Nat) : State :=
  let own := (s.setsOf sl).map Prod.fst
  let t := own.foldl State.dropSet s
  let qs := (s.opt.nm.filter (fun e => match e.2.run with | some r => own.contains r.set | none => false)).map Prod.fst
  let u := qs.foldl (fun v q => (v.setOpt (fun o => { o with nm := smod o.nm q (fun z => { z with run := none }) })).setSeqr
    (17 + q) (fun _ => default)) t
  u.setOpt (fun o => { o with
    kernels := o.kernels.filter (fun e => e.1 / 256 != sl)
    nm := smapAll o.nm (fun _ z => if z.slice = some sl then { z with slice := none } else z) })

/-! ### Commands (Tables 7-7, 7-8, 7-10) -/

/-- Complete an OPT command: handle or kernel, status, generation or loader status. -/
def State.optDone (s : State) (q : QCtx) (result status len : Nat) : State := s.finish q status result len

/-- Slots of a kernel: Table 7-9 for a built-in, 2 or 4 for a tenant kernel. -/
def kernelSlots (k n : Nat) : Bool :=
  if k = 1 ∨ k = 5 then n == 2 else if 2 ≤ k ∧ k ≤ 4 then n == 4 else n == 2 || n == 4

/-- Whether a kernel exists for a slice. -/
def State.kernelKnown (s : State) (sl k : Nat) : Bool :=
  (decide (1 ≤ k) && decide (k ≤ 5)) || s.opt.kernels.any (fun e => e.1 == sl * 256 + k)

/-- Whether a set descriptor is well formed (OPT_FORMAT). -/
def State.setFormatOk (s : State) (sl : Nat) (d : List Byte) : Bool :=
  let n := fieldAt d 5 1
  let u := if n = 2 then 256 else 128
  s.kernelKnown sl (fieldAt d 4 1) && kernelSlots (fieldAt d 4 1) n && decide (fieldAt d 6 1 ≤ 2) &&
    [7, 8, 9].contains (fieldAt d 7 1) && decide (fieldAt d 8 1 < 128) &&
    fmtValid (bits (fieldAt d 8 1) 3 0) (bits (fieldAt d 8 1) 5 4) &&
    decide (fieldAt d 9 1 < 8) && decide (bits (fieldAt d 9 1) 2 1 ≤ 2) && decide (1 ≤ fieldAt d 12 4) &&
    decide (fieldAt d 12 4 ≤ 2097152) && fieldAt d 24 8 % u == 0 && fieldAt d 32 8 % u == 0 &&
    fieldAt d 40 8 % 4096 == 0 && decide (fieldAt d 72 1 ≤ 1) && fieldAt d 73 55 == 0 && fieldAt d 192 64 == 0 &&
    !((s.setsOf sl).any (fun e => e.2.id == fieldAt d 0 4))

/-- The set of a descriptor. -/
def setOfDesc (sl pasid hgen : Nat) (d : List Byte) : OptSet :=
  { (default : OptSet) with
    slice := sl, pasid := pasid, hgen := hgen, id := fieldAt d 0 4, kernel := fieldAt d 4 1, slots := fieldAt d 5 1
    mode := fieldAt d 6 1, gfmt := fieldAt d 7 1, efmt := fieldAt d 8 1, flags := fieldAt d 9 1, tid := fieldAt d 10 2
    contrib := fieldAt d 12 4, elems := fieldAt d 16 8, lo := fieldAt d 24 8, hi := fieldAt d 32 8
    stateVa := fieldAt d 40 8, emitVa := fieldAt d 48 8, gen := fieldAt d 56 4, group := fieldAt d 60 4
    seed := fieldAt d 64 8, copy := fieldAt d 72 1, hyper := codes32 16 (bytesAt d 128 64) }

/-- OPT_REGISTER: FORMAT, RANGE, XLATE, NOQUOTA in that order. -/
def State.optRegister (s : State) (q : QCtx) (addr : Nat) (reserved : Bool) : State :=
  let sl := q.slice.val
  let pasid := s.qPasid q
  if reserved then s.optDone q 0 0x02 0
  else match s.vread sl pasid addr 256 with
    | (t, .ok d) =>
      let i := lowestFree (t.opt.sets.map Prod.fst) 4096 0
      let x := setOfDesc sl pasid (look 0 t.opt.gens i) d
      if !(t.setFormatOk sl d) then t.optDone q 0 0x02 0
      else if x.hi < x.lo ∨ (x.elems + x.u - 1) / x.u * x.u < x.hi then t.optDone q 0 0x03 0
      else if !(t.mapped sl pasid x.stateVa (x.units * 4096) true) ∨
          (x.emitVa ≠ 0 ∧ !(t.mapped sl pasid x.emitVa x.emitBytes true)) then t.optDone q 0 0x04 0
      else if 4096 ≤ i then t.optDone q 0 0x05 0
      else
        let u := t.setOpt (fun o => { o with sets := sput o.sets i x })
        u.optDone q (u.setHandle i) 0 x.gen
    | (t, _) => t.optDone q 0 0x04 0

/-- A command on a queue of kind OPT (Table 7-7): an unknown `OP` ends with OPT_FORMAT. `k` is told whether every reserved byte is 0. -/
def State.optDesc (s : State) (q : QCtx) (op : Nat) (d : List Byte) (k : Bool → State → State) : State :=
  let o := fieldAt d 0 1
  s.descriptor q 2 (o == op) (decide (1 ≤ o) && decide (o ≤ 7)) (fun t => t.optDone q (fieldAt d 4 4) 0x02 0)
    (k (fieldAt d 2 2 != 0 || fieldAt d 32 32 != 0))

/-- OPT_REGISTER. -/
def execOptRegister (q : QCtx) (d : List Byte) (s : State) : Res :=
  .next (s.optDesc q 1 d (fun reserved t => t.optRegister q (fieldAt d 16 8) reserved))

/-- A command on a set: reserved fields, the handle, and STALLED unless it is allowed there (R227). -/
def State.onSet (s : State) (q : QCtx) (h : Nat) (reserved stalledOk : Bool) (k : Nat → State → State) : State :=
  if reserved then s.optDone q h 0x02 0
  else match s.setIdx q.slice.val h with
    | none => s.optDone q h 0x01 0
    | some i =>
      let x := s.optSet i
      if x.releasing.isSome then s.optDone q h 0x01 0
      else if x.stalled && !stalledOk then s.optDone q h 0x0A x.gen
      else k i s

/-- OPT_SETHYPER: the values take effect at the next step boundary. -/
def execOptSethyper (q : QCtx) (d : List Byte) (s : State) : Res :=
  let h := fieldAt d 4 4
  .next (s.optDesc q 2 d (fun reserved t => t.onSet q h reserved false (fun i u =>
    match u.vread q.slice.val (u.qPasid q) (fieldAt d 16 8) 64 with
    | (v, .ok bs) => (v.modSet i (fun x => { x with newHyper := some (codes32 16 bs) })).optDone q h 0 (v.optSet i).gen
    | (v, _) => v.optDone q h 0x04 (v.optSet i).gen)))

/-- OPT_SKIP (R226): a generation already committed is OPT_STALE. -/
def execOptSkip (q : QCtx) (d : List Byte) (s : State) : Res :=
  let h := fieldAt d 4 4
  let step := fieldAt d 12 4
  .next (s.optDesc q 3 d (fun reserved t => t.onSet q h reserved false (fun i u =>
    let g := (u.optSet i).gen
    if step ≤ g then u.optDone q h 0x07 g
    else (u.modSet i (fun x => { x with skips := insSet x.skips step })).optDone q h 0 g)))

/-- The QUERY record (Table 7-7a). -/
def OptSet.record (x : OptSet) : List Byte :=
  leBytes 1 (b2n x.stalled) ++ leBytes 1 x.copy ++ leBytes 1 (b2n (x.nonfin != [])) ++ [0] ++ leBytes 4 x.gen ++
    leBytes 8 x.applied.length ++ leBytes 1 x.fault.kind ++ leBytes 1 x.fault.cause ++ leBytes 2 0 ++
    leBytes 4 x.fault.unit ++ leBytes 4 x.fault.step ++ leBytes 4 0 ++ leBytes 8 x.fault.pc ++ leBytes 8 x.fault.info ++
    List.replicate 16 0

/-- OPT_QUERY (R554). -/
def execOptQuery (q : QCtx) (d : List Byte) (s : State) : Res :=
  let h := fieldAt d 4 4
  .next (s.optDesc q 4 d (fun reserved t => t.onSet q h reserved true (fun i u =>
    let x := u.optSet i
    match u.vwrite q.slice.val (u.qPasid q) (fieldAt d 16 8) (OptSet.record x) with
    | (v, .ok _) => v.optDone q h 0 x.gen
    | (v, _) => v.optDone q h 0x04 x.gen)))

/-- OPT_RELEASE: waits for units in progress, then destroys the set. -/
def execOptRelease (q : QCtx) (d : List Byte) (s : State) : Res :=
  let h := fieldAt d 4 4
  .next (s.optDesc q 5 d (fun reserved t => t.onSet q h reserved true (fun i u =>
    if u.setRuns i then u.modSet i (fun x => { x with releasing := some q })
    else (u.dropSet i).optDone q h 0 (u.optSet i).gen)))

/-- OPT_LOAD (R231). -/
def State.optLoad (s : State) (q : QCtx) (addr size : Nat) (reserved : Bool) : State :=
  let sl := q.slice.val
  let ids := (s.opt.kernels.filter (fun e => e.1 / 256 == sl)).map (fun e => e.1 % 256)
  if reserved then s.optDone q 0 0x02 0
  else match s.vread sl (s.qPasid q) addr size with
    | (t, .ok im) =>
      let st := loadStatus im true 0
      let k := lowestFree ids 192 128
      if 64 ≤ ids.length then t.optDone q 0 0x05 0
      else if st ≠ 0 then t.optDone q 0 0x06 st
      else (t.setOpt (fun o => { o with kernels := ins o.kernels (sl * 256 + k) (s.qPasid q, im) })).optDone q k 0 0
    | (t, _) => t.optDone q 0 0x04 0

/-- OPT_LOAD. -/
def execOptLoad (q : QCtx) (d : List Byte) (s : State) : Res :=
  .next (s.optDesc q 6 d (fun reserved t => t.optLoad q (fieldAt d 16 8) (fieldAt d 24 8) reserved))

/-- OPT_UNLOAD: OPT_BUSY while a set names the kernel. -/
def execOptUnload (q : QCtx) (d : List Byte) (s : State) : Res :=
  let kid := fieldAt d 1 1
  .next (s.optDesc q 7 d (fun reserved t =>
    let key := q.slice.val * 256 + kid
    if reserved || !(t.opt.kernels.any (fun e => e.1 == key)) then t.optDone q kid 0x02 0
    else if (t.setsOf q.slice.val).any (fun e => e.2.kernel == kid) then t.optDone q kid 0x0B 0
    else (t.setOpt (fun o => { o with
      kernels := drop1 o.kernels key
      nm := smapAll o.nm (fun _ z =>
        if z.slice = some q.slice.val ∧ z.kernel = some kid then { z with kernel := none } else z) })).optDone q kid 0 0))

/-! ### Gradients and their reduction (R220, R221, R287–R289, R293) -/

/-- The collective group of a set, where it exists. -/
def State.optGroup (s : State) (x : OptSet) : Option Nat := s.groupSlot x.slice x.group

/-- Nodes of the set, this node's index, and its ranks; one node with every rank where there is no group. -/
def State.optNode (s : State) (x : OptSet) : Nat × Nat × Nat × Nat :=
  match s.optGroup x with
  | some k => let g := s.group k; (g.nodes.length, g.index, g.lo g.index, g.hi g.index)
  | none => (1, 0, 0, x.contrib)

/-- The blocks of 32 elements of a unit that lie below `ELEMS`; units are counted from element 0. -/
def OptSet.unitBlocks (x : OptSet) (u : Nat) : List Nat :=
  (List.range ((min x.u (x.elems - u * x.u) + 31) / 32)).map (fun i => u * x.u / 32 + i)

/-- Whether every local rank has contributed to a unit. -/
def State.localDone (s : State) (x : OptSet) (u : Nat) : Bool :=
  let nd := s.optNode x
  (x.unitBlocks u).all (fun b => (List.range (nd.2.2.2 - nd.2.2.1)).all (fun i =>
    (look [] x.got b).any (fun c => c.1 == nd.2.2.1 + i)))

/-- U codes from those of the blocks below `ELEMS`; the others are +0. -/
def OptSet.padUnit (x : OptSet) (cs : List Nat) : List Nat := cs ++ List.replicate (x.u - cs.length) 0

/-- The local contributions of a unit by rank. -/
def OptSet.unitContribs (x : OptSet) (u lo hi : Nat) : List (Nat × List Nat) :=
  (List.range (hi - lo)).map (fun i =>
    (lo + i, x.padUnit ((x.unitBlocks u).flatMap (fun b =>
      (((look [] x.got b).find? (fun c => c.1 == lo + i)).map Prod.snd).getD []))))

/-- The partial set of a unit: block by block, in order of arrival under FAST. -/
def OptSet.unitParts (x : OptSet) (u lo hi : Nat) : List CPart :=
  (subtrees lo hi (x.contrib + 1) 0 x.contrib).map (fun t =>
    ⟨t.1, t.2, [(0, x.padUnit ((x.unitBlocks u).flatMap (fun b =>
      (partialOf false (x.mode == 1) (look [] x.got b) t).codes)))]⟩)

/-- The node whose shard holds a unit, none where it lies in no shard of a set on one node (R288). -/
def State.unitOwner (s : State) (x : OptSet) (u : Nat) : Option Nat :=
  let nd := s.optNode x
  if x.lo ≤ u * x.u ∧ u * x.u < x.hi then some nd.2.1
  else if nd.1 ≤ 1 then none
  else
    let o := Config.shardOwner x.id (u * x.u) % (nd.1 - 1)
    some (if o < nd.2.1 then o else o + 1)

/-- Send a packet of a set's reduction or emission to a node: the generation stands for the call, the unit for the run. -/
def State.setSend (s : State) (x : OptSet) (node kind u lo n : Nat) (el : Nat × Nat) (data : List Byte) : State :=
  let t := (s.emit (.coll node kind x.group (x.gen + 1) (beBytes 4 x.id ++ beBytes 4 u ++ beBytes 4 lo ++ beBytes 4 n ++
    beBytes 8 (u * x.u) ++ data))).use x.slice 11 data.length
  match s.optGroup x with
  | some k => t.collMsg k node kind 0 (x.gen + 1) u lo n (u * x.u) el data
  | none => t

/-- Whether a set's phases run by ring (R293); for AUTO its `ELEMS` are the count. DESIGN CHOICE (log entry 35). -/
def State.setRings (s : State) (x : OptSet) : Bool :=
  match s.optGroup x with
  | some k => useRing (s.group k).algo x.elems
  | none => true

/-- The chain of a unit, from the node whose shard holds it (R288–R290). -/
def State.unitChain (s : State) (x : OptSet) (u : Nat) : List Nat :=
  chainFrom (s.optNode x).1 ((s.unitOwner x u).getD 0) (fun _ => true)

/-- The nodes after this one, and the one before it, in a unit's chain. -/
def State.unitKids (s : State) (x : OptSet) (u : Nat) : List Nat := chainKids (s.setRings x) (s.unitChain x u) (s.optNode x).2.1
def State.unitUp (s : State) (x : OptSet) (u : Nat) : Option Nat := chainParent (s.setRings x) (s.unitChain x u) (s.optNode x).2.1

/-- Account for the staging of a set's group (R291, R293). -/
def State.restageSet (s : State) (x : OptSet) : State :=
  match s.optGroup x with
  | some k => s.restage k
  | none => s

/-- The other nodes of a set. -/
def State.optOthers (s : State) (x : OptSet) : List Nat :=
  let nd := s.optNode x
  (List.range nd.1).filter (· != nd.2.1)

/-- Change the reduction of a unit. -/
def State.modRed (s : State) (i u : Nat) (f : Red → Red) : State :=
  s.modSet i (fun x => { x with reds := smod x.reds u f })

/-- The reduced gradient of a unit, once it is complete. DESIGN CHOICE (log entry 50): the final conversion of an EXACT sum to FP32
(R98) rounds to nearest, ties to even, and saturates under Table 3-7; the set's `RMODE` is that of the emission. -/
def OptSet.unitTotal (x : OptSet) (u : Nat) : Option (List Nat) :=
  let r := sget x.reds u
  if x.mode = 2 then r.exact.map (fun l => l.map (fun v => (convert 9 rne v).1))
  else r.total false (x.mode == 1) x.contrib x.u

/-- Carry an EXACT reduction of a unit on: what this node passes to the nodes before and after it (R289). -/
def State.exactUnit (s : State) (i u : Nat) : State :=
  let x := s.optSet i
  if x.mode ≠ 2 ∨ s.unitOwner x u = none then s
  else
    let r := (sget x.reds u).exactStep (s.optNode x).2.1 (s.unitUp x u) (s.unitKids x u) x.u
    r.2.foldl (fun v m => v.setSend x m.1 m.2.1 u 0 0 (msgRatio m.2.1) (msgData m.2.1 m.2.2)) (s.modRed i u (fun _ => r.1))

/-- Carry the reduction of a unit as far as what has come allows; at the owner, the reduced gradient lands once it is complete
(R222). -/
def State.pumpUnit (s : State) (i u : Nat) : State :=
  let t := (s.exactUnit i u).restageSet (s.optSet i)
  let x := t.optSet i
  if t.unitOwner x u ≠ some (t.optNode x).2.1 ∨ x.reds.all (fun e => e.1 != u) ∨ (sget x.reds u).marks != [] then t
  else match x.unitTotal u with
    | none => t
    | some g =>
      let k := (u * x.u - x.lo) / x.u
      let v := (t.modSet i (fun z => { z with reds := drop1 z.reds u, grads := ins z.grads k g })).restageSet x
      v.setOpt (fun o => { o with queue := o.queue ++ [⟨i, k, 1⟩] })

/-- Every local rank has contributed to a unit: this node's part goes into the reduction. -/
def State.reduceUnit (s : State) (i u : Nat) : State :=
  let x := s.optSet i
  let nd := s.optNode x
  if x.mode = 2 then
    let cs := x.unitContribs u nd.2.2.1 nd.2.2.2
    (s.modRed i u (fun r => { r with contrib := cs, exps := ins r.exps nd.2.1 [(0, nodeExps cs)] })).pumpUnit i u
  else
    let ps := x.unitParts u nd.2.2.1 nd.2.2.2
    match s.unitOwner x u with
    | none => s
    | some o =>
      if o = nd.2.1 then (s.modRed i u (fun r => { r with parts := r.parts ++ ps })).pumpUnit i u
      else ps.foldl (fun v p => v.setSend x o 4 u p.lo p.n (1, 4) (codeBytes false p.codes)) s

/-- Whether the sender of a GRAD has arrived at the step boundary that ends the generation (R301). -/
def State.gradLate (s : State) (p : Nat) (h : Hat) (step : Nat) : Bool :=
  match s.stepGroup h.stag.toNat with
  | none => false
  | some k =>
    let g := s.group k
    match g.accelOf p h with
    | some m => g.arrived.contains m && decide (step ≤ g.epoch)
    | none => false

/-- The status of a GRAD (R221): the first that applies, in the order of the rule. -/
def State.gradStatus (s : State) (p : Nat) (h : Hat) (b : List Byte) (x : OptSet) : Nat :=
  let step := fieldAt b 4 4
  let off := fieldAt b 8 8
  let n := fieldAt b 16 2
  let rank := fieldAt b 20 4
  if fieldAt b 18 1 ≠ x.gfmt ∨ off % 32 ≠ 0 ∨ n % 32 ≠ 0 ∨ n < 32 ∨ 16384 < n ∨ fieldAt b 19 1 ≠ 0 ∨ fieldAt b 24 8 ≠ 0 ∨
      2 ^ 21 ≤ rank ∨ b.length ≠ 32 + n * (elemWidth x.gfmt / 8) then 0x02
  else if x.elems < off + n ∨ x.contrib ≤ rank then 0x03
  else if step ≤ x.gen ∨ s.gradLate p h step then 0x07
  else if x.gen + 1 < step then 0x08
  else if (List.range (n / 32)).any (fun i => (look [] x.got (off / 32 + i)).any (fun c => c.1 == rank)) then 0x09
  else if x.stalled then 0x0A
  else 0

/-- Enter a contribution: its elements as FP32, then the units that it completes at this node. -/
def State.gradTake (s : State) (i : Nat) (b : List Byte) : State :=
  let x := s.optSet i
  let off := fieldAt b 8 8
  let n := fieldAt b 16 2
  let rank := fieldAt b 20 4
  let w := elemWidth x.gfmt
  let cs := contribCodes x.gfmt (unpackCodes w n (b.drop 32))
  let t := (List.range (n / 32)).foldl (fun v k => v.modSet i (fun y =>
    { y with got := put [] y.got (off / 32 + k) (look [] y.got (off / 32 + k) ++ [(rank, (cs.drop (32 * k)).take 32)]) })) s
  let us := ((List.range (n / 32)).map (fun k => (off + 32 * k) / x.u)).eraseDups
  us.foldl (fun v u =>
    if !(s.localDone (s.optSet i) u) && v.localDone (v.optSet i) u then v.reduceUnit i u else v) t

/-- A GRAD of an accelerator. -/
def State.epGrad (s : State) (p : Nat) (h : Hat) (b : List Byte) : State :=
  let answer (t : State) (st : Nat) : State := t.reply p h 0x0D (leBytes 1 st ++ List.replicate 7 0)
  let no (st : Nat) : State := answer (s.count 0x4300 8 1) st
  match (s.setsOf h.stag.toNat).find? (fun e => e.2.id == fieldAt b 0 4) with
  | none => no 0x01
  | some (i, x) =>
    let st := s.gradStatus p h b x
    if st ≠ 0 then no st else answer (s.gradTake i b) 0

/-- EPJOR_GRAD. -/
def execEpjorGrad (p : Fin 9) (t : Txn) (s : State) : Res :=
  .next (s.terminate p.val t [0x0C] (fun b u => u.epGrad p.val t.hat b))

/-! ### Emission (R222, R223, R225, R290) -/

/-- A unit's values in the emitted format: element bytes and header bytes. DESIGN CHOICE (log entry 50): the descriptor gives an
`RMODE` and no `OVF_NAN`, which is taken as 0. -/
def OptSet.encodeUnit (x : OptSet) (unit : Nat) (w : List Nat) : List Byte × List Byte :=
  let bs := (List.range (x.u / 32)).map (fun j =>
    (encodeBlk x.eElem x.eScale x.ePacked ⟨bits x.flags 2 1, false, x.seed, x.tid, x.lo + unit * x.u + 32 * j⟩
      (((w.drop (32 * j)).take 32).map (elemVal 9))).1)
  (bs.flatMap (fun b => b.elBytes x.eElem), bs.flatMap (fun b => b.hdrBytes x.eScale x.ePacked))

/-- Emit one unit: to the accelerators of this node, to every other node, and to `EMIT_VA`. It counts as
emitted where that copy could be written. -/
def State.emitUnit (s : State) (i unit : Nat) (el hd : List Byte) : State :=
  let x := s.optSet i
  let u := x.lo / x.u + unit
  let t := (s.unitKids x u).foldl (fun v n => v.setSend x n 6 u 0 0 (8, elemWidth x.eElem) (el ++ hd))
    (s.emit (.emission x.slice x.id (u * x.u) (el ++ hd)))
  let note (v : State) : State := v.modSet i (fun y => { y with emitted := insSet y.emitted unit })
  if x.emitVa = 0 then note t
  else match t.vwrite x.slice x.pasid (x.emitVa + unit * x.eBytes) el with
    | (v, .ok _) => match v.vwrite x.slice x.pasid (x.emitVa + x.hPlane + unit * x.hBytes) hd with
      | (w, .ok _) => note w
      | (w, _) => w
    | (v, _) => v

/-- The master weights in the new copy of a unit. -/
def State.newWeights (s : State) (x : OptSet) (unit : Nat) : State × List Nat :=
  match s.vread x.slice x.pasid (x.stateVa + unit * 4096 + (1 - x.copy) * 2048) (2048 / x.slots) with
  | (t, .ok bs) => (t, codes32 x.u bs)
  | (t, _) => (t, [])

/-- Emit every unit from slot 0 of its new copy (R225). -/
def State.emitAll (s : State) (i : Nat) : State :=
  (List.range (s.optSet i).units).foldl (fun v unit =>
    let x := v.optSet i
    let w := v.newWeights x unit
    let e := x.encodeUnit unit w.2
    if w.2.isEmpty then w.1 else w.1.emitUnit i unit e.1 e.2) s

/-! ### Units on the near-memory sequencers (R222, R229, R230) -/

/-- The memory island that holds a unit's granule. -/
def State.unitMi (s : State) (r : UnitRun) : Option Nat :=
  let x := s.optSet r.set
  (s.xlate x.slice x.pasid (x.stateVa + r.unit * 4096) true).map miOf

/-- Offsets of a kernel region for a buffer set: argument block, gradient, state-in, state-out, emit (Table
7-13). -/
def regArg (buf : Bool) : Nat := if buf then 0x10100 else 0x10000
def regBuf (buf : Bool) : Nat := if buf then 0x13000 else 0x11000

/-- The argument block (Table 7-14). -/
def OptSet.argBlock (x : OptSet) (r : UnitRun) (buf : Bool) : List Byte :=
  let o := regBuf buf
  leBytes 4 r.unit ++ leBytes 4 (x.gen + 1) ++ leBytes 4 o ++ leBytes 4 (o + 0x400) ++ leBytes 4 (o + 0xC00) ++
    leBytes 4 (o + 0x1400) ++ leBytes 4 r.pass ++ leBytes 4 (if r.pass = 2 then x.ratio.getD 0 else 0) ++
    leBytes 8 (x.lo + r.unit * x.u) ++ leBytes 8 0 ++ f32Bytes (optConst x.hyper (x.gen + 1)) ++ f32Bytes x.hyper ++
    List.replicate 128 0

/-- Clear a kernel region. -/
def State.clearRegion (s : State) (a : Nat) : State := s.clearSram a 0x40000

/-- Put a kernel's code and data at the start of a region; a built-in kernel's code is not described. -/
def State.loadRegion (s : State) (a : Nat) (im : Option (List Byte)) : State :=
  match im with
  | some i => s.sramStore a ((i.drop 64).take (imgCode i + imgData i))
  | none => s

/-- `KLIMIT` of a unit (R230). -/
def unitKlimit (im : List Byte) : Nat := if imgKlimit im = 0 ∨ 262144 < imgKlimit im then 262144 else imgKlimit im

/-- Start a unit on sequencer q with the state read from a copy. -/
def State.unitStart (s : State) (q : Nat) (r : UnitRun) (st : List Byte) : State :=
  let x := s.optSet r.set
  let z := sget s.opt.nm q
  let a := localBase (17 + q)
  let im := (s.opt.kernels.find? (fun e => e.1 == x.slice * 256 + x.kernel)).map (fun e => e.2.2)
  let buf := !z.buf
  let other := z.slice != some x.slice
  let t := if other then s.clearRegion a else s
  let u := if other || z.kernel != some x.kernel then t.loadRegion a im else t
  let v := ((u.sramStore (a + regArg buf) (x.argBlock r buf)).sramStore (a + regBuf buf) (f32Bytes (look [] x.grads r.unit))).sramStore
    (a + regBuf buf + 0x400) st
  let w := v.setOpt (fun o => { o with nm := sput o.nm q ⟨some x.kernel, some x.slice, buf, some r⟩ })
  match im with
  | some i => w.setSeqr (17 + q) (fun y => y.enter i ⟨x.slice, x.pasid, r.unit, none, none, some (unitKlimit i)⟩ 0 0 (imgCode i)
      (localAddr (regArg buf)) true)
  | none => w

/-- OPT_UNIT_DISPATCH: the first unit in landing order whose granule lies on the sequencer's island; a unit
whose state cannot be read stays unapplied. -/
def State.unitDispatch (s : State) (q : Nat) : State :=
  let z := sget s.opt.nm q
  if z.run.isSome ∨ !(s.isReady (16 + q / 8)) ∨ (s.seqr (17 + q)).run ≠ .idle then s
  else match s.opt.queue.find? (fun r => s.unitMi r == some (q / 8)) with
    | none => s
    | some r =>
      let x := s.optSet r.set
      let t := s.setOpt (fun o => { o with queue := o.queue.erase r })
      let c := if r.pass = 2 then 1 - x.copy else x.copy
      match t.vread x.slice x.pasid (x.stateVa + r.unit * 4096 + c * 2048) 2048 with
      | (u, .ok st) => u.unitStart q r st
      | (u, _) => u

/-- OPT_UNIT_DISPATCH. -/
def execOptUnitDispatch (q : Fin 32) (s : State) : Res := .next (s.unitDispatch q.val)

/-- What a unit's kernel leaves: state, emitted bytes and headers, non-finite flag, norms. -/
structure UnitEnd where
  state  : List Byte
  el     : List Byte
  hd     : List Byte
  nonfin : Bool
  sums   : Nat × Nat
deriving DecidableEq, Repr, Inhabited

/-- The end of a unit under a built-in kernel. -/
def OptSet.builtin (x : OptSet) (r : UnitRun) (g : List Nat) (st : List Byte) : UnitEnd :=
  let slots := (List.range x.slots).map (fun k => codes32 x.u (bytesAt st (k * 4 * x.u) (4 * x.u)))
  let new := optUnit x.kernel r.pass (x.ratio.getD 0) x.hyper (optConst x.hyper (x.gen + 1)) slots g
  let e := x.encodeUnit r.unit (new.getD 0 [])
  let sq (l : List Nat) : Nat := canon32 (l.map (fun v => mul32 v v))
  ⟨new.flatMap f32Bytes, e.1, e.2, r.pass == 1 && g.any (fun v => nonFinite (mul32 (x.hyper.getD 5 0) v)),
    (sq (new.getD 0 []), sq (new.getD 3 []))⟩

/-- The end of a unit under a tenant kernel, from its region. -/
def State.tenantEnd (s : State) (x : OptSet) (q : Nat) (buf : Bool) : UnitEnd :=
  let a := localBase (17 + q)
  let o := a + regBuf buf
  let arg := s.bytes (a + regArg buf) 256
  ⟨s.bytes (o + 0xC00) 2048, s.bytes (o + 0x1400) x.eBytes, s.bytes (o + 0x1400 + x.eBytes) x.hBytes,
    bit ((s.seqr (17 + q)).gpr 1).toNat 0, (fieldAt arg 40 4, fieldAt arg 44 4)⟩

/-- Record a kernel fault (R230, R554). -/
def State.unitFault (s : State) (r : UnitRun) (f : OptFault) : State :=
  (s.modSet r.set (fun x => { x with fault := f })).count 0x4300 7 1

/-- A unit is applied: counted, and emitted at once, or with the others under `NF_SKIP` (R225). -/
def State.unitApplied (s : State) (r : UnitRun) (e : UnitEnd) : State :=
  let t := ((s.modSet r.set (fun x => { x with applied := insSet x.applied r.unit })).count 0x4300 3 1).use (s.optSet r.set).slice 9 1
  let x := t.optSet r.set
  if !(bit x.flags 0) then t.emitUnit r.set r.unit e.el e.hd
  else if x.applied.length = x.units && x.nonfin.isEmpty then t.emitAll r.set
  else t

/-- The unit sums of the SP9, by `canon` in unit order (R224). -/
def OptSet.norms (x : OptSet) : Nat × Nat := (canon32 (x.sums.map (fun e => e.2.1)), canon32 (x.sums.map (fun e => e.2.2)))

/-- A unit has run to its end without a fault: its state into the other copy of the granule, then its sums
or its emission. The last unit of a first pass of LAMB sends the SP9's norms to the other nodes. -/
def State.unitWrite (s : State) (r : UnitRun) (e : UnitEnd) : State :=
  let x := s.optSet r.set
  match s.vwrite x.slice x.pasid (x.stateVa + r.unit * 4096 + (1 - x.copy) * 2048) e.state with
  | (t, .ok _) =>
    let u := if e.nonfin then (t.modSet r.set (fun y => { y with nonfin := insSet y.nonfin r.unit })).count 0x4300 9 1 else t
    if x.kernel = 4 ∧ r.pass = 1 then
      let v := u.modSet r.set (fun y => { y with sums := ins y.sums r.unit e.sums })
      let y := v.optSet r.set
      if y.sums.length = y.units then
        (v.optOthers y).foldl (fun w n => w.setSend y n 4 (2 ^ 32 - 1) 0 0 (1, 4) (beBytes 8 y.lo ++ beBytes 4 y.norms.1 ++ beBytes 4 y.norms.2)) v
      else v
    else u.unitApplied r e
  | (t, _) => t

/-- A RELEASE that waited for the set's units completes (R217). -/
def State.releaseSet (s : State) (i : Nat) : State :=
  match (s.optSet i).releasing with
  | some q => if s.setRuns i then s else (s.dropSet i).optDone q (s.setHandle i) 0 (s.optSet i).gen
  | none => s

/-- A reset of memory island m gives up the units in progress on its near-memory sequencers, whose regions are zero; the units
stay unapplied (R38, R226). -/
def State.optReset (s : State) (m : Nat) : State :=
  let lost := s.opt.nm.filter (fun e => e.1 / 8 == m)
  lost.foldl (fun t e => match e.2.run with | some r => t.releaseSet r.set | none => t)
    (s.setOpt (fun o => { o with nm := o.nm.filter (fun e => e.1 / 8 != m) }))

/-- OPT_UNIT_HALT. -/
def State.unitHalt (s : State) (q : Nat) : State :=
  let n := sget s.opt.nm q
  match n.run with
  | none => s
  | some r =>
    let x := s.optSet r.set
    let z := s.seqr (17 + q)
    let free (t : State) : State := (t.setOpt (fun o => { o with nm := smod o.nm q (fun y => { y with run := none }) })).releaseSet r.set
    if x.kernel < 128 then
      let o := localBase (17 + q) + regBuf n.buf
      let e := x.builtin r (look [] x.grads r.unit) (s.bytes (o + 0x400) 2048)
      free ((((s.sramStore (o + 0xC00) e.state).sramStore (o + 0x1400) (e.el ++ e.hd))).unitWrite r e)
    else if z.run ≠ .ending ∨ z.ops ≠ [] then s
    else
      let t := s.setSeqr (17 + q) (fun _ => z.idle)
      if z.endCause ≠ 0 then free (t.unitFault r ⟨2, z.endCause, r.unit, x.gen + 1, z.trappc, z.trapinfo⟩)
      else if bit (z.gpr 1).toNat 1 then free (t.unitFault r ⟨1, 0, r.unit, x.gen + 1, 0, 0⟩)
      else free (t.unitWrite r (s.tenantEnd x q n.buf))

/-- OPT_UNIT_HALT. -/
def execOptUnitHalt (q : Fin 32) (s : State) : Res := .next (s.unitHalt q.val)

/-- Whether a LAMB set waits for its ratio. -/
def OptSet.wantsRatio (x : OptSet) : Bool := x.kernel == 4 && x.ratio.isNone && x.units != 0 && x.sums.length == x.units

/-- LAMB_RATIO_READY (R224): the norms of the set's SP9s, each with its `SHARD_LO`, are reduced by `canon`, and
pass 2 of every unit follows. `others` holds the norms of the other nodes. -/
def State.ratioReady (s : State) (i : Nat) (others : List (Nat × Nat × Nat)) : State :=
  let x := s.optSet i
  if !x.wantsRatio ∨ others.length + 1 ≠ (s.optNode x).1 then s
  else
    let all := sortBy (fun (a b : Nat × Nat × Nat) => decide (a.1 ≤ b.1)) ((x.lo, x.norms.1, x.norms.2) :: others)
    let r := lambRatio (canon32 (all.map (fun e => e.2.1))) (canon32 (all.map (fun e => e.2.2))) (x.hyper.getD 6 0)
    (s.modSet i (fun y => { y with ratio := some r })).setOpt (fun o =>
      { o with queue := o.queue ++ (List.range x.units).map (fun k => ⟨i, k, 2⟩) })

/-- LAMB_RATIO_READY. -/
def execLambRatioReady (i : Fin 4096) (others : List (BitVec 64 × BitVec 32 × BitVec 32)) (s : State) : Res :=
  .next (s.ratioReady i.val (others.map (fun e => (e.1.toNat, e.2.1.toNat, e.2.2.toNat))))

/-! ### The step boundary (R226, R300, R303) -/

/-- Whether no complete unit of a slice waits or runs (condition 5 of R300). -/
def State.optQuiet (s : State) (sl : Nat) : Bool :=
  (s.setsOf sl).all (fun e => !(s.setRuns e.1) && !(s.opt.queue.any (fun r => r.set == e.1)) && !e.2.wantsRatio)

/-- Units of a set in other shards to which some local rank has not contributed (R300, condition 4). -/
def State.missing (s : State) (x : OptSet) : List Nat :=
  (List.range ((x.elems + x.u - 1) / x.u)).filter (fun u => !(s.localDone x u))

/-- Send the INCOMPLETE marks of the slice's sets to the owners, once for a generation; this node's own marks
are set at its own units. -/
def State.sendMarks (s : State) (sl : Nat) : State :=
  (s.setsOf sl).foldl (fun t e =>
    if e.2.marked then t
    else
      let x := e.2
      (t.missing x).foldl (fun v u =>
        match v.unitOwner x u with
        | some o =>
          if o = (v.optNode x).2.1 then v.modRed e.1 u (fun r => { r with marks := insSet r.marks o })
          else v.setSend x o 7 u 0 0 (1, 1) []
        | none => v) (t.modSet e.1 (fun y => { y with marked := true }))) s

/-- Whether a node's part of a unit has come to its owner: its partials, or its mark. Under EXACT a ring or tree adds the parts of
several nodes up on the way; they have come with the sum, or with a mark, after which no sum follows (DESIGN CHOICE, log entry 35). -/
def State.heardFrom (s : State) (x : OptSet) (u n : Nat) : Bool :=
  let r := sget x.reds u
  let g := (s.optGroup x).map s.group
  r.marks.contains n || (if x.mode = 2 then r.sum.isSome || r.marks != [] else match g with
    | some g => (subtrees (g.lo n) (g.hi n) (x.contrib + 1) 0 x.contrib).all (fun t =>
        r.parts.any (fun p => p.lo == t.1 && p.n == t.2 && p.codes.length == x.u))
    | none => true)

/-- Whether every other node has sent its part or its mark for every unit of a set's shard (condition 4). -/
def State.shardHeard (s : State) (x : OptSet) : Bool :=
  (List.range x.units).all (fun k =>
    x.grads.any (fun e => e.1 == k) || (s.optOthers x).all (s.heardFrom x (x.lo / x.u + k)))

/-- A set at the start of a generation: nothing contributed, landed or applied. -/
def OptSet.fresh (x : OptSet) : OptSet :=
  { x with got := [], reds := [], marked := false, grads := [], sums := [], applied := [], emitted := [], nonfin := [], ratio := none }

/-- The outcome of one set that is due generation g (R226). -/
def State.commitSet (s : State) (i g : Nat) : State :=
  let x := s.optSet i
  if x.stalled ∨ x.gen + 1 ≠ g then s
  else
    let skip := x.skips.contains g || (bit x.flags 0 && x.nonfin != [])
    let next (y : OptSet) : OptSet := { y.fresh with gen := g, skips := y.skips.filter (fun k => decide (g < k)) }
    if x.applied.length ≠ x.units ∨ (!skip ∧ x.emitted.length ≠ x.units) then
      let t := (s.modSet i (fun y => { y.fresh with stalled := true })).count 0x4300 6 1
      ((t.event (.slice x.slice) 0x0701 (s.setHandle i) g 0).event .operator 0x0701 (s.setHandle i) g 0).jobFault x.slice
    else if skip then ((s.modSet i next).count 0x4300 4 1).count 0x4300 5 1
    else (s.modSet i (fun y => { next y with copy := 1 - y.copy })).count 0x4300 4 1

/-- The commits of R226 for every set of a slice, and the `HYPER` values of the next step (R228). -/
def State.optCommit (s : State) (sl g : Nat) : State :=
  (s.setsOf sl).foldl (fun t e =>
    (t.commitSet e.1 g).modSet e.1 (fun x => { x with hyper := x.newHyper.getD x.hyper, newHyper := none })) s

end Sys2Proof.Machine
end

