-- ==== Sys2Proof/Machine/CkptImage.lean ====
section
/-!
DEFINITION. Serialised copies: shard sets and their layout, manifests of version 2 and 1, and what a RESTORE
makes of old copies (R360, R361, R366, R373, R379–R381).
-/
namespace Sys2Proof.Machine

/-! ### Boxes and cells (R361) -/

/-- A byte count of a box of n elements in a format of Table 12-2: packed elements, and for a block format the header
plane from a 256-byte boundary (R77, R80). -/
def boxBytes (fmt n : Nat) : Nat :=
  let el := (n * elemWidth (bits fmt 3 0) + 7) / 8
  if bits fmt 5 4 = 0 then el else (el + 255) / 256 * 256 + n / 32 * hdrBytes (bits fmt 5 4) (bit fmt 6)

/-- Elements of a box. -/
def volume (l : List Nat) : Nat := l.foldl (· * ·) 1

/-- Extents in cells: an element, or a block of 32 along the last dimension. -/
def cellExt (fmt : Nat) (l : List Nat) : List Nat :=
  if bits fmt 5 4 = 0 then l else l.modify (l.length - 1) (· / 32)

/-- Bits of the elements of one cell. -/
def cellBits (fmt : Nat) : Nat := elemWidth (bits fmt 3 0) * (if bits fmt 5 4 = 0 then 1 else 32)

/-- The cells of a box in canonical layout: the elements' bits, the header above them. -/
def cellsOf (fmt n : Nat) (b : List Byte) : List Nat :=
  let w := cellBits fmt
  if bits fmt 5 4 = 0 then unpackCodes w n b
  else
    let h := hdrBytes (bits fmt 5 4) (bit fmt 6)
    let hp := (n / 32 * (w / 8) + 255) / 256 * 256
    (List.range (n / 32)).map (fun i => fieldAt b (i * (w / 8)) (w / 8) + fieldAt b (hp + i * h) h * 2 ^ w)

/-- The bytes of cells in canonical layout. -/
def packCells (fmt : Nat) (cs : List Nat) : List Byte :=
  let w := cellBits fmt
  if bits fmt 5 4 = 0 then packCodes w cs
  else
    let el := cs.flatMap (fun c => leBytes (w / 8) (c % 2 ^ w))
    el ++ List.replicate ((256 - el.length % 256) % 256) 0 ++
      cs.flatMap (fun c => leBytes (hdrBytes (bits fmt 5 4) (bit fmt 6)) (c / 2 ^ w))

/-- The coordinate of cell i of a box with these extents, row-major with the last dimension fastest. -/
def coordOf : List Nat → Nat → List Nat
  | [], _ => []
  | e :: es, i => i / volume es % e :: coordOf es (i % volume es)

/-- The index of a coordinate; none outside the box. -/
def indexOf : List Nat → List Nat → Option Nat
  | [], _ => some 0
  | e :: es, c :: cs => if c < e then (indexOf es cs).map (fun i => c * volume es + i) else none
  | _ :: _, [] => none

/-- A coordinate relative to an origin; none below it. -/
def relTo : List Nat → List Nat → Option (List Nat)
  | o :: os, c :: cs => if o ≤ c then (relTo os cs).map (fun r => (c - o) :: r) else none
  | _, cs => some cs

/-! ### Shard sets (R360) -/

/-- A shard of a cut: tensor, kind (0 REGION, 1 OPTIMIZER), format, dimensions, box and content. -/
structure Shard where
  tid    : Nat
  kind   : Nat
  fmt    : Nat
  dims   : List Nat
  start  : List Nat
  extent : List Nat
  data   : List Byte
deriving DecidableEq, Repr, Inhabited

/-- The bytes of a region's content. -/
def CkRegion.size (r : CkRegion) : Nat := boxBytes r.fmt (volume r.extent)

/-- The end of a set's box: min(SHARD_HI, ELEMS). -/
def OptSet.top (x : OptSet) : Nat := min x.hi x.elems

/-- The bytes of a set's shard. -/
def OptSet.shardBytes (x : OptSet) : Nat := x.slots * (x.top - x.lo) * 4

/-- The size of a serialised copy with these shard sizes: 16 MiB, then each shard from a 4 KiB boundary (R366). -/
def copyBytes (sizes : List Nat) : Nat := sizes.foldl (fun a n => (a + 4095) / 4096 * 4096 + n) 0x1000000

/-- Shard sizes of a job's slice with the regions given. -/
def State.shardSizes (s : State) (sl : Nat) (rs : List CkRegion) : List Nat :=
  (s.setsOf sl).map (fun e => e.2.shardBytes) ++ rs.map CkRegion.size

/-- The committed copy of a set, slot by slot over its box (R360). -/
def State.optShard (s : State) (x : OptSet) : State × Option Shard :=
  let r := (List.range x.units).foldl (fun (t : State × Option (List (List Byte))) k =>
    match t.2, t.1.vread x.slice x.pasid (x.stateVa + k * 4096 + x.copy * 2048) 2048 with
    | some l, (u, .ok b) => (u, some (l ++ [b]))
    | _, (u, _) => (u, none)) (s, some [])
  (r.1, r.2.map (fun us =>
    { tid := x.id, kind := 1, fmt := 9, dims := [x.slots, x.elems], start := [0, x.lo], extent := [x.slots, x.top - x.lo]
      data := (List.range x.slots).flatMap (fun i =>
        (us.flatMap (fun b => bytesAt b (i * (4 * x.u)) (4 * x.u))).take (4 * (x.top - x.lo))) }))

/-- The content of a region. -/
def State.regionShard (s : State) (sl : Nat) (r : CkRegion) : State × Option Shard :=
  match s.vread sl r.pasid r.va r.size with
  | (t, .ok b) => (t, some { tid := r.id, kind := 0, fmt := r.fmt, dims := r.dims, start := r.start, extent := r.extent, data := b })
  | (t, _) => (t, none)

/-- Insert a shard behind those of tensors up to its own. -/
def placeShard (x : Shard) : List Shard → List Shard
  | [] => [x]
  | y :: ys => if x.tid < y.tid then x :: y :: ys else y :: placeShard x ys

/-- The shard set of a slice's job in manifest order: ascending tensor, then registration order; none where a sector
cannot be read. -/
def State.shardSet (s : State) (sl : Nat) : State × Option (List Shard) :=
  let add (f : State → State × Option Shard) (t : State × Option (List Shard)) : State × Option (List Shard) :=
    let r := f t.1
    (r.1, match t.2, r.2 with
      | some l, some x => some (placeShard x l)
      | _, _ => none)
  let a := (s.setsOf sl).foldl (fun t e => add (fun u => u.optShard e.2) t) (s, some [])
  (s.job sl).regions.foldl (fun t r => add (fun u => u.regionShard sl r) t) a

/-! ### Manifests (R373) -/

/-- Six U64 entries, unused ones at `d`. -/
def six (d : Nat) (l : List Nat) : List Byte := (List.range 6).flatMap (fun i => leBytes 8 (l.getD i d))

/-- Shards with their offsets in the serialised copy. -/
def layShards : Nat → List Shard → List (Nat × Shard)
  | _, [] => []
  | a, x :: xs => let o := (a + 4095) / 4096 * 4096; (o, x) :: layShards (o + x.data.length) xs

/-- The tensors of a shard set, one entry each. -/
def tensorsOf : List Shard → List Shard
  | [] => []
  | x :: xs => x :: (tensorsOf xs).filter (fun y => y.tid != x.tid)

/-- A serialised copy: the manifest region, then the shards (R366, R373). -/
def State.image (s : State) (j : Job) (gen : Nat) (pre worn : Bool) (xs : List Shard) : List Byte :=
  let ls := layShards 0x1000000 xs
  let ts := tensorsOf xs
  let body := ls.foldl (fun b e => b ++ List.replicate (e.1 - 0x1000000 - b.length) 0 ++ e.2.data) []
  let head := leBytes 4 0x4D4E4B43 ++ leBytes 2 2 ++ leBytes 2 (b2n pre + 2 * b2n worn) ++ leBytes 8 j.id ++
    leBytes 4 j.nodes.length ++ leBytes 4 j.index ++ leBytes 8 gen ++ leBytes 4 j.ranks ++ leBytes 4 ts.length ++
    leBytes 4 xs.length ++ leBytes 4 j.anchor ++ leBytes 8 s.mod.tick ++ leBytes 8 body.length
  let tens := ts.flatMap (fun x =>
    leBytes 4 x.tid ++ leBytes 1 x.fmt ++ leBytes 1 x.dims.length ++ leBytes 2 0 ++ six 1 x.dims ++ leBytes 8 0)
  let ents := ls.flatMap (fun e =>
    leBytes 4 e.2.tid ++ leBytes 1 e.2.kind ++ leBytes 3 0 ++ leBytes 8 e.1 ++ leBytes 8 e.2.data.length ++
      six 0 e.2.start ++ six 1 e.2.extent ++ sha384 e.2.data ++ List.replicate 24 0)
  let m := head ++ tens ++ ents
  let tagged := m ++ hmac384 s.ckm m
  tagged ++ List.replicate (0x1000000 - tagged.length) 0 ++ body

/-- Whether a copy's manifest is that of a node of a job at a generation, and its tag passes (R373). -/
def State.manOk (s : State) (b : List Byte) (job gen node : Nat) : Bool :=
  fieldAt b 0 4 == 0x4D4E4B43 && [1, 2].contains (manVersion b) && fieldAt b 8 8 == job && fieldAt b 24 8 == gen &&
    fieldAt b 20 4 == node && bytesAt b (manTagAt b) 48 == hmac384 s.ckm (b.take (manTagAt b))

/-! ### Restore (R379–R381) -/

/-- A box that a RESTORE fills. -/
structure Target where
  tid    : Nat
  fmt    : Nat
  start  : List Nat
  extent : List Nat
deriving DecidableEq, Repr, Inhabited

def CkRegion.target (r : CkRegion) : Target := ⟨r.id, r.fmt, r.start, r.extent⟩
def OptSet.target (x : OptSet) : Target := ⟨x.id, 9, [0, x.lo], [x.slots, x.top - x.lo]⟩

/-- What the holders of one old node yield: no holder that answers, no manifest whose tag passes, or each shard with its
cells — none where every holder fails its digest — and how many holders failed a digest. -/
inductive OldCopy
  | lost
  | auth
  | shards (l : List (ManShard × Option (List Nat))) (fails : Nat)
deriving DecidableEq, Repr

/-- The shards of a set of old copies. -/
def oldShards (olds : List OldCopy) : List (ManShard × Option (List Nat)) :=
  olds.flatMap (fun o => match o with
    | .shards l _ => l
    | _ => [])

/-- The first holder of a shard whose digest passes, and how many failed before it. -/
def firstGood (e : ManShard) : List (List Byte) → Option (List Byte) × Nat
  | [] => (none, 0)
  | b :: bs => if shardOk b e then (some (bytesAt b e.off e.len), 0) else let r := firstGood e bs; (r.1, r.2 + 1)

/-- Read an old node's copy from the holders that answer, in their order. -/
def State.oldCopy (s : State) (job gen node : Nat) (imgs : List (List Byte)) : OldCopy :=
  let good := imgs.filter (fun b => s.manOk b job gen node)
  if imgs.isEmpty then .lost
  else if good.isEmpty then .auth
  else
    let rs := (manShards (good.headD [])).map (fun e =>
      let r := firstGood e good
      ((e, r.1.map (cellsOf e.fmt (volume e.extent))), r.2))
    .shards (rs.map Prod.fst) ((rs.map Prod.snd).sum)

/-- The cell of a coordinate (in cells) of a tensor: none where no old shard of its format holds it; `some none` where
every holder failed that shard. -/
def findCell (tid fmt : Nat) (c : List Nat) (l : List (ManShard × Option (List Nat))) : Option (Option Nat) :=
  l.findSome? (fun e =>
    if e.1.tid == tid && e.1.fmt == fmt then
      ((relTo (cellExt fmt e.1.start) c).bind (indexOf (cellExt fmt e.1.extent))).map (fun i => e.2.map (fun d => d.getD i 0))
    else none)

/-- The cells of a target. -/
def Target.cells (t : Target) (l : List (ManShard × Option (List Nat))) : List (Option (Option Nat)) :=
  let ext := cellExt t.fmt t.extent
  let org := cellExt t.fmt t.start
  (List.range (volume ext)).map (fun i => findCell t.tid t.fmt (List.zipWith (· + ·) org (coordOf ext i)) l)

/-- The status of a set of old copies for the cells they yield (R380). -/
def restoreStatus (olds : List OldCopy) (cells : List (Option (Option Nat))) : Nat :=
  if cells.any Option.isNone then
    if olds.contains .lost then 0x0A else if olds.contains .auth then 0x0C else 0x09
  else if cells.any (fun c => c == some none) then 0x0B else 0

/-- Write a target's bytes: a region whole, a set's box into copy COPY of each granule. -/
def State.fillRegion (s : State) (sl : Nat) (r : CkRegion) (b : List Byte) : State := (s.vwrite sl r.pasid r.va b).1
def State.fillSet (s : State) (x : OptSet) (b : List Byte) : State :=
  let n := x.top - x.lo
  (List.range x.units).foldl (fun t k => (List.range x.slots).foldl (fun u i =>
    (u.vwrite x.slice x.pasid (x.stateVa + k * 4096 + x.copy * 2048 + i * (4 * x.u))
      (((b.drop (4 * n * i)).take (4 * n)).drop (4 * x.u * k) |>.take (4 * x.u))).1) t) s

/-- Whether every box of a job can be written. -/
def State.boxesMapped (s : State) (sl : Nat) : Bool :=
  (s.job sl).regions.all (fun r => s.mapped sl r.pasid r.va r.size true) &&
    (s.setsOf sl).all (fun e => s.mapped sl e.2.pasid e.2.stateVa (e.2.units * 4096) true)

/-- Fill every box from old copies (R379), or with values that the manual calls unpredictable (R380). -/
def State.fillBoxes (s : State) (sl : Nat) (l : Option (List (ManShard × Option (List Nat)))) : State :=
  let data (t : Target) (u : State) : State × List Byte :=
    match l with
    | some m => (u, packCells t.fmt ((t.cells m).map (fun c => (c.getD none).getD 0)))
    | none => (u.tick1, leBytes (boxBytes t.fmt (volume t.extent)) (Config.free u.fresh))
  let a := (s.job sl).regions.foldl (fun t r => let d := data r.target t; d.1.fillRegion sl r d.2) s
  (s.setsOf sl).foldl (fun t e => let d := data e.2.target t; d.1.fillSet e.2 d.2) a

end Sys2Proof.Machine
end

