-- ==== Sys2Proof/Machine/Ckpt.lean ====
section
/-!
DEFINITION. Checkpointing (R358–R385): the commands of CKPT queues, notices and marks, the cut, the buddy copy and
the drain, incidents and the census, and restores.
-/
namespace Sys2Proof.Machine

/-! ### Jobs -/

/-- The slice whose job has an identifier. -/
def State.jobSlice (s : State) (id : Nat) : Option Nat :=
  (s.ckpt.jobs.find? (fun e => e.2.st != .none && e.2.id == id)).map Prod.fst

/-- The predecessor and the successor of a job's node (R358). -/
def Job.pred (j : Job) : Nat := (j.index + j.nodes.length - 1) % j.nodes.length
def Job.succ (j : Job) : Nat := (j.index + 1) % j.nodes.length
def Job.kids (j : Job) : List Nat := childrenOf j.nodes.length j.index

/-- Nodes in the subtree of a node among m (R294). -/
def treeSize (m j : Nat) : Nat := ((List.range m).filter (fun x =>
  x == j || [parentOf x, (parentOf x).bind parentOf, ((parentOf x).bind parentOf).bind parentOf].contains (some j))).length

/-- Send a message to every child, or to the parent. -/
def State.toKids (s : State) (sl kind flags count gen : Nat) (body : List Byte) : State :=
  (s.job sl).kids.foldl (fun t c => t.cohort sl c kind flags count gen body) s
def State.toParent (s : State) (sl kind flags count gen : Nat) (body : List Byte) : State :=
  match parentOf (s.job sl).index with
  | some p => s.cohort sl p kind flags count gen body
  | none => s

/-- A command that needs a job: CK_NOJOB without one. Completions carry the status and the generation (R358). -/
def State.onJob (s : State) (q : QCtx) (k : State → Nat → Job → State) : State :=
  let j := s.job q.slice.val
  if j.st = .none then s.finish q 0x02 0 0 else k s q.slice.val j

/-- The device connections of class 0 that a job's node keeps to its census links, and those of its tree neighbours, opened where they
are not open (R375, R384). -/
def State.openLinks (s : State) (sl : Nat) : State :=
  let j := s.job sl
  ((linksOf j.nodes.length j.index ++ (parentOf j.index).toList ++ j.kids).eraseDups).foldl (fun t n =>
    match t.fabric (j.nodes.getD n 0) with
    | some peer => if (t.deviceConn peer 0 0).isSome then t else (t.openDevice peer 0 0).1
    | none => t) s

/-! ### JOB, REGION, UNREGION, RESUME, LEAVE, QUERY (R358–R361) -/

/-- Bytes of checkpoint space that jobs have allocated and that flash copies of other jobs hold (R359, R370). -/
def State.ckptSpace (s : State) (but : Nat) : Nat :=
  let own := s.ckpt.jobs.filter (fun e => e.1 != but)
  (own.map (fun e => 4 * e.2.bytes)).sum +
    ((s.ckpt.copies.filter (fun c => !(own.any (fun e => e.2.id == c.job)))).map (fun c => c.data.length)).sum

/-- The first of n logical blocks of the checkpoint space that no other job has allocated and no copy holds: the lowest. -/
def State.ckptPlace (s : State) (but n : Nat) : Nat :=
  let taken : List (Nat × Nat) := ((s.ckpt.jobs.filter (fun e => e.1 != but)).map (fun e => (e.2.lba, 4 * e.2.bytes / 4096))) ++
    s.ckpt.copies.map (fun c => (c.lba, c.data.length / 4096))
  let fits (a : Nat) : Bool := taken.all (fun r => decide (a + n ≤ r.1) || decide (r.1 + r.2 ≤ a))
  let ends : List Nat := taken.map (fun r => r.1 + r.2)
  if fits 0 then 0 else (ends.filter fits).foldl min (ends.foldl max 0)

/-- Whether a size suits a job, beside what the slice has already (R359). -/
def State.jobRoom (s : State) (sl bytes had : Nat) : Bool :=
  decide ((s.slice sl).memUsed + bytes ≤ (s.slice sl).quota.memBytes + had) &&
    decide (s.ckptSpace sl + 4 * bytes ≤ s.obj 0x6000 5) && decide ((s.ckpt.jobs.filter (fun e => e.1 != sl)).length < 64)

def State.charge (s : State) (sl add sub : Nat) : State := s.setSlice sl (fun x => { x with memUsed := x.memUsed + add - sub })

/-- The highest generation of a job on this node's flash (R383), 0 for none, and its slot. -/
def State.onFlash (s : State) (id : Nat) : Nat × Bool :=
  (s.ckpt.copies.filter (fun c => c.job == id && !c.pred)).foldl (fun a c => if a.1 < c.gen then (c.gen, c.slotB) else a) (0, true)

/-- CK_JOB (R359, R379). -/
def State.ckJob (s : State) (q : QCtx) (id bytes anchor : Nat) : State :=
  let sl := q.slice.val
  let j := s.job sl
  match s.stepGroup sl with
  | none => s.finish q 0x03 0 0
  | some k =>
    let g := s.group k
    let m := g.nodes.length
    let rebind := j.st = .recovering ∧ j.id = id
    let gens := s.onFlash id
    let bind (y : Job) : Job := { y with
      nodes := g.nodes.map Prod.fst, index := g.index, ranks := g.ranks, anchor := anchor, heard := []
      beats := (linksOf m g.index).foldl (fun b n => put 0 b n (s.mod.tick + 1)) [] }
    if j.st ≠ .none ∧ ¬rebind then s.finish q 0x03 0 j.genC
    else if bytes % 0x200000 ≠ 0 ∨ bytes = 0 ∨ 384 * 2 ^ 30 < bytes ∨ m ≤ anchor ∨ id = 0 then s.finish q 0x01 0 0
    else if !(s.jobRoom sl bytes (if rebind then j.bytes else 0)) then s.finish q 0x04 0 0
    else if rebind then
      let cur := max j.bytes (j.resize.getD 0)
      let new := max j.bytes bytes
      (((s.setJob sl (fun y => { bind y with old := if y.old = [] then y.nodes else y.old, resize := some bytes })).charge sl
        (new - cur) (cur - new)).openLinks sl).finish q 0 0 j.genC
    else
      (((s.setJob sl (fun _ => { bind (default : Job) with
        id := id, bytes := bytes, st := .armed, tie := anchor, genC := gens.1, genS := gens.1, slotB := !gens.2
        lba := s.ckptPlace sl (4 * bytes / 4096) })).charge sl
        bytes 0).openLinks sl).finish q 0 0 gens.1

/-- The region of a descriptor (Table 12-2). -/
def regionOf (d : List Byte) : CkRegion :=
  let n := fieldAt d 5 1
  { id := fieldAt d 0 4, fmt := fieldAt d 4 1, ndims := n, va := fieldAt d 8 8, pasid := fieldAt d 16 4
    dims := sixAt d 32 n, start := sixAt d 80 n, extent := sixAt d 128 n }

/-- Whether a region descriptor is well formed (R361, Table 12-2). -/
def State.regionOk (s : State) (sl : Nat) (d : List Byte) : Bool :=
  let r := regionOf d
  let unused (o v : Nat) : Bool := (List.range 6).all (fun i => decide (i < r.ndims) || fieldAt d (o + 8 * i) 8 == v)
  let last (l : List Nat) : Bool := bits r.fmt 5 4 == 0 || l.getLastD 0 % 32 == 0
  fmtValid (bits r.fmt 3 0) (bits r.fmt 5 4) && !(bit r.fmt 7) && (!(bit r.fmt 6) || bits r.fmt 5 4 == 1) &&
    decide (1 ≤ r.ndims) && decide (r.ndims ≤ 6) && r.va % 0x200000 == 0 && decide (r.pasid < 2 ^ 20) &&
    fieldAt d 6 2 == 0 && fieldAt d 20 12 == 0 && fieldAt d 176 16 == 0 && unused 32 1 && unused 80 0 && unused 128 1 &&
    r.extent.all (· != 0) && (List.range r.ndims).all (fun i =>
      decide (r.start.getD i 0 + r.extent.getD i 0 ≤ r.dims.getD i 0)) &&
    last r.dims && last r.start && last r.extent && !((s.setsOf sl).any (fun e => e.2.id == r.id))

/-- CK_REGION (R361, R366). -/
def State.ckRegion (s : State) (q : QCtx) (sl : Nat) (j : Job) (addr : Nat) : State :=
  match s.vread sl (s.qPasid q) addr 192 with
  | (t, .xlate) => t.finish q 0x05 0 j.genC
  | (t, .memerr) => t.finish q 0x06 0 j.genC
  | (t, .ok d) =>
    let r := regionOf d
    let rs := j.regions ++ [r]
    let sets := t.setsOf sl
    if !(t.regionOk sl d) then t.finish q 0x01 0 j.genC
    else if j.bytes < copyBytes (t.shardSizes sl rs) ∨ 65536 < rs.length + sets.length ∨
        16384 < (rs.map CkRegion.id ++ sets.map (fun e => e.2.id)).eraseDups.length then t.finish q 0x04 0 j.genC
    else if !(t.mapped sl r.pasid r.va r.size true) then t.finish q 0x05 0 j.genC
    else (t.setJob sl (fun y => { y with regions := rs })).finish q 0 0 j.genC

/-- CK_UNREGION: CK_FORMAT where no region has the identifier. -/
def State.ckUnregion (s : State) (q : QCtx) (sl : Nat) (j : Job) (id : Nat) : State :=
  if j.regions.any (fun r => r.id == id) then
    (s.setJob sl (fun y => { y with regions := y.regions.filter (fun r => r.id != id) })).finish q 0 0 j.genC
  else s.finish q 0x01 0 j.genC

/-- CK_RESUME (R372). -/
def State.ckResume (s : State) (q : QCtx) (sl : Nat) (j : Job) : State :=
  if j.st = .stopped then (s.setJob sl (fun y => { y with st := .armed })).finish q 0 0 j.genC else s.finish q 0x03 0 j.genC

/-- End a job: the generation in progress is abandoned and its notices complete with CK_ABORTED, and the buddy area is
released; flash copies remain (R358, R383). -/
def State.endJob (s : State) (sl : Nat) : State :=
  let t := s.abandon sl 0x0E
  let j := t.job sl
  let u := (j.noticeC.toList ++ j.attached.toList ++ j.notice.toList).foldl (fun v n => v.noticeDone sl n 0x0E j.genP) t
  let w := j.waiting.foldl (fun v c => v.finish c.q 0x0E 0 j.genC) (match j.restore with
    | some r => u.finish r.q 0x0E 0 r.gen
    | none => u)
  let held := max j.bytes (j.resize.getD 0)
  if j.st = .none then s
  else { w.charge sl 0 held with ckpt := { w.ckpt with jobs := drop1 w.ckpt.jobs sl } }

/-- CK_LEAVE (R358, Table 12-8, R377). -/
def State.ckLeave (s : State) (q : QCtx) (sl : Nat) (j : Job) : State :=
  if j.st = .armed ∨ j.st = .stopped ∨ j.st = .recovering then (s.endJob sl).finish q 0 0 j.genC
  else s.finish q 0x03 0 j.genC

/-- Codes of Table 12-8 and Table 12-5. -/
def jobCode (x : JobState) : Nat :=
  match x with
  | .none => 0 | .armed => 1 | .stopped => 2 | .census => 3 | .recovering => 4 | .fenced => 5
def phaseCode (x : Phase) : Nat :=
  match x with
  | .none => 0 | .marked => 1 | .cut => 2 | .copying => 3 | .copied => 4 | .committed => 5 | .draining => 6 | .secured => 7
  | .abandoned => 8

/-- The `JOB_STATUS` record (Table 12-10). -/
def Job.bytesOf (j : Job) : List Byte :=
  leBytes 8 j.id ++ leBytes 1 (jobCode j.st) ++ leBytes 1 (phaseCode j.phase) ++ leBytes 1 j.status ++ leBytes 1 j.source ++
    leBytes 4 j.index ++ leBytes 4 j.nodes.length ++ leBytes 4 j.anchor ++ leBytes 8 j.genC ++ leBytes 8 j.genS ++
    leBytes 8 j.genP ++ leBytes 4 j.incident ++ leBytes 4 0 ++ leBytes 8 j.restoreGen

/-- Write bytes to a buffer of the queue's PASID, in device memory or in host memory. -/
def State.ckWrite (s : State) (q : QCtx) (addr gen : Nat) (host : Bool) (b : List Byte) : State :=
  if host then (s.emit (.hostWrite (some (s.qPasid q)) addr b)).finish q 0 0 gen
  else match s.vwrite q.slice.val (s.qPasid q) addr b with
    | (t, .ok _) => t.finish q 0 0 gen
    | (t, .xlate) => t.finish q 0x05 0 gen
    | (t, .memerr) => t.finish q 0x06 0 gen

/-! ### Notices (R362–R364) -/

/-- The notice record (Table 12-3) that travels with messages. -/
def Notice.bytes (n : Notice) (sl id ms : Nat) : List Byte :=
  leBytes 2 sl ++ leBytes 1 (b2n (!n.pre)) ++ [0] ++ leBytes 4 ms ++ leBytes 8 id

/-- A notice as another node knows it: only whether it is a pre-emption notice. -/
def noticeOf (b : List Byte) : Notice := { pre := fieldAt b 2 1 % 2 == 0, deadline := 0, source := 0, tags := [], acked := true }

def addNotice (n : Notice) : Option Notice → Option Notice
  | some o => some (o.merge n)
  | none => some n

/-- Whether a generation lies between its cut and SECURED at this node (R364, Table 12-5). -/
def Phase.held (p : Phase) : Bool := p == .cut || p == .copying || p == .copied || p == .committed || p == .draining

/-- Hold a notice: with the generation in progress, with the committed one that drains, or for the next cut. A pre-emption notice
that comes after COMMITTED turns the job to STOPPED (R364). -/
def State.holdNotice (s : State) (sl : Nat) (n : Notice) : State :=
  s.setJob sl (fun y =>
    if y.phase.open then { y with attached := addNotice n y.attached }
    else if y.phase.held then { y with
      noticeC := addNotice n y.noticeC, st := if n.pre ∧ y.st = .armed then .stopped else y.st }
    else { y with notice := addNotice n y.notice })

/-- Why a notice record is turned away at a job: 1 reserved fields, 2 no such job, 3 FENCED, 0 not at all (R362). -/
def State.noticeCheck (s : State) (b : List Byte) : Nat :=
  let sl := fieldAt b 0 2
  if b.length ≠ 16 ∨ 512 ≤ sl ∨ 2 ≤ fieldAt b 2 1 ∨ fieldAt b 3 1 ≠ 0 then 1
  else if (s.job sl).st = .none ∨ (s.job sl).id ≠ fieldAt b 8 8 then 2
  else if (s.job sl).st = .fenced then 3 else 0

/-- Accept a notice (R363, R364, R383). -/
def State.noticeTake (s : State) (b : List Byte) (source : Nat) (tags : List (BitVec 32)) : State :=
  let sl := fieldAt b 0 2
  let j := s.job sl
  let ms := fieldAt b 4 4
  let n : Notice := { pre := !(bit (fieldAt b 2 1) 0), deadline := if ms = 0 then 0 else s.mod.tick + ms, source := source
                      tags := tags, acked := j.index == 0 }
  if j.st = .census ∨ j.st = .recovering then s.noticeHeld sl n
  else (s.holdNotice sl n).toParent sl 0x02 0 0 0 b

/-- ADMIN_NOTICE (R362): the record lies at `ADDR`; without it the command cannot be read. -/
def execAdminNotice (d : List Byte) (b : Option (List Byte)) (s : State) : Res :=
  .next (s.admRun 0x03 d (decide (s.mod.svc = .normal)) (fun c t =>
    match b with
    | none => t.admDone 0 9 0 c.tag
    | some r => if t.noticeCheck r = 0 then t.noticeTake r 2 [c.tag] else t.admDone 0 (t.noticeCheck r) 0 c.tag))

/-! ### Cohort messages (R384) -/

/-- Take a cohort message of a kind: it finds its job by `JOB_ID`; a higher incident number opens that incident here first (R374),
and `k` runs for messages of the job's own incident. -/
def State.cohortIn (s : State) (kind : Nat) (b : List Byte) (k : CohortMsg → Nat → State → State) : State :=
  let m := cohortOf b
  if m.kind ≠ kind then s
  else match s.jobSlice m.job with
  | none => s
  | some sl =>
    let u := s.setJob sl (fun y => { y with
      heard := insSet y.heard m.sender, beats := if kind = 1 then put 0 y.beats m.sender (s.mod.tick + 1) else y.beats })
    let j := u.job sl
    let t := if j.incident < m.incident ∧ j.st ≠ .fenced then u.enterCensus sl m.incident else u
    if (t.job sl).incident = m.incident then k m sl t else t

/-- COHORT_HEARTBEAT (R375). -/
def execCohortHeartbeat (b : List Byte) (s : State) : Res := .next (s.cohortIn 0x01 b (fun _ _ t => t))

/-- HEARTBEAT_SEND (R375). -/
def execHeartbeatSend (sl : Fin 512) (s : State) : Res :=
  .next (let j := s.job sl.val
    if j.st = .none then s
    else (linksOf j.nodes.length j.index).foldl (fun t n => t.cohort sl.val n 0x01 0 0 0 []) s)

/-- NEIGHBOUR_SILENT (R374): a neighbour that is not already outside the side. -/
def execNeighbourSilent (sl : Fin 512) (node : Nat) (s : State) : Res :=
  .next (let j := s.job sl.val
    if (j.st = .armed ∨ j.st = .stopped ∨ j.st = .recovering) ∧ (linksOf j.nodes.length j.index).contains node ∧
      !(s.linkLive sl.val node) ∧ !(j.st = .recovering ∧ j.missing.contains node) then s.jobFault sl.val else s)

/-- COHORT_NOTICE: node 0 holds it and answers; another node passes it on (R363). -/
def execCohortNotice (b : List Byte) (s : State) : Res :=
  .next (s.cohortIn 0x02 b (fun m sl t =>
    if (t.job sl).index = 0 then (t.holdNotice sl (noticeOf m.body)).cohort sl m.sender 0x03 0 0 0 []
    else (t.setJob sl (fun y => { y with asked := insSet y.asked m.sender })).toParent sl 0x02 0 0 0 m.body))

/-- COHORT_NOTICE_ACK. -/
def execCohortNoticeAck (b : List Byte) (s : State) : Res :=
  .next (s.cohortIn 0x03 b (fun _ sl t =>
    let ack (n : Notice) : Notice := { n with acked := true }
    let u := (t.job sl).asked.foldl (fun v c => v.cohort sl c 0x03 0 0 0 []) t
    u.setJob sl (fun y => { y with
      asked := [], notice := y.notice.map ack, attached := y.attached.map ack, noticeC := y.noticeC.map ack })))

/-! ### The mark (R363) -/

/-- Tell the ACCEL members of the STEP group of the mark (R361). -/
def State.markEvents (s : State) (sl gen : Nat) : State :=
  match s.stepGroup sl with
  | some k => ((s.group k).members.filter Member.accel).foldl (fun t m => t.sendEvent m.port sl 0x0C01 0 gen 0) s
  | none => s

/-- Open the buddy area to the predecessor's copy of the generation in progress, once the previous one is SECURED (R369). -/
def Job.openArea (j : Job) : Job :=
  if 1 < j.nodes.length ∧ j.genC ≤ j.genS ∧ j.phase.open then { j with taking := true, verified := false } else j

/-- Mark an epoch at this node: the notice attaches to the coming generation, and the children learn of it. -/
def State.mark (s : State) (sl gen : Nat) (body : List Byte) : State :=
  let t := s.setJob sl (fun y => Job.openArea { y with
    phase := .marked, genP := gen, mark := gen + 1, acks := [], ups := [], taking := false, verified := false
    attached := addNotice (noticeOf body) y.notice, notice := none })
  (t.markEvents sl gen).toKids sl 0x04 0 0 gen body

/-- Acknowledge MARK up the tree once every child has (R363). -/
def State.ackMark (s : State) (sl : Nat) : State :=
  let j := s.job sl
  if j.kids.all j.acks.contains then s.toParent sl 0x05 0 (treeSize j.nodes.length j.index) j.genP [] else s

/-- COHORT_MARK. -/
def execCohortMark (b : List Byte) (s : State) : Res :=
  .next (s.cohortIn 0x04 b (fun m sl t =>
    let j := t.job sl
    if (j.st = .armed ∨ j.st = .stopped) ∧ parentOf j.index = some m.sender ∧ j.mark = 0 ∧ !j.phase.open then
      (t.mark sl m.gen m.body).ackMark sl
    else t))

/-- COHORT_MARK_ACK. -/
def execCohortMarkAck (b : List Byte) (s : State) : Res :=
  .next (s.cohortIn 0x05 b (fun m sl t =>
    let j := t.job sl
    if j.mark = m.gen + 1 ∧ j.kids.contains m.sender then
      (t.setJob sl (fun y => { y with acks := insSet y.acks m.sender })).ackMark sl
    else t))

/-- Whether node 0 may mark an epoch now: a pre-emption notice always, an insurance notice once the previous generation
is SECURED (R364). -/
def Job.eligible (j : Job) : Bool :=
  match j.notice with
  | some n => (n.pre || decide (j.genC ≤ j.genS)) && !j.phase.held && j.phase != .marked
  | none => false

/-- BARRIER_EPOCH_COMPLETE (R295, R363): the root's subtree is complete. A STEP group whose job holds an eligible
notice first marks the epoch and waits until every node has acknowledged; one whose job is in CENSUS, RECOVERING or
FENCED completes no epoch (R377). -/
def State.epochComplete (s : State) (k : Nat) : State :=
  let g := s.group k
  let j := s.job g.slice
  if g.st ≠ .active ∨ g.index ≠ 0 ∨ !g.complete ∨ g.release.isSome then s
  else if !g.step then s.releaseEpoch k g.epoch 0
  else if j.st = .census ∨ j.st = .fenced then s
  else if (j.st = .armed ∨ j.st = .stopped) ∧ j.mark = 0 ∧ j.eligible then
    let t := s.mark g.slice g.epoch ((j.notice.getD default).bytes g.slice j.id 0)
    if j.kids.isEmpty then t.releaseEpoch k g.epoch 0 else t
  else if j.mark = 0 ∨ j.kids.all j.acks.contains then s.releaseEpoch k g.epoch 0
  else s

/-- BARRIER_EPOCH_COMPLETE. -/
def execBarrierEpochComplete (k : Fin 4096) (s : State) : Res := .next (s.epochComplete k.val)

/-! ### The cut (R360, R363, R365, R366) -/

/-- Send FAIL up and down the tree, with the status in `COUNT`, and abandon the generation here. -/
def State.failGen (s : State) (sl status from_ : Nat) : State :=
  let j := s.job sl
  let near := (parentOf j.index).toList ++ j.kids
  ((near.filter (· != from_)).foldl (fun t n => t.cohort sl n 0x0B 0 status j.genP []) s).abandon sl status

/-- Whether a node's drains are skipped: flash not writable, or its checkpoint space full (R371). -/
def State.noDrain (s : State) : Bool := s.flash.tier != .rw || decide (s.obj 0x6000 5 < s.ckptSpace 512)

/-- The frames of a job's regions. -/
def State.regionFrames (s : State) (sl : Nat) (rs : List CkRegion) : List Nat :=
  rs.flatMap (fun r => (List.range ((r.size + 0x1FFFFF) / 0x200000)).filterMap (fun i =>
    (s.xlate sl r.pasid (r.va + i * 0x200000) false).map (fun a => a / 0x200000)))

/-- Step 3 of R303: the cut of a marked epoch. The content of the shard set is that of this moment: no granule of a set changes before
the copy has read it (R365), and no frame of a region is written before the copy engine has read it (`unread`). -/
def State.takeCut (s : State) (sl : Nat) : State :=
  let j := s.job sl
  if j.phase ≠ .marked then s
  else
    let t := (s.setJob sl (fun y => { y with phase := .cut, mark := 0, acks := [], cutTick := s.mod.tick })).count 0x5000 7 1
    if (t.setsOf sl).any (fun e => e.2.stalled) then t.failGen sl 0x03 (j.nodes.length)
    else if j.bytes < copyBytes (t.shardSizes sl j.regions) then
      (t.failGen sl 0x04 (j.nodes.length)).jobEvent sl 0x0C04 0 j.genP j.id
    else match t.shardSet sl with
      | (u, none) => u.failGen sl 0x06 (j.nodes.length)
      | (u, some xs) =>
        u.setJob sl (fun y => { y with
          image := u.image y y.genP ((y.attached.map Notice.pre).getD false) u.noDrain xs
          unread := (u.regionFrames sl y.regions).eraseDups })

/-- COHORT_FAIL: the cause is the status in `COUNT`, CK_NOQUOTA where there is none (R366). -/
def execCohortFail (b : List Byte) (s : State) : Res :=
  .next (s.cohortIn 0x0B b (fun m sl t =>
    let j := t.job sl
    if j.phase.open ∧ j.genP = m.gen then
      t.failGen sl (if m.count = 0 then 0x04 else m.count) m.sender
    else t))

/-! ### The buddy copy (R367–R369) -/

/-- COMMIT of the generation in progress at this node (R369, R372, Table 12-5). -/
def State.commitGen (s : State) (sl : Nat) (n : Option Notice) (body : List Byte) : State :=
  let t := s.toKids sl 0x07 0 0 (s.job sl).genP body
  let u := t.setJob sl (fun y =>
    let a := match n with
      | some x => addNotice x y.attached
      | none => y.attached
    { y with
      phase := .committed, genC := y.genP, tie := y.anchor, attached := none, noticeC := a, taking := false
      imageC := y.image, image := [], secs := [], flags := 0
      st := if y.st = .armed ∧ (a.map Notice.pre).getD false then .stopped else y.st })
  (u.count 0x5000 8 1).jobEvent sl 0x0C02 0 (u.job sl).genC (u.job sl).id

/-- Report SECURED up the tree once this node and every child have (R370); node 0 then sends SECURED_ALL. The
notice completes, CK_LATE where its deadline has passed (R372). -/
def State.securedAll (s : State) (sl : Nat) : State :=
  let j := s.job sl
  let late := (j.noticeC.map (fun n => decide (n.deadline ≠ 0) && decide (n.deadline < s.mod.tick))).getD false
  let t := (s.toKids sl 0x09 0 0 j.genC []).setJob sl (fun y => Job.openArea { y with
    genS := y.genC, slotB := !y.slotB, noticeC := none, imageC := [], secs := []
    genP := if y.phase.open then y.genP else 0 })
  match j.noticeC with
  | some n => t.noticeDone sl n (if late then 0x08 else 0) j.genC
  | none => t
def State.reportSecured (s : State) (sl : Nat) : State :=
  let j := s.job sl
  let all := look 0 j.secs j.index != 0 && j.kids.all (fun c => look 0 j.secs c != 0)
  if !all then s
  else if j.index = 0 then s.securedAll sl
  else s.toParent sl 0x08 j.flags (treeSize j.nodes.length j.index) j.genC []

/-- This node is SECURED: with copies on flash, or by its buddy alone (R370, R371, Table 12-5). -/
def State.secureSelf (s : State) (sl : Nat) (buddyOnly : Bool) : State :=
  let t := s.setJob sl (fun y => { y with
    phase := if y.phase = .committed ∨ y.phase = .draining then .secured else y.phase, imageC := []
    secs := put 0 y.secs y.index 1, flags := if buddyOnly then 1 else y.flags })
  (if buddyOnly then t.jobEvent sl 0x0C05 0 (t.job sl).genC (t.job sl).id else t).reportSecured sl

/-- What a node does on COMMIT: a node that skips its drains, and a node without a successor whose copy is on its
flash already, are SECURED at once. -/
def State.onCommit (s : State) (sl : Nat) (n : Option Notice) (body : List Byte) : State :=
  let t := s.commitGen sl n body
  if (t.job sl).nodes.length = 1 then t.secureSelf sl false
  else if t.noDrain then t.secureSelf sl true
  else t

/-- Report COPIED up the tree once this node holds its predecessor's copy verified and every child has reported;
node 0 then commits (R369). -/
def State.reportCopied (s : State) (sl : Nat) : State :=
  let j := s.job sl
  let all := j.verified && j.kids.all (fun c => look 0 j.ups c != 0)
  if !all ∨ !j.phase.open then s
  else if j.index = 0 then
    s.onCommit sl none ((j.attached.getD default).bytes sl j.id 0)
  else s.toParent sl 0x06 0 (treeSize j.nodes.length j.index) j.genP []

/-- Queue pieces of a serialised copy on a device connection, each a WRITE to BUDDY space. -/
def Conn.copyOut (c : Conn) (ps : List (Nat × List Byte × Bool)) : Conn :=
  { c with
    outs := c.outs ++ (ps.zipIdx.map (fun e => ((c.msn + e.2) % 2 ^ 32, Body.copy (2 ^ 63 + e.1.1) e.1.2.1 e.1.2.2)))
    msn := (c.msn + ps.length) % 2 ^ 32 }

/-- The connection of COPY_CLASS to a node on an island, opened on first use (R367). -/
def State.copyConn (s : State) (peer ni : Nat) : State × Option Nat :=
  match s.deviceConn peer (s.obj 0x5000 3) ni with
  | some k => (s, some k)
  | none => s.openDevice peer (s.obj 0x5000 3) ni

/-- BUDDY_COPY_START (R359, R364, R367): once the successor has been heard of under this job, the shards in pieces, alternating between one connection per network island, the
manifest last. Without a successor the copy goes to this node's flash (R359). -/
def State.copyStart (s : State) (sl : Nat) : State :=
  let j := s.job sl
  if j.phase ≠ .cut ∨ j.genS < j.genC ∨ !(j.st = .armed ∨ j.st = .stopped) then s
  else if j.nodes.length ≤ 1 then s.setJob sl (fun y => { y with phase := .copying, unread := [] })
  else if !(j.heard.contains j.succ) then s
  else match s.fabric (j.nodes.getD j.succ 0) with
    | none => s
    | some peer =>
      let a := s.copyConn peer 0
      let b := a.1.copyConn peer 1
      match a.2, b.2 with
      | some k0, some k1 =>
        let cut (ni off : Nat) (bs : List Byte) : List (Nat × List Byte × Bool) :=
          (cutBytes (b.1.paySize ni) bs).map (fun e => (off + e.1, e.2.1, false))
        let body := (cut 0 0x1000000 (j.image.drop 0x1000000)).zipIdx
        let man := cut 0 0 (j.image.take 0x1000000)
        let last := man.length - 1
        let man' := man.zipIdx.map (fun e => (e.1.1, e.1.2.1, e.2 == last))
        ((b.1.setConn k0 (fun c => c.copyOut (((body.filter (fun e => e.2 % 2 == 0)).map Prod.fst) ++ man'))).setConn k1
          (fun c => c.copyOut ((body.filter (fun e => e.2 % 2 == 1)).map Prod.fst))).setJob sl
            (fun y => { y with phase := .copying, unread := [] })
      | _, _ => s

/-- BUDDY_COPY_START. -/
def execBuddyCopyStart (sl : Fin 512) (s : State) : Res := .next (s.copyStart sl.val)

/-- BUDDY_COPY_RECEIVED (R369): the holder checks manifest and shards; a mismatch abandons the generation. The predecessor
learns of the verdict by a COPIED that counts no node. -/
def State.copyReceived (s : State) (sl : Nat) : State :=
  let j := s.job sl
  if !j.taking ∨ !j.phase.open then s
  else if s.manOk j.buddy j.id j.genP j.pred && manVersion j.buddy == 2 && (manShards j.buddy).all (shardOk j.buddy) then
    ((s.setJob sl (fun y => { y with taking := false, verified := true, buddyGen := y.genP })).cohort sl j.pred 0x06 0 0 j.genP []).reportCopied sl
  else s.failGen sl 0x07 j.nodes.length

/-- BUDDY_COPY_RECEIVED. -/
def execBuddyCopyReceived (sl : Fin 512) (s : State) : Res := .next (s.copyReceived sl.val)

/-- COHORT_COPIED: from the successor with no node counted, this node's own copy is verified; else a child's
report (R369). -/
def execCohortCopied (b : List Byte) (s : State) : Res :=
  .next (s.cohortIn 0x06 b (fun m sl t =>
    let j := t.job sl
    if j.genP ≠ m.gen ∨ !j.phase.open then t
    else if m.count = 0 then
      if m.sender = j.succ ∧ j.phase = .copying then t.setJob sl (fun y => { y with phase := .copied }) else t
    else if j.kids.contains m.sender then
      (t.setJob sl (fun y => { y with ups := put 0 y.ups m.sender m.count })).reportCopied sl
    else t))

/-- COHORT_COMMIT (R369). -/
def execCohortCommit (b : List Byte) (s : State) : Res :=
  .next (s.cohortIn 0x07 b (fun m sl t =>
    let j := t.job sl
    if j.genP = m.gen ∧ j.phase.open ∧ (j.st = .armed ∨ j.st = .stopped) ∧ parentOf j.index = some m.sender then
      t.onCommit sl (if (noticeOf m.body).pre then some (noticeOf m.body) else none) m.body
    else t))

/-! ### The drain (R370) -/

/-- Put a copy into its slot on flash. -/
def State.putCopy (s : State) (j : Job) (gen : Nat) (pred : Bool) (b : List Byte) : State :=
  let kept := s.ckpt.copies.filter (fun c => !(c.job == j.id && c.pred == pred && c.slotB == j.slotB))
  let lba := j.lba + (2 * b2n pred + b2n j.slotB) * (j.bytes / 4096)
  { s with ckpt := { s.ckpt with copies := kept ++ [⟨j.id, gen, pred, j.slotB, lba, b.length, s.ckptCipher false lba b⟩] } }

/-- Whether this node has yet to secure its committed generation. -/
def Job.drains (j : Job) : Bool := decide (j.genS < j.genC) && look 0 j.secs j.index == 0

/-- FLASH_DRAIN_FLUSHED: the FLUSH of the drain has completed (R370); where the node has no successor, that of its copy
(R359). -/
def State.drainFlushed (s : State) (sl : Nat) : State :=
  let j := s.job sl
  if s.flash.tier ≠ .rw then s
  else if j.phase = .copying ∧ j.nodes.length = 1 then
    ((s.putCopy j j.genP false j.image).setJob sl (fun y => { y with phase := .copied, verified := true })).reportCopied sl
  else if j.drains then
    ((s.putCopy j j.genC false j.imageC).putCopy j j.genC true j.buddy).secureSelf sl false
  else s

/-- FLASH_DRAIN_FLUSHED. -/
def execFlashDrainFlushed (sl : Fin 512) (s : State) : Res := .next (s.drainFlushed sl.val)

/-- COHORT_SECURED (R370, R371). -/
def execCohortSecured (b : List Byte) (s : State) : Res :=
  .next (s.cohortIn 0x08 b (fun m sl t =>
    let j := t.job sl
    if j.genC = m.gen ∧ j.genS < j.genC ∧ j.kids.contains m.sender then
      (t.setJob sl (fun y => { y with
        secs := put 0 y.secs m.sender m.count, flags := if bit m.flags 0 then 1 else y.flags })).reportSecured sl
    else t))

/-- COHORT_SECURED_ALL (R370). -/
def execCohortSecuredAll (b : List Byte) (s : State) : Res :=
  .next (s.cohortIn 0x09 b (fun m sl t =>
    let j := t.job sl
    if j.genC = m.gen ∧ j.genS < j.genC ∧ parentOf j.index = some m.sender then
      t.securedAll sl
    else t))

/-! ### Census and quorum (R375–R378) -/

/-- A view of a message. -/
def viewOf (m : Nat) (b : List Byte) : View :=
  let w := (m + 7) / 8
  let nodes (o : Nat) : List Nat := (List.range m).filter (fun i => bit (fieldAt b (o + i / 8) 1) (i % 8))
  { side := nodes 16, gens := topTwo [(fieldAt b 0 8, nodes (16 + w)), (fieldAt b 8 8, nodes (16 + 2 * w))] }

/-- Put a node list into order. -/
def sortNodes (m : Nat) (l : List Nat) : List Nat := (List.range m).filter l.contains

/-- Union and maximum of two views, in a canonical order. -/
def View.join (m : Nat) (a b : View) : View :=
  { side := sortNodes m (a.side ++ b.side), gens := (topTwo (a.gens ++ b.gens)).map (fun g => (g.1, sortNodes m g.2)) }

/-- COHORT_CENSUS (R375): a view is merged, with what this node itself holds of its generations, and forwarded when it
changes. -/
def execCohortCensus (b : List Byte) (s : State) : Res :=
  .next (s.cohortIn 0x0A b (fun m sl t =>
    let j := t.job sl
    let n := j.nodes.length
    let v := j.view.join n (viewOf n m.body)
    let w : View := { v with gens := v.gens.map (fun g => (g.1, sortNodes n (g.2 ++ t.holds sl g.1))) }
    if j.st = .census ∧ w ≠ j.view.join n j.view then (t.setJob sl (fun y => { y with view := w })).sendView sl else t))

/-- End the calls of a slice's STEP group with COLL_ABORTED and answer its arrivals with ABORTED (R376). -/
def State.stopGroup (s : State) (sl : Nat) : State :=
  match s.stepGroup sl with
  | none => s
  | some k => ((s.group k).calls.foldl (fun u x => (u.callFail k x.cseq 0x09).endCall k x.cseq) s).releaseWaiters k 5

/-- Destroy a slice's STEP group. -/
def State.dropStep (s : State) (sl : Nat) : State :=
  match s.stepGroup sl with
  | some k => s.dropGroup k
  | none => s

/-- The node's decision on its side (R376, R377). -/
def State.decideSide (s : State) (sl : Nat) : State :=
  let j := s.job sl
  let m := j.nodes.length
  let side := j.view.side
  let out := (List.range m).filter (fun i => !side.contains i)
  let whole (g : Nat × List Nat) : Bool := (List.range m).all g.2.contains
  if m < 2 * side.length ∨ (2 * side.length = m ∧ side.contains j.tie) then
    let best := ((j.view.gens.filter whole).map Prod.fst).foldl max 0
    let t := (s.setJob sl (fun y => { y with
      st := .recovering, missing := out, restoreGen := best, decision := if best = 0 then 3 else 1 })).dropStep sl
    if best = 0 then t.jobEvent sl 0x0C07 j.incident 0 j.id else t
  else
    (((s.setJob sl (fun y => { y with st := .fenced, missing := out, decision := 2 })).count 0x5100 9 1).stopGroup sl).jobEvent sl
      0x0C06 j.incident 0 j.id

/-- CENSUS_QUIET_EXPIRE. -/
def execCensusQuietExpire (sl : Fin 512) (s : State) : Res :=
  .next (let j := s.job sl.val
    if j.st = .census ∧ s.obj 0x5100 3 ≤ s.mod.tick - j.viewTick then s.decideSide sl.val else s)

/-- `UNFENCE` (R378): RANGE where no slice is named or its job is not FENCED; the job drops to NONE and its STEP group
is destroyed. -/
def State.unfenceCheck (s : State) (v : Nat) : Nat := if 512 ≤ v ∨ (s.job v).st ≠ .fenced then 4 else 0
def State.unfenceApply (s : State) (v : Nat) : State := (s.dropStep v).endJob v

/-- `RELEASE_JOB` (R385): BUSY while a slice holds the job. -/
def State.releaseCheck (s : State) (id : Nat) : Nat := if (s.jobSlice id).isSome then 8 else 0
def State.releaseApply (s : State) (id : Nat) : State :=
  { s with ckpt := { s.ckpt with copies := s.ckpt.copies.filter (fun c => c.job != id) } }

/-! ### Restore and export (R379–R382) -/

/-- A serialised copy in a buffer of a queue's PASID: its manifest's total gives its length. -/
def State.readImage (s : State) (q : QCtx) (addr : Nat) : State × Acc :=
  match s.vread q.slice.val (s.qPasid q) addr 64 with
  | (t, .ok h) => t.vread q.slice.val (s.qPasid q) addr (0x1000000 + fieldAt h 56 8)
  | r => r

/-- CK_RESTORE (R379, R382): checks, the old node table, and the imported image; the reads follow. -/
def State.ckRestore (s : State) (q : QCtx) (sl : Nat) (j : Job) (gen addr size : Nat) (imp : Option Nat) : State :=
  if size = 0 ∨ 262144 < size then s.finish q 0x01 0 gen
  else if !(j.st = .armed ∨ j.st = .recovering) ∨ j.restore.isSome ∨ (s.setsOf sl).any (fun e => e.2.gen != gen) then
    s.finish q 0x03 0 gen
  else match s.vread sl (s.qPasid q) addr (size * 8) with
    | (t, .xlate) => t.finish q 0x05 0 gen
    | (t, .memerr) => t.finish q 0x06 0 gen
    | (t, .ok tab) =>
      let nodes := (List.range size).map (fun i => fieldAt tab (8 * i) 4 % 2 ^ 21)
      let start (u : State) (im : Store (List Byte)) : State := u.setJob sl (fun y => { y with
        st := .recovering, restore := some ⟨q, gen, nodes⟩, imports := im })
      match imp with
      | none => start t j.imports
      | some a => match t.readImage q a with
        | (u, .ok b) => start u (put [] j.imports (fieldAt b 20 4) b)
        | (u, .xlate) => u.finish q 0x05 0 gen
        | (u, .memerr) => u.finish q 0x06 0 gen

/-- The copies that the holders of old node k serve, in the order of R380: what this node holds itself, and what others
answered. -/
def State.holderCopies (s : State) (j : Job) (nodes : List Nat) (gen k : Nat) (answers : List HolderCopy) : List (List Byte) :=
  let m := nodes.length
  (List.range 3).filterMap (fun p =>
    let h := if p = 1 then k else (k + 1) % m
    if some (nodes.getD h 0) = s.selfEp then
      if p = 0 then (if j.buddyGen = gen then some j.buddy else none)
      else (s.ckpt.copies.find? (fun c => c.job == j.id && c.gen == gen && c.pred == decide (p = 2))).map s.copyData
    else (answers.find? (fun a => a.node.toNat == k && a.place.val == p)).map HolderCopy.image)

/-- Whether an old layout fits this node (R381). -/
def State.v1Fits (s : State) (sl : Nat) (j : Job) (b : List Byte) : Bool :=
  fieldAt b 16 4 == j.nodes.length && fieldAt b 20 4 == j.index && (manShards b).map ManShard.len == j.regions.map CkRegion.size &&
    (s.setsOf sl).isEmpty

/-- CK_EXPORT (R382): this node's copy of a committed generation, from the first holder of R380. -/
def State.ckExport (s : State) (q : QCtx) (j : Job) (gen addr size : Nat) (host : Bool) (answers : List HolderCopy) : State :=
  if gen = 0 ∨ !(gen = j.genC ∨ gen = j.genS) then s.finish q 0x03 0 gen
  else match s.holderCopies j j.nodes gen j.index answers with
    | [] => s.finish q 0x0A 0 gen
    | b :: _ => if size < b.length then s.finish q 0x01 0 gen else s.ckWrite q addr gen host b

/-! ### The commands (Table 12-1) -/

/-- Whether the reserved bytes of a descriptor are zero: every byte but the fields of Table 12-1. -/
def ckZeros (d : List Byte) : Bool :=
  let op := fieldAt d 0 1
  decide (fieldAt d 1 1 < (if op = 4 then 2 else 1)) && fieldAt d 2 2 == 0 && fieldAt d 52 4 == 0 && (op != 3 || fieldAt d 12 4 == 0)

/-- Carry out a command. -/
def State.ckRun (s : State) (w : CkWait) : State :=
  let q := w.q
  let f (o : Nat) : Nat := fieldAt w.desc o 8
  if !(ckZeros w.desc) then s.finish q 0x01 0 0
  else match fieldAt w.desc 0 1 with
    | 1 => s.ckJob q (f 8) (f 40) (fieldAt w.desc 48 4)
    | 2 => s.onJob q (fun t sl j => t.ckRegion q sl j (f 24))
    | 3 => s.onJob q (fun t sl j => t.ckUnregion q sl j (fieldAt w.desc 8 4))
    | 4 => s.onJob q (fun t sl j => t.ckRestore q sl j (f 16) (f 24) (f 32) (if fieldAt w.desc 1 1 = 1 then some (f 56) else none))
    | 5 => s.onJob q (fun t _ j => t.ckExport q j (f 16) (f 24) (f 32) w.host w.answers)
    | 6 => s.onJob q (fun t sl j => t.ckResume q sl j)
    | 7 => s.onJob q (fun t sl j => t.ckLeave q sl j)
    | 8 => s.onJob q (fun t _ j => t.ckWrite q (f 24) j.genC w.host j.bytesOf)
    | _ => s.finish q 0x01 0 0

/-- Carry out commands that waited, until one starts a RESTORE: those behind it go on waiting. -/
def State.ckGoOn (sl : Nat) : List CkWait → State → State
  | [], s => s
  | w :: ws, s =>
    if (s.job sl).restore.isSome then s.setJob sl (fun y => { y with waiting := w :: ws }) else State.ckGoOn sl ws (s.ckRun w)

/-- A command comes: those on one job take effect in the order in which they come (R189, R358). -/
def State.ckSubmit (s : State) (w : CkWait) : State :=
  let sl := w.q.slice.val
  if (s.job sl).restore.isSome then s.setJob sl (fun y => { y with waiting := y.waiting ++ [w] }) else s.ckRun w

/-- A 64-byte descriptor on a queue of kind CKPT; an unknown `OP` ends with CK_FORMAT. -/
def State.ckDesc (s : State) (q : QCtx) (op : Nat) (d : List Byte) (host : Bool) (answers : List HolderCopy) : State :=
  let o := fieldAt d 0 1
  s.descriptor q 5 (o == op) (decide (1 ≤ o) && decide (o ≤ 8)) (fun t => t.finish q 0x01 0 0)
    (fun t => t.ckSubmit ⟨q, d, host, answers⟩)

/-- CK_JOB. -/
def execCkJob (q : QCtx) (d : List Byte) (s : State) : Res := .next (s.ckDesc q 1 d false [])

/-- CK_REGION. -/
def execCkRegion (q : QCtx) (d : List Byte) (s : State) : Res := .next (s.ckDesc q 2 d false [])

/-- CK_UNREGION. -/
def execCkUnregion (q : QCtx) (d : List Byte) (s : State) : Res := .next (s.ckDesc q 3 d false [])

/-- CK_RESTORE. -/
def execCkRestore (q : QCtx) (d : List Byte) (s : State) : Res := .next (s.ckDesc q 4 d false [])

/-- CK_EXPORT; `host`: its buffer lies in host memory; `answers`: what other nodes hold of the copy. -/
def execCkExport (q : QCtx) (d : List Byte) (host : Bool) (answers : List HolderCopy) (s : State) : Res :=
  .next (s.ckDesc q 5 d host answers)

/-- CK_RESUME. -/
def execCkResume (q : QCtx) (d : List Byte) (s : State) : Res := .next (s.ckDesc q 6 d false [])

/-- CK_LEAVE. -/
def execCkLeave (q : QCtx) (d : List Byte) (s : State) : Res := .next (s.ckDesc q 7 d false [])

/-- CK_QUERY; `host`: its buffer lies in host memory. -/
def execCkQuery (q : QCtx) (d : List Byte) (host : Bool) (s : State) : Res := .next (s.ckDesc q 8 d host [])

/-! ### The end of a RESTORE (R379–R381) -/

/-- End a RESTORE: completion, and on success the job is ARMED, or STOPPED after a pre-emption notice (R383); then the commands behind
it go on. -/
def State.restoreEnd (s : State) (sl : Nat) (r : CkRestore) (status : Nat) : State :=
  let done (y : Job) : Job := { y with
    imports := [], st := if y.stopAfter then .stopped else .armed, stopAfter := false, phase := .none
    genC := r.gen, genS := r.gen, genP := 0, noticeC := none, imageC := [], secs := [] }
  let t := match (s.job sl).noticeC with
    | some n => if status = 0 then s.noticeDone sl n 0 r.gen else s
    | none => s
  let ws := (s.job sl).waiting
  ((t.setJob sl (fun y => let z := if status = 0 then done y else y; { z with restore := none, waiting := [] })).finish
    r.q status 0 r.gen) |> State.ckGoOn sl ws

/-- The images that serve old node k of a RESTORE: an imported one, else those of its holders (R382). -/
def State.oldImages (s : State) (j : Job) (r : CkRestore) (answers : List HolderCopy) (k : Nat) : List (List Byte) :=
  match look [] j.imports k with
  | [] => s.holderCopies j r.nodes r.gen k answers
  | b => [b]

/-- CK_RESTORE_COMPLETE (R379–R381). -/
def State.restoreComplete (s : State) (sl : Nat) (answers : List HolderCopy) : State :=
  let j := s.job sl
  match j.restore with
  | none => s
  | some r =>
    let imgs (k : Nat) : List (List Byte) := s.oldImages j r answers k
    let old1 := (List.range r.nodes.length).filter (fun k => manVersion ((imgs k).headD []) == 1)
    if !(s.boxesMapped sl) then s.restoreEnd sl r 0x05
    else if old1 ≠ [] then
      let own := imgs j.index
      let good := own.filter (fun b => s.manOk b j.id r.gen j.index)
      if !(s.v1Fits sl j (own.headD [])) then s.restoreEnd sl r 0x0D
      else if good.isEmpty then (s.fillBoxes sl none).restoreEnd sl r 0x0C
      else
        let ds := (manShards (good.headD [])).map (fun e => firstGood e good)
        let t := s.count 0x5000 0x0B ((ds.map Prod.snd).sum)
        if ds.any (fun d => d.1.isNone) then (t.fillBoxes sl none).restoreEnd sl r 0x0B
        else ((j.regions.zip ds).foldl (fun u e => u.fillRegion sl e.1 (e.2.1.getD [])) t).restoreEnd sl r 0
    else
      let olds := (List.range r.nodes.length).map (fun k => s.oldCopy j.id r.gen k (imgs k))
      let all := oldShards olds
      let t := s.count 0x5000 0x0B ((olds.map (fun o => match o with
        | .shards _ f => f
        | _ => 0)).sum)
      let ts := j.regions.map CkRegion.target ++ (s.setsOf sl).map (fun e => e.2.target)
      let st := restoreStatus olds (ts.flatMap (fun x => x.cells all))
      if st = 0 then (t.fillBoxes sl (some all)).restoreEnd sl r 0 else (t.fillBoxes sl none).restoreEnd sl r st

/-- CK_RESTORE_COMPLETE. -/
def execCkRestoreComplete (sl : Fin 512) (answers : List HolderCopy) (s : State) : Res :=
  .next (s.restoreComplete sl.val answers)

/-! ### Effects at other events -/

/-- Whether a slice's job withholds the SP9's arrival (R363, R365, R372, R374). -/
def State.withholds (s : State) (sl : Nat) : Bool :=
  let j := s.job sl
  j.st == .stopped || j.st == .census || j.st == .fenced ||
    (j.notice.map (fun n => !n.acked)).getD false || (j.attached.map (fun n => !n.acked)).getD false ||
    (j.noticeC.map (fun n => !n.acked)).getD false ||
    j.phase == .cut || j.phase == .copying

/-- The first step boundary after a rebind: the area takes its new size (R379). -/
def State.resizeArea (s : State) (sl : Nat) : State :=
  let j := s.job sl
  match j.resize with
  | some n => (s.setJob sl (fun y => { y with
      bytes := n, lba := if n = y.bytes then y.lba else s.ckptPlace sl (4 * n / 4096), resize := none, old := []
      buddy := y.buddy.take n, buddyGen := 0 })).charge sl 0 (j.bytes - n)
  | none => s

/-- Drains start at the next tick after COMMIT (Table 12-5); one that can go on no longer is skipped (R371). -/
def State.startDrains (s : State) : State :=
  if !s.background then s
  else
    let t : State := { s with ckpt := { s.ckpt with jobs := smapAll s.ckpt.jobs (fun _ y =>
      if y.phase = .committed then { y with phase := .draining } else y) } }
    if t.noDrain then (t.ckpt.jobs.map Prod.fst).foldl (fun u sl => if (u.job sl).drains then u.secureSelf sl true else u) t else t

end Sys2Proof.Machine
end

