-- ==== Sys2Proof/Machine/CollPackets.lean ====
section
/-!
DEFINITION. Collective data packets from other nodes (R285, R288–R290, R293, R302), for calls and for the
reductions of optimizer sets.
-/
namespace Sys2Proof.Machine

/-- Take a packet of a set's reduction for the generation being produced; the run of the packet is the unit, counted from
element 0. -/
def State.setReduce (s : State) (i : Nat) (x : OptSet) (h : HeldPkt) : State :=
  let u := h.pkt.run.toNat
  (s.modRed i u (fun r => r.take false (s.unitUp x u) (u * x.u) h.kind h.pkt)).pumpUnit i u

/-- Emitted weights of a set (R223, R290): to the accelerators of this node, and on to the nodes after it. -/
def State.setEmission (s : State) (x : OptSet) (p : CollPkt) : State :=
  (s.unitKids x p.run.toNat).foldl (fun v n => v.setSend x n 6 p.run.toNat 0 0 (8, elemWidth x.eElem) p.data)
    (s.emit (.emission p.slice.val x.id p.eoff.toNat p.data))

/-- A packet of a set. -/
def State.setData (s : State) (id : Nat) (h : HeldPkt) : State :=
  let p := h.pkt
  match (s.setsOf p.slice.val).find? (fun e => e.2.id == id) with
  | none => s
  | some (i, x) =>
    let nd := s.optNode x
    if p.node.toNat = nd.2.1 ∨ nd.1 ≤ p.node.toNat then s
    else if h.kind = 6 then s.setEmission x p
    else if x.stalled ∨ p.seq.toNat ≠ x.gen + 1 then s
    else s.setReduce i x h

/-- A packet of a call or of a set. -/
def State.redData (s : State) (h : HeldPkt) : State :=
  match h.pkt.set with
  | some id => s.setData id.toNat h
  | none => s.collData h

/-- Hold a packet at the step boundary (R302): it waits with the slice's STEP group, and is counted once. -/
def State.holdPkt (s : State) (h : HeldPkt) : State :=
  match s.stepGroup h.pkt.slice.val with
  | some k => (s.setGroup k (fun g => { g with heldPkts := g.heldPkts ++ [h] })).count 0x3200 0x0A 1
  | none => s

/-- A data packet arrives: it is held while the slice holds its inbound writes. -/
def State.dataPkt (s : State) (kind : Nat) (p : CollPkt) : State :=
  if s.holding p.slice.val then s.holdPkt ⟨kind, p⟩ else s.redData ⟨kind, p⟩

/-- COLL_PKT_EXPBYTES (R289): exponent bytes of a run. -/
def execCollPktExpbytes (p : CollPkt) (s : State) : Res := .next (s.dataPkt 3 p)

/-- COLL_PKT_PARTIAL (R288): a partial over a subtree. -/
def execCollPktPartial (p : CollPkt) (s : State) : Res := .next (s.dataPkt 4 p)

/-- COLL_PKT_LANES (R289): lane sums of a run. -/
def execCollPktLanes (p : CollPkt) (s : State) : Res := .next (s.dataPkt 5 p)

/-- COLL_PKT_RESULT (R290): the results of a run, or the data that a rank moves; for a set, emitted weights. -/
def execCollPktResult (p : CollPkt) (s : State) : Res := .next (s.dataPkt 6 p)

/-- COLL_PKT_INCOMPLETE (R300): the node's ranks arrived without contributing to the run. -/
def execCollPktIncomplete (p : CollPkt) (s : State) : Res := .next (s.dataPkt 7 p)

/-- Deliver the packets that a group's step boundary held (R303, step 5). -/
def State.deliverHeld (s : State) (k : Nat) : State :=
  (s.group k).heldPkts.foldl State.redData (s.setGroup k (fun g => { g with heldPkts := [] }))

end Sys2Proof.Machine
end

