-- ==== Sys2Proof/Machine/StepBoundary.lean ====
section
/-!
DEFINITION. The step boundary (R299–R304): when an SP9 raises its arrival, what it does at the release, and the
timeout of an epoch (R296).
-/
namespace Sys2Proof.Machine

/-- Whether every local member of a group has arrived. -/
def Group.allHere (g : Group) : Bool := (List.range g.members.length).all g.arrived.contains

/-- A call whose every local rank posted it before that rank's arrival (R300). -/
def Call.inStep (x : Call) (g : Group) : Bool := decide (g.members.length ≤ x.posts.length) && x.posts.all (fun p => !p.late)

/-- Whether a body is data, or a mark, of a call or of a set. -/
def Body.collData : Body → Bool
  | .coll kind _ _ => decide (3 ≤ kind)
  | _ => false

/-- Whether the other nodes of a slice's groups have received every partial and mark that this node has sent (R300, condition 3). -/
def State.collAcked (s : State) (sl : Nat) : Bool :=
  s.net.conns.all (fun e => e.2.slice != sl || e.2.group.isNone ||
    (!(e.2.outs.any (fun b => b.2.collData)) && !(e.2.recs.any (fun r => !r.2.acked && r.2.body.collData))))

/-- Conditions 2, 3, 5 and 6 of R300 for a slice: kernels have arrived, calls have ended and their data has reached the owners,
units are applied and emitted, and every request and work request is acknowledged. -/
def State.stepDone (s : State) (sl : Nat) : Bool :=
  (List.range 16).all (fun q => let z := s.seqr q; z.slice != sl || z.run == .idle || z.stepHold) &&
    s.groups.all (fun e => e.2.slice != sl || !(e.2.calls.any (fun x => x.inStep e.2))) &&
    s.collAcked sl && s.optQuiet sl &&
    (List.range 8).all (fun p => let x := s.port p
      !(x.own.any (fun e => match e.2 with
        | .used r => r.slice == sl
        | _ => false)) && !(x.ownWait.any (fun r => r.slice == sl))) &&
    s.net.conns.all (fun e => e.2.device || e.2.slice != sl || e.2.wrs.isEmpty)

/-- Condition 4 of R300: for every set that is due a generation, each other node has been heard. -/
def State.setsHeard (s : State) (sl : Nat) : Bool :=
  (s.setsOf sl).all (fun e => e.2.stalled || s.shardHeard e.2)

/-- Count the writes out of a tunnel that wait as a slice's hold begins (R302). -/
def State.countHeld (s : State) (sl : Nat) : State :=
  s.count 0x3200 0x0A ((s.port tunnelPort).arrived.filter (fun a => s.heldBack tunnelPort a.txn && a.txn.hat.stag.toNat == sl)).length

/-- STEP_ARRIVAL_RAISE (R300): once every local member has arrived this node's marks go out, and the arrival is raised
when the other conditions hold and the job does not withhold it. -/
def State.arrivalRaise (s : State) (k : Nat) : State :=
  let g := s.group k
  if g.st ≠ .active ∨ !g.step ∨ g.raised ∨ g.release.isSome ∨ !g.allHere then s
  else
    let t := s.sendMarks g.slice
    if t.stepDone g.slice && t.setsHeard g.slice && !(t.withholds g.slice) then
      ((t.setGroup k (fun y => { y with raised := true })).countHeld g.slice).passUp k
    else t

/-- STEP_ARRIVAL_RAISE. -/
def execStepArrivalRaise (k : Fin 4096) (s : State) : Res := .next (s.arrivalRaise k.val)

/-- STEP_RELEASE (R303): commits, pending writes of the step boundary, the cut, the answers, and the end of the hold.
A job in CENSUS or FENCED does none of it (R377). -/
def State.stepRelease (s : State) (k : Nat) : State :=
  let g := s.group k
  let sl := g.slice
  match g.release with
  | none => s
  | some e =>
    if (s.job sl).st = .census ∨ (s.job sl).st = .fenced then s
    else
      let cut := (((s.optCommit sl e).applyPlain .step).takeCut sl).resizeArea sl
      let t := ((cut.releaseWaiters k 0).setGroup k (fun y => { y with epoch := y.epoch + 1, done := true, release := none }))
      (((t.count 0x3200 7 1).count 0x3200 9 1).holdEnd sl).deliverHeld k

/-- STEP_RELEASE. -/
def execStepRelease (k : Fin 4096) (s : State) : Res := .next (s.stepRelease k.val)

/-- Whether the timeout of a group's epoch runs at the root: from its first arrival, and not while the job withholds an
arrival or a copy is in progress in the cohort (R296, R365). -/
def State.timeoutRuns (s : State) (k : Nat) : Bool :=
  let g := s.group k
  g.st == .active && g.index == 0 && g.release.isNone && (g.arrived != [] || g.kids != []) &&
    !(g.step && (s.withholds g.slice || (s.job g.slice).phase == .copied))

/-- BARRIER_EPOCH_TIMEOUT (R296). -/
def execBarrierEpochTimeout (k : Fin 4096) (s : State) : Res :=
  .next (if s.timeoutRuns k.val then
      ((s.releaseEpoch k.val (s.group k.val).epoch 4).count 0x3200 8 1).groupFailed k.val
    else s)

end Sys2Proof.Machine
end

