-- ==== Sys2Proof/Machine/SliceEnd.lean ====
section
/-!
DEFINITION. The end of a slice's work and of a slice (R426, R431, R433), the query of a slice, and moving a
slice by SAVE and RESTORE (R440–R443).
-/
namespace Sys2Proof.Machine

/-! ### Ending commands with their chapter's abort status (R426, R433) -/

/-- End the kernels and queued launches that a predicate selects with SL_ABORTED (R491). -/
def State.abortLaunches (s : State) (p : Launch → Bool) : State :=
  let t := ((s.launches.filter (fun l => p l && l.running)).map Launch.island).foldl (fun u n => u.abortKernel n) s
  (t.launches.filter p).foldl (fun u l => u.finish l.ctx 0x0A 0 0)
    { t with launches := t.launches.filter (fun l => !p l) }

/-- End the group commands, calls and arrivals of the queues that a predicate selects, with CO_ABORTED. -/
def State.abortGroupCmds (s : State) (p : QCtx → Bool) : State :=
  (s.groups.map Prod.fst).foldl (fun t k =>
    let g := t.group k
    match g.creator with
    | some q =>
      if p q then (let u := t.closeGroup k; { u with groups := drop1 u.groups k }).finish q 0x09 g.id 0 else t
    | none =>
      let t1 := (g.calls.filter (fun x => x.posts.any (fun y => p y.q))).foldl
        (fun u x => (u.callFail k x.cseq 0x09).endCall k x.cseq) t
      let mine (w : Nat × Waiter) : Bool := match w.2 with
        | .call q => p q
        | _ => false
      (g.waiting.filter mine).foldl (fun u w => u.answerWaiter k g.id g.epoch 5 w.2)
        (t1.setGroup k (fun y => { y with waiting := y.waiting.filter (fun w => !mine w) }))) s

/-- End the PINs and optimizer RELEASEs in progress of some queues. Their chapters name no abort status: the
status is a free value (log entry 21). -/
def State.abortKvOpt (s : State) (p : QCtx → Bool) : State :=
  let t := (s.kv.pinning.filter (fun w => p w.q)).foldl (fun u w => (u.finish w.q (Config.free u.fresh) w.result w.len).tick1)
    { s with kv := { s.kv with pinning := s.kv.pinning.filter (fun w => !p w.q) } }
  let t := ((t.kv.waiting.filter (fun w => p w.q)).foldl (fun (u : State) (w : KvWait) => (u.finish w.q (Config.free u.fresh) w.cmd.handle.toNat 0).tick1)
    { t with kv := { t.kv with waiting := t.kv.waiting.filter (fun w => !p w.q) } }).kvGoOn
  (t.opt.sets.map Prod.fst).foldl (fun u i =>
    match (u.optSet i).releasing with
    | some q =>
      if p q then ((u.modSet i (fun x => { x with releasing := none })).optDone q (u.setHandle i) (Config.free u.fresh)
        (u.optSet i).gen).tick1
      else u
    | none => u) t

/-- End the connection commands of some queues with XP_ABORTED. -/
def State.abortConnCmds (s : State) (p : QCtx → Bool) : State :=
  (s.net.conns.filter (fun e => (match e.2.opener with | some q => p q | none => false) || e.2.wrs.any (fun w => p w.q))).foldl
    (fun t e => t.connAbort e.1) s

/-- End the RESTOREs of jobs in progress of some queues, and the commands that wait behind one, with CK_ABORTED. -/
def State.abortCkptCmds (s : State) (p : QCtx → Bool) : State :=
  s.ckpt.jobs.foldl (fun t e =>
    let ended := e.2.waiting.filter (fun w => p w.q)
    let rest := e.2.waiting.filter (fun w => !(p w.q))
    let u := ended.foldl (fun v w => v.finish w.q 0x0E 0 e.2.genC) (t.setJob e.1 (fun j => { j with waiting := rest }))
    match e.2.restore with
    | some r =>
      if p r.q then ((u.setJob e.1 (fun j => { j with restore := none, waiting := [] })).finish r.q 0x0E 0 r.gen) |> State.ckGoOn e.1 rest
      else u
    | none => u) s

/-- End every command in progress of the queues that a predicate selects (R426, R436). -/
def State.abortQueues (s : State) (p : QCtx → Bool) : State :=
  ((((s.abortStor (fun c => p c.q)).abortGroupCmds p).abortKvOpt p).abortConnCmds p).abortCkptCmds p

/-! ### Destruction (R433) -/

/-- Requests of a slice that have arrived on a port and wait are answered with ABORTED, one still arriving once it has (R266);
posted transactions that wait are dropped. -/
def State.abortArrived (s : State) (sl : Nat) : State :=
  (List.range 9).foldl (fun t p =>
    let mine (x : Arrival) : Bool := x.txn.hat.stag.toNat == sl && s.selfEp == some x.txn.hat.dest.toNat &&
      (p == tunnelPort || x.txn.hat.src.toNat == s.partnerEp p) && x.bind.isSome && !x.abort
    ((t.port p).arrived.filter mine).foldl
      (fun u x => (if isRequest x.txn.hat.typ.toNat && !x.dup then u.sendError p x.txn.hat 0x0D 0 else u).freeBuffers p x.txn)
      (t.setPort p (fun x => { x with
        arrived := x.arrived.filter (fun y => !mine y)
        part := x.part.map (fun e => (e.1, e.2.map (fun r => if r.hat.stag.toNat = sl then { r with abort := true } else r))) }))) s

/-- Clear the bindings of a slice on every port, those pending for the tick included. -/
def State.clearBinds (s : State) (sl : Nat) : State :=
  let isBind (k : Nat) : Bool := decide (0x3000 ≤ k / 256) && decide (k / 256 < 0x3008) && decide (0x20 ≤ k % 256) && decide (k % 256 < 0x30)
  let t := { s with dict := { s.dict with pend := s.dict.pend.filter (fun w => !(isBind w.key && bits w.value 28 20 == sl)) } }
  (List.range 128).foldl (fun u j =>
    let v := u.obj (portObj (j / 16)) (0x20 + j % 16)
    if bit v 31 && bits v 28 20 == sl then u.setObj (portObj (j / 16)) (0x20 + j % 16) 0 else u) t

/-- Clear the classification entries of a slice (R315). -/
def State.clearCls (s : State) (sl : Nat) : State :=
  let x := s.slice sl
  s.setNet (fun n => { n with
    cls := n.cls.filter (fun e => decide (e.1 < x.clsBase) || decide (x.clsBase + x.quota.cls ≤ e.1))
    spread := put [] n.spread sl [], recv := n.recv.filter (fun e => e.1 / 1024 != sl) })

/-- A FREEZE in progress ends with SL_ABORTED. -/
def State.abortFreeze (s : State) (sl : Nat) : State :=
  match (s.slice sl).freezeTag with
  | some g => (s.setSlice sl (fun x => { x with freezeTag := none })).admDone sl 0x0A 0 (BitVec.ofNat 32 g)
  | none => s

/-- Parts 1 to 3 of R433: end the work of a slice, destroy its objects, clear its bindings, entries and keys. The slice
enters DESTROYING. -/
def State.sliceTear (s : State) (sl : Nat) : State :=
  let s0 := (s.abortFreeze sl).setSlice sl (fun x => { x with st := .destroying })
  let s1 := (((s0.abortLaunches (fun l => l.slice == sl)).abortAtts sl).abortArrived sl).abortQueues (fun q => q.slice.val == sl)
  let s2 := (((s1.dropConns sl).optDestroy sl).dropGroups sl).endJob sl
  let s3 := ((s2.kvDestroy sl).clearBinds sl).clearCls sl
  let x := s3.slice sl
  let s4 := s3.setKeys (fun k => { k with slots := k.slots.filter (fun e => decide (e.1 < x.keyBase) || decide (x.keyBase + x.quota.keySlots ≤ e.1)) })
  let s5 := x.windowList.foldl (fun t w => t.clearSram w.2.2 w.2.1) s4
  (s5.setSlice sl (fun y => { y with st := .destroying, steer := [], queues := [], hello := false })).syncPf1

/-- SLICE_DESTROY: the command completes when the slice is FREE. -/
def execSliceDestroy (d : List Byte) (s : State) : Res :=
  .next (s.sliceRun 0x21 d (fun c sl t =>
    if (t.slice sl).st = .destroying then t.admDone sl 3 0 c.tag
    else (t.sliceTear sl).setSlice sl (fun x => { x with destroyTag := some c.tag.toNat })))

/-- Parts 4 and 5 of R433: every mapped frame is zeroed and freed, the windows are cleared, the quotas return to the pool,
and the slice is FREE. -/
def State.sliceFree (s : State) (sl : Nat) : State :=
  let t := s.removePages sl (fun _ => true)
  { t with
    host := { t.host with slices := drop1 t.host.slices sl, tables := t.host.tables.filter (fun p => p.2.slice != sl) }
    dict := { t.dict with
      wmb := drop1 t.dict.wmb (1 + sl), wideLo := t.dict.wideLo.filter (fun e => e.1 / 65536 != 1 + sl) } }

/-- SLICE_DESTROY_COMPLETE. -/
def execSliceDestroyComplete (sl : Fin 512) (s : State) : Res :=
  .next (let x := s.slice sl.val
    if x.st = .destroying then
      let t := s.sliceFree sl.val
      match x.destroyTag with
      | some g => t.admDone sl.val 0 0 (BitVec.ofNat 32 g)
      | none => t
    else s)

/-! ### PASID_UNBIND (R431) -/

/-- Whether anything of a slice names a PASID. -/
def State.pasidBusy (s : State) (sl p : Nat) : Bool :=
  let x := s.slice sl
  x.queues.any (fun e => e.2.used && e.2.cfg.pasid == p) ||
  x.pages.any (fun g => g.pasid == p && !g.kv) ||
  (List.range 128).any (fun j =>
    let hit (v : Nat) : Bool := bit v 31 && bits v 28 20 == sl && bits v 19 0 == p
    hit (s.obj (portObj (j / 16)) (0x20 + j % 16)) || hit (s.pendBind (j / 16) (j % 16))) ||
  s.net.conns.any (fun e => !e.2.device && e.2.slice == sl && e.2.pasid == p) ||
  s.groups.any (fun e => e.2.slice == sl && e.2.members.any (fun m => m.pasid == p)) ||
  (s.job sl).regions.any (fun r => r.pasid == p) ||
  s.launches.any (fun l => l.slice == sl && l.pasid == p) ||
  (s.setsOf sl).any (fun e => e.2.pasid == p) ||
  s.opt.kernels.any (fun e => e.1 / 256 == sl && e.2.1 == p)

/-- PASID_UNBIND. A PASID that the slice does not hold fails with SL_FORMAT (Table 14-8). -/
def execPasidUnbind (d : List Byte) (s : State) : Res :=
  .next (s.sliceRun 0x25 d (fun c sl t =>
    let p := c.pasid.toNat
    if (t.slice sl).fixed then t.admDone sl 3 0 c.tag
    else if !((t.slice sl).pasids.contains p) then t.admDone sl 1 0 c.tag
    else if t.pasidBusy sl p then t.admDone sl 6 0 c.tag
    else (t.setSlice sl (fun x => { x with pasids := x.pasids.erase p })).admDone sl 0 0 c.tag))

/-! ### Query, SAVE and RESTORE (Table 14-7, R440–R443) -/

/-- The classification entries of a slice as 140-byte records with indices relative to `CLS_BASE`. -/
def State.clsSection (s : State) (sl : Nat) : List (List Byte) :=
  let x := s.slice sl
  (s.net.cls.filter (fun e => decide (x.clsBase ≤ e.1) && decide (e.1 < x.clsBase + x.quota.cls))).map (fun e =>
    leBytes 4 (e.1 - x.clsBase) ++ leBytes 64 e.2.key ++ leBytes 64 e.2.mask ++ leBytes 8 e.2.action)

/-- The spreading record of a slice in its 3,080 bytes. -/
def State.spreadSection (s : State) (sl : Nat) : List Byte := bytesAt (s.spreadRec sl) 0 3080

/-- The record of SLICE_QUERY (Table 14-7). -/
def State.sliceRecord (s : State) (sl : Nat) : List Byte :=
  let x := s.slice sl
  if x.st = .free then List.replicate 64 0
  else
    leBytes 1 (sliceCode x.st) ++ [0] ++ leBytes 2 x.keyBase ++ leBytes 2 x.msixBase ++ leBytes 2 x.clsBase ++ leBytes 8 x.memUsed
    ++ leBytes 8 (if x.st = .frozen then s.blobBytes sl (s.clsSection sl) (s.spreadSection sl) else 0)
    ++ (List.range 16).flatMap (fun n => leBytes 2 (if look 0 x.windows n = 0 then 0xFFFF else look 0 x.windows n - 1))
    ++ List.replicate 8 0

/-- SLICE_QUERY, of a FREE slice too (R427); `reach`: the host takes the record. -/
def execSliceQuery (d : List Byte) (reach : Bool) (s : State) : Res :=
  .next (s.admRun 0x2B d s.slicesOk (fun c t =>
    let sl := c.slice.toNat
    if !reach then t.admDone sl 9 0 c.tag
    else (t.emit (.hostWrite none c.addr.toNat (t.sliceRecord sl))).admDone sl 0 0 c.tag))

/-- Whether a slice holds state that is bound to its cohort or its device and so cannot be saved (R440). -/
def State.cohortBound (s : State) (sl : Nat) : Bool :=
  !(s.seqsOf sl).isEmpty || !(s.setsOf sl).isEmpty || s.opt.kernels.any (fun e => e.1 / 256 == sl) ||
  s.groups.any (fun e => e.2.slice == sl) || s.net.conns.any (fun e => !e.2.device && e.2.slice == sl) ||
  (s.job sl).st != .none || (List.range 8).any (fun p => (s.binds p).any (fun v => bits v 28 20 == sl))

/-- SAVE (R440). A range that is not of multiples of 4 KiB or passes the blob's end is an SL_FORMAT, Table 14-8's code for a value
out of order; the spec gives it none of its own (DESIGN CHOICE, log entry 22). -/
def State.saveBlob (s : State) (c : AdmCmd) (sl blobId : Nat) (reach : Bool) : State :=
  if (s.slice sl).st ≠ .frozen then s.admDone sl 3 0 c.tag
  else if s.cohortBound sl then s.admDone sl 6 0 c.tag
  else
    let n := s.blobBytes sl (s.clsSection sl) (s.spreadSection sl)
    let o := c.offset.toNat
    let l := c.length.toNat
    if o % 4096 ≠ 0 ∨ n < o + l ∨ (l % 4096 ≠ 0 ∧ o + l ≠ n) then s.admDone sl 1 0 c.tag
    else if !reach then s.admDone sl 9 0 c.tag
    else
      let id := (s.slice sl).blobId.getD blobId
      let b := s.blob sl id (s.clsSection sl) (s.spreadSection sl)
      ((s.setSlice sl (fun x => { x with blobId := some id })).emit (.hostWrite none c.addr.toNat ((b.drop o).take l))).admDone sl 0 0 c.tag

/-- SAVE; `blobId`: the identifier from the key store's random generator, taken by the first SAVE in FROZEN and kept by
the later ones, whose bytes are of the same blob. -/
def execSave (d : List Byte) (blobId : BitVec 64) (reach : Bool) (s : State) : Res :=
  .next (s.sliceRun 0x28 d (fun c sl t => t.saveBlob c sl blobId.toNat reach))

/-- Whether the header of a blob is of this compartment and whole (R441). -/
def State.blobHeaderOk (s : State) (b : List Byte) : Bool :=
  fieldAt b 0 4 == 0x4C424C53 && fieldAt b 4 2 == 1 && hmac384 s.ckm (b.take 4048) == bytesAt b 4048 48

/-- The length of a blob by its header. -/
def blobTotal (b : List Byte) : Nat :=
  let n := fieldAt b 16 8
  4096 + n + 16 * ((n + 0x400000 - 1) / 0x400000)

/-- Open the complete chunks of a blob, from chunk `i` on: `left` stream bytes are to come. None: a tag failed. -/
def openChunks (key nonce : List Byte) : Nat → Nat → Nat → List Byte → Option (List Byte)
  | 0, _, _, _ => some []
  | k + 1, i, left, b =>
    let n := min left 0x400000
    if n = 0 ∨ b.length < n + 16 then some []
    else match gcmOpen key (nonce ++ leBytes 4 i) (leBytes 4 i) (b.take n) (bytesAt b n 16) with
      | none => none
      | some p => (openChunks key nonce k (i + 1) (left - n) (b.drop (n + 16))).map (fun r => p ++ r)

/-- The bytes of the section of a kind in a stream, by the header's directory. -/
def blobSection (h stream : List Byte) (kind : Nat) : List Byte :=
  match (List.range (fieldAt h 24 4)).find? (fun i => fieldAt h (160 + 32 * i) 4 == kind) with
  | some i => bytesAt stream (fieldAt h (168 + 32 * i) 8) (fieldAt h (176 + 32 * i) 8)
  | none => []

/-- Cut a byte string into records of `n` bytes. -/
def records (n : Nat) : Nat → List Byte → List (List Byte)
  | 0, _ => []
  | k + 1, b => if b.length < n then [] else b.take n :: records n k (b.drop n)

/-- The records of a section. -/
def sectionRecs (h stream : List Byte) (kind n : Nat) : List (List Byte) :=
  let b := blobSection h stream kind
  records n (b.length / n) b

/-- The source's windows in order: size and contents. -/
def blobWindows : Nat → List Byte → List (List Byte)
  | 0, _ => []
  | k + 1, b =>
    if b.length < 8 then [] else bytesAt b 8 (fieldAt b 0 8) :: blobWindows k (b.drop (8 + fieldAt b 0 8))

/-- Whether what the source used fits the target's quotas and windows (R442), and its PASIDs are free. -/
def State.blobFits (s : State) (sl : Nat) (h stream : List Byte) : Bool :=
  let x := s.slice sl
  let pas := (sectionRecs h stream 1 4).map leNat
  let pages := (sectionRecs h stream 2 16).length
  let wins := blobWindows 16 (blobSection h stream 9)
  decide (pas.length ≤ x.quota.pasids) && pas.all (fun p => !(s.host.slices.any (fun e => e.1 != sl && e.2.pasids.contains p))) &&
  decide (pages * 0x200000 ≤ x.quota.memBytes) && decide (pages ≤ (s.freeFrames pages).length) &&
  decide ((sectionRecs h stream 3 76).length ≤ x.quota.queues) &&
  (sectionRecs h stream 4 16).all (fun r => !(bit (fieldAt r 0 4) 24) || decide (fieldAt r 0 4 % 65536 < x.quota.msix)) &&
  (sectionRecs h stream 6 140).all (fun r => decide (fieldAt r 0 4 < x.quota.cls)) &&
  ((sectionRecs h stream 8 32).drop x.quota.keySlots).all (fun r => fieldAt r 8 8 == 0) &&
  decide (wins.length ≤ x.windowList.length) &&
  (List.zip wins x.windowList).all (fun e => decide (e.1.length ≤ e.2.2.1))

/-- A steering entry from its 16 bytes. -/
def steerOf (r : List Byte) : Steer :=
  let v := fieldAt r 0 4
  { (default : Steer) with vector := v % 65536, ports := bits v 23 16, enable := bit v 24, modUs := fieldAt r 4 2 }

/-- A restored key slot (R443): empty, in NEEDS_KEY with counts and the highest counter, at or below which nothing is
accepted (R468); a slot that held no key on the source stays EMPTY. -/
def restoredSlot (r : List Byte) : KeySlot :=
  if fieldAt r 8 8 = 0 then default
  else { (default : KeySlot) with
    st := .needsKey, inv := fieldAt r 0 8, limit := fieldAt r 8 8
    win0 := ⟨true, fieldAt r 16 8, 2 ^ 65 - 1⟩ }

/-- Restore the queues: record, producer index held until THAW, heads. The k-th record takes slot k (log entry 22). -/
def State.restoreQueues (s : State) (sl : Nat) (rs : List (List Byte)) : State :=
  (List.range rs.length).foldl (fun t k =>
    let r := rs.getD k []
    (t.installQueue sl k (queueRecOf r)).setQueue sl k (fun q => { q with
      prod := fieldAt r 68 4, held := some (fieldAt r 64 4), dqHead := fieldAt r 68 4, cqTail := fieldAt r 72 4
      cqHead := fieldAt r 72 4 })) s

/-- Put a blob's stream into its target, which enters FROZEN (R442, R443). -/
def State.restoreApply (s : State) (sl : Nat) (h stream : List Byte) : State :=
  let x := s.slice sl
  let maps := sectionRecs h stream 2 16
  let frames := s.freeFrames maps.length
  let pages := (List.zip maps frames).map (fun e =>
    (⟨fieldAt e.1 0 4, fieldAt e.1 8 8 / 0x200000, e.2, bit (fieldAt e.1 4 4) 0, false⟩ : Page))
  let steer := sectionRecs h stream 4 16
  let apert := sectionRecs h stream 5 8
  let keys := sectionRecs h stream 8 32
  let s1 := (s.addPages sl pages).setSlice sl (fun y => { y with
    st := .frozen, blob := [], pasids := ((sectionRecs h stream 1 4).map leNat).foldl insSet []
    steer := (List.range 256).foldl (fun m i => sput m i (steerOf (steer.getD i []))) []
    apert := (List.range 1024).foldl (fun m i => put 0 m i (leNat (apert.getD i []))) [] })
  let s2 := s1.restoreQueues sl (sectionRecs h stream 3 76)
  let s3 := (sectionRecs h stream 6 140).foldl (fun t r => t.setNet (fun n => { n with
    cls := sput n.cls (x.clsBase + fieldAt r 0 4) ⟨fieldAt r 4 64, fieldAt r 68 64, fieldAt r 132 8, 0⟩ })) s2
  let s4 := s3.setNet (fun n => { n with spread := put [] n.spread sl (blobSection h stream 7) })
  let s5 := (List.range (min keys.length x.quota.keySlots)).foldl (fun t j =>
    t.setKslot (x.keyBase + j) (fun _ => restoredSlot (keys.getD j []))) s4
  let s6 := (List.zip (blobWindows 16 (blobSection h stream 9)) x.windowList).foldl (fun t e => t.store e.2.2.2 e.1) s5
  (List.zip pages (sectionRecs h stream 10 0x200000)).foldl (fun t e => t.store (e.1.frame * 0x200000) e.2) s6

/-- A RESTORE that failed leaves its target with unpredictable contents; only SLICE_DESTROY helps (R442). -/
def State.restoreFail (s : State) (c : AdmCmd) (sl status : Nat) : State :=
  (s.setSlice sl (fun x => { x with blobBad := true })).admDone sl status 0 c.tag

/-- RESTORE of the next bytes of a blob (R442). -/
def State.restore (s : State) (c : AdmCmd) (sl : Nat) (bytes : Option (List Byte)) : State :=
  let x := s.slice sl
  if x.st ≠ .restoring ∨ x.blobBad then s.admDone sl 3 0 c.tag
  else if c.offset.toNat ≠ x.blob.length then s.restoreFail c sl 5
  else match bytes with
    | none => s.restoreFail c sl 9
    | some more =>
      let b := x.blob ++ more
      let h := b.take 4096
      let t := s.setSlice sl (fun y => { y with blob := b })
      if b.length < 4096 then t.admDone sl 0 0 c.tag
      else if !(s.blobHeaderOk h) then s.restoreFail c sl 7
      else if blobTotal h < b.length then s.restoreFail c sl 5
      else match openChunks s.cke (leBytes 8 (fieldAt h 8 8)) (fieldAt h 16 8 / 0x400000 + 1) 0 (fieldAt h 16 8) (b.drop 4096) with
        | none => s.restoreFail c sl 7
        | some stream =>
          if b.length < blobTotal h then t.admDone sl 0 0 c.tag
          else if !(s.blobFits sl h stream) then s.restoreFail c sl 8
          else (t.restoreApply sl h stream).admDone sl 0 0 c.tag

/-- RESTORE; `bytes`: what `ADDR` holds in host memory, none where it cannot be reached. -/
def execRestore (d : List Byte) (bytes : Option (List Byte)) (s : State) : Res :=
  .next (s.sliceRun 0x29 d (fun c sl t => t.restore c sl (bytes.map (fun b => b.take c.length.toNat))))

/-! ### QUEUE_DESTROY (R436) -/

/-- Whether a group, a connection or a job names a queue. -/
def State.queueNamed (s : State) (sl slot : Nat) : Bool :=
  let d := (s.queue sl slot).dev
  s.groups.any (fun e => e.2.slice == sl && e.2.members.any (fun m => !m.accel && m.queue == d)) ||
  s.net.conns.any (fun e => !e.2.device && e.2.slice == sl && (e.2.sq == d || e.2.rq == d)) ||
  (s.job sl).waiting.any (fun w => w.q.slot.val == slot) ||
  match (s.job sl).restore with
  | some r => r.q.slot.val == slot
  | none => false

/-- QUEUE_DESTROY: the commands in progress end with their abort status, then the slot is free. -/
def State.queueDestroy (s : State) (sl : Fin 512) (slot : Nat) (tag : BitVec 32) : State :=
  let c := ctrlCtx sl tag
  let q := s.queue sl.val slot
  if 1024 ≤ slot ∨ !q.used then s.finish c 5 slot 0
  else if s.queueNamed sl.val slot then s.finish c 6 slot 0
  else
    let t := (if slot = 0 then s.abortLaunches (fun l => l.slice == sl.val) else s).abortQueues
      (fun x => x.slice == sl && x.slot.val == slot)
    let u := (t.setNet (fun n => { n with recv := n.recv.filter (fun e => e.1 != recvKey sl.val slot) })).finish c 0 slot q.dev
    u.setSlice sl.val (fun x => { x with queues := drop1 x.queues slot })

/-- QUEUE_DESTROY. -/
def execQueueDestroy (sl : Fin 512) (d : List Byte) (s : State) : Res :=
  .next (s.ctrl sl 2 d (fun tag t => t.queueDestroy sl (fieldAt d 2 2) tag))

end Sys2Proof.Machine
end

