-- ==== Sys2Proof/Machine/DictWire.lean ====
section
/-!
DEFINITION. The wire form of dictionary requests and responses (Tables 2-9, 2-10, R58, R61): entries, the ODP
header and tag, and the sizing of a read response.
-/
namespace Sys2Proof.Machine

/-- A length padded to a multiple of 8. -/
def pad8 (n : Nat) : Nat := (n + 7) / 8 * 8

/-- Read `n` entries that fill a body exactly; none where they do not. -/
def decodeEntries : Nat → List Byte → Option (List DictEntry)
  | 0, b => if b.isEmpty then some [] else none
  | n + 1, b =>
    let v := fieldAt b 6 2
    if b.length < 8 + pad8 v then none
    else
      let e : DictEntry := ⟨BitVec.ofNat 16 (fieldAt b 0 2), b.getD 2 0, bit (fieldAt b 3 1) 0, b.getD 5 0, bytesAt b 8 v⟩
      (decodeEntries n (b.drop (8 + pad8 v))).map (fun l => e :: l)

/-- A response entry before it is laid out: `est` is its status, `value` the bytes of a read that succeeds. -/
structure RespEnt where
  idx     : Nat
  sub     : Nat
  pending : Bool
  est     : Nat
  typ     : Nat
  value   : List Byte
deriving DecidableEq, Repr, Inhabited

/-- The bytes of a response entry (Table 2-10). -/
def RespEnt.bytes (e : RespEnt) : List Byte :=
  leBytes 2 e.idx ++ leBytes 1 e.sub ++ leBytes 1 (b2n e.pending) ++ leBytes 1 e.est ++ leBytes 1 e.typ ++
    leBytes 2 e.value.length ++ bytesAt e.value 0 (pad8 e.value.length)

/-- Place the values of a read response in the space left, in order; what does not fit returns RANGE (R61). -/
def placeValues : Nat → List RespEnt → List RespEnt
  | _, [] => []
  | left, e :: es =>
    if pad8 e.value.length ≤ left then e :: placeValues (left - pad8 e.value.length) es
    else { e with est := 4, value := [] } :: placeValues left es

/-- A read response body of at most `max` bytes; none where the heads alone do not fit (R61). -/
def readBody (max : Nat) (es : List RespEnt) : Option (List Byte) :=
  if max < 8 * es.length then none
  else some ((placeValues (max - 8 * es.length) es).flatMap RespEnt.bytes)

/-- An ODP message under the operator key: 24 header bytes, body and tag (Table 2-9, R58). -/
def odpMessage (opk kind reqId seq count status fail : Nat) (body : List Byte) : List Byte :=
  let m := beBytes 2 0x4F44 ++ beBytes 1 1 ++ beBytes 1 kind ++ beBytes 4 reqId ++ beBytes 8 seq ++ beBytes 2 count ++
    beBytes 2 body.length ++ beBytes 1 status ++ [0] ++ beBytes 2 fail ++ body
  m ++ hmac384 (leBytes 48 opk) m

/-- Whether an ODP datagram has the form of Table 2-9, and its entries. -/
def odpEntries (b : List Byte) : Option (List DictEntry) :=
  let f (o n : Nat) : Nat := beNat ((b.drop o).take n)
  if b.length < 72 ∨ f 0 2 ≠ 0x4F44 ∨ f 2 1 ≠ 1 ∨ (f 3 1 ≠ 1 ∧ f 3 1 ≠ 2) ∨ f 16 2 = 0 ∨ 64 < f 16 2 ∨ 1160 < f 18 2 ∨
      b.length ≠ 72 + f 18 2 then none
  else decodeEntries (f 16 2) ((b.drop 24).take (f 18 2))

/-- Whether the tag of a datagram passes. -/
def odpTagOk (opk : Nat) (b : List Byte) : Bool :=
  let n := b.length - 48
  hmac384 (leBytes 48 opk) (b.take n) == b.drop n

/-! ### The mailbox (R65) -/

/-- The entries of a mailbox request, read from `MBX_BUF` when the request is carried out: `COUNT` and `LENGTH` stand in
`seq` and `reqId`. None: a request that is answered TYPE. -/
def State.mbxEntries (s : State) (r : DictReq) : Option (List DictEntry) :=
  if 4096 < r.reqId ∨ r.seq = 0 ∨ 64 < r.seq then none
  else decodeEntries r.seq (bytesAt s.dict.mbx.buf 0 r.reqId)

/-- Change the dictionary. -/
def State.setDict (s : State) (f : Dict → Dict) : State := { s with dict := f s.dict }

/-- An FLR of PF0 for the mailbox: `MBX_STATUS` returns to its reset values; a request in progress is carried out and its
response discarded (Table 14-4). Such a request is marked by `src` = 1. -/
def State.mbxReset (s : State) : State :=
  let freeze (r : DictReq) : DictReq :=
    if r.path = .mbx ∧ r.src = 0 then
      match s.mbxEntries r with
      | some es => { r with src := 1, entries := es }
      | none => { r with src := 1, bad := true }
    else r
  s.setDict (fun d => { d with
    queue := d.queue.map freeze
    mbx := { d.mbx with busy := false, done := false, overrun := false, status := 0, fail := 0xFFFF } })

end Sys2Proof.Machine
end

