-- ==== Sys2Proof/Machine/FlashMedia.lean ====
section
/-!
DEFINITION. The translation layer of the flash tier (R401–R414): drain, journal, collection, erase, mount, the
scans, and retirement. The physical pages that FI chooses and the outcomes of its media operations are operands.
-/
namespace Sys2Proof.Machine

/-- Physical blocks of the tier (Table 13-1). -/
def flashBlocks : Nat := 2097152

/-- Whether the tier is mounted. -/
def Flash.mounted (f : Flash) : Bool := f.tier == .rw || f.tier == .readOnly

/-- The block of a physical page. -/
def pageBlk (p : Nat) : Nat := p / 2048

/-- The plane and block group of a block (Table 13-1). -/
def blkGroup (b : Nat) : Nat := b / 128

/-- Blocks that hold nothing. -/
def Flash.freeBlocks (f : Flash) : Nat := flashBlocks - (f.blks.filter (fun e => e.2.st != .free)).length

/-- Whether garbage collection runs (R404). -/
def State.gcRuns (s : State) : Bool :=
  decide (s.flash.freeBlocks * 100 < s.obj 0x6000 9 * s.flash.spare)

/-- Whether a page can be programmed: no calibration page, in a block free or open, and not programmed (R386). -/
def Flash.pageFree (f : Flash) (p : Nat) : Bool :=
  let b := (sget f.blks (pageBlk p)).st
  decide (p < 2 ^ 32) && p % 2048 != 2047 && (b == .free || b == .used) && !(f.pages.any (fun e => e.1 == p))

/-- Whether any block of a physical block is named by the map or by what the journal holds. -/
def Flash.blkNamed (f : Flash) (b : Nat) : Bool :=
  (f.map ++ f.dmap).any (fun e => e.2.page != 0 && pageBlk (e.2.page - 1) == b)

/-! ### Retirement (R412, R413) -/

/-- The slices that own volumes. -/
def State.volOwners (s : State) : List Nat :=
  ((s.flash.vols.filter (fun e => e.2.valid)).map (fun e => e.2.owner)).eraseDups

/-- Enter READ_ONLY when the spare pool is below its floor (R413). -/
def State.wornCheck (s : State) : State :=
  if s.flash.tier = .rw ∧ s.flash.spare < Config.spareFloor then
    let t := s.setFlash (fun f => { f with tier := .readOnly, worn := true })
    ((t.event .operator 0x0D01 0 t.flash.spare 0).eventSlices t.volOwners 0x0D01 0 t.flash.spare 0).stopDemotion
  else s

/-- Retire a block: its record is committed, and a spare takes its place. -/
def State.retire (s : State) (b : Nat) : State :=
  if (s.pblk b).st = .retired then s
  else
    let t := (s.setPblk b (fun y => { y with st := .retired })).setFlash (fun f => { f with
      waiting := f.waiting ++ [.retire b], spare := f.spare - 1 })
    (t.count 0x6000 0x18 1).wornCheck

/-- Retire a block once it holds no valid data; until then it is failing. -/
def State.failBlk (s : State) (b : Nat) : State :=
  if (s.pblk b).st = .retired then s
  else if s.flash.blkNamed b then s.setPblk b (fun y => { y with st := .failing })
  else s.retire b

/-! ### Drain (R391, R400, R403) -/

/-- One block of a unit as it is programmed: ciphertext, and whether it is unreadable. -/
def State.mediaBlock (s : State) (key : Nat) : Option (List Byte) × Bool :=
  match s.flash.buf.find? (fun e => e.1 == key) with
  | some e => (some (xts false s.mediaKey (tweakOf key) e.2.data), e.2.bad)
  | none => match s.flash.pageOf key with
    | some p => let g := sget s.flash.pages p; (g.data.getD (key % 4) none, g.bad.contains (key % 4))
    | none => (none, false)

/-- The page that a unit is programmed into. -/
def State.unitPage (s : State) (unit : Nat) : FPage :=
  let bs := (List.range 4).map (fun i => s.mediaBlock (4 * unit + i))
  { copy := false, unit := unit, data := bs.map Prod.fst
    bad := (List.range 4).filter (fun i => (bs.getD i (none, false)).2) }

/-- A SUSPECT block's verify after its first program cycle: passed, failed or not yet made (R407). -/
def State.verified (s : State) (b : Nat) (v : Option Bool) : State :=
  match v with
  | some true => s.setPblk b (fun y => { y with suspect := false })
  | some false => if (s.pblk b).suspect then s.failBlk b else s
  | none => s

/-- Whether a block in use holds a page that the map no longer names, so that collection can gain by it. -/
def Flash.gcWork (f : Flash) : Bool :=
  f.pages.any (fun e => (sget f.blks (pageBlk e.1)).st == .used && !(f.map.any (fun m => m.2.page == e.1 + 1)))

/-- Collection takes priority over the drain below half of `GC_LOW`, until free blocks are above `GC_LOW` again (R404). -/
def State.gcPriority (s : State) : State :=
  let low := decide (s.flash.freeBlocks * 200 < s.obj 0x6000 9 * s.flash.spare)
  s.setFlash (fun f => { f with first := if f.first then s.gcRuns else low })

/-- BUFFER_UNIT_PROGRAMMED: the program of a unit ends, its record is added and the map is updated. While collection takes priority and
has work, no unit is drained. -/
def State.unitProgrammed (s : State) (unit page : Nat) (ok : Bool) (v : Option Bool) : State :=
  let mine (e : Nat × BufBlock) : Bool := e.1 / 4 == unit && !e.2.prog
  if s.flash.first && s.flash.gcWork then s
  else if !s.flash.mounted || !(s.flash.buf.any mine) || !(s.flash.pageFree page) then s
  else if !ok then (s.setPblk (pageBlk page) (fun y => { y with st := .used })).failBlk (pageBlk page)
  else
    let g := s.unitPage unit
    let seq := ((s.flash.buf.filter mine).map (fun e => e.2.seq)).foldl max 0
    let t := s.setFlash (fun f => { f with
      pages := ins f.pages page g, map := ins f.map unit ⟨page + 1, []⟩
      waiting := f.waiting ++ [.map unit page seq]
      buf := smapAll f.buf (fun k b => if k / 4 = unit then { b with prog := true } else b) })
    ((t.setPblk (pageBlk page) (fun y => { y with st := .used })).count 0x6000 0x11 16384).verified (pageBlk page) v

/-- BUFFER_UNIT_PROGRAMMED. -/
def execBufferUnitProgrammed (unit page : Nat) (ok : Bool) (verify : Option Bool) (s : State) : Res :=
  .next (s.unitProgrammed unit page ok verify).gcPriority

/-! ### The journal (R402–R405) -/

/-- What replay of one record makes of the map. -/
def replayRec (m : Store MapEnt) (r : JRec) : Store MapEnt :=
  match r with
  | .map u p _ => ins m u ⟨p + 1, []⟩
  | .trim first n _ => smapAll m (fun u e => { e with
      dead := ((List.range 4).map (fun i => 4 * u + i)).foldl
        (fun d k => if first ≤ k ∧ k < first + n then insSet d k else d) e.dead })
  | .relocate u src c => if (sget m u).page = src + 1 then smod m u (fun e => { e with page := c + 1 }) else m
  | .volume v clear => if clear then m.filter (fun e => decide (4 * e.1 / 2 ^ 34 ≠ v)) else m
  | .eraseOpen _ | .eraseDone _ | .columnSkip _ _ | .retire _ => m

/-- What a persisted record does beside that: a RELOCATE takes effect in the map or drops its copy, and an
erase starts. -/
def State.recordPersisted (s : State) (r : JRec) : State :=
  match r with
  | .relocate u src c =>
    if (sget s.flash.map u).page = src + 1 then s.setFlash (fun f => { f with map := replayRec f.map r })
    else s.setFlash (fun f => { f with pages := drop1 f.pages c })
  | .eraseOpen b => s.setPblk b (fun y => { y with st := if y.st = .eraseOpen then .erasing else y.st })
  | .map u _ seq => s.setFlash (fun f => { f with
      buf := f.buf.filter (fun e => !(e.1 / 4 == u && e.2.prog && decide (e.2.seq ≤ seq))) })
  | .trim _ _ _ | .eraseDone _ | .columnSkip _ _ | .retire _ | .volume _ _ => s

/-- After a checkpoint: blocks that hold no valid data are retired where they fail, and erased where
collection wants them. -/
def State.sweep (s : State) : State :=
  (s.flash.blks.map Prod.fst).foldl (fun t b =>
    if t.flash.blkNamed b then t
    else match (t.pblk b).st with
      | .failing => t.retire b
      | .used =>
        if t.gcRuns then
          (t.setPblk b (fun y => { y with st := .eraseOpen })).setFlash (fun f => { f with
            waiting := f.waiting ++ [.eraseOpen b] })
        else t
      | .free | .eraseOpen | .erasing | .retired => t) s

/-- JOURNAL_PERSISTED: `ok` tells whether both programs completed and a copy read back clean; the records of a
checkpoint that failed are programmed again. -/
def State.journalPersisted (s : State) (ok : Bool) : State :=
  let rs := s.flash.flight
  if rs = [] ∨ !s.flash.mounted then s
  else if !ok then s.setFlash (fun f => { f with waiting := rs ++ f.waiting, flight := [] })
  else
    let t := s.setFlash (fun f => { f with dmap := rs.foldl replayRec f.dmap, flight := [], jseq := f.jseq + 1 })
    ((rs.foldl State.recordPersisted t).sweep).endFlushes

/-- JOURNAL_PERSISTED. -/
def execJournalPersisted (ok : Bool) (s : State) : Res := .next (s.journalPersisted ok).storGoOn

/-- MAP_SNAPSHOT: one of 4,096 segments of 786,432 units is written to flash. -/
def State.mapSnapshot (s : State) : State :=
  if !s.flash.mounted then s
  else
    let inSeg (u : Nat) : Bool := u / 786432 % 4096 == s.flash.snap
    (s.setFlash (fun f => { f with
      snap := (f.snap + 1) % 4096
      dmap := (f.map.filter (fun e => inSeg e.1)).foldl (fun m e => ins m e.1 e.2)
        (f.dmap.filter (fun e => !inSeg e.1)) })).count 0x6000 0x11 3145728

/-- MAP_SNAPSHOT. -/
def execMapSnapshot (s : State) : Res := .next s.mapSnapshot

/-! ### Collection and erase (R404, R405, R407) -/

/-- Whether a relocation of a unit waits for the journal. -/
def Flash.moving (f : Flash) (unit : Nat) : Bool :=
  (f.waiting ++ f.flight).any (fun r => match r with | .relocate u _ _ => u == unit | _ => false)

/-- Steps 1 and 2 of a relocation: copy a mapped unit to a new page and commit the record. -/
def State.relocate (s : State) (unit page : Nat) : State :=
  let e := sget s.flash.map unit
  if e.page = 0 ∨ s.flash.moving unit ∨ !(s.flash.pageFree page) then s
  else
    ((s.setFlash (fun f => { f with
      pages := ins f.pages page { (sget f.pages (e.page - 1)) with copy := true }
      waiting := f.waiting ++ [.relocate unit (e.page - 1) page] })).setPblk (pageBlk page)
        (fun y => { y with st := .used })).count 0x6000 0x11 16384

/-- GC_UNIT_RELOCATE: while collection runs, or from a failing block. -/
def State.gcUnit (s : State) (unit page : Nat) (ok : Bool) : State :=
  let e := sget s.flash.map unit
  if !s.flash.mounted || e.page == 0 || !(s.gcRuns || (s.pblk (pageBlk (e.page - 1))).st == .failing) ||
      !(s.flash.pageFree page) then s
  else if !ok then (s.setPblk (pageBlk page) (fun y => { y with st := .used })).failBlk (pageBlk page)
  else s.relocate unit page

/-- GC_UNIT_RELOCATE. -/
def execGcUnitRelocate (unit page : Nat) (ok : Bool) (s : State) : Res := .next (s.gcUnit unit page ok).gcPriority

/-- ERASE_COMPLETE: a block is free again, or retired where the erase failed or its count is at `PE_LIMIT`. -/
def State.eraseComplete (s : State) (b : Nat) (ok : Bool) : State :=
  if (s.pblk b).st ≠ .erasing ∨ !s.flash.mounted then s
  else
    let t := (s.setPblk b (fun y => { y with
      st := .free, erases := y.erases + 1, reads := 0, susp := 0, cell := false })).setFlash (fun f => { f with
        pages := f.pages.filter (fun e => pageBlk e.1 != b), waiting := f.waiting ++ [.eraseDone b] })
    if !ok || decide (s.obj 0x6000 0xC ≤ (t.pblk b).erases) then t.retire b else t

/-- ERASE_COMPLETE. -/
def execEraseComplete (blk : Nat) (ok : Bool) (s : State) : Res := .next (s.eraseComplete blk ok).gcPriority

/-! ### Mount (R397, R406, R407, R413) -/

/-- What the loss of records makes of the blocks that they name: an erase that was not opened has not started, and one whose end is not
recorded is open (R407). -/
def Flash.undone (rs : List JRec) (f : Flash) : Flash :=
  rs.foldl (fun g r => match r with
    | .eraseOpen b => { g with blks := smod g.blks b (fun y => if y.st = .eraseOpen then { y with st := .used } else y) }
    | .eraseDone b => { g with
        blks := smod g.blks b (fun y => if y.st = .retired then y else { y with st := .erasing })
        pages := g.pages.filter (fun e => pageBlk e.1 != b) }
    | _ => g) f

/-- The tier after a power loss or module reset: media and what the journal holds stay; the buffer, the map,
and the records in FI's SRAM are gone, and a checkpoint being programmed may have landed. -/
def Flash.afterLoss (f : Flash) : Flash :=
  let of (r : JRec) : List (Nat × Nat) := match r with
    | .map u _ _ => [(4 * u, 4)]
    | .trim a n _ => [(a, n)]
    | _ => []
  Flash.undone f.waiting { f with
    tier := .unmounted, map := [], buf := [], waiting := [], cmds := [], queued := [], first := false
    lost := f.lost ++ f.buf.map (fun e => (e.1, 1)) ++ (f.waiting ++ f.flight).flatMap of }

/-- FLASH_MOUNT: the mount starts; not while the stages of a tenant switch or of the end of TEST run (R460, R463). -/
def execFlashMount (s : State) : Res :=
  .next (if s.flash.tier = .unmounted ∧ s.keys.stage = 0 ∧ [16, 17, 18, 19, 24].all s.isReady then
    s.setFlash (fun f => { f with tier := .mounting }) else s)

/-- Give a block that a power loss left open the content the media shows for it; that content has a place
outside the page numbers of R401. -/
def State.mixBlock (s : State) (key : Nat) (data : List Byte) : State :=
  let u := key / 4
  let page := 2 ^ 32 + u
  let g := s.unitPage u
  s.setFlash (fun f => { f with
    pages := ins f.pages page { g with data := g.data.set (key % 4) (some (xts false s.mediaKey (tweakOf key) data)) }
    map := ins f.map u ⟨page + 1, []⟩ })

/-- Replay and repair of a mount that can read its journal and snapshots. -/
def State.mountReplay (s : State) (replayed : Bool) (torn : List Nat) (mix : List (Nat × List Byte)) : State :=
  let rs := if replayed then s.flash.flight else []
  let s := s.setFlash (fun f => if replayed then { f with
    blks := smapAll f.blks (fun _ y => if y.st = .eraseOpen then { y with st := .erasing } else y) } else Flash.undone f.flight f)
  let m := rs.foldl replayRec s.flash.dmap
  let named (p : Nat) : Bool := m.any (fun e => e.2.page == p + 1)
  let orphans := (s.flash.pages.filter (fun e => e.2.copy && !named e.1)).length
  let opened := (s.flash.blks.filter (fun e => e.2.st == .erasing)).length
  let lost := s.flash.lost
  let t := s.setFlash (fun f => { f with
    map := m, flight := [], lost := []
    pages := f.pages.filter (fun e => named e.1 || !(e.2.copy || torn.contains e.1))
    blks := smapAll f.blks (fun _ y => if y.st = .erasing then { y with suspect := true } else y) })
  let u := (t.count 0x6000 0x19 orphans).count 0x6000 0x16 opened
  let v := mix.foldl (fun w e =>
    if e.2.length = 4096 ∧ lost.any (fun r => decide (r.1 ≤ e.1) && decide (e.1 < r.1 + r.2)) then w.mixBlock e.1 e.2
    else w) u
  v.setFlash (fun f => { f with dmap := f.map })

/-- FLASH_MOUNT_COMPLETE: `ok` tells whether the journal and the snapshots could be read, `replayed` whether the
checkpoint that was being programmed is found whole, `torn` the pages that fail the read-verify, and `mix` the
content that the media shows for blocks whose writes were lost in part. -/
def State.mountComplete (s : State) (ok : Bool) (ms : Nat) (replayed : Bool) (torn : List Nat)
    (mix : List (Nat × List Byte)) : State :=
  if s.flash.tier ≠ .mounting then s
  else if !ok then
    ((s.setFlash (fun f => { f with tier := .failed })).setObj 0x6000 0xE ms).event .operator 0x0D02 0 0 0
  else
    let t := (s.mountReplay replayed torn mix).setObj 0x6000 0xE ms
    let ro := t.flash.worn || decide (t.flash.spare < Config.spareFloor)
    (t.setFlash (fun f => { f with tier := if ro then .readOnly else .rw, worn := ro })).setFn 5 true

/-- FLASH_MOUNT_COMPLETE. -/
def execFlashMountComplete (ok : Bool) (ms : Nat) (replayed : Bool) (torn : List Nat) (mix : List (Nat × List Byte))
    (s : State) : Res :=
  .next (s.mountComplete ok ms replayed torn mix)

/-! ### Scans, wear and rebuild (R410–R412, R414) -/

/-- Relocate units, each to a page of its own. -/
def State.relocateAll (s : State) (units dest : List Nat) : State :=
  (units.zip dest).foldl (fun t e => t.relocate e.1 e.2) s

/-- The units mapped into blocks that a predicate selects. -/
def Flash.unitsIn (f : Flash) (p : Nat → Bool) : List Nat :=
  (f.map.filter (fun e => e.2.page != 0 && p (pageBlk (e.2.page - 1)))).map Prod.fst

/-- COLUMN_SCAN: a column reads stuck at one value in the calibration pages of `stuck`, and the pattern requires
the opposite in one of them. -/
def State.columnScan (s : State) (col : Nat) (stuck : List Nat) (opposite : Bool) (dest : List Nat) : State :=
  match stuck.eraseDups with
  | [] => s
  | b :: bs =>
    let g := blkGroup b
    let cs := sget s.flash.cols g
    if !s.background || !s.flash.mounted || !opposite || bs.any (fun x => blkGroup x != g) || cs.contains col then s
    else if bs = [] then s.setPblk b (fun y => { y with cell := true })
    else
      let us := s.flash.unitsIn (fun x => blkGroup x == g)
      if cs.length < 32 then
        ((s.setFlash (fun f => { f with
          cols := ins f.cols g (cs ++ [col]), waiting := f.waiting ++ [.columnSkip g col] })).count 0x6000 0x17 1).relocateAll us dest
      else ((List.range 128).foldl (fun t i => t.failBlk (g * 128 + i)) s).relocateAll us dest

/-- COLUMN_SCAN. -/
def execColumnScan (col : Nat) (stuck : List Nat) (opposite : Bool) (dest : List Nat) (s : State) : Res :=
  .next (s.columnScan col stuck opposite dest)

/-- READ_DISTURB_SCAN: a block read 100,000 times since its erase, or one with a cell fault, is verified. -/
def State.readDisturb (s : State) (b : Nat) (weak : Bool) (dest : List Nat) : State :=
  let y := s.pblk b
  if !s.background || !s.flash.mounted || !(decide (100000 ≤ y.reads) || y.cell) || !weak then s
  else
    let us := s.flash.unitsIn (fun x => x == b)
    (s.relocateAll us dest).count 0x6000 0x1A us.length

/-- READ_DISTURB_SCAN. -/
def execReadDisturbScan (blk : Nat) (weak : Bool) (dest : List Nat) (s : State) : Res :=
  .next (s.readDisturb blk weak dest)

/-- The erase counts of live blocks: lowest and highest. -/
def Flash.eraseSpread (f : Flash) : Nat × Nat :=
  let live := (f.blks.filter (fun e => e.2.st != .retired)).map (fun e => e.2.erases)
  (if f.blks.length < flashBlocks then 0 else live.foldl min (live.headD 0), live.foldl max 0)

/-- WEAR_LEVEL: cold units move into blocks erased more often than their own. -/
def State.wearLevel (s : State) (units dest : List Nat) : State :=
  let r := s.flash.eraseSpread
  if !s.background || !s.flash.mounted || decide (r.2 - r.1 ≤ s.obj 0x6000 0xA) then s
  else (units.zip dest).foldl (fun t e =>
    if (t.pblk (pageBlk ((sget t.flash.map e.1).page - 1))).erases < (t.pblk (pageBlk e.2)).erases then
      t.relocate e.1 e.2 else t) s

/-- WEAR_LEVEL. -/
def execWearLevel (units dest : List Nat) (s : State) : Res := .next (s.wearLevel units dest)

/-- MAP_REBUILD: an uncorrectable sector of the reserve. A map segment is rebuilt without loss; the blocks of the
write buffer that it held become unreadable and their owners are told. -/
def State.mapRebuild (s : State) (seg : Option Nat) (lost : List Nat) : State :=
  if !s.flash.mounted then s
  else
    let t := if seg.isSome then s.count 0x6000 0x1C 1 else s
    lost.foldl (fun u k =>
      if u.flash.buf.any (fun e => e.1 == k) then
        (u.setFlash (fun f => { f with buf := smod f.buf k (fun b => { b with bad := true }) })).event
          (.slice (u.vol (k / 2 ^ 34)).owner) 0x0D03 (k / 2 ^ 34) (k % 2 ^ 34) 1
      else u) t

/-- MAP_REBUILD. -/
def execMapRebuild (seg : Option Nat) (lost : List Nat) (s : State) : Res := .next (s.mapRebuild seg lost)

end Sys2Proof.Machine
end

