-- ==== Sys2Proof/Machine/Resets.lean ====
section
/-!
DEFINITION. Resets and the pins that cause them: the module reset (Table 1-10), power and sideband signals
(chapter 19), reference clocks and cables, island resets (R38, R39) and the host's resets (R425).
-/
namespace Sys2Proof.Machine

/-! ### Module reset (Table 1-10, R48, R450, R529) -/

/-- The key store after a module reset: both copies of the record stay, and a staged operator key is committed
(R450). -/
def Keys.afterReset (k : Keys) : Keys :=
  let r : Keys := { (default : Keys) with copyA := k.copyA, copyB := k.copyB, times := List.replicate 6 0 }
  match k.nextOpk with
  | some o => r.commit { r.record with opk := some o }
  | none => r

/-- The event recorder after a module reset: its memory in MGI is kept, and fails its check where power was lost (R529). -/
def State.recorderAfter (s : State) (loss : Bool) : Recorder :=
  { s.rcd with
    accOk := s.rcd.accOk && !loss, freeze := false, sel := none
    lastTick := if s.pins.inReset then s.rcd.lastTick else s.mod.tick }

/-- The start of a module reset; `loss`: by loss of power. Flash media, NOR contents, the key store's records, the recorder
and the pins stay; everything else takes its reset value, with every island OFF. -/
def State.moduleReset (s : State) (loss : Bool) : State :=
  let t := s.stageLost
  { State.reset with
    pins := { s.pins with inReset := true }
    mod := { State.reset.mod with islands := State.reset.mod.islands.map (fun i => { i with istate := .off }) }
    keys := s.keys.afterReset
    nor := { t.nor with retired := t.nor.retired.map (fun r => (r.1, false)) }
    rcd := s.recorderAfter loss
    flash := s.flash.afterLoss
    ckpt := { State.reset.ckpt with copies := s.ckpt.copies }
    sent := s.sent
    fresh := s.fresh
    pending := s.pending }

/-- The release of `PERST_N` that ends a module reset (R539, Table 19-7 step 5): `MODULE_ID` is sampled, BOOT begins, and MGI
and HI start their self-tests. -/
def State.resetEnd (s : State) (id : Nat) : State :=
  let start (i : Island) : Island := { i with istate := .selftest }
  let t := ({ s with pins := { s.pins with perst := true, inReset := false } }).setIsland 25 start
  ((t.setIsland 23 start).setNor (fun n => { n with boots := satAdd (2 ^ 32 - 1) n.boots 1 })).setObj 0x1018 4 id

/-! ### Power and sideband pins (R536, R543, R544) -/

/-- Change the pins. -/
def State.setPins (s : State) (f : Pins → Pins) : State := { s with pins := f s.pins }

/-- The regulators are off (R536): a power loss. -/
def State.powerLoss (s : State) : State :=
  (s.setPins (fun p => { p with regs := false, rails := false, pwrOk := false })).moduleReset true

/-- VIN_RISE: the regulators start, unless the latch of a thermal trip holds them off. -/
def execVinRise (s : State) : Res :=
  .next (s.setPins (fun p => { p with bias := true, regs := !p.thermtrip }))

/-- VIN_FALL. -/
def execVinFall (s : State) : Res := .next s.powerLoss

/-- SIDEBAND_BIAS_LOSS: `VIN` is below 20 V; the latch of `THERMTRIP_N` lets go. -/
def execSidebandBiasLoss (s : State) : Res :=
  let t := if s.pins.regs then s.powerLoss else s
  .next (t.setPins (fun p => { p with bias := false, thermtrip := false }))

/-- PWR_OK_RISE: every rail is in tolerance; the module waits in reset for `PERST_N`. -/
def execPwrOkRise (s : State) : Res :=
  .next (if s.pins.regs then
      (if s.pins.inReset then s else s.moduleReset false).setPins (fun p => { p with rails := true, pwrOk := true })
    else s)

/-- RAIL_TOLERANCE_LOSS: `PWR_OK` goes low. -/
def execRailToleranceLoss (s : State) : Res :=
  .next (s.setPins (fun p => { p with rails := false, pwrOk := false }))

/-- PERST_N_ASSERT: a module reset while `PWR_OK` is high; established connections send RESET (R326). -/
def execPerstNAssert (s : State) : Res :=
  let t := s.setPins (fun p => { p with perst := false })
  .next (if s.pins.pwrOk ∧ !s.pins.inReset then t.dropAllConns.moduleReset false else t)

/-- PERST_N_RELEASE: ignored while the regulators are off (R544). -/
def execPerstNRelease (id : BitVec 4) (s : State) : Res :=
  let t := s.setPins (fun p => { p with perst := true })
  .next (if s.pins.inReset ∧ s.pins.pwrOk then t.resetEnd id.toNat else t)

/-- PERST_N_DEEMED_RELEASE (R543): `PERST_N` was high as `PWR_OK` rose. -/
def execPerstNDeemedRelease (id : BitVec 4) (s : State) : Res :=
  .next (if s.pins.perst ∧ s.pins.inReset ∧ s.pins.pwrOk then s.resetEnd id.toNat else s)

/-- A thermal trip (R515, R543): `THERMTRIP_N` is latched and the regulators switch off. -/
def State.thermalTrip (s : State) : State := s.powerLoss.setPins (fun p => { p with thermtrip := true })

/-- THERMAL_SAMPLE (R513–R515, R544): `t` in hundredths of a degree; sensors run while the rails are in tolerance. -/
def execThermalSample (n : Fin 26) (t : Int) (s : State) : Res :=
  .next (if !s.pins.rails then s else if 12500 ≤ t then s.thermalTrip else s.thermal n.val t)

/-! ### Host resets (R425, R426, Table 14-4) -/

/-- A function as the host's enumeration finds it. -/
def PciFn.reset : PciFn := ⟨false, false, false, false, [], []⟩

/-- Put every queue of a slice in HALTED, completions of commands in progress following R426. -/
def State.haltAll (s : State) (sl : Nat) : State :=
  s.setSlice sl (fun x => { x with queues := smapAll x.queues (fun _ q => { q with halted := true, held := none }) })

/-- The jobs that exist take a job fault (R374). -/
def State.faultJobs (s : State) : State := (s.ckpt.jobs.map Prod.fst).foldl (fun t sl => t.jobFault sl) s

/-- Slices that a host reset finds alive. -/
def State.hostSlices (s : State) : List Nat := s.sliceIds.filter (fun n => decide ((s.slice n).st ≠ .destroying))

/-- A hot reset or the link going down (Table 14-4). -/
def State.hostReset (s : State) : State :=
  let ids := s.hostSlices
  let t := (ids.foldl State.haltAll s).abortLaunches (fun l => ids.contains l.slice)
  let u := ((t.abortQueues (fun q => ids.contains q.slice.val)).abortConns ids.contains).faultJobs
  let v := ids.foldl (fun w sl => (w.abortFreeze sl).setSlice sl (fun x => { x with
    hello := false, queues := drop1 (smapAll x.queues (fun _ q => { q with halted := true, held := none, inflight := 0, ending := false })) 0 })) u
  (v.admReset.mbxReset).setHost (fun h => { h with
    up := false, power := .l0, l1Enable := false, l11Enable := false, l12Enable := false, l0pEnable := false, ats := false, atsCache := []
    pf0 := PciFn.reset, pf1 := PciFn.reset, reqs := [], invals := [] })

/-- PCIE_HOT_RESET. -/
def execPcieHotReset (s : State) : Res := .next s.hostReset

/-- PCIE_LINK_DOWN. -/
def execPcieLinkDown (s : State) : Res := .next s.hostReset

/-- FLR_PF0: the admin rings and the mailbox reset; jobs take a job fault (R374). -/
def execFlrPf0 (s : State) : Res :=
  .next ((s.admReset.mbxReset.setHost (fun h => { h with pf0 := PciFn.reset })).faultJobs)

/-- FLR_PF1: every slice is destroyed under R433; commands of the admin ring that wait on a slice end with SL_ABORTED. -/
def execFlrPf1 (s : State) : Res :=
  .next ((s.hostSlices.foldl State.sliceTear s).setHost (fun h => { h with pf1 := PciFn.reset, ats := false, atsCache := [] }))

/-! ### Clocks and cables (R532, R542) -/

/-- REFCLK100_LOSS: the PCIe link goes down, as at a hot reset. -/
def execRefclk100Loss (s : State) : Res := .next (s.hostReset.setPins (fun p => { p with ref100 := false }))

/-- REFCLK100_RETURN: the link trains again, which PCIE_LINK_TRAINED reports. -/
def execRefclk100Return (s : State) : Res := .next (s.setPins (fun p => { p with ref100 := true }))

/-- REFCLK156_LOSS: every Epjor port that is not DISABLED goes DOWN, and every Ethernet logical port down. -/
def execRefclk156Loss (s : State) : Res :=
  let t := (List.range 8).foldl (fun u p => if (u.port p).st = .disabled then u else u.leavePort p 4 .down) s
  .next (((List.range 32).foldl State.ethDown t).setPins (fun p => { p with ref156 := false }))

/-- REFCLK156_RETURN. -/
def execRefclk156Return (s : State) : Res := .next (s.setPins (fun p => { p with ref156 := true }))

/-- CABLE_MATE: the cable is fitted; its ports train by their own steps. -/
def execCableMate (k : Fin 12) (s : State) : Res :=
  .next (s.setPins (fun p => { p with cables := setBit p.cables k.val true }))

/-- CABLE_UNMATE (Table 19-8): the Epjor port, or the logical ports of two Ethernet ports. -/
def execCableUnmate (k : Fin 12) (s : State) : Res :=
  let t := s.setPins (fun p => { p with cables := setBit p.cables k.val false })
  .next (if k.val < 8 then
      (if (t.port k.val).usable then t.leavePort k.val 4 .down else t)
    else (List.range 8).foldl (fun u i => u.ethDown (8 * (k.val - 8) + i)) t)

/-! ### Island reset (R38, R39) -/

/-- Strait x goes down (R21, R22): the island that can no longer do without it leaves service, and the unfinished chunks of a
tensor island move (R212). -/
def State.straitDown (s : State) (x : Nat) : State :=
  let n := (straitEnds x).1
  let t := s.straitDead x
  if t.mustLeave x then (let u := t.outOfService n; if n < 16 then u.moveChunks n else u) else t

/-- STRAIT_RETRANSMIT (R20, R21): after three failures of one unit in a row the strait is down; else the retransmission of the
oldest failed copy is counted for the sender. -/
def State.straitRetransmit (s : State) (x : Nat) (toMi : Bool) : State :=
  let d := (s.strait x).dir toMi
  if !(s.straitOpen x) then s
  else if d.copies.any (fun c => decide (3 ≤ c.fails)) then s.straitDown x
  else if d.copies.any (fun c => decide (c.fails ≠ 0)) then
    let tx := if toMi then (straitEnds x).1 else (straitEnds x).2
    (s.count (0x2000 + tx) 0x0F 1).bin 6 (8 + tx) 1
  else s

/-- STRAIT_RETRANSMIT. -/
def execStraitRetransmit (x : Fin 104) (toMi : Bool) (s : State) : Res :=
  .next (s.straitRetransmit x.val toMi)

/-- Island n owns the dictionary objects whose pending writes are lost with its reset (R48). -/
def ownedBy (n idx : Nat) : Bool :=
  match islandKind n with
  | 2 => (decide (0x3000 ≤ idx) && decide (idx < 0x3300)) || idx == 0x2000 + n
  | 3 => (decide (0x3400 + 4 * (n - 21) ≤ idx) && decide (idx < 0x3404 + 4 * (n - 21))) ||
      (decide (0x3710 + 4 * (n - 21) ≤ idx) && decide (idx < 0x3714 + 4 * (n - 21))) || idx == 0x2000 + n
  | 4 => idx == 0xA000 || idx == 0x2000 + n
  | 5 => (decide (0x6000 ≤ idx) && decide (idx < 0x7000)) || idx == 0x2000 + n
  | _ => idx == 0x2000 + n


/-- The contents of stacked memory are lost (R40): no node's serialised copy is held in it, and every job starts an incident, from
which it restarts from checkpoint. -/
def State.lostMemory (s : State) : State :=
  (s.ckpt.jobs.map Prod.fst).foldl (fun t sl =>
    (t.setJob sl (fun j => { j with image := [], unread := [], buddy := j.buddy.map (fun _ => 0), buddyGen := 0, taking := false, verified := false })).jobFault sl) s

/-- The engine state of network island `ni` (0 or 1) is clear: virtual times and samples of its ports, shapers and meters. -/
def State.resetNi (s : State) (ni : Nat) : State :=
  s.setNet (fun n => { n with
    vtime := n.vtime.filter (fun e => e.1 / 16 != ni)
    samples := n.samples.filter (fun e => e.1 / 16 != ni)
    ss := n.ss.filter (fun e => e.1 / 512 != ni)
    meters := n.meters.filter (fun e => e.1 / 4096 != ni) })

/-- The part of an island's reset that its kind decides: SRAM, engines, and the work that ends (R38, R39, R40). -/
def State.resetKind (s : State) (n : Nat) : State :=
  match islandKind n with
  | 0 =>
    let hs := s.holders n
    let t := ((s.abortLaunches (fun l => l.island == n)).moveChunks n).clearSram (0x010000000000 + n * 0x4000000) 0x4000000
    let u := { t with seqs := drop1 t.seqs n, share := drop1 t.share n }
    hs.foldl (fun v sl => v.jobFault sl) (u.eventSlices hs 0x0104 n (u.island n).resets 0)
  | 1 =>
    let m := n - 16
    let t := (s.zeroRange 0 0x00C000000000).clearSram (0x010100000000 + m * 0x400000) 0x400000
    let u := { t with
      seqs := t.seqs.filter (fun e => decide (e.1 < 17 + 8 * m) || decide (25 + 8 * m ≤ e.1)), routes := [], routeCache := []
      host := t.host.noTables }
    (((u.setFlash Flash.afterLoss).setFn 5 false).optReset m).lostMemory
  | 2 =>
    let t := (s.groups.map Prod.fst).foldl State.dropGroup { s with routeCache := [] }
    (List.range 8).foldl (fun u p => u.leavePort p (u.port p).cause .disabled) t
  | 3 => (((List.range 16).foldl (fun u i => u.ethDown (16 * (n - 21) + i)) s).abortNi (n - 21)).resetNi (n - 21)
  | 4 => s.hostReset
  | 5 => ((s.abortStor (fun _ => true)).setFlash Flash.afterLoss).setFn 5 false
  | _ => s

/-- An island reset (R38). A memory island outside RECOVERY fails first as an uncorrectable fault does (Table 1-9). -/
def State.islandReset (s : State) (n : Nat) : State :=
  let s0 := if islandKind n = 1 ∧ s.mod.svc ≠ .recovery then s.fatalFault else s
  if islandKind n = 1 ∧ s0.mod.svc ≠ .recovery then s0
  else
    let t := (s0.clearReady n .resetting).setIsland n (fun i => { i with resets := satAdd (2 ^ 32 - 1) i.resets 1, risen := false })
    let u := (t.parkStraits n).setDict (fun d => { d with pend := d.pend.filter (fun w => !(ownedBy n (w.key / 256)) || w.bnd == .boot || w.bnd == .switch) })
    ({ u with mod := { u.mod with resetReq := setBit u.mod.resetReq n false } }).resetKind n

/-- ISLAND_RESET, by the firmware on an uncorrectable fault of the island. -/
def execIslandReset (n : Fin 26) (s : State) : Res :=
  .next (let i := s.island n.val
    if s.fwRuns ∧ n.val ≠ 25 ∧ (i.istate = .ready ∨ i.istate = .failed) then s.islandReset n.val else s)

end Sys2Proof.Machine
end

