-- ==== Sys2Proof/Machine/DictView.lean ====
section
/-!
DEFINITION. What the objects of the dictionary read as (R42–R44, and the object tables of every chapter): values
computed from the state, values held in the dictionary's store, and pending values (R45).
-/
namespace Sys2Proof.Machine

/-! ### Rows, types and existence (Table 2-1, R43, R53) -/

/-- The rows of an index. -/
def rowsOf (idx : Nat) : List ObjRow := objRows.filter (fun r => decide (r.base ≤ idx) && decide (idx < r.base + r.count))

/-- Whether an object lies at an index in any service state. -/
def objExists (idx : Nat) : Bool := !(rowsOf idx).isEmpty

/-- Whether an object is a RECORD: it has members. -/
def isRecord (idx : Nat) : Bool := (rowsOf idx).any (fun r => r.sub != 0)

/-- The highest member subindex of a RECORD, which its subindex 00 reads as (R43). -/
def highSub (idx : Nat) : Nat := ((rowsOf idx).map (fun r => r.sub + r.subs - 1)).foldl max 0

/-- The type code and the size in bytes of a type (Table 2-1). -/
def OType.code : OType → Nat
  | .u n => if n = 1 then 1 else if n = 2 then 2 else if n = 4 then 3 else 4
  | .i32 => 5
  | .bool => 6
  | .enum => 7
  | .octets _ => 8
  | .str _ => 9
def OType.size : OType → Nat
  | .u n => n
  | .i32 => 4
  | .bool => 1
  | .enum => 1
  | .octets n => n
  | .str n => n

/-- The row of subindex 00 of a RECORD. -/
def subZero (idx : Nat) : ObjRow := ⟨idx, 1, 0, 1, .u 1, .ro, highSub idx, .none, 0, 255⟩

/-- The row of an object; none answers NOSUB. `RESET_CMD` is absent for MGI; a FREE slice has `:01` alone (R444). -/
def State.rowAt (s : State) (idx sub : Nat) : Option ObjRow :=
  let freeSlice := decide (0xA100 ≤ idx) && decide (idx < 0xA300) && !s.sliceExists (idx - 0xA100)
  if sub = 0 ∧ isRecord idx then (if freeSlice then none else some (subZero idx))
  else if idx = 0x2019 ∧ sub = 0xC then none
  else if freeSlice ∧ sub ≠ 1 then none
  else if idx = 0x9000 ∧ sub = 2 ∧ !s.sliceExists (s.obj 0x9000 1 % 512) then none
  else findRow idx sub

/-- The record that a selector names for the objects reached through one. -/
def State.selOf (s : State) (idx sub : Nat) : Nat :=
  if idx = 0x3700 ∧ sub = 2 then s.qSel
  else if idx = 0x3700 ∧ sub = 5 then s.ssSel
  else if idx = 0x3800 ∧ sub = 2 then s.obj 0x3800 1
  else if idx = 0x6100 ∧ sub = 2 then s.obj 0x6100 1
  else 0

/-! ### Computed values by chapter -/

/-- Codes of the service states (object `1020`). -/
def Service.code : Service → Nat
  | .boot => 0 | .bringup => 1 | .normal => 2 | .test => 3 | .recovery => 4 | .switching => 5
def IState.code : IState → Nat
  | .off => 0 | .selftest => 1 | .ready => 2 | .failed => 3 | .resetting => 4

/-- Island descriptors (Table 1-2): what changes is shown as of the last management tick (R13). -/
def State.viewIsland (s : State) (n sub : Nat) : Option Nat :=
  let i := s.mod.shown.getD n default
  let c := islandClock n
  match sub with
  | 1 => some (islandKind n)
  | 2 => some (if n < 16 then n else if n < 20 then n - 16 else if n = 21 ∨ n = 22 then n - 21 else 0)
  | 3 => some c.1
  | 4 => some i.clk
  | 5 => some c.2.1
  | 6 => some c.2.2
  | 7 => some (b2n i.ready)
  | 8 => some i.istate.code
  | 9 => some i.straits
  | 0xA => some i.resets
  | 0xB => some i.code
  | 0xD => some (i.counts.getD 0 0)
  | 0xE => some (i.counts.getD 1 0)
  | 0xF => some (i.counts.getD 2 0)
  | 0x17 => some (i.counts.getD 3 0)
  | _ => none

/-- Identity, state and readiness (Table 2-5). -/
def State.viewIdentity (s : State) (idx sub : Nat) : Option Nat :=
  let v := bankVersion s.bootedBank (if idx = 0x100A then 8 else 12)
  match idx, sub with
  | 0x100A, 4 => some (b2n s.firm.bootedB)
  | 0x100A, n | 0x100B, n => some (if n = 1 then v / 2 ^ 24 else if n = 2 then bits v 23 16 else v % 65536)
  | 0x1010, 1 => some s.mod.readyCopy
  | 0x1010, 2 => some s.mod.fns
  | 0x1018, 3 => some Config.serial
  | 0x1020, _ => some s.mod.svc.code
  | 0x1030, _ => some s.mod.tick
  | 0x1048, 1 => some Config.mgmtMac
  | _, _ => none

def LinkState.code : LinkState → Nat
  | .disabled => 0 | .detect => 1 | .equalise => 2 | .align => 3 | .config => 4 | .active => 5 | .retrain => 6 | .down => 7

/-- Epjor ports, switch and collectives (Tables 8-9, 9-x). -/
def State.viewSwitch (s : State) (idx sub : Nat) : Option Nat :=
  if idx < 0x3008 then
    let x := s.port (idx - 0x3000)
    match sub with
    | 1 => some x.st.code
    | 4 => some x.lanes
    | 9 => some x.cause
    | 0xA => some x.tags.length
    | _ => none
  else match idx, sub with
    | 0x3100, 3 => some (((List.range 256).map (fun i => look 0 s.routes (s.obj 0x3100 2 + i) * 2 ^ (32 * i))).sum)
    | 0x3100, 4 => some s.routeValid
    | 0x3200, 2 => some s.groupsActive
    | 0x3200, 0xB => some ((s.groups.map (fun e => e.2.staged)).sum)
    | _, _ => none

/-- The entry that `CLS_READ_INDEX` names, in the layout of `CLS_WRITE` with its hit counter behind it. -/
def State.clsRead (s : State) : Nat :=
  let i := s.obj 0x3600 5
  let e := sget s.net.cls i
  leNat (leBytes 4 i ++ leBytes 64 e.key ++ leBytes 64 e.mask ++ leBytes 8 e.action ++ leBytes 8 e.hits)

/-- `Q_STATS` of the selected queue. -/
def State.qStats (s : State) : Nat :=
  let v := s.obj 0x3700 1
  let l := bits v 13 11 * 4 + bits v 15 14
  let g := (s.txq l (bits v 10 0)).stat
  leNat ((List.range 6).flatMap (fun i => leBytes 4 (sat32 (g.latched.getD i 0))) ++ leBytes 4 (look 0 s.net.winLast l) ++
    leBytes 4 0 ++ leBytes 8 s.net.winEnd ++ leBytes 8 g.sent ++ leBytes 8 g.bytes ++ leBytes 8 g.discards)

/-- Scale-out and scheduling (Tables 10-x, 11-4). -/
def State.viewNet (s : State) (idx sub : Nat) : Option Nat :=
  if idx < 0x3408 then
    (if sub = 5 then some (bits s.net.up (4 * (idx - 0x3400) + 3) (4 * (idx - 0x3400))) else none)
  else match idx, sub with
    | 0x3500, 4 => some Config.macBase
    | 0x3500, 6 => some (131072 - s.net.conns.length)
    | 0x3500, 0xA => some (look 0 s.net.addrs (s.obj 0x3500 9))
    | 0x3600, 6 => some s.clsRead
    | 0x3700, 2 => some (s.qcfg (s.qSel / 2048) (s.qSel % 2048))
    | 0x3700, 3 => some s.qStats
    | 0x3700, 5 => some (s.sscfg s.ssSel)
    | 0x3700, 6 => some (unsigned 64 (s.ssBalance s.ssSel / 65536) + 2 ^ 64 * (sget s.net.ss s.ssSel).waits)
    | 0x3800, 2 => some (s.polcfg (s.obj 0x3800 1))
    | 0x3800, 3 => some (((List.range 6).map (fun i => look 0 s.net.polst (s.obj 0x3800 1 * 8 + i) * 2 ^ (64 * i))).sum)
    | _, _ => none

/-- Memory, KV cache manager, attention and optimizer (Tables 6-x, 7-x). -/
def State.viewMem (s : State) (idx sub : Nat) : Option Nat :=
  if 0x4010 ≤ idx ∧ idx < 0x4014 then
    let m := idx - 0x4010
    match sub with
    | 3 => some (s.poison.filter (fun e => inStacks (e.1 * 64) && miOf (e.1 * 64) == m)).length
    | 6 => some (((List.range 4).map (fun l => (match (s.mi m).stackSt.getD l .ok with
        | .ok => 0 | .retraining => 1 | .failed => 2) * 16 ^ l)).sum)
    | _ => none
  else if 0x4210 ≤ idx ∧ idx < 0x4214 then
    let x := s.mi (idx - 0x4210)
    match sub with
    | 1 => some (b2n x.doubled)
    | 2 => some x.cleanRun
    | 4 => some (x.scrubPos * 100 / (48 * 2 ^ 30))
    | _ => none
  else match idx, sub with
    | 0x4000, 3 => some s.poolBytes
    | 0x4000, 4 => some (s.poolBytes - s.usedFrames.length * 0x200000)
    | 0x4000, 5 => some s.nor.retired.length
    | 0x4100, 2 => some (262144 - (s.kv.seqs.filter (fun e => e.2.live)).length)
    | 0x4100, 3 => some (s.kv.blocks.filter (fun e => e.2.loc == .hbm || e.2.loc == .demoting)).length
    | 0x4100, 4 => some (s.kv.blocks.filter (fun e => e.2.loc == .flash || e.2.loc == .fetching || e.2.loc == .fetched)).length
    | 0x4140, 1 => some s.attends.length
    | 0x4300, 2 => some s.opt.sets.length
    | 0x4300, 0xA => some s.opt.kernels.length
    | _, _ => none

/-- The census of a job (`5100:04`). -/
def Job.census (j : Job) : List Byte :=
  leBytes 4 j.incident ++ leBytes 4 j.view.side.length ++ leBytes 4 j.nodes.length ++ leBytes 1 j.decision ++ leBytes 3 0 ++
    leBytes 8 j.restoreGen ++ leBytes 4 j.missing.length ++ leBytes 4 0

/-- The manifest that `MAN_SELECT` names: its first 64 bytes, or zeros. -/
def State.manHeader (s : State) : List Byte :=
  let v := s.obj 0x5200 1
  let j := s.job (v % 512)
  let area := bits v 10 9
  if j.st = .none then []
  else if area = 0 then (if j.buddyGen = 0 then [] else j.buddy.take 64)
  else if area = 3 then []
  else match s.ckpt.copies.find? (fun c => c.job == j.id && c.pred == decide (area = 2) && c.slotB == bit v 11) with
    | some c => (s.copyData c).take 64
    | none => []

/-- Checkpoint control (Table 12-10 and the objects of chapter 12). -/
def State.viewCkpt (s : State) (idx sub : Nat) : Option Nat :=
  let j := s.job (s.obj 0x5000 5 % 512)
  match idx, sub with
  | 0x5000, 6 => some (leNat j.bytesOf)
  | 0x5000, 0xC => some (s.ckpt.jobs.length * 0x4000000)
  | 0x5100, 4 => some (leNat j.census)
  | 0x5100, 7 => some (leNat ((List.range 256).flatMap (fun i => leBytes 4 (j.missing.getD (s.obj 0x5100 6 + i) 0xFFFFFFFF))))
  | 0x5200, 2 => some (leNat s.manHeader)
  | _, _ => none

/-- The `VOL_CONFIG` record of a volume. -/
def Volume.record (x : Volume) : Nat := x.size + 2 ^ 64 * x.owner + 2 ^ 80 * b2n x.valid + 2 ^ 81 * b2n x.ro

/-- The flash tier (Table 13-5). -/
def State.viewFlash (s : State) (idx sub : Nat) : Option Nat :=
  let v := s.obj 0x6100 1
  let x := s.vol v
  match idx, sub with
  | 0x6000, 3 => some s.flash.tier.code
  | 0x6000, 6 => some (s.obj 0x6000 2 - s.obj 0x6000 4 - s.obj 0x6000 5)
  | 0x6000, 7 => some (s.flash.buf.length * 4096)
  | 0x6000, 8 => some s.flash.spare
  | 0x6000, 0xD => some (((s.flash.blks.filter (fun e => e.2.st != .retired)).map (fun e => e.2.erases)).foldl max 0)
  | 0x6100, 2 => some x.record
  | 0x6100, 3 => some (leNat (leBytes 8 (s.volWritten v) ++ leBytes 8 x.hostWr ++ leBytes 8 x.rd ++
      leBytes 4 (s.flash.cmds.filter (fun c => c.vol == v)).length))
  | 0x6100, 4 => some (s.flash.vols.filter (fun e => e.2.valid)).length
  | _, _ => none

/-- Compartment, key hierarchy and tenant switch (Table 15-x). -/
def State.viewKeys (s : State) (idx sub : Nat) : Option Nat :=
  let r := s.keys.setup.getD default
  match idx, sub with
  | 0x7000, 1 => some r.compId
  | 0x7000, 2 => some r.name
  | 0x7000, 3 => some (match r.cs with | some c => if r.compId = 0 then 0 else checkValue c r.compId | none => 0)
  | 0x7000, 4 => some r.epoch
  | 0x7000, 5 => some s.keys.entered
  | 0x7000, 6 => some (b2n s.keys.latch)
  | 0x7100, 1 => some 1
  | 0x7100, 2 => some ((r.opk.map opkId).getD 0)
  | 0x7100, 3 => some (b2n r.cs.isSome)
  | 0x7100, 4 => some (b2n r.media.isSome)
  | 0x7100, 5 => some (b2n s.keys.rngBad)
  | 0x7100, 6 => some s.slotsActive
  | 0x7200, 3 => some ((s.keys.secret.map Prod.fst).getD 0)
  | 0x7200, 4 => some ((s.keys.secret.map (fun x => checkValue x.2 x.1)).getD 0)
  | 0x7200, 8 => some (if s.mod.svc = .switching then s.keys.stage else 0)
  | 0x7200, 9 => some (leNat (s.keys.times.flatMap (leBytes 4)))
  | _, _ => none

/-! ### Power and temperature, coarsened for MANAGER and BMC (R464) -/

/-- Module power rounded down to 50 W of the last second's mean. -/
def State.powerW (s : State) : Nat := s.pow.secMean / 50 * 50

/-- The hottest island in hundredths of a degree, as of the last tick. -/
def State.tjHot (s : State) : Int := (List.range 26).foldl (fun m n => max m (s.island n).tjShown) (s.island 0).tjShown

/-- A temperature as a role sees it: rounded down to 5 °C where coarse. -/
def tempAs (coarse : Bool) (t : Int) : Nat := unsigned 32 (if coarse then t / 500 * 500 else t)

/-- The hottest island in °C, in 5 °C steps. -/
def State.tjC (s : State) : Nat := unsigned 8 (s.tjHot / 500 * 5)

/-- Power and thermal objects (Table 17-4). -/
def State.viewPower (s : State) (coarse : Bool) (idx sub : Nat) : Option Nat :=
  if 0x8210 ≤ idx ∧ idx < 0x822A then
    let i := s.island (idx - 0x8210)
    if sub = 1 then some (tempAs coarse i.tjShown) else if sub = 2 then some (tempAs coarse i.peak) else none
  else match idx, sub with
    | 0x8000, 2 => some (if coarse then s.powerW else s.modulePower)
    | 0x8000, 3 => some (leNat ((List.range 4).flatMap (fun i =>
        leBytes 4 (if coarse then s.pow.clsMean.getD i 0 / 50 * 50 else s.classPower.getD i 0))))
    | 0x8000, 4 => some s.pow.capState
    | 0x8000, 5 => some s.pow.duty
    | 0x8000, 6 => some s.pow.memLimit
    | 0x8000, 8 => some (s.rail 0).mv
    | 0x8200, 3 => some (((List.range 26).map (fun n => b2n (s.island n).throttled * 2 ^ n)).sum)
    | 0x8200, 4 => some (tempAs coarse s.tjHot)
    | 0x8200, 5 => some s.pow.alert
    | _, _ => none

/-- `TIME_US`, rounded down to 10 µs. -/
def State.timeUs (s : State) : Nat := s.net.now / 10000 * 10

/-- A usage counter of a slice as listed in Table 18-1: 0–22 from a store, 56–58 the device's. -/
def State.usage (s : State) (m : Store Nat) (i : Nat) : Nat :=
  if i = 56 then s.powerW else if i = 57 then s.tjC else if i = 58 then s.timeUs else if i ≤ 22 then look 0 m i else 0

/-- Telemetry and recorder (Table 18-6). -/
def State.viewTele (s : State) (idx sub : Nat) : Option Nat :=
  match idx, sub with
  | 0x9000, 2 => some (leNat ((List.range 64).flatMap (fun i =>
      leBytes 8 (s.usage (s.slice (s.obj 0x9000 1 % 512)).live i))))
  | 0x9100, 2 => some (b2n s.rcd.freeze)
  | 0x9100, 4 => some s.recCount
  | 0x9100, 5 => some s.nor.nextSeq
  | 0x9100, 7 | 0x9100, 8 | 0x9100, 9 | 0x9100, 0xA => some (match s.rcd.sel with
      | some r => leNat (bytesAt r.bytes ((sub - 7) * 1024) 1024)
      | none => 0)
  | 0x9200, 1 => some s.powerW
  | 0x9200, 2 => some s.tjC
  | _, _ => none

/-- Slice pool and slice descriptors (Table 14-10). -/
def State.viewSlices (s : State) (idx sub : Nat) : Option Nat :=
  if 0xA100 ≤ idx then
    let x := s.slice (idx - 0xA100)
    match sub with
    | 1 => some (sliceCode x.st)
    | 2 => some (leNat (Quota.bytes x.quota))
    | 3 => some x.memUsed
    | 4 => some x.queuesUsed
    | _ => none
  else match sub with
    | 2 => some s.sliceIds.length
    | 3 => some (s.poolBytes - s.reserved Quota.memBytes)
    | 4 => some (14336 - s.reserved Quota.queues)
    | 5 => some (131072 - s.obj 0x3500 7 - s.reserved Quota.conns)
    | 6 => some (262144 - s.reserved Quota.handles)
    | 7 => some (4096 - s.reserved Quota.keySlots)
    | 8 => some (2016 - s.reserved Quota.msix)
    | 9 => some (8192 - s.obj 0x3600 2 - s.reserved Quota.cls)
    | 0xA => some (leNat ((List.range 16).flatMap (fun n =>
        leBytes 1 (if (s.island n).istate = .failed then 0 else 64 - s.weightUsed n))))
    | 0xC => some s.linkStatus
    | _ => none

def StageState.code : StageState → Nat
  | .idle => 0 | .erasing => 1 | .loading => 2 | .verifying => 3 | .staged => 4 | .failed => 5
def BootPhase.code : BootPhase → Nat
  | .start => 0 | .keystore => 1 | .provisionWait => 2 | .verifyA => 3 | .verifyB => 4 | .setup => 5 | .firmware => 6 | .halted => 7

/-- The versions of a bank in one number; zero where it has no valid header (`B010:06`). -/
def bankU64 (b : Store Byte) : Nat :=
  if bankField b 0 4 = 0x4A584657 ∧ bankHeaderOk b then bankVersion b 8 * 2 ^ 32 + bankVersion b 12 else 0

/-- Firmware objects (Table 16-12). -/
def State.viewFirmware (s : State) (idx sub : Nat) : Option Nat :=
  match idx, sub with
  | 0xB000, 4 => some s.firm.stage.code
  | 0xB000, 5 => some s.firm.stageRes
  | 0xB010, 1 => some (b2n s.firm.bootedB)
  | 0xB010, 2 => some (b2n s.nor.prefB)
  | 0xB010, 3 => some s.nor.pendKind
  | 0xB010, 4 => some s.nor.stateA
  | 0xB010, 5 => some s.nor.stateB
  | 0xB010, 6 => some (bankU64 s.nor.bankA)
  | 0xB010, 7 => some (bankU64 s.nor.bankB)
  | 0xB010, 8 => some s.nor.svnMin
  | 0xB020, 1 => some Config.romVersion
  | 0xB020, 2 => some s.firm.phase.code
  | 0xB020, 3 => some s.firm.resA
  | 0xB020, 4 => some s.firm.resB
  | 0xB020, 6 => some s.nor.boots
  | _, _ => none

/-! ### Reading an object -/

/-- A value computed from the state; none where the dictionary's store holds it. -/
def State.computed (s : State) (coarse : Bool) (idx sub : Nat) : Option Nat :=
  if idx < 0x2000 then s.viewIdentity idx sub
  else if idx < 0x3000 then s.viewIsland (idx - 0x2000) sub
  else if idx < 0x3400 then s.viewSwitch idx sub
  else if idx < 0x4000 then s.viewNet idx sub
  else if idx < 0x5000 then s.viewMem idx sub
  else if idx < 0x6000 then s.viewCkpt idx sub
  else if idx < 0x7000 then s.viewFlash idx sub
  else if idx < 0x8000 then s.viewKeys idx sub
  else if idx < 0x9000 then s.viewPower coarse idx sub
  else if idx < 0xA000 then s.viewTele idx sub
  else if idx < 0xB000 then s.viewSlices idx sub
  else s.viewFirmware idx sub

/-- The value in force of an object. -/
def State.current (s : State) (coarse : Bool) (idx sub : Nat) : Nat :=
  if sub = 0 ∧ isRecord idx then highSub idx
  else match s.computed coarse idx sub with
    | some v => v
    | none => s.obj idx sub

/-- The pending value of an object, where one waits (R45, R47). -/
def State.pendingOf (s : State) (idx sub : Nat) : Option Nat :=
  ((s.dict.pend.filter (fun w => w.key == idx * 256 + sub && w.sel == s.selOf idx sub)).getLast?).map PendWrite.value

/-- What a read returns: the value, and whether it is pending (Table 2-2). -/
def State.view (s : State) (coarse : Bool) (idx sub : Nat) : Nat × Bool :=
  match s.pendingOf idx sub with
  | some v => (v, true)
  | none => (s.current coarse idx sub, false)

end Sys2Proof.Machine
end

