-- ==== Sys2Proof/Machine/DictCheck.lean ====
section
/-!
DEFINITION. The checks of a dictionary access in the order of R56: role (Table 2-7), existence, service state, access
right, lock, type, range and readiness, with the checks that each chapter sets for its objects.
-/
namespace Sys2Proof.Machine

/-! ### Precedence and reach (R53, R56, Table 2-7) -/

/-- Abort codes in the order in which R56 reports them: ROLE, NOOBJ, NOSUB, STATE, ACCESS, LOCKED, TYPE, RANGE, BUSY. -/
def abortOrder : List Nat := [9, 1, 2, 6, 3, 7, 5, 4, 8]

/-- The first cause of R56 among those that apply; 0 where none does. -/
def firstCause (causes : List Nat) : Nat := (abortOrder.find? causes.contains).getD 0

/-- Whether the role of a path reaches an index with a read or a write (Table 2-7). Writes of `7000`–`71FF` by OPERATOR go on
to the BL rules. -/
def reach (p : Path) (idx : Nat) (write : Bool) : Bool :=
  if within idx 0x1000 0x1FFF then
    (if idx = 0x1021 ∨ idx = 0x1048 then p == .odp || (p == .mbx && !write)
     else !write && (p != .i3c || decide (idx ≤ 0x1020)))
  else if within idx 0x2000 0x2FFF then p == .odp || (p == .mbx && !write)
  else if within idx 0x3000 0x6FFF then p != .i3c
  else if within idx 0x7000 0x71FF then p == .odp
  else if within idx 0x7200 0x7FFF then p == .odp || (p == .mbx && !write)
  else if within idx 0x8000 0x8FFF then p != .mbx || !write
  else if within idx 0x9000 0x91FF then p == .odp
  else if within idx 0x9200 0x9FFF then p == .odp || (p == .mbx && !write)
  else if within idx 0xA000 0xAFFF then p != .i3c
  else within idx 0xB000 0xBFFF && p == .odp

/-- What decides an access before its object is looked at: the test range (R50, R56), an index without an object, `B030` once
the firmware runs (R480), the role, and the subindex. None: the object's own row decides. -/
def State.preCode (s : State) (p : Path) (idx sub : Nat) (write : Bool) : Option Nat :=
  if 0xF000 ≤ idx then some (if s.mod.svc = .test then 1 else if p = .odp then 6 else 9)
  else if !(objExists idx) then some 1
  else if idx = 0xB030 then some (if (s.rowAt idx sub).isNone then 2 else 7)
  else if !(reach p idx write) then some 9
  else if (s.rowAt idx sub).isNone then some 2
  else none

/-- The code that the owning chapter gives to a read: a record of a logical port that the mode does not create (R357). -/
def State.ownRead (s : State) (idx sub : Nat) : Nat :=
  let v := s.obj 0x3700 1
  if idx = 0x3700 ∧ sub = 3 ∧ !(s.lportExists (bits v 13 11 * 4 + bits v 15 14)) then 4 else 0

/-- The code of a read; a WO object answers ACCESS (Table 2-2). -/
def State.readCode (s : State) (p : Path) (idx sub : Nat) : Nat :=
  match s.preCode p idx sub false with
  | some c => c
  | none => match s.rowAt idx sub with
    | some r => if r.acc = .wo then 3 else s.ownRead idx sub
    | none => 2

/-! ### Checks of the chapters -/

/-- The value that an object will hold once pending writes are applied. -/
def State.nextVal (s : State) (idx sub : Nat) : Nat := (s.view false idx sub).1

/-- `RESET_CMD` (R40): memory islands only in RECOVERY, never in SWITCHING or BOOT, BUSY while RESETTING. -/
def State.resetCheck (s : State) (n v : Nat) : Nat :=
  if islandKind n = 1 ∧ s.mod.svc ≠ .recovery then 6
  else if s.mod.svc = .switching ∨ s.mod.svc = .boot then 6
  else if v ≠ 1 then 4
  else if (s.island n).istate = .resetting then 8 else 0

/-- `STATE_REQUEST` (R32, R35, Table 1-9). -/
def State.stateReqCheck (s : State) (v : Nat) : Nat :=
  if v = 1 then (if s.mod.svc ≠ .normal ∨ s.mod.req.isSome ∨ s.sliceIds ≠ [] then 6 else 0)
  else if v = 2 then (if s.mod.svc ≠ .test ∨ s.mod.testEnding ∨ s.mod.req.isSome then 6 else 0)
  else 4

/-- `SWITCH_REQUEST` (R35, R454). -/
def State.switchCheck (s : State) (v : Nat) : Nat :=
  if s.mod.svc ≠ .normal ∨ s.mod.req.isSome then 6
  else if v ≠ 1 ∨ s.keys.secret.isNone then 4 else 0

/-- The record of volume `v` that waits for the tick, or the one in force. -/
def State.volNext (s : State) (v : Nat) : Nat := s.pendRec 0x6100 2 v (s.vol v).record

/-- The volumes that are valid or wait to be. -/
def State.volNumbers (s : State) : List Nat :=
  (s.flash.vols.map Prod.fst ++ (s.dict.pend.filter (fun w => w.key == 0x610002)).map PendWrite.sel).eraseDups

/-- The sum of the sizes of volumes with pending records counted, `x` standing for the record of volume `v`. -/
def State.volTotal (s : State) (v : Option Nat) (x : Nat) : Nat :=
  ((v.toList ++ s.volNumbers).eraseDups.map (fun n =>
    let r := if some n = v then x else s.volNext n
    if bit r 80 then bits r 63 0 else 0)).sum

/-- The capacity for volumes with pending values counted (R386). -/
def State.volSpaceNext (s : State) (kv ckpt : Nat) : Nat := s.obj 0x6000 2 - kv - ckpt

/-- `VOL_CONFIG` (R417). -/
def State.volCheck (s : State) (v x : Nat) : Nat :=
  let size := bits x 63 0
  let old := s.volNext v
  if size = 0 ∨ size % 2 ^ 30 ≠ 0 ∨ 511 < bits x 79 64 then 4
  else if bit x 80 ∧ bit old 80 ∧ size < bits old 63 0 then 4
  else if s.volSpaceNext (s.nextVal 0x6000 4) (s.nextVal 0x6000 5) < s.volTotal (some v) x then 4
  else 0

/-- `KV_SPACE` and `CKPT_SPACE` (R417): `a` and `b` are the two values as they would stand. -/
def State.spaceCheck (s : State) (v a b : Nat) : Nat :=
  let total := s.volTotal none 0
  if v % 2 ^ 30 ≠ 0 ∨ s.obj 0x6000 2 < a + b ∨ s.volSpaceNext a b < 2 ^ 40 ∨ s.volSpaceNext a b < total then 4 else 0

/-- A notice through `5000:01` (R362). -/
def State.noticeCode (s : State) (v : Nat) : Nat :=
  match s.noticeCheck (leBytes 16 v) with
  | 0 => 0
  | 3 => 8
  | _ => 4

/-- Whether a number is a power of two. -/
def isPow2 (v : Nat) : Bool := (List.range 64).any (fun i => v == 2 ^ i)

/-- Checks of the objects of chapters 1 and 8 to 11. -/
def State.checkNet (s : State) (op : Bool) (idx sub v : Nat) : Nat :=
  if idx < 0x3008 then
    (if sub = 5 then (if v = 1 ∨ v = 2 then 0 else 4)
     else if 0x20 ≤ sub then s.bindCheck (idx - 0x3000) (sub - 0x20) v else 0)
  else match idx * 256 + sub with
    | 0x310002 => if v % 256 ≠ 0 ∨ 2097152 ≤ v then 4 else 0
    | 0x310003 => routeCheck (leBytes 1024 v)
    | 0x320003 => if isPow2 v then 0 else 4
    | 0x360003 => s.clsWriteCheck op v
    | 0x360004 => s.clsValidCheck op v
    | 0x360005 => if 8192 ≤ v then 4 else 0
    | 0x370001 => if bits v 31 16 ≠ 0 then 4 else 0
    | 0x370002 => s.qConfigCheck v
    | 0x370004 => if bits v 14 9 ≠ 0 then 4 else 0
    | 0x370005 => ssConfigCheck v
    | 0x380002 => s.polConfigCheck (s.obj 0x3800 1) v
    | 0x380004 => if (List.range 64).any (fun d => bits v (2 * d + 1) (2 * d) == 3) then 4 else 0
    | _ => if within idx 0x3710 0x3717 ∧ sub = 1 then
        (if signed 32 v < -64 ∨ 255 < signed 32 v then 4 else 0) else 0

/-- Checks of the objects of the other chapters. -/
def State.checkRest (s : State) (idx sub v : Nat) : Nat :=
  match idx * 256 + sub with
  | 0x102100 => s.stateReqCheck v
  | 0x410007 => if s.nextVal 0x4100 8 < v then 0 else 4
  | 0x410008 => if v < s.nextVal 0x4100 7 then 0 else 4
  | 0x500001 => s.noticeCode v
  | 0x500004 => s.releaseCheck v
  | 0x510001 => if 4 * v ≤ s.nextVal 0x5100 2 then 0 else 4
  | 0x510002 => if 4 * s.nextVal 0x5100 1 ≤ v then 0 else 4
  | 0x510005 => s.unfenceCheck (v % 512)
  | 0x600004 => s.spaceCheck v v (s.nextVal 0x6000 5)
  | 0x600005 => s.spaceCheck v (s.nextVal 0x6000 4) v
  | 0x610002 => s.volCheck (s.obj 0x6100 1) v
  | 0x720001 => s.switchCheck v
  | 0x720002 => if (s.keys.openSecret (leBytes 68 v)).isNone then 4 else 0
  | 0x720006 => if (s.keys.openOpk (leBytes 76 v)).isNone then 4 else 0
  | 0x800007 => if v % 25 ≠ 0 then 4 else 0
  | 0x910006 => s.recSelectCheck v
  | 0x91000B => s.logClearCheck v
  | 0xB00001 => s.stageCheck (s.ckpt.jobs.any (fun e => decide (e.2.st ≠ .none))) v
  | 0xB00003 => s.stageDataCheck
  | 0xB01009 => s.svnCheck v
  | _ => 0

/-- The check that the owning chapter sets for a write, an abort code. -/
def State.ownCheck (s : State) (op : Bool) (idx sub v : Nat) : Nat :=
  if within idx 0x2000 0x2019 then (if sub = 0xC then s.resetCheck (idx - 0x2000) v else 0)
  else if within idx 0x3000 0x3FFF then s.checkNet op idx sub v
  else s.checkRest idx sub v

/-! ### Type and range (Table 2-1, R7, R44) -/

/-- Bits of a written value that are reserved and ignored (R7). -/
def maskReserved (idx sub v : Nat) : Nat :=
  match idx * 256 + sub with
  | 0x310001 => v % 2 ^ 21 + 2 ^ 31 * bits v 31 31
  | 0x350003 => v % 2 ^ 12 + 2 ^ 15 * bits v 15 15
  | 0x35000A => v % 2 ^ 185 + 2 ^ 191 * bits v 191 191 + 2 ^ 192 * bits v 225 192
  | 0x360003 => v % 2 ^ 1095 + 2 ^ 1119 * bits v 1119 1119
  | 0x370002 => v % 2 ^ 18 + 2 ^ 32 * bits v 159 32
  | 0x370005 => v % 2 ^ 65
  | 0x380002 => v % 2 ^ 13 + 2 ^ 16 * bits v 21 16 + 2 ^ 24 * bits v 29 24 + 2 ^ 32 * bits v 175 32
  | 0x500005 => v % 512
  | 0x520001 => v % 4096
  | 0x610002 => v % 2 ^ 82
  | 0x900001 => v % 512
  | _ => if within idx 0x3000 0x3007 ∧ sub = 3 then v % 2 ^ 21 else v

/-- Whether the type code or the length of a write differs from the object's (R44). An I3C request carries no type. -/
def wrongType (p : Path) (r : ObjRow) (typ len : Nat) : Bool :=
  (p != .i3c && typ != r.typ.code) || (match r.typ with
    | .str n => decide (n < len)
    | t => decide (len ≠ t.size))

/-- Whether a value of the right type lies outside the object's range (Table 2-1). DESIGN CHOICE (log entry 25): a STRING is
ASCII and the table names no code for another byte; such a write aborts with RANGE. -/
def wrongRange (r : ObjRow) (bs : List Byte) (v : Nat) : Bool :=
  match r.typ with
  | .octets _ => false
  | .str _ => bs.any (fun b => decide (128 ≤ b.toNat))
  | .i32 => false
  | _ => decide (v < r.lo) || decide (r.hi < v)

/-- The cause that an access right gives to a write (Table 2-2). -/
def Access.writeCode : Access → Nat
  | .ro => 3
  | .bl => 7
  | _ => 0

/-- The code of a write of one entry against the state `s` (R56). Where the type is wrong, causes that depend on the value
as such, RANGE and BUSY, do not apply. -/
def State.writeCode (s : State) (p : Path) (e : DictEntry) : Nat :=
  let idx := e.idx.toNat
  let sub := e.sub.toNat
  match s.preCode p idx sub true with
  | some c => c
  | none => match s.rowAt idx sub with
    | none => 2
    | some r =>
      let v := maskReserved idx sub (leNat e.value)
      let acc := r.acc.writeCode
      let bad := wrongType p r e.typ.toNat e.value.length
      let own := if acc = 3 then 0 else s.ownCheck (p == .odp) idx sub v
      firstCause [acc, if bad then 5 else 0, if !bad && wrongRange r e.value v then 4 else 0,
        if bad ∧ (own = 4 ∨ own = 8) then 0 else own]

end Sys2Proof.Machine
end

