-- ==== Sys2Proof/Machine/DictApply.lean ====
section
/-!
DEFINITION. The effect of a dictionary write that passed its checks (R45–R48), the writing and reading of whole requests
(R57, Table 2-10), and the writes that have a row of their own.
-/
namespace Sys2Proof.Machine

/-! ### Effects (R45–R48) -/

/-- Buffer a write for its boundary; a pending value of the same object and record is replaced (R47). -/
def State.buffer (s : State) (b : Boundary) (key sel v : Nat) : State :=
  s.setDict (fun d => { d with
    pend := d.pend.filter (fun w => w.key != key || w.sel != sel) ++ [⟨b, key, sel, v⟩] })

/-- Buffer a write for its boundary; one for BOOT is persisted in the NOR log area (R48). -/
def State.bufferRow (s : State) (r : ObjRow) (idx sub v : Nat) : State :=
  let t := s.buffer r.bnd (idx * 256 + sub) (s.selOf idx sub) v
  if r.bnd = .boot then t.setNor (fun n => { n with bootVals := ins n.bootVals (idx * 256 + sub) (1 + v) }) else t

/-- Set the pending request of `1021` or `7200:01`. -/
def State.request (s : State) (q : SvcReq) : State := { s with mod := { s.mod with req := some q } }

/-- Writes with an effect of their own; none: the object's value changes or is buffered. -/
def State.ownEffect (s : State) (idx sub v : Nat) : Option State :=
  if within idx 0x2000 0x2019 then
    some { s with mod := { s.mod with resetReq := setBit s.mod.resetReq (idx - 0x2000) true } }
  else if within idx 0x3000 0x3007 ∧ sub = 5 then some (s.buffer .tick (idx * 256 + sub) 0 v)
  else match idx * 256 + sub with
    | 0x102100 => some (s.request (if v = 1 then .enterTest else .endTest))
    | 0x310003 => some (s.routeApply (leBytes 1024 v))
    | 0x35000A => some (s.setNet (fun n => { n with addrs := put 0 n.addrs (s.obj 0x3500 9) v }))
    | 0x360003 => some (s.clsWriteApply v)
    | 0x360004 => some (s.clsValidApply v)
    | 0x500001 => some (s.noticeTake (leBytes 16 v) 1 [])
    | 0x500004 => some (s.releaseApply v)
    | 0x510005 => some (s.unfenceApply (v % 512))
    | 0x720001 => some (s.request .switch)
    | 0x720002 => some (s.setKeys (fun k => { k with secret := k.openSecret (leBytes 68 v) }))
    | 0x720006 => some (s.setKeys (fun k => { k with nextOpk := k.openOpk (leBytes 76 v) }))
    | 0x910002 => some (s.freezeApply v)
    | 0x910006 => some (s.recSelectApply v)
    | 0x91000B => some s.logClearApply
    | 0xB00001 => some (s.stageApply v)
    | 0xB00003 => some (s.stageDataApply (leBytes 1024 v))
    | 0xB01009 => some (s.setNor (fun n => { n with svnMin := v }))
    | _ => none

/-- Whether a write of a row is buffered. -/
def ObjRow.buffered (r : ObjRow) : Bool := decide (r.acc = .rwb) || (decide (r.acc = .wo) && decide (r.bnd = .tick))

/-- The effect of a write that passed its checks. -/
def State.applyEntry (s : State) (e : DictEntry) : State :=
  let idx := e.idx.toNat
  let sub := e.sub.toNat
  match s.rowAt idx sub with
  | none => s
  | some r =>
    let v := maskReserved idx sub (leNat e.value)
    match s.ownEffect idx sub v with
    | some t => t
    | none => if r.acc = .rwb then s.bufferRow r idx sub v else s.setObj idx sub v

/-- Check and carry out the entries of a write in order, from number `i`: the state they leave, or the number and code of the
first entry that would abort (R57). -/
def State.writeAll (p : Path) : Nat → List DictEntry → State → Except (Nat × Nat) State
  | _, [], s => .ok s
  | i, e :: es, s =>
    let c := s.writeCode p e
    if c = 0 then State.writeAll p (i + 1) es (s.applyEntry e) else .error (i, c)

/-- A write request: the state, the code and the number of the failing entry (R57). -/
def State.writeRequest (s : State) (p : Path) (es : List DictEntry) : State × Nat × Nat :=
  match State.writeAll p 0 es s with
  | .ok t => (t, 0, 0xFFFF)
  | .error (i, c) => (s, c, i)

/-! ### Response entries (Table 2-10) -/

/-- The type code of an object, 0 where there is none. -/
def State.typeOf (s : State) (idx sub : Nat) : Nat := ((s.rowAt idx sub).map (fun r => r.typ.code)).getD 0

/-- The answer to a read of one object. -/
def State.readOne (s : State) (p : Path) (idx sub : Nat) : RespEnt :=
  let c := s.readCode p idx sub
  if c = 0 then
    let v := s.view (p != .odp) idx sub
    ⟨idx, sub, v.2, 0, s.typeOf idx sub, leBytes (((s.rowAt idx sub).map (fun r => r.typ.size)).getD 0) v.1⟩
  else ⟨idx, sub, false, c, s.typeOf idx sub, []⟩

/-- The answers to a read entry: one, or with `WHOLE` one per subindex, `00` first. -/
def State.readEntry (s : State) (p : Path) (e : DictEntry) : List RespEnt :=
  let idx := e.idx.toNat
  let subs := if isRecord idx then (List.range (highSub idx + 1)).filter (fun b => (s.rowAt idx b).isSome) else [0]
  if e.whole ∧ (s.preCode p idx (subs.headD 0) false).isNone then subs.map (s.readOne p idx)
  else [s.readOne p idx e.sub.toNat]

/-- The heads that answer a write: the failing entry carries its code. -/
def State.writeHeads (s : State) (es : List DictEntry) (code fail : Nat) : List RespEnt :=
  (List.range es.length).map (fun i =>
    let e := es.getD i default
    let idx := e.idx.toNat
    let sub := e.sub.toNat
    ⟨idx, sub, code == 0 && ((s.rowAt idx sub).map ObjRow.buffered).getD false, if i = fail then code else 0, s.typeOf idx sub, []⟩)

/-- Carry out a request whose entries are at hand: state, `STATUS`, `FAIL_ENTRY`, number of response entries and body of at
most `max` bytes (R57, R61). DESIGN CHOICE (log entry 25): `COUNT` of a read response is the number of its entries, which
`WHOLE` can take past 64; Table 2-9 does not say which number a response carries. -/
def State.carryOut (s : State) (p : Path) (write : Bool) (es : List DictEntry) (max : Nat) : State × Nat × Nat × Nat × List Byte :=
  if write then
    let r := s.writeRequest p es
    (r.1, r.2.1, r.2.2, es.length, (s.writeHeads es r.2.1 r.2.2).flatMap RespEnt.bytes)
  else
    let rs := es.flatMap (s.readEntry p)
    match readBody max rs with
    | some b => (s, 0, 0xFFFF, rs.length, b)
    | none => (s, 4, 0xFFFF, 0, [])

/-! ### The server (R54, R55, R61, R65) -/

/-- Whether the dictionary server carries out requests now (R55, R497). -/
def State.serverUp (s : State) : Bool := s.fn 0 && !s.mod.stopped

/-- The operator key in the protection set-up. -/
def State.opk (s : State) : Option Nat := s.keys.setup.bind KeyRec.opk

/-- An I3C response with its CRC (R62). -/
def i3cResponse (est typ : Nat) (value : List Byte) : List Byte :=
  let b := leBytes 1 est ++ leBytes 1 typ ++ leBytes 1 value.length ++ value
  b ++ [BitVec.ofNat 8 (crc8 b)]

/-- The answer to a mailbox request: the response is written to `MBX_BUF`, `DONE` rises and vector 0 is signalled. -/
def State.mbxAnswer (s : State) (status fail : Nat) (body : List Byte) : State :=
  (s.setDict (fun d => { d with mbx := { d.mbx with
    busy := false, done := true, status := status, fail := fail, respLen := body.length
    buf := splice (bytesAt d.mbx.buf 0 4096) 0 body } })).signalPf0 0

/-- Carry out one request of the queue whole and answer it. -/
def State.serveReq (s : State) (r : DictReq) : State :=
  match r.path with
  | .odp =>
    let x := s.carryOut .odp r.write r.entries 1160
    match s.opk with
    | some k => x.1.emit (.odp r.src (odpMessage k (if r.write then 0x82 else 0x81) r.reqId r.seq x.2.2.2.1 x.2.1 x.2.2.1 x.2.2.2.2))
    | none => x.1
  | .mbx =>
    let es := if r.src = 1 then (if r.bad then none else some r.entries) else s.mbxEntries r
    match es with
    | none => if r.src = 1 then s else s.mbxAnswer 5 0xFFFF []
    | some l =>
      let x := s.carryOut .mbx r.write l 4096
      if r.src = 1 then x.1 else x.1.mbxAnswer x.2.1 x.2.2.1 x.2.2.2.2
  | .i3c =>
    let e := r.entries.headD default
    let done (t : State) (b : List Byte) : State := t.setDict (fun d => { d with i3cBusy := false, i3cResp := some b })
    if r.bad then done s (i3cResponse 5 0 [])
    else if r.write then
      let x := s.writeRequest .i3c [e]
      done x.1 (i3cResponse x.2.1 (s.typeOf e.idx.toNat e.sub.toNat) [])
    else
      let v := s.readOne .i3c e.idx.toNat e.sub.toNat
      done s (i3cResponse v.est v.typ v.value)

/-- Carry out the requests of the queue in order while the server is there. -/
def State.serve : Nat → State → State
  | 0, s => s
  | n + 1, s =>
    match s.dict.queue with
    | [] => s
    | r :: rs => if s.serverUp then State.serve n ((s.setDict (fun d => { d with queue := rs })).serveReq r) else s

/-- Carry out everything that waits. -/
def State.serveAll (s : State) : State := State.serve s.dict.queue.length s

end Sys2Proof.Machine
end

