-- ==== Sys2Proof/Machine/BarRegs.lean ====
section
/-!
DEFINITION. The surfaces that carry requests and register accesses: the Object Dictionary Protocol (R59–R61), the I3C target
(R62, R480), the mailbox (R65), wide mailboxes and wide values (R68), and writes of BAR registers (R63–R71).
-/
namespace Sys2Proof.Machine

/-! ### Object Dictionary Protocol (R54, R55, R59, R60) -/

/-- Whether a `SEQ` passes the replay check (R60): bit i of the window stands for the value 1 + i below the highest. -/
def Dict.seqOk (d : Dict) (q : Nat) : Bool :=
  match d.odpHigh with
  | none => true
  | some h => decide (h < q) || (decide (q < h) && decide (h - q ≤ 64) && !bit d.odpSeen (h - q - 1))

/-- The replay state once a `SEQ` is accepted. -/
def Dict.seqTake (d : Dict) (q : Nat) : Dict :=
  match d.odpHigh with
  | none => { d with odpHigh := some q, odpSeen := 0 }
  | some h =>
    if h < q then
      { d with odpHigh := some q, odpSeen := if 64 < q - h then 0 else (2 * d.odpSeen + 1) * 2 ^ (q - h - 1) % 2 ^ 64 }
    else { d with odpSeen := setBit d.odpSeen (h - q - 1) true }

/-- Place a request in the server's queue. -/
def State.addReq (s : State) (r : DictReq) : State := s.setDict (fun d => { d with queue := d.queue ++ [r] })

/-- Carry out what waits where the command says that the server comes to it now. -/
def State.serveIf (s : State) (now : Bool) : State := if now then s.serveAll else s

/-- A datagram that passed the checks before its `SEQ` (R54, R60). -/
def State.odpAccept (s : State) (k src : Nat) (bs : List Byte) (es : List DictEntry) (now : Bool) : State :=
  let f (o n : Nat) : Nat := beNat ((bs.drop o).take n)
  let write := f 3 1 == 2
  if !(s.dict.seqOk (f 8 8)) then s.count 0x1040 3 1
  else if 62 ≤ (s.dict.queue.filter (fun r => r.path == .odp)).length then
    (s.count 0x1040 5 1).emit (.odp src (odpMessage k (if write then 0x82 else 0x81) (f 4 4) (f 8 8) 0 8 0xFFFF []))
  else
    (((s.count 0x1040 1 1).setDict (fun d => d.seqTake (f 8 8))).addReq
      { path := .odp, write := write, reqId := f 4 4, seq := f 8 8, src := src, entries := es, bad := false }).serveIf now

/-- ODP_REQUEST: discarded without a server, else checked in the order of R59. -/
def State.odpRequest (s : State) (src : Nat) (bs : List Byte) (now : Bool) : State :=
  if !s.serverUp then s.count 0x1040 6 1
  else match s.opk with
    | none => s.count 0x1040 8 1
    | some k => match odpEntries bs with
      | none => s.count 0x1040 4 1
      | some es => if !(odpTagOk k bs) then s.count 0x1040 2 1 else s.odpAccept k src bs es now

/-- ODP_REQUEST. -/
def execOdpRequest (src : Nat) (bytes : List Byte) (serve : Bool) (s : State) : Res := .next (s.odpRequest src bytes serve)

/-! ### I3C (R55, R62, R474, R480) -/

/-- The request that a private write carries; none where its form is not that of R62. -/
def i3cParse (bs : List Byte) : Option (Bool × DictEntry) :=
  let cmd := fieldAt bs 0 1
  let n := fieldAt bs 4 1
  if (cmd = 1 ∨ cmd = 2) ∧ n ≤ 32 ∧ (cmd = 1 → n = 0) ∧ bs.length = 6 + n then
    some (cmd == 2, ⟨BitVec.ofNat 16 (fieldAt bs 1 2), BitVec.ofNat 8 (fieldAt bs 3 1), false, 0, bytesAt bs 5 n⟩)
  else none

/-- The code of an access to the ROM's subset (R480) before provisioning is looked at. -/
def State.romCode (s : State) (idx sub : Nat) (write : Bool) : Nat :=
  if !([0x1000, 0x1009, 0x1018, 0x1020, 0xB020, 0xB030].contains idx) then 1
  else if (idx = 0x1018 ∧ sub ≠ 4) ∨ (s.rowAt idx sub).isNone then 2
  else match s.rowAt idx sub with
    | some r => if write then r.acc.writeCode else if r.acc = .wo then 3 else 0
    | none => 2

/-- A write of the ROM's subset: the halves of the first operator key and its commit (R481). -/
def State.romWrite (s : State) (e : DictEntry) : State × Nat :=
  let idx := e.idx.toNat
  let sub := e.sub.toNat
  let c := s.romCode idx sub true
  if c ≠ 0 then (s, c)
  else if !s.provisioning then (s, 7)
  else if e.value.length ≠ ((s.rowAt idx sub).map (fun r => r.typ.size)).getD 0 then (s, 5)
  else if sub = 1 then (s.setKeys (fun k => { k with opkLo := some (leNat e.value) }), 0)
  else if sub = 2 then (s.setKeys (fun k => { k with opkHi := some (leNat e.value) }), 0)
  else s.firstOpkTry (leNat e.value)

/-- A request that the boot ROM carries out: the state and the response. -/
def State.romRequest (s : State) (write : Bool) (e : DictEntry) : State × List Byte :=
  let idx := e.idx.toNat
  let sub := e.sub.toNat
  if write then
    let r := s.romWrite e
    (r.1, i3cResponse r.2 (s.typeOf idx sub) [])
  else
    let c := s.romCode idx sub false
    if c = 0 then
      (s, i3cResponse 0 (s.typeOf idx sub) (leBytes (((s.rowAt idx sub).map (fun r => r.typ.size)).getD 0) (s.current true idx sub)))
    else (s, i3cResponse c (s.typeOf idx sub) [])

/-- The I3C static address (R62). -/
def State.i3cAddr (s : State) : Nat := 0x50 + s.obj 0x1018 4

/-- I3C_PRIVATE_WRITE: acknowledged where it carries the target's address, its CRC passes, someone answers, and no request is
under way. -/
def State.i3cWrite (s : State) (addr : Nat) (bs : List Byte) (now : Bool) : State :=
  if addr ≠ s.i3cAddr ∨ bs = [] ∨ crc8 bs.dropLast ≠ (bs.getLastD 0).toNat ∨ s.dict.i3cBusy ∨ !(s.romServes || s.serverUp) then s.emit (.i3cAck false)
  else
    let t := s.emit (.i3cAck true)
    if s.romServes then
      match i3cParse bs with
      | none => t.setDict (fun d => { d with i3cResp := some (i3cResponse 5 0 []) })
      | some (w, e) =>
        let r := t.romRequest w e
        r.1.setDict (fun d => { d with i3cResp := some r.2 })
    else
      let q : DictReq := match i3cParse bs with
        | none => { path := .i3c, write := false, reqId := 0, seq := 0, src := 0, entries := [], bad := true }
        | some (w, e) => { path := .i3c, write := w, reqId := 0, seq := 0, src := 0, entries := [e], bad := false }
      ((t.setDict (fun d => { d with i3cBusy := true, i3cResp := none })).addReq q).serveIf now

/-- I3C_PRIVATE_WRITE. -/
def execI3cPrivateWrite (addr : BitVec 7) (bytes : List Byte) (serve : Bool) (s : State) : Res :=
  .next (s.i3cWrite addr.toNat bytes serve)

/-- I3C_PRIVATE_READ: the response once, else BUSY. -/
def State.i3cRead (s : State) (addr : Nat) : State :=
  if addr ≠ s.i3cAddr ∨ !(s.romServes || s.serverUp) then s.emit (.i3cAck false)
  else match s.dict.i3cResp with
    | some b => (s.setDict (fun d => { d with i3cResp := none })).emit (.i3cRead b)
    | none => s.emit (.i3cRead (i3cResponse 8 0 []))

/-- I3C_PRIVATE_READ. -/
def execI3cPrivateRead (addr : BitVec 7) (s : State) : Res := .next (s.i3cRead addr.toNat)

/-! ### Mailbox (R65, Table 2-13) -/

/-- A bus error on a BAR access (R70). -/
def State.barError (s : State) (write : Bool) : State := s.emit (.busError (if write then .pcieWrite else .pcieRead))

/-- Whether BAR0 shows its state and readiness registers alone (R478). -/
def State.barHalted (s : State) : Bool := decide (s.firm.phase = .halted)

/-- A `GO` write: dropped and counted while BUSY, else submitted. -/
def State.mbxGo (s : State) (length count : Nat) (write now : Bool) : State :=
  if s.barHalted then s.barError true
  else if s.dict.mbx.busy then
    (s.setDict (fun d => { d with mbx := { d.mbx with overrun := true } })).count 0x1040 7 1
  else
    ((s.setDict (fun d => { d with mbx := { d.mbx with length := length, count := count, kindW := write, busy := true } })).addReq
      { path := .mbx, write := write, reqId := length, seq := count, src := 0, entries := [], bad := false }).serveIf now

/-- MBX_GO. -/
def execMbxGo (length : BitVec 16) (count : BitVec 8) (write serve : Bool) (s : State) : Res :=
  .next (s.mbxGo length.toNat count.toNat write serve)

/-- Writing 1 to `DONE` or `OVERRUN` clears it; INTx follows `DONE` (R65). -/
def State.mbxClear (s : State) (done lost : Bool) : State :=
  if s.barHalted then s.barError true
  else (s.setDict (fun d => { d with mbx := { d.mbx with
    done := d.mbx.done && !done, overrun := d.mbx.overrun && !lost } })).syncPf0

/-- MBX_DONE_CLEAR. -/
def execMbxDoneClear (s : State) : Res := .next (s.mbxClear true false)

/-- MBX_OVERRUN_CLEAR. -/
def execMbxOverrunClear (s : State) : Res := .next (s.mbxClear false true)

/-- A word written to `MBX_BUF`; while BUSY it leaves the request's content unpredictable. -/
def State.mbxBuf (s : State) (o v : Nat) : State :=
  if s.dict.mbx.busy then
    (s.setDict (fun d => { d with mbx := { d.mbx with buf := leBytes 4096 (Config.free s.fresh) } })).tick1
  else s.setDict (fun d => { d with mbx := { d.mbx with buf := splice (bytesAt d.mbx.buf 0 4096) o (leBytes 4 v) } })

/-! ### Wide mailboxes (R68, Table 2-14) -/

/-- The key of a page: 0 for BAR0, 1 + s for the glove page of slice s. -/
def pageKey (page : Option (Fin 512)) : Nat := match page with | none => 0 | some sl => 1 + sl.val

/-- Whether a page can be reached: BAR0 unless halted, a glove page while its slice exists and is not being destroyed (R66). -/
def State.pageThere (s : State) (page : Option (Fin 512)) : Bool :=
  match page with
  | none => !s.barHalted
  | some sl => s.gloveThere sl.val

/-- Whether counter i of a glove page is implemented (Table 18-1). -/
def counterThere (i : Nat) : Bool := decide (i ≤ 22) || (decide (56 ≤ i) && decide (i ≤ 58))

/-- A wide value of a glove page by the offset of its LO word: an aperture entry, or a usage counter as last latched; a
pending clearing reads as zero (R71, R519). -/
def State.gloveWide (s : State) (sl off : Nat) : Option Nat :=
  if off % 8 ≠ 0 then none
  else if within off 0x2000 0x3FFF then some (look 0 (s.slice sl).apert ((off - 0x2000) / 8))
  else if within off 0x8000 0x8FFF ∧ counterThere ((off - 0x8000) / 8) then
    let i := (off - 0x8000) / 8
    some (if s.dict.pend.any (fun w => w.key == counterKey sl i) then 0 else s.usage (s.slice sl).latched i)
  else none

/-- The wide value that an offset of a page names; BAR0 has `TICK`. -/
def State.wide (s : State) (page : Option (Fin 512)) (off : Nat) : Option Nat :=
  match page with
  | none => if off = 0x20 then some s.mod.tick else none
  | some sl => s.gloveWide sl.val off

/-- Change a wide mailbox. -/
def State.setWmb (s : State) (page : Option (Fin 512)) (f : Wmb → Wmb) : State :=
  s.setDict (fun d => { d with wmb := smod d.wmb (pageKey page) f })

/-- A write of `WMB_SEL`: `VALID` clears and a capture starts. -/
def State.wmbSel (s : State) (page : Option (Fin 512)) (v : Nat) : State :=
  if !(s.pageThere page) then s.barError true
  else s.setWmb page (fun w => { w with sel := v % 2 ^ 26, valid := false, run := true })

/-- WMB_SEL_WRITE. -/
def execWmbSelWrite (page : Option (Fin 512)) (v : BitVec 32) (s : State) : Res := .next (s.wmbSel page v.toNat)

/-- WMB_CAPTURE: value and tick in one step. -/
def State.wmbCapture (s : State) (page : Option (Fin 512)) : State :=
  let w := sget s.dict.wmb (pageKey page)
  if w.run ∧ s.pageThere page then
    let x := s.wide page w.sel
    s.setWmb page (fun y => { y with
      run := false, valid := true, badsel := x.isNone, gen := (y.gen + 1) % 256, data := x.getD 0, tick := s.mod.tick })
  else s

/-- WMB_CAPTURE. -/
def execWmbCapture (page : Option (Fin 512)) (s : State) : Res := .next (s.wmbCapture page)

/-! ### Writes of BAR registers (R67, R68, R70) -/

/-- The LO word last written at an offset of a page. -/
def State.wideLow (s : State) (page : Option (Fin 512)) (off : Nat) : Nat := look 0 s.dict.wideLo (pageKey page * 65536 + off)

/-- A write of a word of a wide value: LO is kept, HI makes the value take effect through `f`; dropped where wide values are not
live (R68). -/
def State.wideWrite (s : State) (page : Option (Fin 512)) (off v : Nat) (f : Nat → State) : State :=
  if !s.wideLive then s
  else if off % 8 = 0 then s.setDict (fun d => { d with wideLo := put 0 d.wideLo (pageKey page * 65536 + off) v })
  else f (s.wideLow page (off - 4) + 2 ^ 32 * v)

/-- A write of a word of a steering entry (Table 14-3). -/
def State.steerWrite (s : State) (sl i w v : Nat) : State :=
  if w = 0 then
    (s.setSteer sl i (fun t => { t with
      vector := bits v 10 0, ports := if i = 0 then bits v 23 16 else 0, enable := bit v 24
      pending := t.pending && !(bit v 25) })).steerFire sl i
  else if w = 1 then s.setSteer sl i (fun t => { t with modUs := bits v 15 0 })
  else s

/-- A write of a word of a key slot (Table 15-7). -/
def State.keyWrite (s : State) (sl j o v : Nat) : State :=
  if o < 0x20 then s.gloveSlot sl j (fun k => { k with words := put 0 k.words (o / 4) v })
  else if o = 0x20 then s.gloveSlot sl j (fun k => { k with fixedReg := v })
  else if o = 0x24 then s.gloveSlot sl j (fun k => { k with limitReg := v })
  else if o = 0x28 then
    s.gloveSlot sl j (fun k => if v % 4 = 1 then k.install else if v % 4 = 2 then default else k)
  else s.barError true

/-- A write of a register of a glove page (Tables 2-15, 14-8a). -/
def State.gloveWrite (s : State) (sl : Fin 512) (off v : Nat) : State :=
  if off % 4 ≠ 0 ∨ !(s.pageThere (some sl)) then s.barError true
  else if off < 0x1000 then
    (if off = 0x010 then s.setSlice sl.val (fun x => { x with evHead := v })
     else if off = 0x020 then s.chanDb sl.val v
     else if [0, 4, 8, 0x14, 0x18, 0x24].contains off ∨ 0x100 ≤ off then s
     else s.barError true)
  else if off < 0x2000 then
    s.doorbell sl.val ((off - 0x1000) / 4) v
  else if off < 0x4000 then
    s.wideWrite (some sl) off v (fun e => s.setSlice sl.val (fun x => { x with
      apert := put 0 x.apert ((off - 0x2000) / 8) (e % 2 ^ 57) }))
  else if off < 0x8000 then s.keyWrite sl.val ((off - 0x4000) / 64) (off % 64) v
  else if off < 0x9000 then
    (let i := (off - 0x8000) / 8
     if counterThere i then s.wideWrite (some sl) off v (fun e => s.counterWrite sl.val i e) else s.barError true)
  else if off < 0xA000 then s.steerWrite sl.val ((off - 0x9000) / 16) (off / 4 % 4) v
  else if off = 0xF010 then s.wmbSel (some sl) v
  else if off = 0xF000 ∨ within off 0xF014 0xF027 then s
  else s.barError true

/-- A write of a register of the admin page (Table 16-5); `ADM_CTRL` acts on RESET before ENABLE. -/
def State.admWrite (s : State) (o v : Nat) : State :=
  if o = 0x010 then s.setAdm (fun a => { a with version := v })
  else if o = 0x014 then
    (let t := if bit v 1 then s.admReset else s
     if bit v 0 then (t.setAdm (fun a => { a with enabling := true })).admCheck else t)
  else if o = 0x020 then (if s.fwRuns then (s.setAdm (fun a => { a with sqTail := v })).admStart 64 else s)
  else if o = 0x02C then (((s.setAdm (fun a => { a with cqHead := v })).syncPf0).admFlush 32).admStart 64
  else if 0x800 ≤ o then s.setAdm (fun a => { a with sub := put 0 a.sub ((o - 0x800) / 4) v })
  else if [0, 0x18, 0x24, 0x28].contains o ∨ within o 0x400 0x5FF then s
  else s.barError true

/-- A write of a BAR0 register (Table 2-12). -/
def State.bar0Write (s : State) (off v : Nat) : State :=
  if off % 4 ≠ 0 then s.barError true
  else if [0x10, 0x14, 0x18].contains off then s
  else if s.barHalted then s.barError true
  else if [0, 0x08, 0x0C, 0x20, 0x24, 0x40].contains off then s
  else if off = 0x1010 then
    (if bit v 31 then s.mbxGo (bits v 15 0) (bits v 23 16) (bit v 24) false
     else s.setDict (fun d => { d with mbx := { d.mbx with length := bits v 15 0, count := bits v 23 16, kindW := bit v 24 } }))
  else if off = 0x1014 then s.mbxClear (bit v 1) (bit v 2)
  else if off = 0x1000 ∨ off = 0x1018 ∨ off = 0x4000 ∨ within off 0x4014 0x4027 then s
  else if within off 0x2000 0x2FFF then s.mbxBuf (off - 0x2000) v
  else if off = 0x4010 then s.wmbSel none v
  else if within off 0x10000 0x10FFF then s.admWrite (off - 0x10000) v
  else s.barError true

/-- Whether an offset of a page is the HI word of a wide value. -/
def isWideHi (page : Option (Fin 512)) (off : Nat) : Bool :=
  decide (off % 8 = 4) && (match page with
    | none => decide (off = 0x24)
    | some _ => within off 0x2000 0x3FFF || (within off 0x8000 0x8FFF && counterThere ((off - 0x8000) / 8)))

/-- A write of the HI word at an offset of a page (R68). -/
def State.wideHi (s : State) (page : Option (Fin 512)) (off v : Nat) : State :=
  if !(isWideHi page off) then s.barError true
  else match page with
    | none => s.bar0Write off v
    | some sl => s.gloveWrite sl off v

/-- WIDE_HI_WRITE. -/
def execWideHiWrite (page : Option (Fin 512)) (off : BitVec 16) (hi : BitVec 32) (s : State) : Res :=
  .next (s.wideHi page off.toNat hi.toNat)

/-- BAR_BAD_ACCESS (R70): a bus error and nothing else. -/
def execBarBadAccess (write : Bool) (s : State) : Res := .next (s.barError write)

end Sys2Proof.Machine
end

