-- ==== Sys2Proof/Machine/DictWrites.lean ====
section
/-!
DEFINITION. Writes of one dictionary object that have a row of their own, and the writes that have none (R45).
-/
namespace Sys2Proof.Machine

/-! ### A write as a request of its own (R54, R55, R59) -/

/-- The entry of a write as `MBX_BUF` holds it (Table 2-10). -/
def ownBytes (e : DictEntry) : List Byte := RespEnt.bytes ⟨e.idx.toNat, e.sub.toNat, false, 0, e.typ.toNat, e.value⟩

/-- A mailbox write while the server is absent: the entry stands in `MBX_BUF` and the request stays BUSY (R55). -/
def State.mbxSubmit (s : State) (e : DictEntry) : State :=
  let t := if s.dict.mbx.busy ∨ s.barHalted then s else s.setDict (fun d => { d with mbx := { d.mbx with
    buf := splice (bytesAt d.mbx.buf 0 4096) 0 (ownBytes e) } })
  t.mbxGo (ownBytes e).length 1 true false

/-- The private write that carries a write of one object over I3C (R62). -/
def i3cFrame (e : DictEntry) : List Byte :=
  let b := leBytes 1 2 ++ leBytes 2 e.idx.toNat ++ [e.sub] ++ leBytes 1 e.value.length ++ e.value
  b ++ [BitVec.ofNat 8 (crc8 b)]

/-- A write of one object that arrives over a path as a request of its own: what waits is carried out first (R54). An ODP
request needs an operator key (R59). Without a server an ODP request is counted and discarded, a mailbox request waits, and an
I3C request meets the boot ROM or is not acknowledged (R55). -/
def State.ownWrite (s : State) (p : Path) (e : DictEntry) : State :=
  if s.serverUp then
    if p = .odp ∧ s.opk.isNone then s.count 0x1040 8 1
    else
      let t := s.serveAll
      let r := t.writeRequest p [e]
      r.1.emit (.dictDone p r.2.1 r.2.2)
  else match p with
    | .odp => s.count 0x1040 6 1
    | .mbx => s.mbxSubmit e
    | .i3c => s.i3cWrite s.i3cAddr (i3cFrame e) false

/-- The entry that writes an object with its own type code. -/
def ownEntry (idx sub : Nat) (bs : List Byte) : DictEntry :=
  ⟨BitVec.ofNat 16 idx, BitVec.ofNat 8 sub, false, BitVec.ofNat 8 (((findRow idx sub).map (fun r => r.typ.code)).getD 0), bs⟩

/-! ### Writes with a row of their own -/

/-- RESET_CMD_WRITE (R40). -/
def execResetCmdWrite (p : Path) (n : Fin 26) (v : BitVec 8) (s : State) : Res :=
  .next (s.ownWrite p (ownEntry (0x2000 + n.val) 0xC (leBytes 1 v.toNat)))

/-- STATE_REQUEST_ENTER_TEST (R35). -/
def execStateRequestEnterTest (p : Path) (s : State) : Res := .next (s.ownWrite p (ownEntry 0x1021 0 (leBytes 1 1)))

/-- STATE_REQUEST_END_TEST (R35). -/
def execStateRequestEndTest (p : Path) (s : State) : Res := .next (s.ownWrite p (ownEntry 0x1021 0 (leBytes 1 2)))

/-- REQ_RETRAIN_RETRAIN (R268). -/
def execReqRetrainRetrain (path : Path) (p : Fin 8) (s : State) : Res :=
  .next (s.ownWrite path (ownEntry (0x3000 + p.val) 5 (leBytes 1 1)))

/-- REQ_RETRAIN_LINK_RESET (R268). -/
def execReqRetrainLinkReset (path : Path) (p : Fin 8) (s : State) : Res :=
  .next (s.ownWrite path (ownEntry (0x3000 + p.val) 5 (leBytes 1 2)))

/-- BIND_WRITE (R269). -/
def execBindWrite (path : Path) (p : Fin 8) (i : Fin 16) (v : BitVec 32) (s : State) : Res :=
  .next (s.ownWrite path (ownEntry (0x3000 + p.val) (0x20 + i.val) (leBytes 4 v.toNat)))

/-- ROUTE_BLOCK_WRITE (R274). -/
def execRouteBlockWrite (p : Path) (bytes : List Byte) (s : State) : Res := .next (s.ownWrite p (ownEntry 0x3100 3 bytes))

/-- CLS_WRITE (R315). -/
def execClsWrite (p : Path) (bytes : List Byte) (s : State) : Res := .next (s.ownWrite p (ownEntry 0x3600 3 bytes))

/-- CLS_VALID (R315). -/
def execClsValid (p : Path) (v : BitVec 32) (s : State) : Res := .next (s.ownWrite p (ownEntry 0x3600 4 (leBytes 4 v.toNat)))

/-- Q_CONFIG_WRITE (R350). -/
def execQConfigWrite (p : Path) (bytes : List Byte) (s : State) : Res := .next (s.ownWrite p (ownEntry 0x3700 2 bytes))

/-- SS_CONFIG_WRITE (R349). -/
def execSsConfigWrite (p : Path) (bytes : List Byte) (s : State) : Res := .next (s.ownWrite p (ownEntry 0x3700 5 bytes))

/-- POL_CONFIG_WRITE (R355). -/
def execPolConfigWrite (p : Path) (bytes : List Byte) (s : State) : Res := .next (s.ownWrite p (ownEntry 0x3800 2 bytes))

/-- NOTICE_WRITE (R362). -/
def execNoticeWrite (p : Path) (bytes : List Byte) (s : State) : Res := .next (s.ownWrite p (ownEntry 0x5000 1 bytes))

/-- UNFENCE_WRITE (R378). -/
def execUnfenceWrite (p : Path) (v : BitVec 16) (s : State) : Res := .next (s.ownWrite p (ownEntry 0x5100 5 (leBytes 2 v.toNat)))

/-- RELEASE_JOB_WRITE (R385). -/
def execReleaseJobWrite (p : Path) (bytes : List Byte) (s : State) : Res := .next (s.ownWrite p (ownEntry 0x5000 4 bytes))

/-- VOL_CONFIG_WRITE (R417). -/
def execVolConfigWrite (p : Path) (bytes : List Byte) (s : State) : Res := .next (s.ownWrite p (ownEntry 0x6100 2 bytes))

/-- KV_SPACE_WRITE (R417). -/
def execKvSpaceWrite (p : Path) (v : BitVec 64) (s : State) : Res := .next (s.ownWrite p (ownEntry 0x6000 4 (leBytes 8 v.toNat)))

/-- CKPT_SPACE_WRITE (R417). -/
def execCkptSpaceWrite (p : Path) (v : BitVec 64) (s : State) : Res := .next (s.ownWrite p (ownEntry 0x6000 5 (leBytes 8 v.toNat)))

/-- SWITCH_REQUEST_WRITE (R454). -/
def execSwitchRequestWrite (p : Path) (v : BitVec 8) (s : State) : Res := .next (s.ownWrite p (ownEntry 0x7200 1 (leBytes 1 v.toNat)))

/-- NEXT_SECRET_WRITE (R451). -/
def execNextSecretWrite (p : Path) (bytes : List Byte) (s : State) : Res := .next (s.ownWrite p (ownEntry 0x7200 2 bytes))

/-- NEXT_OPK_WRITE (R450). -/
def execNextOpkWrite (p : Path) (bytes : List Byte) (s : State) : Res := .next (s.ownWrite p (ownEntry 0x7200 6 bytes))

/-- A write of `STAGE_CMD`. -/
def State.stageWrite (s : State) (p : Path) (v : Nat) : State := s.ownWrite p (ownEntry 0xB000 1 (leBytes 1 v))

/-- STAGE_BEGIN (R492). -/
def execStageBegin (p : Path) (s : State) : Res := .next (s.stageWrite p 1)

/-- STAGE_COMMIT (R492). -/
def execStageCommit (p : Path) (s : State) : Res := .next (s.stageWrite p 2)

/-- STAGE_ABORT (R492). -/
def execStageAbort (p : Path) (s : State) : Res := .next (s.stageWrite p 3)

/-- STAGE_ACTIVATE_RESET (R493). -/
def execStageActivateReset (p : Path) (s : State) : Res := .next (s.stageWrite p 4)

/-- STAGE_ACTIVATE_ANY (R493). -/
def execStageActivateAny (p : Path) (s : State) : Res := .next (s.stageWrite p 5)

/-- STAGE_CANCEL (R493). -/
def execStageCancel (p : Path) (s : State) : Res := .next (s.stageWrite p 6)

/-- STAGE_DATA_WRITE (R492). -/
def execStageDataWrite (p : Path) (bytes : List Byte) (s : State) : Res := .next (s.ownWrite p (ownEntry 0xB000 3 bytes))

/-- SVN_ADVANCE_WRITE (R494). -/
def execSvnAdvanceWrite (p : Path) (v : BitVec 8) (s : State) : Res := .next (s.ownWrite p (ownEntry 0xB010 9 (leBytes 1 v.toNat)))

/-- CAP_WRITE (R501). -/
def execCapWrite (p : Path) (v : BitVec 16) (s : State) : Res := .next (s.ownWrite p (ownEntry 0x8000 1 (leBytes 2 v.toNat)))

/-- RECORDER_FREEZE_WRITE (R528). -/
def execRecorderFreezeWrite (p : Path) (v : BitVec 8) (s : State) : Res := .next (s.ownWrite p (ownEntry 0x9100 2 (leBytes 1 v.toNat)))

/-- LOG_CLEAR_WRITE (R528). -/
def execLogClearWrite (p : Path) (v : BitVec 8) (s : State) : Res := .next (s.ownWrite p (ownEntry 0x9100 0xB (leBytes 1 v.toNat)))

/-- REC_SELECT_WRITE (R530). -/
def execRecSelectWrite (p : Path) (v : BitVec 32) (s : State) : Res := .next (s.ownWrite p (ownEntry 0x9100 6 (leBytes 4 v.toNat)))

/-- GENERIC_WRITE (R45): an object, a register, or the host's controls in configuration space. -/
def State.genericWrite (s : State) (w : GWrite) : State :=
  match w with
  | .object p idx sub typ value => s.ownWrite p ⟨idx, sub, false, typ, value⟩
  | .bar0 off v => s.bar0Write off.toNat v.toNat
  | .glove sl off v => s.gloveWrite sl off.toNat v.toNat
  | .config l1 l11 l12 l0p ats => s.setHost (fun h => { h with
      l1Enable := l1, l11Enable := l11, l12Enable := l12, l0pEnable := l0p, ats := ats, atsCache := if ats then h.atsCache else [] })

/-- GENERIC_WRITE. -/
def execGenericWrite (w : GWrite) (s : State) : Res := .next (s.genericWrite w)

end Sys2Proof.Machine
end

