-- ==== Sys2Proof/Machine/Switch.lean ====
section
/-!
DEFINITION. The tenant switch (Table 15-2, R454–R463), the clearing stages that end TEST, and the protection reboot.
-/
namespace Sys2Proof.Machine

/-! ### Stage 1 (R455) -/

/-- A SLICE_DESTROY in progress ends with SL_ABORTED (Table 15-5). -/
def State.abortDestroy (s : State) (sl : Nat) : State :=
  match (s.slice sl).destroyTag with
  | some g => (s.setSlice sl (fun x => { x with destroyTag := none })).admDone sl 0x0A 0 (BitVec.ofNat 32 g)
  | none => s

/-- A tenant switch starts at its tick: SWITCHING, with the bits of R455 clear and its events; every slice is torn down and
every connection released. -/
def State.switchStart (s : State) : State :=
  let id := (s.keys.secret.map Prod.fst).getD 0
  let t := { s with
    mod := { s.mod with svc := .switching, req := none, swFault := false }
    keys := { s.keys with stage := 1, committed := false } }
  let t := ((t.setObj 0x7200 7 1).event .operator 0x0F01 0 id 0).event .manager 0x0F01 0 id 0
  let t := (t.setFns [1, 2, 3, 4] false).acc (fun r => { r with switched := true })
  let ids := s.sliceIds
  (ids.foldl State.abortDestroy (ids.foldl State.sliceTear t)).dropAllConns

/-- Configuration that slices own returns to its defaults (Table 15-4): classification entries at or above `OP_ENTRIES`,
policers with a slice `OWNER`, and address-table entries owned by a slice. -/
def State.clearOwned (s : State) : State :=
  let op (v : Nat) : Bool := bit (bits v 175 160) 15
  s.setNet (fun n => { n with
    cls := n.cls.filter (fun e => decide (e.1 < s.obj 0x3600 2))
    polcfg := n.polcfg.filter (fun e => op e.2)
    meters := n.meters.filter (fun e => op (s.polcfg (e.1 % 4096)))
    addrs := n.addrs.filter (fun e => bit e.2 191) })

/-- Whether stage `n` of a tenant switch runs, or of the clearing that ends TEST. -/
def State.inStage (s : State) (n : Nat) : Bool :=
  decide (s.keys.stage = n) && (decide (s.mod.svc = .switching) || s.mod.testEnding)

/-- The next stage begins. -/
def State.toStage (s : State) (n : Nat) : State := s.setKeys (fun k => { k with stage := n })

/-- The end of stage 1: slices are FREE, host reads are abandoned, sequencers have stopped, and the flash tier stands as after a
loss of power (R455, R397). -/
def State.drainEnd (s : State) (us : Nat) : State :=
  if s.inStage 1 then
    let t := (s.sliceIds.foldl State.sliceFree s).clearOwned
    let t := t.setHost (fun h => { h with reqs := h.reqs.map (fun r => { r with abandoned := true }) })
    let t := { t with seqs := t.seqs.filter (fun e => e.1 == 16), share := [] }
    (((t.setFlash Flash.afterLoss).setFn 5 false).stageTime 1 us 20000).toStage 2
  else s

/-- DRAIN_STAGE_END. -/
def execDrainStageEnd (us : BitVec 32) (s : State) : Res := .next (s.drainEnd us.toNat)

/-! ### Stages 2 and 3 (R456) -/

/-- The end of stage 2: scratchpads, staging SRAM, sequencers other than the management core, queues, caches and key slots are
zero. -/
def State.clearEnd (s : State) (us : Nat) : State :=
  if s.inStage 2 then
    let t := (s.zeroRange 0x010000000000 0x40000000).zeroRange 0x010100000000 0x1000000
    let t := { t with
      spBad := [], routeCache := [], seqs := t.seqs.filter (fun e => e.1 == 16), share := []
      host := { t.host with atsCache := [] }
      keys := { t.keys with slots := [] }
      net := { t.net with exc := [], xpIn := [], toTunnel := [], txq := smapAll t.net.txq (fun _ q => { q with pkts := [] }) } }
    (t.stageTime 2 us 40).toStage 3
  else s

/-- CLEAR_STAGE_END. -/
def execClearStageEnd (us : BitVec 32) (s : State) : Res := .next (s.clearEnd us.toNat)

/-- The bound of stage 3 in µs under the cap (R454). -/
def State.zeroBound (s : State) : Nat := if s.obj 0x8000 1 < 1000 then 26000000 / s.obj 0x8000 1 else 26000

/-- Stacked memory with the reserve is zero, and with it the remote route table, the admin rings and the poison. -/
def State.zeroStacks (s : State) : State :=
  let t := s.zeroRange 0 0x00C000000000
  { t with
    routes := [], routeCache := [], adm := { t.adm with comp := [], sub := [] }
    host := t.host.noTables }

/-! ### Protection reboot (R453, R459, R48) -/

/-- The management core is reset and enters the boot ROM: the latch clears, MGI SRAM is zero, MGI's port holds its messages
(R28), and of the pending writes those for SWITCH and BOOT stay. -/
def State.protectReboot (s : State) : State :=
  let t := (s.setFns [0, 6] false).stageLost
  let t := { t with
    keys := { t.keys with stage := 5, latch := false }
    mod := { t.mod with jumped := false, holding := true, inbox := [], resetReq := 0, req := none }
    firm := { t.firm with phase := .verifyA }
    dict := { t.dict with pend := t.dict.pend.filter (fun w => w.bnd == Boundary.switch || w.bnd == Boundary.boot) }
    seqs := drop1 t.seqs 16 }
  t.clearSram 0x010200000000 0x800000

/-- The end of stage 3: stage 4 of a switch begins; the clearing that ends TEST goes on with its protection reboot, which passes
through BOOT. -/
def State.zeroEnd (s : State) (us : Nat) : State :=
  if s.inStage 3 then
    let t := s.zeroStacks
    if s.mod.svc = .switching then (t.stageTime 3 us s.zeroBound).toStage 4
    else
      let u := ((t.setFlash Flash.afterLoss).setFn 5 false).protectReboot
      { u with mod := { u.mod with svc := .boot } }
  else s

/-- ZERO_STAGE_END. -/
def execZeroStageEnd (us : BitVec 32) (s : State) : Res := .next (s.zeroEnd us.toNat)

/-! ### Stage 4 (R457, R458, R462) -/

/-- The record that stage 4 commits: the staged compartment, name and secret, a new media key, and the next epoch. -/
def State.nextRecord (s : State) (mk : Nat) : KeyRec :=
  let r := s.keys.record
  let c := s.keys.secret.getD (0, 0)
  { seq := r.seq + 1, compId := c.1, name := s.obj 0x7200 5, cs := some c.2, media := some mk, epoch := r.epoch + 1, opk := r.opk }

/-- The flash tier under a new media epoch: it mounts empty (R458, R398). -/
def Flash.newEpoch (f : Flash) : Flash :=
  { f with vols := [], lost := [], buf := [], map := [], dmap := [], waiting := [], flight := [], cmds := [] }

/-- MEDIA_KEY_COMMIT: the record is replaced in both copies and the protection reboot starts; where the random generator has
failed, the old media key is destroyed and nothing is committed. -/
def State.mediaCommit (s : State) (us mk : Nat) : State :=
  if s.inStage 4 then
    let t :=
      if s.keys.rngBad then
        let r := { s.keys.record with media := none }
        let u := s.setKeys (fun k => { k with copyA := r, copyB := r, committed := false })
        u.setFlash (fun f => { f with tier := .failed })
      else
        let r := s.nextRecord mk
        let u := s.setKeys (fun k => { k with copyA := r, copyB := r, committed := true, entered := s.mod.tick, setup := none })
        { u with flash := u.flash.newEpoch, ckpt := { u.ckpt with copies := [] } }
    (t.stageTime 4 us 1000).protectReboot
  else s

/-- MEDIA_KEY_COMMIT. -/
def execMediaKeyCommit (us : BitVec 32) (mk : BitVec 512) (s : State) : Res := .next (s.mediaCommit us.toNat mk.toNat)

/-! ### Entry to TEST (R463) -/

/-- Whether the flush that precedes TEST is complete: nothing accepted is held in the write buffer alone. -/
def Flash.allFlushed (f : Flash) : Bool :=
  !f.mounted || (f.buf.isEmpty && f.waiting.isEmpty && f.flight.isEmpty)

/-- TEST_ENTER. -/
def State.testEnter (s : State) : State :=
  if s.mod.flushing ∧ s.flash.allFlushed then
    { s with mod := { s.mod with svc := .test, req := none, flushing := false } }
  else s

/-- TEST_ENTER. -/
def execTestEnter (s : State) : Res := .next s.testEnter

end Sys2Proof.Machine
end

