-- ==== Sys2Proof/Machine/Tick.lean ====
section
/-!
DEFINITION. The management tick (R495): the tick commit that applies what is pending for TICK in one step (R46), the requests
checked again at the tick (R35, R40), and the values computed once per tick.
-/
namespace Sys2Proof.Machine

/-! ### Tick commit -/

/-- Apply one write that waits for the tick. -/
def State.commitOne (s : State) (w : PendWrite) : State :=
  let idx := w.key / 256
  let sub := w.key % 256
  if within idx 0x3000 0x3007 ∧ sub = 5 then s.portRequest (idx - 0x3000) w.value
  else match w.key with
    | 0x370002 => (s.qConfigApply w.sel w.value).qConfigZero w.sel w.value
    | 0x370005 => s.ssConfigApply w.sel w.value
    | 0x370007 => s.windowApply w.value
    | 0x380002 => s.polConfigApply w.sel w.value
    | 0x610002 => s.applyVol w.sel w.value
    | _ => s.setObj idx sub w.value

/-- Ethernet ports whose `ENABLE` or `MODE` changes at this tick go down and retrain (R309). -/
def State.ethChanges (s : State) (ws : List PendWrite) : State :=
  (List.range 8).foldl (fun t p =>
    if ws.any (fun w => w.key / 256 == 0x3400 + p && (w.key % 256 == 1 || w.key % 256 == 2) && w.value != s.obj (0x3400 + p) (w.key % 256))
    then (List.range 4).foldl (fun u i => u.ethDown (4 * p + i)) t else t) s

/-- Everything that waits for the tick takes effect in one step (R46). -/
def State.commitTick (s : State) : State :=
  let c := s.applyCounters
  let ws := c.dict.pend.filter (fun w => w.bnd == .tick)
  let t := (c.settleGuar.setDict (fun d => { d with pend := d.pend.filter (fun w => w.bnd != .tick) })).ethChanges ws
  (ws.foldl State.commitOne t).applyCeilings

/-- Pending island resets, checked again; one that would now abort lapses with its event (R40). -/
def State.commitResets (s : State) : State :=
  (List.range 26).foldl (fun t n =>
    if !(bit s.mod.resetReq n) then t
    else if t.resetCheck n 1 ≠ 0 then t.event .operator 0x0105 (0x2000 + n) 1 0
    else t.islandReset n) { s with mod := { s.mod with resetReq := 0 } }

/-- A request through `1021` or `7200:01` takes effect (R35, R455, R463). -/
def State.commitRequest (s : State) : State :=
  match s.mod.req with
  | some .switch => s.switchStart
  | some .enterTest =>
    if s.mod.flushing then s else { s.journalStart with mod := { s.journalStart.mod with flushing := true } }
  | some .endTest => { s with mod := { s.mod with req := none } }.startTestEnd
  | none => s

/-! ### Values computed once per tick -/

/-- `LINK_LIMIT` of the Ethernet ports under the power descent, and the guarantees that follow from it (R351, R505). -/
def State.linkLimits (s : State) : State :=
  (List.range 8).foldl (fun t p =>
    (t.setObj (0x3710 + p) 2 (if s.pow.linkStep = 16 then 0 else s.nominal p * s.pow.linkStep / 16)).guarTick p) s

/-- The readiness bits in one word. -/
def State.readyWord (s : State) : Nat := ((List.range 26).map (fun n => b2n (s.isReady n) * 2 ^ n)).sum

/-- What the descriptor of island n shows as of now (Table 1-2). -/
def State.islandView (s : State) (n : Nat) : IslandView :=
  let i := s.island n
  { ready := i.ready, istate := i.istate, straits := s.straitsUp n, resets := i.resets, code := i.code
    clk := min i.clk i.ceiling, counts := [0xD, 0xE, 0xF, 0x17].map (s.obj (0x2000 + n)) }

/-- The island descriptors, `TJ` and the readiness registers as of this tick (R13, R36, R49); the firmware has taken the messages
of its inbox (R28). -/
def State.tickShow (s : State) : State :=
  { s with mod := { s.mod with
      readyCopy := s.readyWord, inbox := []
      shown := (List.range 26).map s.islandView
      islands := s.mod.islands.map (fun i => { i with tjShown := i.tj }) } }

/-- What the tick saw of the management core's work (R495, R496). -/
def State.tickWork (s : State) (w : TickWork) : State :=
  let t := if w.unstarted then (s.count 0xB040 1 1).total 6 1 else s
  let t := w.late.foldl (fun u e =>
    let i := 0xB041 + e.1.val
    (u.count i 1 1).setObj i 3 (min (2 ^ 32 - 1) (max (u.obj i 3) e.2))) t
  let t := w.dropped.foldl (fun u k => u.count (0xB041 + k.val) 2 1) t
  let t := if w.tiering then t.count 0x4100 0xE 1 else t
  w.shares.foldl (fun u e => u.setObj (0xB041 + e.1.val) 4 e.2.toNat) t

/-- The commands in progress of queues that a fault halted end with their abort status (R426, R437). -/
def State.endHalted (s : State) : State :=
  let on (q : QCtx) : Bool := (s.queue q.slice.val q.slot.val).ending
  if s.host.slices.any (fun e => e.2.queues.any (fun q => q.2.ending)) then
    let t := (s.abortLaunches (fun l => (s.queue l.slice 0).ending)).abortQueues on
    { t with host := { t.host with slices := smapAll t.host.slices (fun _ x => { x with
        queues := smapAll x.queues (fun _ q => if q.ending then { q with ending := false, inflight := 0 } else q) }) } }
  else s

/-- What the firmware does at a tick. -/
def State.firmTick (s : State) (w : TickWork) : State :=
  let t := ((s.endHalted.commitTick).commitResets).commitRequest
  let t := ((List.range 8).foldl State.portTick t).linkLimits
  (((t.startDrains.tickShow.csRelease).admCheck).tickWork w).serveAll

/-- MANAGEMENT_TICK: the tick counts while the module is out of reset; the commit is the firmware's. -/
def State.mgmtTick (s : State) (w : TickWork) : State :=
  if !s.pins.pwrOk ∨ s.pins.inReset then s
  else
    let t := { s with
      mod := { s.mod with tick := s.mod.tick + 1 }
      net := { s.net with now := max s.net.now ((s.mod.tick + 1) * 1000000) } }
    (if t.fwRuns then t.firmTick w else t).pollRings

/-- MANAGEMENT_TICK. -/
def execManagementTick (w : TickWork) (s : State) : Res := .next (s.mgmtTick w)

end Sys2Proof.Machine
end

