-- ==== Sys2Proof/Machine/XpRx.lean ====
section
/-!
DEFINITION. The remote memory transport, receiving side (R323–R325, R329–R337, R339): the set-up of connections,
placement of sequenced packets, acknowledgement and errors.
-/
namespace Sys2Proof.Machine

/-- The packet has been given to the engine and is being served. -/
def State.takeXp (s : State) (p : XpPkt) : State := s.setNet (fun n => { n with xpIn := n.xpIn.erase p })

/-- A field of a payload in network byte order. -/
def payAt (d : List Byte) (o n : Nat) : Nat := beNat (bytesAt d o n)

/-! ### Set-up (R323, Table 10-7) -/

/-- The source address that a connection expects. -/
def Conn.peerKey (c : Conn) : Nat := if c.ipv4 then mapped4 (c.peer % 2 ^ 32) else c.peer

/-- The connection as which an address of this SP9 answers a packet that no connection takes. -/
def State.replyConn (s : State) (p : XpPkt) : Conn :=
  let v4 := p.src.toNat / 2 ^ 32 == 0xFFFF
  let idx := (s.net.addrs.find? (fun e => (s.addr e.1).holds p.dst.toNat)).map Prod.fst
  { (default : Conn) with
    device := true, cls := payAt p.data 5 1 % 16, ipv4 := v4, peer := p.src.toNat, laddr := idx.getD 0xFFFF
    pconn := payAt p.data 0 4, pincarn := payAt p.data 4 1 }

/-- Refuse a CONNECT. -/
def State.refuseConnect (s : State) (p : XpPkt) (reason : Nat) : State :=
  (s.sendXp (b2n p.ni) (s.replyConn p) { (default : XpOut) with op := 2, data := beBytes 1 reason ++ List.replicate 7 0 } 0 none).1

/-- Answer a CONNECT with ACCEPT. -/
def State.sendAccept (s : State) (k : Nat) : State :=
  s.sendCtl k 1 (beBytes 4 k ++ beBytes 1 (s.conn k).incarn ++ List.replicate 3 0)

/-- XP_CONNECT: a repeated CONNECT, a group's (R282), a listener's, or one for device use, which carries class 0. -/
def State.xpConnect (s : State) (p : XpPkt) : State :=
  let t := s.takeXp p
  let sconn := payAt p.data 0 4
  let sinc := payAt p.data 4 1
  let cls := payAt p.data 5 1 % 16
  let enc := payAt p.data 6 1 == 1
  let src := p.src.toNat
  match t.net.conns.find? (fun e => e.2.st == .established && !e.2.starter && e.2.pconn == sconn && e.2.pincarn == sinc &&
      e.2.peerKey == src) with
  | some e => t.sendAccept e.1
  | none =>
    let rdv := payAt p.data 8 8
    if cls = 0 ∧ rdv ≠ 0 then
      match t.net.conns.find? (fun e => e.2.st == .listen && e.2.group.isSome && e.2.rdv == rdv && e.2.peerKey == src) with
      | some e => (t.setConn e.1 (fun c => { c with st := .established, pconn := sconn, pincarn := sinc })).sendAccept e.1
      | none => t.refuseConnect p 0
    else if cls = 0 then
      let k := t.freeConn
      if t.ownFabric t.selfEp ≠ some p.dst.toNat ∨ t.obj 0x3500 7 ≤ t.deviceConns ∨ 131072 ≤ k then t.refuseConnect p 0
      else
        let c := { (t.replyConn p) with st := .established, laddr := 0xFFFF }
        (t.setConn k (fun _ => t.newConn k c)).sendAccept k
    else
      let fits (c : Conn) : Bool := c.st == .listen && c.group.isNone && c.rdv == payAt p.data 8 8 && (c.anyPeer || c.peerKey == src)
      match t.net.conns.find? (fun e => fits e.2 && e.2.enc == enc) with
      | some e =>
        (t.setConn e.1 (fun c => { c with
          st := .established, pconn := sconn, pincarn := sinc
          peer := if c.ipv4 then src % 2 ^ 32 else src })).sendAccept e.1
      | none => t.refuseConnect p (if t.net.conns.any (fun e => fits e.2) then 1 else 0)

/-- XP_CONNECT. -/
def execXpConnect (p : XpPkt) (now : Nat) (s : State) : Res := .next ((s.at now).xpConnect p)

/-- Whether a packet is for a connection in a state, by number and incarnation. -/
def State.isFor (s : State) (p : XpPkt) (st : List ConnState) : Bool :=
  let c := s.conn p.dconn.toNat
  decide (p.dconn.toNat < 131072) && st.contains c.st && p.incarn.toNat == c.incarn

/-- A packet that R324 drops. -/
def State.stale (s : State) (p : XpPkt) : State := (s.takeXp p).count 0x3500 0x12 1

/-- XP_ACCEPT. -/
def State.xpAccept (s : State) (p : XpPkt) : State :=
  let k := p.dconn.toNat
  if !(s.isFor p [.connecting]) then s.stale p
  else
    let t := (s.takeXp p).setConn k (fun c => { c with
      st := .established, pconn := payAt p.data 0 4, pincarn := payAt p.data 4 1, opener := none })
    match (s.conn k).opener with
    | some q => t.finish q 0 k (s.conn k).incarn
    | none => t

/-- XP_ACCEPT. -/
def execXpAccept (p : XpPkt) (s : State) : Res := .next (s.xpAccept p)

/-- XP_REFUSE. -/
def execXpRefuse (p : XpPkt) (now : Nat) (s : State) : Res :=
  .next (if s.isFor p [.connecting] then ((s.at now).takeXp p).connReset p.dconn.toNat 0x08 true else s.stale p)

/-- XP_RESET_PACKET: ERROR without a RESET in return. -/
def execXpResetPacket (p : XpPkt) (now : Nat) (s : State) : Res :=
  .next (if s.isFor p [.established, .closing] then ((s.at now).takeXp p).connReset p.dconn.toNat 0x07 false else s.stale p)

/-- XP_CLOSE. -/
def execXpClose (p : XpPkt) (now : Nat) (s : State) : Res :=
  .next (if s.isFor p [.established, .closing] then
      (((s.at now).takeXp p).setConn p.dconn.toNat (fun c => { c with closeRx := true })).tryClose p.dconn.toNat
    else s.stale p)

/-! ### Opening a packet (R324, R339) -/

/-- The header of a received packet, as additional authenticated data. -/
def XpPkt_aad (p : XpPkt) (n : Nat) : List Byte :=
  xpHeader ⟨p.op.toNat, b2n p.final + 2 * b2n p.first + 4 * b2n p.last + 16 * b2n p.ackreq + 32 * b2n p.notify, p.psn.toNat,
    p.msn.toNat, p.addr.toNat, p.aux.toNat, List.replicate n 0⟩ p.enc p.incarn.toNat p.dconn.toNat p.kslot.toNat

/-- Check and open a packet of a connection, then `k` on the plain payload. -/
def State.xpOpen (s : State) (p : XpPkt) (k : Nat → State → List Byte → State) : State :=
  if !(s.isFor p [.established, .closing]) then s.stale p
  else
    let t := s.takeXp p
    let id := p.dconn.toNat
    let c := t.conn id
    if c.enc != p.enc then t.count 0x3500 0x1B 1
    else if !p.enc then k id t p.data
    else
      let ks := t.kslot c.kslot
      let n := p.data.length
      if ks.st = .exhausted then t.connReset id 0x0C true
      else if ks.st ≠ .active then t.count 0x3500 0x1B 1
      else
        let ctr := payAt p.data 0 8
        match gcmOpen (leBytes 32 ks.key) (slotNonce ks.fixed c.starter ctr) (XpPkt_aad p (n - 24)) ((p.data.drop 8).take (n - 24))
            (p.data.drop (n - 16)) with
        | none => t.count 0x3500 0x1B 1
        | some d =>
          let u := t.setKslot c.kslot (fun x =>
            if c.starter then { x with win1 := x.win1.take 65 ctr } else { x with win0 := x.win0.take 65 ctr })
          k id (u.invoke c.slice c.kslot) d

/-! ### Placement (R335–R337) -/

/-- How the placement of a packet ends: done or answered, to be sent again, or refused with a status. -/
inductive Placed
  | done | wait | fail (status : Nat)
deriving DecidableEq, Repr

/-- Bytes overwritten at an offset, with zeros up to it. -/
def overwrite (l : List Byte) (o : Nat) (r : List Byte) : List Byte :=
  splice (l ++ List.replicate (o + r.length - l.length) 0) o r

/-- Write BUDDY space: only to the area held for the predecessor, on its connection, while its copy is in
progress (R368). -/
def State.buddyWrite (s : State) (c : Conn) (addr : Nat) (d : List Byte) : State × Placed :=
  let off := addr % 2 ^ 60
  let ok (j : Job) : Bool :=
    let m := j.nodes.length
    c.device && bits addr 62 61 == 0 && j.taking && decide (off + d.length ≤ j.bytes) &&
      (if m = 0 then false else s.fabric (j.nodes.getD ((j.index + m - 1) % m) 0) == some c.peer)
  match s.ckpt.jobs.find? (fun e => ok e.2) with
  | some e => (s.setJob e.1 (fun j => { j with buddy := overwrite j.buddy off d, buddyGen := 0 }), .done)
  | none => (s, .fail 0x04)

/-- A receive completion: status, length and `IMM`. -/
def State.rxDone (s : State) (c : Conn) (slot : Nat) (tag : BitVec 32) (status len imm : Nat) : State :=
  s.finish ⟨Fin.ofNat _ c.slice, Fin.ofNat _ slot, tag⟩ status len imm

/-- WRITE, and its notification. -/
def State.placeWrite (s : State) (c : Conn) (p : XpPkt) (d : List Byte) : State × Placed :=
  let a := p.addr.toNat
  if 2 ^ 63 ≤ a then s.buddyWrite c a d
  else if c.device ∨ !(bit c.allow 0) then (s, .fail 0x04)
  else match s.vwrite c.slice c.pasid a d with
    | (t, .ok _) =>
      if p.final && p.notify then
        match t.queueOfKind c.slice c.rq 8 with
        | some slot => (t.rxDone c slot 0 0 0 p.aux.toNat, .done)
        | none => (t, .done)
      else (t, .done)
    | (t, .xlate) => (t, .fail 0x04)
    | (t, .memerr) => (t, .fail 0x05)

/-- READ_REQ: checked and answered with READ_RSP packets, which read their data when they are sent. -/
def State.placeReadReq (s : State) (k : Nat) (c : Conn) (p : XpPkt) : State × Placed :=
  let a := p.addr.toNat
  let n := p.aux.toNat
  let size := s.paySize (k % 2)
  let cnt := (n + size - 1) / size
  let rsp (t : State) : State × Placed :=
    (t.setConn k (fun x => { x with outs := x.outs ++ (List.range cnt).map (fun i =>
      (p.msn.toNat, .readRsp (i * size) (a + i * size) (min size (n - i * size)) (i == 0) (i + 1 == cnt))) }), .done)
  if 2 ^ 63 ≤ a then
    (if (s.buddyRead c a n).isSome then rsp s else (if s.digestBad c a n then s.count 0x5000 0xB 1 else s, .fail 0x04))
  else if c.device ∨ !(bit c.allow 1) then (s, .fail 0x04)
  else match s.vread c.slice c.pasid a n with
    | (t, .ok _) => rsp t
    | (t, .xlate) => (t, .fail 0x04)
    | (t, .memerr) => (t, .fail 0x05)

/-- The work request that a response answers. -/
def Conn.wrOf (c : Conn) (msn op : Nat) : Option Wr := c.wrs.find? (fun w => w.msn == msn && w.op == op && !w.done)

/-- Place response data for a work request at an offset of its buffer. -/
def State.placeRsp (s : State) (k : Nat) (c : Conn) (p : XpPkt) (op off : Nat) (d : List Byte) : State × Placed :=
  match c.wrOf p.msn.toNat op with
  | none => (s, .done)
  | some w =>
    match s.vwrite c.slice c.pasid (w.cmd.laddr.toNat + off) (d.take (w.cmd.len.toNat - off)) with
    | (t, .ok _) =>
      (t.setConn k (fun x => { x with wrs := x.wrs.map (fun y =>
        if y.msn = w.msn then { y with got := min w.cmd.len.toNat (y.got + d.length) } else y) }), .done)
    | (t, .xlate) => (t.connError k 0x02 (resetBut w.msn 0x02) true, .done)
    | (t, .memerr) => (t.connError k 0x03 (resetBut w.msn 0x03) true, .done)

/-- ATOMIC: executed once, and answered with the old value. -/
def State.placeAtomic (s : State) (k : Nat) (c : Conn) (p : XpPkt) (d : List Byte) : State × Placed :=
  let a := p.addr.toNat
  if c.device ∨ !(bit c.allow 2) ∨ a % 8 ≠ 0 ∨ 2 ^ 63 ≤ a ∨ 1 < p.aux.toNat then (s, .fail 0x04)
  else if !(s.mapped c.slice c.pasid a 8 true) then (s, .fail 0x04)
  else match s.vread c.slice c.pasid a 8 with
    | (t, .ok bs) =>
      let old := leNat bs
      match t.vwrite c.slice c.pasid a (leBytes 8 (atomicNew (p.aux == 1) old (payAt d 0 8) (payAt d 8 8))) with
      | (u, .ok _) => (u.setConn k (fun x => { x with outs := x.outs ++ [(p.msn.toNat, .atomicRsp old)] }), .done)
      | (u, _) => (u, .fail 0x05)
    | (t, .xlate) => (t, .fail 0x04)
    | (t, .memerr) => (t, .fail 0x05)

/-- SEND: the n-th fills the n-th receive buffer of the connection. On a device connection it carries a cohort message, which comes as
the command of its own that Table 12-12 names (R384). -/
def State.placeSend (s : State) (k : Nat) (c : Conn) (p : XpPkt) (d : List Byte) : State × Placed :=
  if c.device then (s, .done) else
  let no := p.addr.toNat / 2 ^ 32
  let off := p.addr.toNat % 2 ^ 32
  let rnr : State × Placed := (s.count 0x3500 0x1A 1, .wait)
  match s.queueOfKind c.slice c.rq 8 with
  | none => rnr
  | some slot =>
    let rk := recvKey c.slice slot
    match (sget s.net.recv rk).bufs.find? (fun e => e.1 == c.rqBase + no) with
    | none => rnr
    | some (i, b) =>
      let drop (t : State) : State := t.setNet (fun n => { n with recv := smod n.recv rk (fun r => { r with bufs := drop1 r.bufs i }) })
      if b.len < off + d.length then ((drop s).rxDone c slot b.tag 0x01 0 0, .fail 0x04)
      else match s.vwrite c.slice c.pasid (b.addr + off) d with
        | (t, .ok _) =>
          let r0 := sget c.rxSends no
          let r : RxSend := { got := r0.got + d.length, total := if p.last then off + d.length else r0.total
                              imm := if p.last then p.aux.toNat else r0.imm }
          if r.total ≠ 0 ∧ r.got = r.total then
            ((drop (t.setConn k (fun x => { x with rxSends := drop1 x.rxSends no }))).rxDone c slot b.tag 0 r.total r.imm, .done)
          else (t.setConn k (fun x => { x with rxSends := ins x.rxSends no r }), .done)
        | (t, .xlate) => ((drop t).rxDone c slot b.tag 0x02 0 0, .fail 0x04)
        | (t, .memerr) => ((drop t).rxDone c slot b.tag 0x03 0 0, .fail 0x05)

/-- Hand assembled transactions to the switch in MSN order (R337); those that the slice's step boundary holds
are counted (R302). -/
def State.handOver (k : Nat) : Nat → State → State
  | 0, s => s
  | n + 1, s =>
    let c := s.conn k
    match c.ready.find? (fun e => e.1 == c.inMsn) with
    | none => s
    | some (i, t) =>
      let u := (s.setConn k (fun x => { x with ready := drop1 x.ready i, inMsn := (x.inMsn + 1) % 2 ^ 32 })).arriveFar (16 + k % 2) t
      State.handOver k n (if s.heldBack tunnelPort t then u.count 0x3200 0x0A 1 else u)

/-- EPJOR: a piece of a tunnelled transaction. -/
def State.placeEpjor (s : State) (k : Nat) (c : Conn) (p : XpPkt) (d : List Byte) : State × Placed :=
  if !c.device then (s, .fail 0x04)
  else
    let m := p.msn.toNat
    let off := p.aux.toNat
    let r0 := sget c.rxSends m
    let r : RxSend := { got := r0.got + d.length, total := if p.last then off + d.length else r0.total, imm := 0 }
    let bs := overwrite (look [] c.part m) off d
    if r.total ≠ 0 ∧ r.got = r.total then
      let t : Txn := ⟨hatOf (leNat (bs.take 16)), bs.drop 16, true⟩
      (State.handOver k (c.ready.length + 1) (s.setConn k (fun x => { x with
        part := drop1 x.part m, rxSends := drop1 x.rxSends m, ready := ins x.ready m t, lastUse := s.net.now })), .done)
    else (s.setConn k (fun x => { x with part := ins x.part m bs, rxSends := ins x.rxSends m r, lastUse := s.net.now }), .done)

/-- Place or execute a sequenced packet. -/
def State.place (s : State) (k : Nat) (p : XpPkt) (d : List Byte) : State × Placed :=
  let c := s.conn k
  match p.op.toNat with
  | 4 => s.placeWrite c p d
  | 5 => s.placeReadReq k c p
  | 6 => s.placeRsp k c p 2 p.addr.toNat d
  | 7 => s.placeAtomic k c p d
  | 8 => s.placeRsp k c p 3 0 (d.take 8).reverse
  | 9 => s.placeSend k c p d
  | 0xA => s.placeEpjor k c p d
  | 0xD => (s.connError k (payAt d 4 1) (resetBut (payAt d 0 4) (payAt d 4 1)) true, .done)
  | _ => (s, .done)

/-! ### Sequence and acknowledgement (R329, R330, R334, R336) -/

/-- CUM moves over consecutive received PSNs. -/
def cumRun : Nat → Nat → List Nat → Nat × List Nat
  | 0, c, g => (c, g)
  | n + 1, c, g => if g.contains c then cumRun n ((c + 1) % 2 ^ 32) (g.erase c) else (c, g)

/-- Mark a PSN received. -/
def Conn.mark (c : Conn) (psn : Nat) : Conn :=
  let r := cumRun (c.got.length + 1) c.cum (psn :: c.got)
  { c with cum := r.1, got := r.2 }

/-- Answer a packet with ERR_RSP and enter ERROR (R325, R335). -/
def State.errRsp (s : State) (k msn status : Nat) : State :=
  let c := s.conn k
  let r := s.sendXp k c { (default : XpOut) with
    op := 0xD, flags := xpFlags false true true false, psn := c.psn, data := beBytes 4 msn ++ beBytes 1 status ++ beBytes 3 0 } 1 none
  r.1.connReset k status true

/-- Whether a packet is held at the step boundary of its connection's slice (R334). -/
def State.xpHeld (s : State) (c : Conn) (p : XpPkt) : Bool :=
  !c.device && [4, 7, 0xA, 0xB].contains p.op.toNat && s.holding c.slice

/-- Hold a packet: it is neither placed nor acknowledged, and counted once (R334). -/
def State.holdXp (s : State) (k psn : Nat) : State :=
  if (s.conn k).heldPsns.contains psn then s
  else (s.setConn k (fun x => { x with heldPsns := x.heldPsns ++ [psn] })).count 0x3200 0x0A 1

/-- Mark a packet received, and place the FINAL packets that waited for it. -/
def State.settled (k : Nat) : Nat → State → Nat → State
  | 0, s, psn => s.setConn k (fun c => c.mark psn)
  | n + 1, s, psn =>
    let t := s.setConn k (fun c => c.mark psn)
    let c := t.conn k
    match c.finals.find? (fun f => f.psn.toNat == c.cum) with
    | none => t
    | some f =>
      let u := t.setConn k (fun x => { x with finals := x.finals.erase f })
      if u.xpHeld c f then u.holdXp k f.psn.toNat
      else match u.place k f f.data with
      | (v, .done) => State.settled k n v f.psn.toNat
      | (v, .wait) => v
      | (v, .fail st) => ((v.setConn k (fun x => x.mark f.psn.toNat)).sendAck k).errRsp k f.msn.toNat st

/-- A sequenced packet. -/
def State.xpSequenced (s : State) (p : XpPkt) : State :=
  s.xpOpen p (fun k t0 d =>
    let t := if p.ce then t0.setConn k (fun c => { c with ce := (c.ce + 1) % 2 ^ 32 }) else t0
    let c := t.conn k
    let psn := p.psn.toNat
    let dist := (psn + 2 ^ 32 - c.cum) % 2 ^ 32
    let echo (u : State) : State := if p.ce then u.sendAck k else u
    if 2 ^ 31 ≤ dist then t.sendAck k
    else if 65536 ≤ dist then echo (t.count 0x3500 0x15 1)
    else if c.got.contains psn then t.sendAck k
    else if t.xpHeld c p then (t.holdXp k psn).sendAck k
    else if p.final && dist != 0 then
      (if c.finals.any (fun f => f.psn == p.psn) then t
       else t.setConn k (fun x => { x with finals := x.finals ++ [{ p with data := d }] })).sendAck k
    else match (t.setConn k (fun x => { x with finals := x.finals.filter (fun f => f.psn != p.psn) })).place k p d with
      | (u, .wait) => echo u
      | (u, .fail st) => ((u.setConn k (fun x => x.mark psn)).sendAck k).errRsp k p.msn.toNat st
      | (u, .done) =>
        let v := State.settled k c.finals.length u psn
        let now := p.ce || p.ackreq || dist != 0 || c.got != [] || decide (t.cls c 0xD ≤ c.unacked + 1)
        if (v.conn k).st = .closed ∨ (v.conn k).st = .error then v
        else if now then v.sendAck k
        else v.setConn k (fun x => { x with unacked := x.unacked + 1 }))

/-- A packet of one opcode. -/
def State.xpOp (s : State) (op : Nat) (p : XpPkt) (now : Nat) : State :=
  if p.op.toNat = op then ((s.at now).xpSequenced p).keyLimits else s

/-- XP_WRITE. -/
def execXpWrite (p : XpPkt) (now : Nat) (s : State) : Res := .next (s.xpOp 4 p now)

/-- XP_READ_REQ. -/
def execXpReadReq (p : XpPkt) (now : Nat) (s : State) : Res := .next (s.xpOp 5 p now)

/-- XP_READ_RSP. -/
def execXpReadRsp (p : XpPkt) (now : Nat) (s : State) : Res := .next (s.xpOp 6 p now)

/-- XP_ATOMIC. -/
def execXpAtomic (p : XpPkt) (now : Nat) (s : State) : Res := .next (s.xpOp 7 p now)

/-- XP_ATOMIC_RSP. -/
def execXpAtomicRsp (p : XpPkt) (now : Nat) (s : State) : Res := .next (s.xpOp 8 p now)

/-- XP_SEND. -/
def execXpSend (p : XpPkt) (now : Nat) (s : State) : Res := .next (s.xpOp 9 p now)

/-- XP_EPJOR. -/
def execXpEpjor (p : XpPkt) (now : Nat) (s : State) : Res := .next (s.xpOp 0xA p now)

/-- XP_ERR_RSP. -/
def execXpErrRsp (p : XpPkt) (now : Nat) (s : State) : Res := .next (s.xpOp 0xD p now)

/-! ### ACK (R328, R331–R334) -/

/-- What an ACK changes in its connection; `cut`, `low` and `high` come from its class. -/
def State.ackConn (s : State) (c : Conn) (d : List Byte) : Conn × Bool :=
  let cum := payAt d 0 4
  let adv := (cum + 2 ^ 32 - c.una) % 2 ^ 32
  let ok := decide (adv ≤ (c.psn + 2 ^ 32 - c.una) % 2 ^ 32)
  let sack := payAt d 16 32
  let hold := bit (payAt d 8 1) 0
  let raise := (payAt d 4 4 + 2 ^ 32 - c.peerCe) % 2 ^ 32
  let ce := decide (1 ≤ raise) && decide (raise < 2 ^ 31)
  let cut := ce && (c.lastCut == 0 || decide (c.lastCut + s.cls c 5 * 1000 ≤ s.net.now))
  let recs := if ok then (c.recs.filter (fun e => decide (adv ≤ (e.1 + 2 ^ 32 - c.una) % 2 ^ 32))).map (fun e =>
      let i := (e.1 + 2 ^ 32 - cum - 1) % 2 ^ 32
      if i < 256 ∧ bit sack i then (e.1, { e.2 with acked := true }) else e) else c.recs
  let x : Conn := { c with
    una := if ok then cum else c.una, recs := recs, timeouts := if ok ∧ adv ≠ 0 then 0 else c.timeouts
    hold := hold, peerCe := if ce then payAt d 4 4 else c.peerCe, ceSeen := c.ceSeen || ce
    rate := if cut then s.clampRate c (c.rate * (256 - s.cls c 4) / 256) else c.rate
    lastCut := if cut then max 1 s.net.now else c.lastCut
    tunnels := c.tunnels.filter (fun u => recs.any (fun e => e.2.msn == u.msn && !e.2.acked) || c.outs.any (fun o => o.1 == u.msn)) }
  ((if c.hold && !hold then x.retry (fun _ _ => true) else x).reorder (s.cls c 0xA) s.net.now, cut)

/-- XP_ACK. -/
def State.xpAck (s : State) (p : XpPkt) : State :=
  s.xpOpen p (fun k t d =>
    let r := t.ackConn (t.conn k) d
    let u := t.setConn k (fun _ => r.1)
    (if r.2 then u.count 0x3500 0x19 1 else u).tryClose k)

/-- XP_ACK. -/
def execXpAck (p : XpPkt) (now : Nat) (s : State) : Res := .next (if p.op.toNat = 0xC then ((s.at now).xpAck p).keyLimits else s)

end Sys2Proof.Machine
end

