-- ==== Sys2Proof/Machine/Dispatch.lean ====
section
/-!
DEFINITION. What each command does: one arm per command of the table, each a direct call of its
meaning or a rejection by name.
-/
namespace Sys2Proof.Machine

def exec (i : Instr) (s : State) : Host.Outcome State Fault Refusal :=
  match i with
  | .vinRise => Sys2Proof.Machine.execVinRise s
  | .vinFall => Sys2Proof.Machine.execVinFall s
  | .perstNAssert => Sys2Proof.Machine.execPerstNAssert s
  | .perstNRelease pins => Sys2Proof.Machine.execPerstNRelease pins s
  | .refclk100Loss => Sys2Proof.Machine.execRefclk100Loss s
  | .refclk100Return => Sys2Proof.Machine.execRefclk100Return s
  | .refclk156Loss => Sys2Proof.Machine.execRefclk156Loss s
  | .refclk156Return => Sys2Proof.Machine.execRefclk156Return s
  | .cableMate k => Sys2Proof.Machine.execCableMate k s
  | .cableUnmate k => Sys2Proof.Machine.execCableUnmate k s
  | .bankVerifyComplete ra rb us => Sys2Proof.Machine.execBankVerifyComplete ra rb us s
  | .provisionTimeout => Sys2Proof.Machine.execProvisionTimeout s
  | .firstOpkLoWrite v => Sys2Proof.Machine.execFirstOpkLoWrite v s
  | .firstOpkHiWrite v => Sys2Proof.Machine.execFirstOpkHiWrite v s
  | .firstOpkCommitWrite v => Sys2Proof.Machine.execFirstOpkCommitWrite v s
  | .selftestDone n code => Sys2Proof.Machine.execSelftestDone n code s
  | .bringupComplete => Sys2Proof.Machine.execBringupComplete s
  | .recoveryExit => Sys2Proof.Machine.execRecoveryExit s
  | .resetCmdWrite p n v => Sys2Proof.Machine.execResetCmdWrite p n v s
  | .islandReset n => Sys2Proof.Machine.execIslandReset n s
  | .straitUnitReceive x toMi u corrected bad => Sys2Proof.Machine.execStraitUnitReceive x toMi u corrected bad s
  | .straitRetransmit x toMi => Sys2Proof.Machine.execStraitRetransmit x toMi s
  | .straitCreditReturn x toMi => Sys2Proof.Machine.execStraitCreditReturn x toMi s
  | .csReady src dest pl err => Sys2Proof.Machine.execCsReady src dest pl err s
  | .csError src dest pl err => Sys2Proof.Machine.execCsError src dest pl err s
  | .csBarrier src dest pl err => Sys2Proof.Machine.execCsBarrier src dest pl err s
  | .csStep src dest pl err => Sys2Proof.Machine.execCsStep src dest pl err s
  | .csDoorbell src dest pl err => Sys2Proof.Machine.execCsDoorbell src dest pl err s
  | .csCredit src dest pl err => Sys2Proof.Machine.execCsCredit src dest pl err s
  | .managementTick w => Sys2Proof.Machine.execManagementTick w s
  | .testEnter => Sys2Proof.Machine.execTestEnter s
  | .stateRequestEnterTest p => Sys2Proof.Machine.execStateRequestEnterTest p s
  | .stateRequestEndTest p => Sys2Proof.Machine.execStateRequestEndTest p s
  | .genericWrite w => Sys2Proof.Machine.execGenericWrite w s
  | .odpRequest src bytes serve => Sys2Proof.Machine.execOdpRequest src bytes serve s
  | .mbxGo length count write serve => Sys2Proof.Machine.execMbxGo length count write serve s
  | .mbxDoneClear => Sys2Proof.Machine.execMbxDoneClear s
  | .mbxOverrunClear => Sys2Proof.Machine.execMbxOverrunClear s
  | .i3cPrivateWrite addr bytes serve => Sys2Proof.Machine.execI3cPrivateWrite addr bytes serve s
  | .i3cPrivateRead addr => Sys2Proof.Machine.execI3cPrivateRead addr s
  | .wmbSelWrite page v => Sys2Proof.Machine.execWmbSelWrite page v s
  | .wmbCapture page => Sys2Proof.Machine.execWmbCapture page s
  | .wideHiWrite page off hi => Sys2Proof.Machine.execWideHiWrite page off hi s
  | .barBadAccess write => Sys2Proof.Machine.execBarBadAccess write s
  | .bar4Read sl off len ue => Sys2Proof.Machine.execBar4Read sl off len ue s
  | .bar4Write sl off bytes ue => Sys2Proof.Machine.execBar4Write sl off bytes ue s
  | .add h rd ra rb => Sys2Proof.Machine.execAdd h rd ra rb s
  | .sub h rd ra rb => Sys2Proof.Machine.execSub h rd ra rb s
  | .and h rd ra rb => Sys2Proof.Machine.execAnd h rd ra rb s
  | .or h rd ra rb => Sys2Proof.Machine.execOr h rd ra rb s
  | .xor h rd ra rb => Sys2Proof.Machine.execXor h rd ra rb s
  | .andn h rd ra rb => Sys2Proof.Machine.execAndn h rd ra rb s
  | .shl h rd ra rb => Sys2Proof.Machine.execShl h rd ra rb s
  | .shr h rd ra rb => Sys2Proof.Machine.execShr h rd ra rb s
  | .sra h rd ra rb => Sys2Proof.Machine.execSra h rd ra rb s
  | .min h rd ra rb => Sys2Proof.Machine.execMin h rd ra rb s
  | .max h rd ra rb => Sys2Proof.Machine.execMax h rd ra rb s
  | .minu h rd ra rb => Sys2Proof.Machine.execMinu h rd ra rb s
  | .maxu h rd ra rb => Sys2Proof.Machine.execMaxu h rd ra rb s
  | .clz h rd ra rb => Sys2Proof.Machine.execClz h rd ra rb s
  | .ctz h rd ra rb => Sys2Proof.Machine.execCtz h rd ra rb s
  | .popc h rd ra rb => Sys2Proof.Machine.execPopc h rd ra rb s
  | .mul h rd ra rb => Sys2Proof.Machine.execMul h rd ra rb s
  | .mulh h rd ra rb => Sys2Proof.Machine.execMulh h rd ra rb s
  | .mulhu h rd ra rb => Sys2Proof.Machine.execMulhu h rd ra rb s
  | .div h rd ra rb => Sys2Proof.Machine.execDiv h rd ra rb s
  | .divu h rd ra rb => Sys2Proof.Machine.execDivu h rd ra rb s
  | .rem h rd ra rb => Sys2Proof.Machine.execRem h rd ra rb s
  | .remu h rd ra rb => Sys2Proof.Machine.execRemu h rd ra rb s
  | .addi h rd ra imm => Sys2Proof.Machine.execAddi h rd ra imm s
  | .andi h rd ra imm => Sys2Proof.Machine.execAndi h rd ra imm s
  | .ori h rd ra imm => Sys2Proof.Machine.execOri h rd ra imm s
  | .xori h rd ra imm => Sys2Proof.Machine.execXori h rd ra imm s
  | .shli h rd ra imm => Sys2Proof.Machine.execShli h rd ra imm s
  | .shri h rd ra imm => Sys2Proof.Machine.execShri h rd ra imm s
  | .srai h rd ra imm => Sys2Proof.Machine.execSrai h rd ra imm s
  | .muli h rd ra imm => Sys2Proof.Machine.execMuli h rd ra imm s
  | .li h rd imm => Sys2Proof.Machine.execLi h rd imm s
  | .lit h rd imm => Sys2Proof.Machine.execLit h rd imm s
  | .cmpEq h pt pf ra rb => Sys2Proof.Machine.execCmpEq h pt pf ra rb s
  | .cmpLt h pt pf ra rb => Sys2Proof.Machine.execCmpLt h pt pf ra rb s
  | .cmpLtu h pt pf ra rb => Sys2Proof.Machine.execCmpLtu h pt pf ra rb s
  | .cmpGt h pt pf ra rb => Sys2Proof.Machine.execCmpGt h pt pf ra rb s
  | .cmpGtu h pt pf ra rb => Sys2Proof.Machine.execCmpGtu h pt pf ra rb s
  | .cmpTst h pt pf ra rb => Sys2Proof.Machine.execCmpTst h pt pf ra rb s
  | .cmpiEq h pt pf ra imm => Sys2Proof.Machine.execCmpiEq h pt pf ra imm s
  | .cmpiLt h pt pf ra imm => Sys2Proof.Machine.execCmpiLt h pt pf ra imm s
  | .cmpiLtu h pt pf ra imm => Sys2Proof.Machine.execCmpiLtu h pt pf ra imm s
  | .cmpiGt h pt pf ra imm => Sys2Proof.Machine.execCmpiGt h pt pf ra imm s
  | .cmpiGtu h pt pf ra imm => Sys2Proof.Machine.execCmpiGtu h pt pf ra imm s
  | .pand h pd pa pb un => Sys2Proof.Machine.execPand h pd pa pb un s
  | .por h pd pa pb un => Sys2Proof.Machine.execPor h pd pa pb un s
  | .pxor h pd pa pb un => Sys2Proof.Machine.execPxor h pd pa pb un s
  | .pandn h pd pa pb un => Sys2Proof.Machine.execPandn h pd pa pb un s
  | .porn h pd pa pb un => Sys2Proof.Machine.execPorn h pd pa pb un s
  | .mfp h rd ra rb => Sys2Proof.Machine.execMfp h rd ra rb s
  | .mtp h rd ra rb => Sys2Proof.Machine.execMtp h rd ra rb s
  | .br h off => Sys2Proof.Machine.execBr h off s
  | .call h off => Sys2Proof.Machine.execCall h off s
  | .jr h rd ra rb => Sys2Proof.Machine.execJr h rd ra rb s
  | .callr h rd ra rb => Sys2Proof.Machine.execCallr h rd ra rb s
  | .ret h rd ra rb => Sys2Proof.Machine.execRet h rd ra rb s
  | .ldb h rt bs off => Sys2Proof.Machine.execLdb h rt bs off s
  | .ldh h rt bs off => Sys2Proof.Machine.execLdh h rt bs off s
  | .ldw h rt bs off => Sys2Proof.Machine.execLdw h rt bs off s
  | .ldd h rt bs off => Sys2Proof.Machine.execLdd h rt bs off s
  | .ldbs h rt bs off => Sys2Proof.Machine.execLdbs h rt bs off s
  | .ldhs h rt bs off => Sys2Proof.Machine.execLdhs h rt bs off s
  | .ldws h rt bs off => Sys2Proof.Machine.execLdws h rt bs off s
  | .stb h rt bs off => Sys2Proof.Machine.execStb h rt bs off s
  | .sth h rt bs off => Sys2Proof.Machine.execSth h rt bs off s
  | .stw h rt bs off => Sys2Proof.Machine.execStw h rt bs off s
  | .std h rt bs off => Sys2Proof.Machine.execStd h rt bs off s
  | .ldbx h rd ra imm => Sys2Proof.Machine.execLdbx h rd ra imm s
  | .ldhx h rd ra imm => Sys2Proof.Machine.execLdhx h rd ra imm s
  | .ldwx h rd ra imm => Sys2Proof.Machine.execLdwx h rd ra imm s
  | .lddx h rd ra imm => Sys2Proof.Machine.execLddx h rd ra imm s
  | .ldbsx h rd ra imm => Sys2Proof.Machine.execLdbsx h rd ra imm s
  | .ldhsx h rd ra imm => Sys2Proof.Machine.execLdhsx h rd ra imm s
  | .ldwsx h rd ra imm => Sys2Proof.Machine.execLdwsx h rd ra imm s
  | .stbx h rd ra imm => Sys2Proof.Machine.execStbx h rd ra imm s
  | .sthx h rd ra imm => Sys2Proof.Machine.execSthx h rd ra imm s
  | .stwx h rd ra imm => Sys2Proof.Machine.execStwx h rd ra imm s
  | .stdx h rd ra imm => Sys2Proof.Machine.execStdx h rd ra imm s
  | .push h rd ra rb => Sys2Proof.Machine.execPush h rd ra rb s
  | .pop h rd ra rb => Sys2Proof.Machine.execPop h rd ra rb s
  | .amoadd h rd ra rb => Sys2Proof.Machine.execAmoadd h rd ra rb s
  | .amocas h rd ra rb => Sys2Proof.Machine.execAmocas h rd ra rb s
  | .nop h rd ra rb other => Sys2Proof.Machine.execNop h rd ra rb other s
  | .halt h rd ra rb => Sys2Proof.Machine.execHalt h rd ra rb s
  | .trap h rd code => Sys2Proof.Machine.execTrap h rd code s
  | .rft h rd ra rb => Sys2Proof.Machine.execRft h rd ra rb s
  | .fence h rd ra rb => Sys2Proof.Machine.execFence h rd ra rb s
  | .waitev h rd ra rb => Sys2Proof.Machine.execWaitev h rd ra rb s
  | .mfs h rd sr => Sys2Proof.Machine.execMfs h rd sr s
  | .mts h rd sr => Sys2Proof.Machine.execMts h rd sr s
  | .mtb h rd ra rb => Sys2Proof.Machine.execMtb h rd ra rb s
  | .mfb h rd ra rb => Sys2Proof.Machine.execMfb h rd ra rb s
  | .setb h bn sp imm => Sys2Proof.Machine.execSetb h bn sp imm s
  | .pfx h x => Sys2Proof.Machine.execPfx h x s
  | .mma h core ta tb plane clr fold => Sys2Proof.Machine.execMma h core ta tb plane clr fold s
  | .mdrain h core tc plane ra un => Sys2Proof.Machine.execMdrain h core tc plane ra un s
  | .mzero h core plane un => Sys2Proof.Machine.execMzero h core plane un s
  | .tdset h td ra rb un => Sys2Proof.Machine.execTdset h td ra rb un s
  | .vopFadd h ve vd va vb => Sys2Proof.Machine.execVopFadd h ve vd va vb s
  | .vopFsub h ve vd va vb => Sys2Proof.Machine.execVopFsub h ve vd va vb s
  | .vopFmul h ve vd va vb => Sys2Proof.Machine.execVopFmul h ve vd va vb s
  | .vopFmin h ve vd va vb => Sys2Proof.Machine.execVopFmin h ve vd va vb s
  | .vopFmax h ve vd va vb => Sys2Proof.Machine.execVopFmax h ve vd va vb s
  | .vopIadd h ve vd va vb => Sys2Proof.Machine.execVopIadd h ve vd va vb s
  | .vopIsub h ve vd va vb => Sys2Proof.Machine.execVopIsub h ve vd va vb s
  | .vopImul h ve vd va vb => Sys2Proof.Machine.execVopImul h ve vd va vb s
  | .vopAnd h ve vd va vb => Sys2Proof.Machine.execVopAnd h ve vd va vb s
  | .vopOr h ve vd va vb => Sys2Proof.Machine.execVopOr h ve vd va vb s
  | .vopXor h ve vd va vb => Sys2Proof.Machine.execVopXor h ve vd va vb s
  | .vopShl h ve vd va vb => Sys2Proof.Machine.execVopShl h ve vd va vb s
  | .vopShr h ve vd va vb => Sys2Proof.Machine.execVopShr h ve vd va vb s
  | .vopFrsum h ve vd va vb => Sys2Proof.Machine.execVopFrsum h ve vd va vb s
  | .vopFrmax h ve vd va vb => Sys2Proof.Machine.execVopFrmax h ve vd va vb s
  | .vopFcmplt h ve vd va vb => Sys2Proof.Machine.execVopFcmplt h ve vd va vb s
  | .vfma h ve vd va vb un => Sys2Proof.Machine.execVfma h ve vd va vb un s
  | .vld h ve vd ga rm un => Sys2Proof.Machine.execVld h ve vd ga rm un s
  | .vst h ve vd ga rm un => Sys2Proof.Machine.execVst h ve vd ga rm un s
  | .vldc h ve vd ga rm un => Sys2Proof.Machine.execVldc h ve vd ga rm un s
  | .vstc h ve vd ga rm un => Sys2Proof.Machine.execVstc h ve vd ga rm un s
  | .vbcast h ve vd ga rm un => Sys2Proof.Machine.execVbcast h ve vd ga rm un s
  | .vmovg h ve vd ga rm un => Sys2Proof.Machine.execVmovg h ve vd ga rm un s
  | .vsfuExp2 h ve vd va un => Sys2Proof.Machine.execVsfuExp2 h ve vd va un s
  | .vsfuExp h ve vd va un => Sys2Proof.Machine.execVsfuExp h ve vd va un s
  | .vsfuLog2 h ve vd va un => Sys2Proof.Machine.execVsfuLog2 h ve vd va un s
  | .vsfuRcp h ve vd va un => Sys2Proof.Machine.execVsfuRcp h ve vd va un s
  | .vsfuRsqrt h ve vd va un => Sys2Proof.Machine.execVsfuRsqrt h ve vd va un s
  | .vsfuTanh h ve vd va un => Sys2Proof.Machine.execVsfuTanh h ve vd va un s
  | .vsfuSigmoid h ve vd va un => Sys2Proof.Machine.execVsfuSigmoid h ve vd va un s
  | .cipherGcmEncrypt h ra kslot => Sys2Proof.Machine.execCipherGcmEncrypt h ra kslot s
  | .cipherGcmDecrypt h ra kslot => Sys2Proof.Machine.execCipherGcmDecrypt h ra kslot s
  | .digestSha384 h ra kslot => Sys2Proof.Machine.execDigestSha384 h ra kslot s
  | .digestHmacSha384 h ra kslot => Sys2Proof.Machine.execDigestHmacSha384 h ra kslot s
  | .collDoorbell h ra queue => Sys2Proof.Machine.execCollDoorbell h ra queue s
  | .collArrive h ra queue => Sys2Proof.Machine.execCollArrive h ra queue s
  | .collBarrier h ra queue => Sys2Proof.Machine.execCollBarrier h ra queue s
  | .stream h ra un => Sys2Proof.Machine.execStream h ra un s
  | .copOpStart q num => Sys2Proof.Machine.execCopOpStart q num s
  | .matrixOpComplete q num met => Sys2Proof.Machine.execMatrixOpComplete q num met s
  | .vectorOpComplete q num met => Sys2Proof.Machine.execVectorOpComplete q num met s
  | .sfuResult q num => Sys2Proof.Machine.execSfuResult q num s
  | .streamDescComplete q num met dma status => Sys2Proof.Machine.execStreamDescComplete q num met dma status s
  | .cipherOpComplete q num met => Sys2Proof.Machine.execCipherOpComplete q num met s
  | .watchdog q stalled => Sys2Proof.Machine.execWatchdog q stalled s
  | .watchdogEnd q stalled => Sys2Proof.Machine.execWatchdogEnd q stalled s
  | .kernelEnd n => Sys2Proof.Machine.execKernelEnd n s
  | .tiBoundarySignal q => Sys2Proof.Machine.execTiBoundarySignal q s
  | .timeshareSliceSwitch n next us => Sys2Proof.Machine.execTimeshareSliceSwitch n next us s
  | .memSectorAccess a w ecc ch => Sys2Proof.Machine.execMemSectorAccess a w ecc ch s
  | .stackRefresh st => Sys2Proof.Machine.execStackRefresh st s
  | .scrubRead m ecc ch => Sys2Proof.Machine.execScrubRead m ecc ch s
  | .scrubRateLoop => Sys2Proof.Machine.execScrubRateLoop s
  | .stackRetrainWindow st ok => Sys2Proof.Machine.execStackRetrainWindow st ok s
  | .frameRetire frame => Sys2Proof.Machine.execFrameRetire frame s
  | .kvCreate q d => Sys2Proof.Machine.execKvCreate q d s
  | .kvFork q d => Sys2Proof.Machine.execKvFork q d s
  | .kvAppend q d => Sys2Proof.Machine.execKvAppend q d s
  | .kvTruncate q d => Sys2Proof.Machine.execKvTruncate q d s
  | .kvPin q d => Sys2Proof.Machine.execKvPin q d s
  | .kvUnpin q d => Sys2Proof.Machine.execKvUnpin q d s
  | .kvRelease q d => Sys2Proof.Machine.execKvRelease q d s
  | .kvQuery q d => Sys2Proof.Machine.execKvQuery q d s
  | .kvSetceil q d => Sys2Proof.Machine.execKvSetceil q d s
  | .tierPeriod late => Sys2Proof.Machine.execTierPeriod late s
  | .kvDemoteWritten b => Sys2Proof.Machine.execKvDemoteWritten b s
  | .kvBlockFetched b ok => Sys2Proof.Machine.execKvBlockFetched b ok s
  | .epjorAttend p t => Sys2Proof.Machine.execEpjorAttend p t s
  | .attendChunkStart i0 c => Sys2Proof.Machine.execAttendChunkStart i0 c s
  | .attendChunkComplete i0 c => Sys2Proof.Machine.execAttendChunkComplete i0 c s
  | .attendDeadline i0 ready => Sys2Proof.Machine.execAttendDeadline i0 ready s
  | .attendComplete i0 => Sys2Proof.Machine.execAttendComplete i0 s
  | .deferHoldExpire b => Sys2Proof.Machine.execDeferHoldExpire b s
  | .optRegister q d => Sys2Proof.Machine.execOptRegister q d s
  | .optSethyper q d => Sys2Proof.Machine.execOptSethyper q d s
  | .optSkip q d => Sys2Proof.Machine.execOptSkip q d s
  | .optQuery q d => Sys2Proof.Machine.execOptQuery q d s
  | .optRelease q d => Sys2Proof.Machine.execOptRelease q d s
  | .optLoad q d => Sys2Proof.Machine.execOptLoad q d s
  | .optUnload q d => Sys2Proof.Machine.execOptUnload q d s
  | .epjorGrad p t => Sys2Proof.Machine.execEpjorGrad p t s
  | .optUnitDispatch q => Sys2Proof.Machine.execOptUnitDispatch q s
  | .optUnitHalt q => Sys2Proof.Machine.execOptUnitHalt q s
  | .lambRatioReady i0 others => Sys2Proof.Machine.execLambRatioReady i0 others s
  | .portDetectPoll p signal => Sys2Proof.Machine.execPortDetectPoll p signal s
  | .equaliseComplete p failed => Sys2Proof.Machine.execEqualiseComplete p failed s
  | .alignComplete p => Sys2Proof.Machine.execAlignComplete p s
  | .alignTimeout p => Sys2Proof.Machine.execAlignTimeout p s
  | .configFlitSend p => Sys2Proof.Machine.execConfigFlitSend p s
  | .configFlitReceive p block => Sys2Proof.Machine.execConfigFlitReceive p block s
  | .configTimeout p => Sys2Proof.Machine.execConfigTimeout p s
  | .retrainComplete p ok failed => Sys2Proof.Machine.execRetrainComplete p ok failed s
  | .downHoldExpire p => Sys2Proof.Machine.execDownHoldExpire p s
  | .laneLockLoss p lane => Sys2Proof.Machine.execLaneLockLoss p lane s
  | .laneSymbolLimit p lane => Sys2Proof.Machine.execLaneSymbolLimit p lane s
  | .reqRetrainRetrain path p => Sys2Proof.Machine.execReqRetrainRetrain path p s
  | .reqRetrainLinkReset path p => Sys2Proof.Machine.execReqRetrainLinkReset path p s
  | .numberedFlitReceive p block => Sys2Proof.Machine.execNumberedFlitReceive p block s
  | .lctlFlitReceive p block => Sys2Proof.Machine.execLctlFlitReceive p block s
  | .idleFlitReceive p block => Sys2Proof.Machine.execIdleFlitReceive p block s
  | .lctlSend p => Sys2Proof.Machine.execLctlSend p s
  | .flitSlotTransmit p => Sys2Proof.Machine.execFlitSlotTransmit p s
  | .replayTimeout p => Sys2Proof.Machine.execReplayTimeout p s
  | .epjorRead p t => Sys2Proof.Machine.execEpjorRead p t s
  | .epjorWrite p t => Sys2Proof.Machine.execEpjorWrite p t s
  | .epjorWriteFinal p t => Sys2Proof.Machine.execEpjorWriteFinal p t s
  | .epjorAtomicFadd p t => Sys2Proof.Machine.execEpjorAtomicFadd p t s
  | .epjorAtomicCas p t => Sys2Proof.Machine.execEpjorAtomicCas p t s
  | .epjorSyncBarrier p t => Sys2Proof.Machine.execEpjorSyncBarrier p t s
  | .epjorSyncStepArrive p t => Sys2Proof.Machine.execEpjorSyncStepArrive p t s
  | .epjorDoorbell p t => Sys2Proof.Machine.execEpjorDoorbell p t s
  | .epjorEvent p t => Sys2Proof.Machine.execEpjorEvent p t s
  | .epjorAnswerReceive p t => Sys2Proof.Machine.execEpjorAnswerReceive p t s
  | .epjorRspTimeout p tag => Sys2Proof.Machine.execEpjorRspTimeout p tag s
  | .tagQuarantineEnd p tag => Sys2Proof.Machine.execTagQuarantineEnd p tag s
  | .epjorForward p t => Sys2Proof.Machine.execEpjorForward p t s
  | .bindWrite path p i0 v => Sys2Proof.Machine.execBindWrite path p i0 v s
  | .routeBlockWrite p bytes => Sys2Proof.Machine.execRouteBlockWrite p bytes s
  | .groupCreate q d => Sys2Proof.Machine.execGroupCreate q d s
  | .groupDestroy q d => Sys2Proof.Machine.execGroupDestroy q d s
  | .groupRegistered k => Sys2Proof.Machine.execGroupRegistered k s
  | .groupCreateTimeout k => Sys2Proof.Machine.execGroupCreateTimeout k s
  | .allReduce q d => Sys2Proof.Machine.execAllReduce q d s
  | .reduceScatter q d => Sys2Proof.Machine.execReduceScatter q d s
  | .allGather q d => Sys2Proof.Machine.execAllGather q d s
  | .broadcast q d => Sys2Proof.Machine.execBroadcast q d s
  | .allToAll q d => Sys2Proof.Machine.execAllToAll q d s
  | .callBarrier q d => Sys2Proof.Machine.execCallBarrier q d s
  | .callArrive q d => Sys2Proof.Machine.execCallArrive q d s
  | .collCallStart k c => Sys2Proof.Machine.execCollCallStart k c s
  | .collCallComplete k c => Sys2Proof.Machine.execCollCallComplete k c s
  | .collCallTimeout k c => Sys2Proof.Machine.execCollCallTimeout k c s
  | .collPktArrive p => Sys2Proof.Machine.execCollPktArrive p s
  | .collPktRelease p => Sys2Proof.Machine.execCollPktRelease p s
  | .collPktFail p => Sys2Proof.Machine.execCollPktFail p s
  | .collPktExpbytes p => Sys2Proof.Machine.execCollPktExpbytes p s
  | .collPktPartial p => Sys2Proof.Machine.execCollPktPartial p s
  | .collPktLanes p => Sys2Proof.Machine.execCollPktLanes p s
  | .collPktResult p => Sys2Proof.Machine.execCollPktResult p s
  | .collPktIncomplete p => Sys2Proof.Machine.execCollPktIncomplete p s
  | .collPktFailmark p => Sys2Proof.Machine.execCollPktFailmark p s
  | .barrierEpochComplete k => Sys2Proof.Machine.execBarrierEpochComplete k s
  | .barrierEpochTimeout k => Sys2Proof.Machine.execBarrierEpochTimeout k s
  | .stepArrivalRaise k => Sys2Proof.Machine.execStepArrivalRaise k s
  | .stepRelease k => Sys2Proof.Machine.execStepRelease k s
  | .ethFrameReceive l frame corrected uncorrected now => Sys2Proof.Machine.execEthFrameReceive l frame corrected uncorrected now s
  | .exceptionPacketServe now => Sys2Proof.Machine.execExceptionPacketServe now s
  | .ethLinkUp l => Sys2Proof.Machine.execEthLinkUp l s
  | .ethLinkDown l => Sys2Proof.Machine.execEthLinkDown l s
  | .clsWrite p bytes => Sys2Proof.Machine.execClsWrite p bytes s
  | .clsValid p v => Sys2Proof.Machine.execClsValid p v s
  | .spread sl d => Sys2Proof.Machine.execSpread sl d s
  | .connOpen q d now => Sys2Proof.Machine.execConnOpen q d now s
  | .connListen q d now => Sys2Proof.Machine.execConnListen q d now s
  | .connClose q d now => Sys2Proof.Machine.execConnClose q d now s
  | .connReset q d now => Sys2Proof.Machine.execConnReset q d now s
  | .connQuery q d => Sys2Proof.Machine.execConnQuery q d s
  | .connModify q d => Sys2Proof.Machine.execConnModify q d s
  | .connectRetry k now => Sys2Proof.Machine.execConnectRetry k now s
  | .closingTimeout k => Sys2Proof.Machine.execClosingTimeout k s
  | .xpConnect p now => Sys2Proof.Machine.execXpConnect p now s
  | .xpAccept p => Sys2Proof.Machine.execXpAccept p s
  | .xpRefuse p now => Sys2Proof.Machine.execXpRefuse p now s
  | .xpResetPacket p now => Sys2Proof.Machine.execXpResetPacket p now s
  | .xpClose p now => Sys2Proof.Machine.execXpClose p now s
  | .xpWrite p now => Sys2Proof.Machine.execXpWrite p now s
  | .xpReadReq p now => Sys2Proof.Machine.execXpReadReq p now s
  | .xpReadRsp p now => Sys2Proof.Machine.execXpReadRsp p now s
  | .xpAtomic p now => Sys2Proof.Machine.execXpAtomic p now s
  | .xpAtomicRsp p now => Sys2Proof.Machine.execXpAtomicRsp p now s
  | .xpSend p now => Sys2Proof.Machine.execXpSend p now s
  | .xpEpjor p now => Sys2Proof.Machine.execXpEpjor p now s
  | .xpAck p now => Sys2Proof.Machine.execXpAck p now s
  | .xpErrRsp p now => Sys2Proof.Machine.execXpErrRsp p now s
  | .ackDelayExpire k now => Sys2Proof.Machine.execAckDelayExpire k now s
  | .reorderExpire k now => Sys2Proof.Machine.execReorderExpire k now s
  | .rtoExpire k now => Sys2Proof.Machine.execRtoExpire k now s
  | .aiIntervalExpire k => Sys2Proof.Machine.execAiIntervalExpire k s
  | .tunnelIdleExpire k now => Sys2Proof.Machine.execTunnelIdleExpire k now s
  | .wrWrite q d => Sys2Proof.Machine.execWrWrite q d s
  | .wrRead q d => Sys2Proof.Machine.execWrRead q d s
  | .wrAtomicFadd q d => Sys2Proof.Machine.execWrAtomicFadd q d s
  | .wrAtomicCas q d => Sys2Proof.Machine.execWrAtomicCas q d s
  | .wrSend q d => Sys2Proof.Machine.execWrSend q d s
  | .recvPost q addr len => Sys2Proof.Machine.execRecvPost q addr len s
  | .wrComplete k now => Sys2Proof.Machine.execWrComplete k now s
  | .xpPacketEnqueue k now => Sys2Proof.Machine.execXpPacketEnqueue k now s
  | .txOpportunity l now => Sys2Proof.Machine.execTxOpportunity l now s
  | .qConfigWrite p bytes => Sys2Proof.Machine.execQConfigWrite p bytes s
  | .ssConfigWrite p bytes => Sys2Proof.Machine.execSsConfigWrite p bytes s
  | .polConfigWrite p bytes => Sys2Proof.Machine.execPolConfigWrite p bytes s
  | .queueSample now => Sys2Proof.Machine.execQueueSample now s
  | .sampleWindowEnd => Sys2Proof.Machine.execSampleWindowEnd s
  | .ckJob q d => Sys2Proof.Machine.execCkJob q d s
  | .ckRegion q d => Sys2Proof.Machine.execCkRegion q d s
  | .ckUnregion q d => Sys2Proof.Machine.execCkUnregion q d s
  | .ckRestore q d => Sys2Proof.Machine.execCkRestore q d s
  | .ckRestoreComplete sl answers => Sys2Proof.Machine.execCkRestoreComplete sl answers s
  | .ckExport q d host answers => Sys2Proof.Machine.execCkExport q d host answers s
  | .ckResume q d => Sys2Proof.Machine.execCkResume q d s
  | .ckLeave q d => Sys2Proof.Machine.execCkLeave q d s
  | .ckQuery q d host => Sys2Proof.Machine.execCkQuery q d host s
  | .noticeWrite p bytes => Sys2Proof.Machine.execNoticeWrite p bytes s
  | .adminNotice d b => Sys2Proof.Machine.execAdminNotice d b s
  | .cohortHeartbeat b => Sys2Proof.Machine.execCohortHeartbeat b s
  | .cohortNotice b => Sys2Proof.Machine.execCohortNotice b s
  | .cohortNoticeAck b => Sys2Proof.Machine.execCohortNoticeAck b s
  | .cohortMark b => Sys2Proof.Machine.execCohortMark b s
  | .cohortMarkAck b => Sys2Proof.Machine.execCohortMarkAck b s
  | .cohortCopied b => Sys2Proof.Machine.execCohortCopied b s
  | .cohortCommit b => Sys2Proof.Machine.execCohortCommit b s
  | .cohortSecured b => Sys2Proof.Machine.execCohortSecured b s
  | .cohortSecuredAll b => Sys2Proof.Machine.execCohortSecuredAll b s
  | .cohortCensus b => Sys2Proof.Machine.execCohortCensus b s
  | .cohortFail b => Sys2Proof.Machine.execCohortFail b s
  | .heartbeatSend sl => Sys2Proof.Machine.execHeartbeatSend sl s
  | .neighbourSilent sl node => Sys2Proof.Machine.execNeighbourSilent sl node s
  | .censusQuietExpire sl => Sys2Proof.Machine.execCensusQuietExpire sl s
  | .buddyCopyStart sl => Sys2Proof.Machine.execBuddyCopyStart sl s
  | .buddyCopyReceived sl => Sys2Proof.Machine.execBuddyCopyReceived sl s
  | .flashDrainFlushed sl => Sys2Proof.Machine.execFlashDrainFlushed sl s
  | .unfenceWrite p v => Sys2Proof.Machine.execUnfenceWrite p v s
  | .releaseJobWrite p bytes => Sys2Proof.Machine.execReleaseJobWrite p bytes s
  | .storWrite q d host => Sys2Proof.Machine.execStorWrite q d host s
  | .storWriteComplete id => Sys2Proof.Machine.execStorWriteComplete id s
  | .storRead q d host => Sys2Proof.Machine.execStorRead q d host s
  | .storReadComplete id bad corrected retries => Sys2Proof.Machine.execStorReadComplete id bad corrected retries s
  | .storFlush q d => Sys2Proof.Machine.execStorFlush q d s
  | .storTrim q d => Sys2Proof.Machine.execStorTrim q d s
  | .storQuery q d host => Sys2Proof.Machine.execStorQuery q d host s
  | .bufferUnitProgrammed unit page ok verify => Sys2Proof.Machine.execBufferUnitProgrammed unit page ok verify s
  | .journalTimer => Sys2Proof.Machine.execJournalTimer s
  | .journalPersisted ok => Sys2Proof.Machine.execJournalPersisted ok s
  | .mapSnapshot => Sys2Proof.Machine.execMapSnapshot s
  | .gcUnitRelocate unit page ok => Sys2Proof.Machine.execGcUnitRelocate unit page ok s
  | .eraseComplete blk ok => Sys2Proof.Machine.execEraseComplete blk ok s
  | .flashMount => Sys2Proof.Machine.execFlashMount s
  | .flashMountComplete ok ms replayed torn mix => Sys2Proof.Machine.execFlashMountComplete ok ms replayed torn mix s
  | .columnScan col stuck opposite dest => Sys2Proof.Machine.execColumnScan col stuck opposite dest s
  | .readDisturbScan blk weak dest => Sys2Proof.Machine.execReadDisturbScan blk weak dest s
  | .wearLevel units dest => Sys2Proof.Machine.execWearLevel units dest s
  | .mapRebuild seg lost => Sys2Proof.Machine.execMapRebuild seg lost s
  | .volConfigWrite p bytes => Sys2Proof.Machine.execVolConfigWrite p bytes s
  | .kvSpaceWrite p v => Sys2Proof.Machine.execKvSpaceWrite p v s
  | .ckptSpaceWrite p v => Sys2Proof.Machine.execCkptSpaceWrite p v s
  | .pcieLinkTrained rate width flit => Sys2Proof.Machine.execPcieLinkTrained rate width flit s
  | .pcieHotReset => Sys2Proof.Machine.execPcieHotReset s
  | .pcieLinkDown => Sys2Proof.Machine.execPcieLinkDown s
  | .flrPf0 => Sys2Proof.Machine.execFlrPf0 s
  | .flrPf1 => Sys2Proof.Machine.execFlrPf1 s
  | .atsInvalidation pasid vpage => Sys2Proof.Machine.execAtsInvalidation pasid vpage s
  | .aspmL1Entry sub => Sys2Proof.Machine.execAspmL1Entry sub s
  | .l0pNarrow => Sys2Proof.Machine.execL0pNarrow s
  | .l0pWiden => Sys2Proof.Machine.execL0pWiden s
  | .msixModeChange pf1 msix intxDisable fnMask masked => Sys2Proof.Machine.execMsixModeChange pf1 msix intxDisable fnMask masked s
  | .steerPendingClear sl i0 => Sys2Proof.Machine.execSteerPendingClear sl i0 s
  | .steerModExpire sl i0 => Sys2Proof.Machine.execSteerModExpire sl i0 s
  | .sliceCreate d q => Sys2Proof.Machine.execSliceCreate d q s
  | .sliceDestroy d => Sys2Proof.Machine.execSliceDestroy d s
  | .map d => Sys2Proof.Machine.execMap d s
  | .unmap d => Sys2Proof.Machine.execUnmap d s
  | .pasidBind d => Sys2Proof.Machine.execPasidBind d s
  | .pasidUnbind d => Sys2Proof.Machine.execPasidUnbind d s
  | .freeze d => Sys2Proof.Machine.execFreeze d s
  | .sliceFrozen sl => Sys2Proof.Machine.execSliceFrozen sl s
  | .thaw d => Sys2Proof.Machine.execThaw d s
  | .save d blobId reach => Sys2Proof.Machine.execSave d blobId reach s
  | .restore d bytes => Sys2Proof.Machine.execRestore d bytes s
  | .chanNotify d => Sys2Proof.Machine.execChanNotify d s
  | .sliceQuery d reach => Sys2Proof.Machine.execSliceQuery d reach s
  | .chanDbWrite sl v => Sys2Proof.Machine.execChanDbWrite sl v s
  | .hello sl d => Sys2Proof.Machine.execHello sl d s
  | .queueCreate sl d => Sys2Proof.Machine.execQueueCreate sl d s
  | .queueDestroy sl d => Sys2Proof.Machine.execQueueDestroy sl d s
  | .queueReset sl d => Sys2Proof.Machine.execQueueReset sl d s
  | .keyQuery sl d => Sys2Proof.Machine.execKeyQuery sl d s
  | .klaunch sl d reach => Sys2Proof.Machine.execKlaunch sl d reach s
  | .klaunchStart n image => Sys2Proof.Machine.execKlaunchStart n image s
  | .queueDoorbell sl slot v => Sys2Proof.Machine.execQueueDoorbell sl slot v s
  | .switchRequestWrite p v => Sys2Proof.Machine.execSwitchRequestWrite p v s
  | .nextSecretWrite p bytes => Sys2Proof.Machine.execNextSecretWrite p bytes s
  | .nextOpkWrite p bytes => Sys2Proof.Machine.execNextOpkWrite p bytes s
  | .drainStageEnd us => Sys2Proof.Machine.execDrainStageEnd us s
  | .clearStageEnd us => Sys2Proof.Machine.execClearStageEnd us s
  | .zeroStageEnd us => Sys2Proof.Machine.execZeroStageEnd us s
  | .mediaKeyCommit us mk => Sys2Proof.Machine.execMediaKeyCommit us mk s
  | .firmwareReverifyEnd us => Sys2Proof.Machine.execFirmwareReverifyEnd us s
  | .keySlotInstall sl j => Sys2Proof.Machine.execKeySlotInstall sl j s
  | .keySlotErase sl j => Sys2Proof.Machine.execKeySlotErase sl j s
  | .rngHealthFail => Sys2Proof.Machine.execRngHealthFail s
  | .admEnable => Sys2Proof.Machine.execAdmEnable s
  | .admReset => Sys2Proof.Machine.execAdmReset s
  | .adminSqDoorbell tail => Sys2Proof.Machine.execAdminSqDoorbell tail s
  | .adminCqHeadWrite head => Sys2Proof.Machine.execAdminCqHeadWrite head s
  | .identify d reach => Sys2Proof.Machine.execIdentify d reach s
  | .ctrlRing d q => Sys2Proof.Machine.execCtrlRing d q s
  | .stageBegin p => Sys2Proof.Machine.execStageBegin p s
  | .stageCommit p => Sys2Proof.Machine.execStageCommit p s
  | .stageAbort p => Sys2Proof.Machine.execStageAbort p s
  | .stageActivateReset p => Sys2Proof.Machine.execStageActivateReset p s
  | .stageActivateAny p => Sys2Proof.Machine.execStageActivateAny p s
  | .stageCancel p => Sys2Proof.Machine.execStageCancel p s
  | .stageDataWrite p bytes => Sys2Proof.Machine.execStageDataWrite p bytes s
  | .stageEraseDone => Sys2Proof.Machine.execStageEraseDone s
  | .stageVerifyDone chk => Sys2Proof.Machine.execStageVerifyDone chk s
  | .svnAdvanceWrite p v => Sys2Proof.Machine.execSvnAdvanceWrite p v s
  | .mgmtCoreStop => Sys2Proof.Machine.execMgmtCoreStop s
  | .capWrite p v => Sys2Proof.Machine.execCapWrite p v s
  | .capPeriod pr => Sys2Proof.Machine.execCapPeriod pr s
  | .railReading r => Sys2Proof.Machine.execRailReading r s
  | .dutyWindowStart => Sys2Proof.Machine.execDutyWindowStart s
  | .thermalSample n t => Sys2Proof.Machine.execThermalSample n t s
  | .eventTally src pl err => Sys2Proof.Machine.execEventTally src pl err s
  | .eventNotice src pl err a => Sys2Proof.Machine.execEventNotice src pl err a s
  | .histSample => Sys2Proof.Machine.execHistSample s
  | .intervalEnd => Sys2Proof.Machine.execIntervalEnd s
  | .recordWrite => Sys2Proof.Machine.execRecordWrite s
  | .recorderFreezeWrite p v => Sys2Proof.Machine.execRecorderFreezeWrite p v s
  | .freezeMaxExpire => Sys2Proof.Machine.execFreezeMaxExpire s
  | .logClearWrite p v => Sys2Proof.Machine.execLogClearWrite p v s
  | .logClearDone => Sys2Proof.Machine.execLogClearDone s
  | .recSelectWrite p v => Sys2Proof.Machine.execRecSelectWrite p v s
  | .sliceCounterLatch => Sys2Proof.Machine.execSliceCounterLatch s
  | .gloveCounterWrite sl i0 v => Sys2Proof.Machine.execGloveCounterWrite sl i0 v s
  | .pwrOkRise => Sys2Proof.Machine.execPwrOkRise s
  | .perstNDeemedRelease pins => Sys2Proof.Machine.execPerstNDeemedRelease pins s
  | .railToleranceLoss => Sys2Proof.Machine.execRailToleranceLoss s
  | .sidebandBiasLoss => Sys2Proof.Machine.execSidebandBiasLoss s
  | .aspmL1Exit => Sys2Proof.Machine.execAspmL1Exit s
  | .hostCompletionReceive id ok head => Sys2Proof.Machine.execHostCompletionReceive id ok head s
  | .hostCompletionTimeout id => Sys2Proof.Machine.execHostCompletionTimeout id s
  | .sliceDestroyComplete sl => Sys2Proof.Machine.execSliceDestroyComplete sl s

end Sys2Proof.Machine
end

