-- ==== Sys2Proof/Machine/BarRead.lean ====
section
/-!
DEFINITION. What a read of a BAR0 or BAR2 register returns (R63–R72, Tables 2-11 to 2-15, 14-3, 14-8a, 16-5). A read changes
nothing: the table of operations has no row for it, and these are functions of the state alone.
-/
namespace Sys2Proof.Machine

/-! ### `PAGE_STATUS` (Table 2-11, R63, R68, R71) -/

/-- Whether a 4 KiB page of BAR0 or of a glove page holds wide values. -/
def holdsWide (page : Option (Fin 512)) (pg : Nat) : Bool :=
  match page with
  | none => decide (pg = 0)
  | some _ => decide (pg = 2) || decide (pg = 3) || decide (pg = 8)

/-- Whether a register of a page holds a buffered value that is not yet applied: a usage counter whose clearing waits (R71, R73). -/
def State.pagePending (s : State) (page : Option (Fin 512)) (pg : Nat) : Bool :=
  match page with
  | none => false
  | some sl => decide (pg = 8) && s.dict.pend.any (fun w => decide (counterKey sl.val 0 ≤ w.key) && decide (w.key < counterKey sl.val 512))

/-- `PAGE_STATUS` of a 4 KiB page: `STALE` while its wide values read as zero, and `PENDING`. -/
def State.pageStatus (s : State) (page : Option (Fin 512)) (pg : Nat) : Nat :=
  b2n (holdsWide page pg && !s.wideLive) + 2 * b2n (s.pagePending page pg)

/-! ### Wide values and wide mailboxes (R68, R72, Table 2-14) -/

/-- A word of a wide value by its offset: LO, or HI at LO + 4; zero where wide values are not live. -/
def State.wideRead (s : State) (page : Option (Fin 512)) (off : Nat) : Option Nat :=
  (s.wide page (off / 8 * 8)).map (fun v =>
    if !s.wideLive then 0 else if off % 8 = 0 then bits v 31 0 else bits v 63 32)

/-- A register of a wide mailbox page by its offset in the page. -/
def State.wmbRead (s : State) (page : Option (Fin 512)) (o : Nat) : Option Nat :=
  let w := sget s.dict.wmb (pageKey page)
  match o with
  | 0x000 => some (s.pageStatus page (match page with | none => 4 | some _ => 0xF))
  | 0x010 => some w.sel
  | 0x014 => some (b2n w.valid + 2 * b2n w.badsel + 256 * w.gen)
  | 0x018 => some (bits w.data 31 0)
  | 0x01C => some (bits w.data 63 32)
  | 0x020 => some (bits w.tick 31 0)
  | 0x024 => some (bits w.tick 63 32)
  | _ => none

/-! ### BAR0 (Tables 2-12, 2-13, 16-5) -/

/-- `ADM_STATUS`. -/
def Admin.status (a : Admin) : Nat :=
  (match a.st with | .off => 0 | .running => 1 | .refused => 2) + 256 * a.code

/-- A word of the admin page. -/
def State.admRead (s : State) (o : Nat) : Option Nat :=
  let a := s.adm
  if o = 0 then some (s.pageStatus none 16)
  else if o = 0x010 then some a.version
  else if o = 0x014 then some 0
  else if o = 0x018 then some a.status
  else if o = 0x020 then some a.sqTail
  else if o = 0x024 then some a.sqHead
  else if o = 0x028 then some a.cqTail
  else if o = 0x02C then some a.cqHead
  else if within o 0x400 0x5FF then some (look 0 a.comp ((o - 0x400) / 16) / 2 ^ (8 * (o % 16)) % 2 ^ 32)
  else if within o 0x800 0xFFF then some (look 0 a.sub ((o - 0x800) / 4))
  else none

/-- A word of the dictionary mailbox page; `GO` reads as zero (R70). -/
def Mbx.read (m : Mbx) (o : Nat) : Option Nat :=
  match o with
  | 0x010 => some (m.length + 2 ^ 16 * m.count + 2 ^ 24 * b2n m.kindW)
  | 0x014 => some (b2n m.busy + 2 * b2n m.done + 4 * b2n m.overrun + 256 * m.status + 2 ^ 16 * m.fail)
  | 0x018 => some m.respLen
  | _ => none

/-- A word of BAR0; none: a bus error (R70). After a halt the state and readiness registers alone answer (R478). -/
def State.bar0Read (s : State) (off : Nat) : Option Nat :=
  if off % 4 ≠ 0 then none
  else if off = 0x10 then some s.mod.svc.code
  else if off = 0x14 then some s.mod.readyCopy
  else if off = 0x18 then some s.mod.fns
  else if s.barHalted then none
  else if off = 0 then some (s.pageStatus none 0)
  else if off = 0x08 then some (s.current true 0x1000 0)
  else if off = 0x0C then some (s.current true 0x1009 0)
  else if off = 0x20 ∨ off = 0x24 then s.wideRead none off
  else if off = 0x40 then some (2 ^ 24 * s.current true 0x100B 1 + 2 ^ 16 * s.current true 0x100B 2 + s.current true 0x100B 3)
  else if off = 0x1000 then some (s.pageStatus none 1)
  else if within off 0x1000 0x1FFF then s.dict.mbx.read (off - 0x1000)
  else if within off 0x2000 0x2FFF then some (leNat (bytesAt s.dict.mbx.buf (off - 0x2000) 4))
  else if within off 0x4000 0x4FFF then s.wmbRead none (off - 0x4000)
  else if within off 0x10000 0x10FFF then s.admRead (off - 0x10000)
  else none

/-! ### Glove pages (Tables 2-15, 14-3, 14-8a) -/

/-- Word `w` of a steering entry (Table 14-3). -/
def Steer.word (t : Steer) (w : Nat) : Nat :=
  if w = 0 then t.vector + 2 ^ 16 * t.ports + 2 ^ 24 * b2n t.enable + 2 ^ 25 * b2n t.pending
  else if w = 1 then t.modUs else 0

/-- A word of an event entry: code, data and tick (R435, R550). -/
def EvEntry.word (e : EvEntry) (o : Nat) : Nat := leNat (bytesAt (eventBytes e.code e.a0 e.a1 e.a2 ++ leBytes 8 e.tick) o 4)

/-- A word of the status page. -/
def State.gloveStatus (s : State) (sl : Fin 512) (o : Nat) : Option Nat :=
  let x := s.slice sl.val
  if o = 0 then some (s.pageStatus (some sl) 0)
  else if o = 0x004 then some sl.val
  else if o = 0x008 then some (sliceCode x.st)
  else if o = 0x010 then some x.evHead
  else if o = 0x014 then some x.evTail
  else if o = 0x018 then some x.evLost
  else if o = 0x020 then some 0
  else if o = 0x024 then some x.chanIn
  else if 0x100 ≤ o then some ((sget x.ring ((o - 0x100) / 32)).word (o % 32))
  else none

/-- A word of a glove page; none: a bus error (R66, R70). Doorbells, `CHAN_DB` and the key slots read as zero (R67, R70). -/
def State.gloveRead (s : State) (sl : Fin 512) (off : Nat) : Option Nat :=
  if off % 4 ≠ 0 ∨ !(s.pageThere (some sl)) then none
  else if off < 0x1000 then s.gloveStatus sl off
  else if off < 0x2000 then some 0
  else if off < 0x4000 then s.wideRead (some sl) off
  else if off < 0x8000 then some 0
  else if off < 0x9000 then s.wideRead (some sl) off
  else if off < 0xA000 then some ((sget (s.slice sl.val).steer ((off - 0x9000) / 16)).word (off / 4 % 4))
  else if within off 0xF000 0xF0FF then s.wmbRead (some sl) (off - 0xF000)
  else none

end Sys2Proof.Machine
end

