-- ==== Sys2Proof/WellFormed.lean ====
section
/-!
DEFINITION. Well-formed commands: those that the block's surroundings can send. A command that is not well formed names
something that no bus, pin or sensor of the hardware can carry; the meanings are total on it all the same.
-/
namespace Sys2Proof

/-- The least and greatest temperature that a sensor reads in hundredths of a degree: below absolute zero there is none, and
the 16-bit maxima of Table 18-5 bound them above. -/
def tempOk (t : Int) : Bool := decide (-27315 ≤ t) && decide (t ≤ 32767)

/-- A payload that one UDP datagram over IPv6 can carry. -/
def udpOk (bytes : List Byte) : Bool := decide (bytes.length ≤ 65527)

/-- A BAR4 access as HI passes it on: whole 32-bit words, inside the slice's 2 GiB window (R69, R70). -/
def bar4Ok (off len : Nat) : Bool :=
  off % 4 == 0 && len % 4 == 0 && len != 0 && decide (len ≤ 4096) && decide (off + len ≤ 2 ^ 31)

/-- The power model of one cap period: three classes, each with its curve, and sixteen on-times (R502, R505). -/
def Predict.ok (p : Predict) : Bool :=
  p.lo.length == 3 && p.hi.length == 3 && p.curve.length == 3 && p.duty.length == 16

/-- A 64-byte descriptor whose `TAG`, at an offset, is the one that its completion echoes. -/
def descOk (q : QCtx) (d : List Byte) (o : Nat) : Bool :=
  d.length == 64 && ((d.drop o).take 4).foldr (fun b n => b.toNat + 256 * n) 0 == q.tag.toNat

/-- An entry of the admin ring or of a control ring: 64 bytes. -/
def entryOk (d : List Byte) : Bool := d.length == 64

/-- A datagram, a word, a reading or a list of readings that the surroundings can produce. -/
def Instr.wf : Instr → Bool
  | .odpRequest _ bytes _ => udpOk bytes
  | .i3cPrivateWrite _ bytes _ => !bytes.isEmpty
  | .bar4Read _ off len _ => bar4Ok off.toNat len.toNat
  | .bar4Write _ off bytes _ => bar4Ok off.toNat bytes.length
  | .islandReset n => decide (n.val ≠ 25)
  | .thermalSample _ t => tempOk t
  | .railReading r => r.length == 31
  | .capPeriod p => p.ok
  | .scrubRead _ ecc _ => ecc.length == 4
  | .numberedFlitReceive _ block => block.length == 272
  | .lctlFlitReceive _ block => block.length == 272
  | .configFlitReceive _ block => block.length == 272
  | .idleFlitReceive _ block => block.length == 272
  | .callBarrier q d => descOk q d 44
  | .callArrive q d => descOk q d 44
  | .allReduce q d => descOk q d 44
  | .reduceScatter q d => descOk q d 44
  | .allGather q d => descOk q d 44
  | .broadcast q d => descOk q d 44
  | .allToAll q d => descOk q d 44
  | .groupCreate q d => descOk q d 44
  | .groupDestroy q d => descOk q d 44
  | .connOpen q d _ => descOk q d 8
  | .connListen q d _ => descOk q d 8
  | .connClose q d _ => descOk q d 8
  | .connReset q d _ => descOk q d 8
  | .connQuery q d => descOk q d 8
  | .connModify q d => descOk q d 8
  | .wrWrite q d => descOk q d 4
  | .wrRead q d => descOk q d 4
  | .wrAtomicFadd q d => descOk q d 4
  | .wrAtomicCas q d => descOk q d 4
  | .wrSend q d => descOk q d 4
  | .ckJob q d => descOk q d 4
  | .storWrite q d _ => descOk q d 4
  | .storRead q d _ => descOk q d 4
  | .storFlush q d => descOk q d 4
  | .storTrim q d => descOk q d 4
  | .storQuery q d _ => descOk q d 4
  | .ckRegion q d => descOk q d 4
  | .ckUnregion q d => descOk q d 4
  | .ckRestore q d => descOk q d 4
  | .ckExport q d _ _ => descOk q d 4
  | .ckResume q d => descOk q d 4
  | .ckLeave q d => descOk q d 4
  | .ckQuery q d _ => descOk q d 4
  | .identify d _ => entryOk d
  | .kvCreate q d => descOk q d 12
  | .kvFork q d => descOk q d 12
  | .kvAppend q d => descOk q d 12
  | .kvTruncate q d => descOk q d 12
  | .kvPin q d => descOk q d 12
  | .kvUnpin q d => descOk q d 12
  | .kvRelease q d => descOk q d 12
  | .kvQuery q d => descOk q d 12
  | .kvSetceil q d => descOk q d 12
  | .optRegister q d => descOk q d 8
  | .optSethyper q d => descOk q d 8
  | .optSkip q d => descOk q d 8
  | .optQuery q d => descOk q d 8
  | .optRelease q d => descOk q d 8
  | .optLoad q d => descOk q d 8
  | .optUnload q d => descOk q d 8
  | .ctrlRing d q => entryOk d && (match q with | some b => b.length == 64 | none => true)
  | .adminNotice d _ => entryOk d
  | .sliceCreate d q => entryOk d && (match q with | some b => b.length == 128 | none => true)
  | .sliceDestroy d => entryOk d
  | .map d => entryOk d
  | .unmap d => entryOk d
  | .pasidBind d => entryOk d
  | .pasidUnbind d => entryOk d
  | .freeze d => entryOk d
  | .thaw d => entryOk d
  | .save d _ _ => entryOk d
  | .restore d _ => entryOk d
  | .chanNotify d => entryOk d
  | .sliceQuery d _ => entryOk d
  | .hello _ d => entryOk d
  | .queueCreate _ d => entryOk d
  | .queueDestroy _ d => entryOk d
  | .queueReset _ d => entryOk d
  | .spread _ d => entryOk d
  | .keyQuery _ d => entryOk d
  | .klaunch _ d _ => entryOk d
  | _ => true

end Sys2Proof
end

