-- ==== Sys2Proof/Safety.lean ====
section
/-!
DEFINITION. What counts as a safe run, and the invariants of the block that claims are stated about.
-/
namespace Sys2Proof.Machine

/-- A run of `k` steps that stops neither in a fault nor in a refusal. -/
def runsSafely (k : Nat) (s : State) : Prop := ∃ t, Sys2Proof.core.run k s = .next t

/-- The supply chain of R536, R543 and R515: `PWR_OK` is high only while every rail is in tolerance, rails are in tolerance only
while the regulators are on, and the regulators are on only with the sideband bias present and no latched thermal trip. -/
structure PowerChain (p : Pins) : Prop where
  okRails : p.pwrOk = true → p.rails = true
  railsRegs : p.rails = true → p.regs = true
  regsBias : p.regs = true → p.bias = true
  regsTrip : p.regs = true → p.thermtrip = false

/-- An Itette instruction that names the general registers `gs` and the predicates `ps` executes: its sequencer issues, no
prefix waits (R139), its guard holds (R138), no register awaits a result (R161), and an S-profile sequencer has what it names
(R133, R134). -/
structure State.issues (s : State) (h : Hdr) (gs : List (BitVec 5)) (ps : List (BitVec 3)) : Prop where
  live : s.live h.seq.val = true
  noPrefix : (s.seqr h.seq.val).pfx = none
  guarded : (s.seqr h.seq.val).pred (h.guard.toNat % 8) ≠ bit h.guard.toNat 3
  ready : ∀ g ∈ gs, g.toNat ∉ (s.seqr h.seq.val).awaited
  profile : isS h.seq.val = true → h.guard.toNat % 8 < 4 ∧ (∀ g ∈ gs, g.toNat < 16) ∧ ∀ p ∈ ps, p.toNat < 4

/-- A sequencer past an instruction of one word with `cost` issue cycles. -/
def Seqr.advance (z : Seqr) (h : Hdr) (cost : Nat) : Seqr :=
  { z with cycle := z.cycle + h.stall.toNat + cost, pc := z.pc + 4 }

/-- A sequencer after it took a trap through its vector table (R155): 8 cycles, `INTRAP` set, at the vector of the cause. -/
def Seqr.trapped (z : Seqr) (cause info saved : Nat) : Seqr :=
  { z with trappc := saved, trapcause := cause, trapinfo := info, inTrap := true, pc := z.tvbase + cause * 64,
           cycle := z.cycle + 8, pfx := none }

/-- A hardware queue of a kind that takes a command now: it exists, is not HALTED, and its slice acts on doorbells (R426, R437, R439). -/
structure State.takes (s : State) (q : QCtx) (kind : Nat) : Prop where
  used : (s.queue q.slice.val q.slot.val).used = true
  kind : (s.queue q.slice.val q.slot.val).cfg.kind = kind
  runs : (s.queue q.slice.val q.slot.val).halted = false
  live : s.doorbellsLive q.slice.val = true

/-- A plain transaction of a type that passes every check of R239, R248 and R249 at a port and goes on to its service: no earlier
one must go before it (R277), its binding was there as its last flit came, and its tag was not in flight as its first came (R250). -/
structure State.serves (s : State) (p : Nat) (t : Txn) (ty : Nat) : Prop where
  port : p < 8
  usable : (s.port p).usable = true
  typ : t.hat.typ.toNat = ty
  dest : s.selfEp = some t.hat.dest.toNat
  source : t.hat.src.toNat = s.partnerEp p
  normal : s.mod.svc = .normal
  turn : s.myTurn p t = true
  whole : (s.arrivalOf p t).abort = false
  bound : ∃ b, (s.arrivalOf p t).bind = some b ∧ bit b 30 = false
  tag : (s.arrivalOf p t).dup = false
  plain : t.hat.enc = false
  form : t.hatOk = true
  body : bodyOk ty t.body = true
  free : (s.slice t.hat.stag.toNat).st.isBusy = false

/-- The state in which an accepted transaction is served: out of the receive buffer, a request with its tag in flight, counted for
its slice. -/
def State.accepted (s : State) (p : Nat) (t : Txn) : State := (s.accept p t).use t.hat.stag.toNat 12 1

/-- An entry of the admin ring is carried out as a command: the ring and the firmware run, it names that command, its reserved
bytes are zero and its tag is one of a command (R485–R487), and slice commands are served (R427). -/
structure State.admits (s : State) (op : Nat) (d : List Byte) : Prop where
  ring : s.adm.st = .running
  runs : s.fwRuns = true
  op : fieldAt d 0 1 = op
  form : (admCmdOf d).reserved = false
  tag : (admCmdOf d).tag ≠ 0xFFFFFFFF
  slices : s.slicesOk = true

/-- Nothing of the state changes but sequencer `q`. -/
structure OnlySeqr (q : Nat) (s t : State) : Prop where
  rest : t = { s with seqs := t.seqs }
  others : ∀ k, k ≠ q → t.seqr k = s.seqr k

end Sys2Proof.Machine
end

