-- ==== Sys2Proof/Certificates/Slice0/Obligations.lean ====
section
/-! DEFINITION. The statements for the provers: one `def Obligations.<Name> : Prop` each, over `step`, `exec` and the
shared operations. A statement that several clauses make up is a conjunction of clauses over its own variables. -/

set_option maxRecDepth 4000
open Sys2Proof Sys2Proof.Machine

/-! ### The whole block -/

/-- Step of a state whose queue is not empty is `exec` of the front command on the state with the queue's rest. The queue
is the model's form of the commands that wait (log 3). -/
def Obligations.StepRunsFrontCommand : Prop :=
  ∀ (c : Instr) (rest : List Instr) (s : State),
    step { s with pending := c :: rest } = exec c { s with pending := rest }

/-- The state after reset: BOOT with the management and host islands in self-test, no function bit, every dictionary
object at its default, no slice, no waiting command, memory with nothing listed. The zeros of memory nothing has
written and the moment that the state stands for are the model's choices (logs 4, 6 and 46). -/
def Obligations.ResetState : Prop :=
  State.reset.mod.svc = .boot ∧ State.reset.mod.fns = 0 ∧
  (∀ n < 26, (State.reset.island n).ready = false ∧
    (State.reset.island n).istate = if n = 23 ∨ n = 25 then .selftest else .off) ∧
  (∀ idx sub, State.reset.obj idx sub = objDflt (idx * 256 + sub)) ∧
  State.reset.sliceIds = [] ∧ State.reset.pending = [] ∧
  (∀ a, State.reset.byte a = 0) ∧ State.reset.dict.mbx.fail = 0xFFFF ∧ State.reset.alertN = true

/-- The state after reset has the two invariants: the supply chain and the canonical form of memory. The pins of the state
after reset are the model's choice (log 6). -/
def Obligations.ResetHasInvariants : Prop :=
  PowerChain State.reset.pins ∧ Memory.wf State.reset.mem = true

/-- Every step keeps the supply chain: `PWR_OK` only with every rail in tolerance, rails only with the regulators on, the
regulators only with bias and without a latched thermal trip. -/
def Obligations.PowerChainKept : Prop :=
  ∀ (s t : State), PowerChain s.pins → step s = .next t → PowerChain t.pins

/-- No command puts commands into the queue or takes them out: each step takes exactly the front one. The queue is the
model's form of the commands that wait (log 3). -/
def Obligations.QueueConsumedInOrder : Prop :=
  ∀ (s t : State), step s = .next t → t.pending = s.pending.tail

/-- A step changes the supply pins only at the commands of the supply, of the sideband pins, of the reference clocks, of
the cables and of the temperature sensors. -/
def Obligations.PinsChangeOnlyFromOutside : Prop :=
  ∀ (c : Instr) (s t : State), exec c s = .next t → t.pins ≠ s.pins →
    c = .vinRise ∨ c = .vinFall ∨ c = .sidebandBiasLoss ∨ c = .pwrOkRise ∨ c = .railToleranceLoss ∨ c = .perstNAssert ∨
    (∃ id, c = .perstNRelease id) ∨ (∃ id, c = .perstNDeemedRelease id) ∨ (∃ n x, c = .thermalSample n x) ∨
    c = .refclk100Loss ∨ c = .refclk100Return ∨ c = .refclk156Loss ∨ c = .refclk156Return ∨
    (∃ k, c = .cableMate k) ∨ (∃ k, c = .cableUnmate k)

/-- Every step keeps the canonical form of device memory. The form is the model's own; what an unlisted address reads as
is log 46. -/
def Obligations.MemoryFormKept : Prop :=
  ∀ (s t : State), Memory.wf s.mem = true → step s = .next t → Memory.wf t.mem = true

/-- Device memory reads as it was written: the bytes of a store lie at their addresses, every other address reads as
before, and a sequence of stores keeps the canonical form. -/
def Obligations.StoreReadBack : Prop :=
  ∀ (s : State) (a : Nat) (bs : List Byte), Memory.wf s.mem = true →
    (∀ x, (s.store a bs).byte x = if a ≤ x ∧ x < a + bs.length then bs.getD (x - a) 0 else s.byte x) ∧
    Memory.wf (s.store a bs).mem = true ∧
    (∀ n x, (s.zeroRange a n).byte x = if a ≤ x ∧ x < a + n then 0 else s.byte x) ∧
    (∀ n, Memory.wf (s.zeroRange a n).mem = true)

/-! ### Supply, sideband, clocks and cables (chapter 19) -/

/-- The supply and reset pins. A rise of the input starts the regulators unless a thermal trip is latched; a fall, and the
loss of the sideband bias, lose power; `PWR_OK` follows the rails; `PERST_N` starts and ends a module reset, which
leaves BOOT, memory zero and the recorder log as it was. The reference clocks and the cables. Loss of REFCLK100 takes
the PCIe link down; loss of REFCLK156 takes every Epjor port that is not DISABLED to DOWN and every Ethernet logical
port down; a removed cable takes its ports down. -/
def Obligations.SupplyResetAndClocks : Prop :=
  (∀ (s : State) (id : BitVec 4),
     exec .vinRise s = .next { s with pins := { s.pins with bias := true, regs := !s.pins.thermtrip } } ∧
     (∃ t : State, exec .vinFall s = .next t ∧
       t.pins = { s.pins with regs := false, rails := false, pwrOk := false, inReset := true } ∧
       t.mod.svc = .boot ∧ t.mem = [] ∧ t.host.slices = [] ∧ t.nor.log = s.nor.log ∧ t.rcd.accOk = false) ∧
     (s.pins.regs = true → ∃ t : State, exec .sidebandBiasLoss s = .next t ∧
       t.pins = { s.pins with bias := false, regs := false, rails := false, pwrOk := false, inReset := true, thermtrip := false } ∧
       t.mod.svc = .boot ∧ t.mem = []) ∧
     (s.pins.regs = false → exec .sidebandBiasLoss s =
       .next { s with pins := { s.pins with bias := false, thermtrip := false } }) ∧
     (s.pins.regs = true → s.pins.inReset = true → exec .pwrOkRise s =
       .next { s with pins := { s.pins with rails := true, pwrOk := true } }) ∧
     exec .railToleranceLoss s = .next { s with pins := { s.pins with rails := false, pwrOk := false } } ∧
     (s.pins.pwrOk = true → s.pins.inReset = false → ∃ t : State, exec .perstNAssert s = .next t ∧
       t.pins = { s.pins with perst := false, inReset := true } ∧ t.mod.svc = .boot ∧ t.mem = [] ∧
       t.host.slices = [] ∧ t.nor.log = s.nor.log ∧ ∀ n < 26, (t.island n).istate = .off) ∧
     (s.pins.pwrOk = true → s.pins.inReset = true → ∃ t : State, exec (.perstNRelease id) s = .next t ∧
       t.pins = { s.pins with perst := true, inReset := false } ∧ t.obj 0x1018 4 = id.toNat ∧
       (s.mod.islands.length = 26 → (t.island 25).istate = .selftest ∧ (t.island 23).istate = .selftest)) ∧
     (s.pins.perst = true → s.pins.pwrOk = true → s.pins.inReset = true → ∃ t : State, exec (.perstNDeemedRelease id) s = .next t ∧
       t.pins = { s.pins with inReset := false } ∧ t.obj 0x1018 4 = id.toNat)) ∧
  (∀ (s : State) (k : Fin 12),
     (∃ t : State, exec .refclk100Loss s = .next t ∧ t.pins = { s.pins with ref100 := false } ∧ t.host.up = false ∧
       t.adm.st = .off ∧ t.host.reqs = []) ∧
     exec .refclk100Return s = .next { s with pins := { s.pins with ref100 := true } } ∧
     (∃ t : State, exec .refclk156Loss s = .next t ∧ t.pins = { s.pins with ref156 := false } ∧
       (∀ p < 8, (s.port p).st ≠ .disabled → (t.port p).st = .down) ∧ (∀ l < 32, t.lportUp l = false)) ∧
     exec .refclk156Return s = .next { s with pins := { s.pins with ref156 := true } } ∧
     exec (.cableMate k) s = .next { s with pins := { s.pins with cables := setBit s.pins.cables k.val true } } ∧
     (∃ t : State, exec (.cableUnmate k) s = .next t ∧ t.pins = { s.pins with cables := setBit s.pins.cables k.val false } ∧
       (k.val < 8 → (s.port k.val).usable = true → (t.port k.val).st = .down) ∧
       (8 ≤ k.val → ∀ l, 8 * (k.val - 8) ≤ l → l < 8 * (k.val - 8) + 8 → t.lportUp l = false)))

/-! ### Islands, straits and the Control Strait (chapter 1) -/

/-- Control Strait messages of the classes READY, ERROR, DOORBELL and CREDIT. A clean or corrected message is given to its
destination where that is READY, and is discarded and counted there where it is not; a reserved destination is counted
at the source and a broadcast goes to every island; MGI takes a message into its inbox and raises `EVCOUNT` of its
core, an ERROR message in NORMAL leads to RECOVERY, and while MGI's port holds messages it waits there. A message with
an uncorrectable error is discarded, both end islands report, and the fault is fatal: in BRINGUP and in NORMAL the
block enters RECOVERY with the function bits `SLICES`, `KV` and `CKPT` clear, in TEST the session ends, in SWITCHING
and in BOOT the fault is recorded. While MGI's port holds messages the two reports wait there. The layout of a READY
message is the model's reading (log 5). -/
def Obligations.ControlStrait : Prop :=
  (∀ (s : State) (src : Fin 26) (d : BitVec 5) (pl : BitVec 50) (e : CsErr), e ≠ .uncorrectable →
     let all (P : (Instr × Nat) → Prop) : Prop :=
       P (.csReady src d pl e, 0) ∧ P (.csError src d pl e, 1) ∧ P (.csDoorbell src d pl e, 4) ∧ P (.csCredit src d pl e, 5)
     (26 ≤ d.toNat → d.toNat < 31 → all (fun c => exec c.1 s = .next (s.count (0x2000 + src.val) 0x17 1))) ∧
     (d.toNat = 31 → all (fun c => exec c.1 s = .next ((List.range 26).foldl (fun t n => t.csDeliver n (csm 31 src.val c.2 pl.toNat)) s))) ∧
     (d.toNat < 25 → (s.island d.toNat).istate = .ready → all (fun c => exec c.1 s =
       .next { s with sent := .cs ⟨d.toNat, src.val, c.2, pl.toNat, 0, 0, 0⟩ :: s.sent })) ∧
     (d.toNat < 25 → (s.island d.toNat).istate ≠ .ready → all (fun c => exec c.1 s =
       .next (s.count (0x2000 + d.toNat) 0x0D 1))) ∧
     (s.mod.holding = true → (exec (.csReady src 25 pl e) s = .next { s with mgiHold := s.mgiHold ++ [.msg (csm 25 src.val 0 pl.toNat)] }) ∧
       exec (.csError src 25 pl e) s = .next { s with mgiHold := s.mgiHold ++ [.msg (csm 25 src.val 1 pl.toNat)] }) ∧
     (s.mod.holding = false → s.mod.inbox.length < 4096 → s.mod.jumped = true → (s.island 25).istate = .ready →
       let took (cls : Nat) : State := { s with
         mod := { s.mod with inbox := s.mod.inbox ++ [csm 25 src.val cls pl.toNat] }
         seqs := smod s.seqs 16 (fun z => { z with evcount := (z.evcount + 1) % 2 ^ 64 }) }
       exec (.csReady src 25 pl e) s = .next (took 0) ∧ exec (.csDoorbell src 25 pl e) s = .next (took 4) ∧
       exec (.csCredit src 25 pl e) s = .next (took 5)) ∧
     (s.mod.holding = false → s.mod.inbox.length < 4096 → s.mod.svc = .normal → ∃ t : State, exec (.csError src 25 pl e) s = .next t ∧
       t.mod.svc = .recovery ∧ t.fn 2 = false ∧ t.fn 3 = false ∧ t.fn 4 = false ∧ t.host.slices.length = s.host.slices.length)) ∧
  (∀ (s : State) (src : Fin 26) (d : BitVec 5) (pl : BitVec 50) (c : Instr),
     c ∈ [.csReady src d pl .uncorrectable, .csError src d pl .uncorrectable, .csDoorbell src d pl .uncorrectable,
       .csCredit src d pl .uncorrectable] →
     ∃ t : State, exec c s = .next t ∧ t.mod.islands = s.mod.islands ∧ t.mem = s.mem ∧ t.pins = s.pins ∧
       (s.mod.holding = true → t.mgiHold = s.mgiHold ++ [.msg (csm 25 src.val 1 0), .msg (csm 25 d.toNat 1 0)] ∧ t.mod = s.mod) ∧
       (s.mod.holding = false → s.mod.inbox.length < 4096 →
         (s.mod.svc = .normal ∨ s.mod.svc = .bringup → t.mod.svc = .recovery ∧ t.fn 2 = false ∧ t.fn 3 = false ∧ t.fn 4 = false) ∧
         (s.mod.svc = .test → t.mod.svc = .test ∧ t.mod.testEnding = true) ∧
         (s.mod.svc = .switching → t.mod.svc = .switching ∧ t.mod.swFault = true) ∧
         (s.mod.svc = .boot → t.mod.svc = .boot ∧ t.mod.bootFault = true) ∧
         (s.mod.svc = .recovery → t.mod.svc = .recovery ∧ t.mod.fns = s.mod.fns)))

/-- Data straits. A clean unit is acknowledged, takes a credit when it is new, and takes a receive slot once every unit
sent before it has been delivered; a unit with an uncorrectable beat stays among the copies with one failure more; a
retransmission is counted until three failures of one unit declare the strait down, which fails every unit that is not
acknowledged back to its engine; a returned credit frees a slot. Nothing else of the state changes but the counters of
the beats. Islands and the service state. A passing self-test raises the readiness bit, a failing one leaves FAILED
with its code; an island reset by the firmware leaves RESETTING with the count one higher; bring-up completes, and
RECOVERY ends, once the core islands are ready, with `ADMIN`, `KV` and `CKPT` raised. The payload of a unit is
abstract (log 45). -/
def Obligations.DataStraitsAndIslands : Prop :=
  (∀ (s : State) (x : Fin 104) (toMi : Bool) (u : StraitUnit) (cor : Fin 9),
     let d := (s.strait x.val).dir toMi
     let rx := if toMi then (straitEnds x.val).2 else (straitEnds x.val).1
     let tx := if toMi then (straitEnds x.val).1 else (straitEnds x.val).2
     let leaves (bad : Bool) (e : StraitDir) : Prop := exec (.straitUnitReceive x toMi u cor bad) s =
       .next (((s.setStrait x.val (fun y => y.setDir toMi e)).count (0x2000 + rx) 0x0E cor.val).bin 4 (32 + rx) cor.val)
     (s.straitOpen x.val = true → s.onStrait x.val toMi u.org = true →
       (d.used < 32 → (∀ c ∈ d.copies, c.waits u = false) →
         (let cs := d.copies ++ [⟨u, 0, true⟩]
          leaves false ⟨cs.dropWhile StraitCopy.here, d.held + (cs.takeWhile StraitCopy.here).length, d.used + 1⟩) ∧
         leaves true ⟨d.copies ++ [⟨u, 1, false⟩], d.held, d.used + 1⟩) ∧
       (∀ (pre post : List StraitCopy) (c : StraitCopy), d.copies = pre ++ c :: post → (∀ b ∈ pre, b.waits u = false) → c.waits u = true →
         (let cs := pre ++ { c with here := true, fails := 0 } :: post
          leaves false ⟨cs.dropWhile StraitCopy.here, d.held + (cs.takeWhile StraitCopy.here).length, d.used⟩) ∧
         leaves true ⟨pre ++ { c with fails := c.fails + 1 } :: post, d.held, d.used⟩)) ∧
     (s.straitOpen x.val = true → (∃ c ∈ d.copies, 0 < c.fails) → (∀ c ∈ d.copies, c.fails < 3) →
       exec (.straitRetransmit x toMi) s = .next ((s.count (0x2000 + tx) 0x0F 1).bin 6 (8 + tx) 1)) ∧
     (s.straitOpen x.val = true → (∃ c ∈ d.copies, 3 ≤ c.fails) →
       ∃ t : State, exec (.straitRetransmit x toMi) s = .next t ∧ (t.strait x.val).up = false ∧ (t.strait x.val).down = true ∧
         (∀ c ∈ d.copies, c.here = false → .unitFailed x.val c.unit ∈ t.sent) ∧
         (x.val < 64 → s.mod.islands.length = 26 → (t.island (x.val / 4)).ready = false)) ∧
     (0 < d.held → 0 < d.used →
       ∃ t : State, exec (.straitCreditReturn x toMi) s = .next t ∧
         (t.strait x.val).dir toMi = { d with held := d.held - 1, used := d.used - 1 } ∧
         ((t.strait x.val).dir !toMi) = ((s.strait x.val).dir !toMi) ∧ t.mem = s.mem ∧ t.host = s.host)) ∧
  (∀ (s : State) (n : Fin 26) (code : BitVec 32), s.mod.islands.length = 26 →
     ((s.island n.val).istate = .selftest → ∃ t : State, exec (.selftestDone n 0) s = .next t ∧
       (t.island n.val).ready = true ∧ (t.island n.val).istate = .ready ∧ (t.island n.val).code = 0 ∧
       (∀ m, m ≠ n.val → t.island m = s.island m) ∧ t.mem = s.mem) ∧
     ((s.island n.val).istate = .selftest → code ≠ 0 → ∃ t : State, exec (.selftestDone n code) s = .next t ∧
       (t.island n.val).istate = .failed ∧ (t.island n.val).code = code.toNat ∧
       (t.island n.val).ready = (s.island n.val).ready ∧
       (n.val = 25 ∨ n.val = 23 ∨ (16 ≤ n.val ∧ n.val < 20) → s.mod.svc = .bringup → t.mod.svc = .recovery)) ∧
     (s.fwRuns = true → n.val ≠ 25 → n.val < 16 ∨ 20 ≤ n.val ∨ s.mod.svc = .recovery → (s.island n.val).istate = .ready →
       ∃ t : State, exec (.islandReset n) s = .next t ∧ (t.island n.val).istate = .resetting ∧ (t.island n.val).ready = false ∧
         (t.island n.val).resets = satAdd (2 ^ 32 - 1) (s.island n.val).resets 1) ∧
     (s.mod.svc = .bringup → s.coreReady = true → s.mod.bootFault = false → ∃ t : State, exec .bringupComplete s = .next t ∧
       t.mod.svc = .normal ∧ t.fn 1 = true ∧ t.fn 3 = true ∧ t.fn 4 = true) ∧
     (s.mod.svc = .recovery → s.coreReady = true → s.mod.jumped = true → s.stackFailed = false →
       ∃ t : State, exec .recoveryExit s = .next t ∧ t.mod.svc = .normal ∧ t.fn 1 = true ∧ t.fn 3 = true ∧ t.fn 4 = true))

/-! ### The object dictionary: writes with a row of their own -/

/-- Writes that wait for their boundary: where the server runs and nothing waits, a write that passes the checks of its
object changes the pending list alone, in place of an earlier pending value, and is answered with status 0; reserved
bits of the written value are ignored. -/
def Obligations.ConfigurationWritesWait : Prop :=
  ∀ (s : State) (path : Path) (bs : List Byte) (w8 : BitVec 64) (port : Fin 8) (i : Fin 16) (cap : BitVec 16) (b4 : BitVec 32),
    s.serverUp = true → s.dict.queue = [] → (path = .odp → s.opk.isSome = true) →
    let waits (bnd : Boundary) (key sel v : Nat) : Res := .next ((s.buffer bnd key sel v).emit (.dictDone path 0 0xFFFF))
    (path ≠ .mbx → 600 ≤ cap.toNat → cap.toNat ≤ 2600 → exec (.capWrite path cap) s = waits .tick 0x800001 0 cap.toNat) ∧
    (path ≠ .i3c → s.spaceCheck w8.toNat w8.toNat (s.nextVal 0x6000 5) = 0 →
      exec (.kvSpaceWrite path w8) s = waits .switch 0x600004 0 w8.toNat) ∧
    (path ≠ .i3c → s.spaceCheck w8.toNat (s.nextVal 0x6000 4) w8.toNat = 0 →
      exec (.ckptSpaceWrite path w8) s = waits .switch 0x600005 0 w8.toNat) ∧
    (path ≠ .i3c → bs.length = 16 → s.volCheck (s.obj 0x6100 1) (leNat bs % 2 ^ 82) = 0 →
      exec (.volConfigWrite path bs) s = waits .tick 0x610002 (s.obj 0x6100 1) (leNat bs % 2 ^ 82)) ∧
    (path ≠ .i3c → bs.length = 32 → let v := leNat bs % 2 ^ 18 + 2 ^ 32 * bits (leNat bs) 159 32
      s.qConfigCheck v = 0 → exec (.qConfigWrite path bs) s = waits .tick 0x370002 s.qSel v) ∧
    (path ≠ .i3c → bs.length = 16 → ssConfigCheck (leNat bs % 2 ^ 65) = 0 →
      exec (.ssConfigWrite path bs) s = waits .tick 0x370005 s.ssSel (leNat bs % 2 ^ 65)) ∧
    (path ≠ .i3c → bs.length = 32 → let v := maskReserved 0x3800 2 (leNat bs)
      s.polConfigCheck (s.obj 0x3800 1) v = 0 → exec (.polConfigWrite path bs) s = waits .tick 0x380002 (s.obj 0x3800 1) v) ∧
    (path ≠ .i3c → exec (.reqRetrainRetrain path port) s = waits .tick (0x300005 + 256 * port.val) 0 1) ∧
    (path ≠ .i3c → exec (.reqRetrainLinkReset path port) s = waits .tick (0x300005 + 256 * port.val) 0 2) ∧
    (path ≠ .i3c → s.bindCheck port.val i.val b4.toNat = 0 →
      exec (.bindWrite path port i b4) s = waits .tick (0x300020 + 256 * port.val + i.val) 0 b4.toNat)

/-- Requests through the dictionary: a reset of an island waits for the tick, a change of the service state or a tenant
switch leaves one pending request; each only in the service states that admit it, and each answered with status 0.
Writes that take effect at once: routes, classifier entries, notices, the end of a fence, the release of a job's
copies, and the secrets of the next compartment. -/
def Obligations.RequestAndImmediateWrites : Prop :=
  (∀ (s : State) (n : Fin 26), s.serverUp = true → s.dict.queue = [] → s.opk.isSome = true →
     let done (t : State) : Res := .next (t.emit (.dictDone .odp 0 0xFFFF))
     let denied (code : Nat) : Res := .next (s.emit (.dictDone .odp code 0))
     (n.val ≠ 25 → n.val < 16 ∨ 20 ≤ n.val ∨ s.mod.svc = .recovery → s.mod.svc ≠ .boot → s.mod.svc ≠ .switching →
       (s.island n.val).istate ≠ .resetting → exec (.resetCmdWrite .odp n 1) s =
         done { s with mod := { s.mod with resetReq := setBit s.mod.resetReq n.val true } }) ∧
     (exec (.resetCmdWrite .odp 25 1) s = denied 2) ∧
     (16 ≤ n.val → n.val < 20 → s.mod.svc ≠ .recovery → exec (.resetCmdWrite .odp n 1) s = denied 6) ∧
     (n.val < 16 → s.mod.svc = .normal → (s.island n.val).istate = .resetting → exec (.resetCmdWrite .odp n 1) s = denied 8) ∧
     (exec (.resetCmdWrite .mbx n 1) s = .next (s.emit (.dictDone .mbx 9 0))) ∧
     (s.mod.svc = .normal → s.mod.req = none → s.sliceIds = [] → exec (.stateRequestEnterTest .odp) s =
       done { s with mod := { s.mod with req := some .enterTest } }) ∧
     (s.mod.svc = .normal → s.sliceIds ≠ [] → exec (.stateRequestEnterTest .odp) s = denied 6) ∧
     (s.mod.svc = .test → s.mod.testEnding = false → s.mod.req = none → exec (.stateRequestEndTest .odp) s =
       done { s with mod := { s.mod with req := some .endTest } }) ∧
     (s.mod.svc = .normal → s.mod.req = none → s.keys.secret.isSome = true → exec (.switchRequestWrite .odp 1) s =
       done { s with mod := { s.mod with req := some .switch } }) ∧
     (s.mod.svc = .normal → s.mod.req = none → s.keys.secret = none → exec (.switchRequestWrite .odp 1) s = denied 4)) ∧
  (∀ (s : State) (path : Path) (bs : List Byte) (v : BitVec 32) (id : BitVec 16), path ≠ .i3c →
     s.serverUp = true → s.dict.queue = [] → (path = .odp → s.opk.isSome = true) →
     let done (t : State) : Res := .next (t.emit (.dictDone path 0 0xFFFF))
     (routeCheck bs = 0 → ∃ t : State, exec (.routeBlockWrite path bs) s = .next t ∧
       (∀ e, look 0 t.routes e = if s.obj 0x3100 2 ≤ e ∧ e < s.obj 0x3100 2 + 256 then fieldAt bs (4 * (e - s.obj 0x3100 2)) 4
         else look 0 s.routes e) ∧
       (∀ e ∈ t.routeCache, e ∈ s.routeCache ∧ (e < s.obj 0x3100 2 ∨ s.obj 0x3100 2 + 256 ≤ e)) ∧ t.dict = s.dict ∧ t.mem = s.mem) ∧
     (bs.length = 140 → s.clsWriteCheck (path == .odp) (maskReserved 0x3600 3 (leNat bs)) = 0 → ∃ t : State,
       exec (.clsWrite path bs) s = .next t ∧
       sget t.net.cls (fieldAt bs 0 4) = ⟨fieldAt bs 4 64, fieldAt bs 68 64, fieldAt bs 132 8 % 2 ^ 39 + 2 ^ 63 * bits (fieldAt bs 132 8) 63 63, 0⟩ ∧
       (∀ i, i ≠ fieldAt bs 0 4 → sget t.net.cls i = sget s.net.cls i) ∧ t.dict = s.dict ∧ t.mem = s.mem) ∧
     (s.clsValidCheck (path == .odp) v.toNat = 0 → ∃ t : State, exec (.clsValid path v) s = .next t ∧
       (let e := sget s.net.cls (v.toNat % 8192)
        sget t.net.cls (v.toNat % 8192) = { e with action := setBit e.action 63 (bit v.toNat 31) }) ∧
       (∀ i, i ≠ v.toNat % 8192 → sget t.net.cls i = sget s.net.cls i)) ∧
     (s.noticeCheck bs = 0 → exec (.noticeWrite path bs) s = done (s.noticeTake bs 1 [])) ∧
     (s.noticeCheck bs = 3 → exec (.noticeWrite path bs) s = .next (s.emit (.dictDone path 8 0))) ∧
     (s.unfenceCheck (id.toNat % 512) = 0 → exec (.unfenceWrite path id) s = done ((s.dropStep (id.toNat % 512)).endJob (id.toNat % 512))) ∧
     (bs.length = 8 → s.jobSlice (leNat bs) = none → exec (.releaseJobWrite path bs) s =
       done { s with ckpt := { s.ckpt with copies := s.ckpt.copies.filter (fun c => c.job != leNat bs) } }) ∧
     (bs.length = 8 → (s.jobSlice (leNat bs)).isSome = true → exec (.releaseJobWrite path bs) s =
       .next (s.emit (.dictDone path 8 0))) ∧
     (∀ r, path = .odp → bs.length = 68 → s.keys.openSecret bs = some r → exec (.nextSecretWrite path bs) s =
       done { s with keys := { s.keys with secret := some r } }) ∧
     (∀ k, path = .odp → bs.length = 76 → s.keys.openOpk bs = some k → exec (.nextOpkWrite path bs) s =
       done { s with keys := { s.keys with nextOpk := some k } }) ∧
     (path = .odp → bs.length = 68 → s.keys.openSecret bs = none → exec (.nextSecretWrite path bs) s =
       .next (s.emit (.dictDone path 4 0))))

/-- Writes of the firmware stage and of the recorder, by the operator. -/
def Obligations.FirmwareAndRecorderWrites : Prop :=
  ∀ (s : State) (bs : List Byte) (v : BitVec 8) (n : BitVec 32), s.serverUp = true → s.dict.queue = [] → s.opk.isSome = true →
    let done (t : State) : Res := .next (t.emit (.dictDone .odp 0 0xFFFF))
    let denied (code : Nat) : Res := .next (s.emit (.dictDone .odp code 0))
    let noJobs := s.ckpt.jobs.any (fun e => decide (e.2.st ≠ .none)) = false
    (s.mod.svc = .normal ∨ s.mod.svc = .recovery → noJobs → ∃ t : State, exec (.stageBegin .odp) s = .next t ∧
      t.firm.stage = .erasing ∧ t.firm.stageDone = [] ∧ t.nor.pendKind = 0 ∧
      (if s.firm.bootedB then t.nor.bankA = [] ∧ t.nor.stateA = 2 ∧ t.nor.bankB = s.nor.bankB
       else t.nor.bankB = [] ∧ t.nor.stateB = 2 ∧ t.nor.bankA = s.nor.bankA)) ∧
    (s.mod.svc = .test → exec (.stageBegin .odp) s = denied 6) ∧
    (s.firm.stage = .loading → exec (.stageCommit .odp) s = done { s with firm := { s.firm with stage := .verifying } }) ∧
    (s.firm.stage ≠ .loading → exec (.stageCommit .odp) s = denied 6) ∧
    (∃ t : State, exec (.stageAbort .odp) s = .next t ∧ t.firm.stage = .idle ∧
      (if s.firm.bootedB then t.nor.stateA = 2 else t.nor.stateB = 2) ∧ t.nor.bankA = s.nor.bankA ∧ t.nor.bankB = s.nor.bankB) ∧
    (s.mod.svc = .normal ∨ s.mod.svc = .recovery → s.firm.stage = .staged → noJobs → exec (.stageActivateReset .odp) s =
      done { s with nor := { s.nor with pendKind := 1, pendB := !s.firm.bootedB } }) ∧
    (s.mod.svc = .normal ∨ s.mod.svc = .recovery → s.firm.stage = .staged → noJobs → exec (.stageActivateAny .odp) s =
      done { s with nor := { s.nor with pendKind := 2, pendB := !s.firm.bootedB } }) ∧
    (exec (.stageCancel .odp) s = done { s with nor := { s.nor with pendKind := 0 } }) ∧
    (bs.length = 1024 → s.stageDataCheck = 0 → exec (.stageDataWrite .odp bs) s = done (s.stageDataApply bs)) ∧
    (s.svnCheck v.toNat = 0 → exec (.svnAdvanceWrite .odp v) s = done { s with nor := { s.nor with svnMin := v.toNat } }) ∧
    (s.svnCheck v.toNat ≠ 0 → exec (.svnAdvanceWrite .odp v) s = denied 4) ∧
    (exec (.recorderFreezeWrite .odp 1) s =
      done { s with rcd := { s.rcd with freeze := true, freezeTick := s.mod.tick } }) ∧
    (s.rcd.freeze = true → s.rcd.erasing = false → ∃ t : State, exec (.logClearWrite .odp 1) s = .next t ∧
      t.rcd.erasing = true ∧ t.fn 7 = false ∧ t.recCount = 0) ∧
    (s.rcd.freeze = false → exec (.logClearWrite .odp 1) s = denied 8) ∧
    (n.toNat < s.recCount → s.rcd.erasing = false → ∃ t : State, exec (.recSelectWrite .odp n) s = .next t ∧
      t.rcd.sel = s.nor.log[n.toNat]? ∧ t.obj 0x9100 6 = n.toNat) ∧
    (∃ t : State, exec (.recSelectWrite .odp 0xFFFFFFFF) s = .next t ∧ ∃ r, t.rcd.sel = some r ∧ r.live = true ∧ t.nor = s.nor)

/-- A write that its checks deny changes nothing of the state and is answered with its code. A datagram is counted and
discarded where no server runs or no operator key is provisioned; a mailbox request without a server stays BUSY in the
queue, and an I3C request is not acknowledged by a block whose server and boot ROM do not answer. The place of `B030`
among the checks is the model's reading (log 23). -/
def Obligations.DeniedWriteChangesNothing : Prop :=
  ∀ (s : State) (path : Path) (bs : List Byte) (b1 : BitVec 8) (b2 : BitVec 16) (b4 : BitVec 32) (b8 : BitVec 64)
    (n : Fin 26) (port : Fin 8) (i : Fin 16) (c : Instr) (e : DictEntry), s.dict.queue = [] →
    (c, e) ∈ [(.genericWrite (.object path b2 b1 b1 bs), ⟨b2, b1, false, b1, bs⟩),
      (.resetCmdWrite path n b1, ownEntry (0x2000 + n.val) 0xC (leBytes 1 b1.toNat)),
      (.stateRequestEnterTest path, ownEntry 0x1021 0 (leBytes 1 1)), (.stateRequestEndTest path, ownEntry 0x1021 0 (leBytes 1 2)),
      (.reqRetrainRetrain path port, ownEntry (0x3000 + port.val) 5 (leBytes 1 1)),
      (.reqRetrainLinkReset path port, ownEntry (0x3000 + port.val) 5 (leBytes 1 2)),
      (.bindWrite path port i b4, ownEntry (0x3000 + port.val) (0x20 + i.val) (leBytes 4 b4.toNat)),
      (.routeBlockWrite path bs, ownEntry 0x3100 3 bs), (.clsWrite path bs, ownEntry 0x3600 3 bs),
      (.clsValid path b4, ownEntry 0x3600 4 (leBytes 4 b4.toNat)), (.qConfigWrite path bs, ownEntry 0x3700 2 bs),
      (.ssConfigWrite path bs, ownEntry 0x3700 5 bs), (.polConfigWrite path bs, ownEntry 0x3800 2 bs),
      (.noticeWrite path bs, ownEntry 0x5000 1 bs), (.unfenceWrite path b2, ownEntry 0x5100 5 (leBytes 2 b2.toNat)),
      (.releaseJobWrite path bs, ownEntry 0x5000 4 bs), (.volConfigWrite path bs, ownEntry 0x6100 2 bs),
      (.kvSpaceWrite path b8, ownEntry 0x6000 4 (leBytes 8 b8.toNat)), (.ckptSpaceWrite path b8, ownEntry 0x6000 5 (leBytes 8 b8.toNat)),
      (.switchRequestWrite path b1, ownEntry 0x7200 1 (leBytes 1 b1.toNat)), (.nextSecretWrite path bs, ownEntry 0x7200 2 bs),
      (.nextOpkWrite path bs, ownEntry 0x7200 6 bs), (.stageBegin path, ownEntry 0xB000 1 (leBytes 1 1)),
      (.stageCommit path, ownEntry 0xB000 1 (leBytes 1 2)), (.stageAbort path, ownEntry 0xB000 1 (leBytes 1 3)),
      (.stageActivateReset path, ownEntry 0xB000 1 (leBytes 1 4)), (.stageActivateAny path, ownEntry 0xB000 1 (leBytes 1 5)),
      (.stageCancel path, ownEntry 0xB000 1 (leBytes 1 6)), (.stageDataWrite path bs, ownEntry 0xB000 3 bs),
      (.svnAdvanceWrite path b1, ownEntry 0xB010 9 (leBytes 1 b1.toNat)), (.capWrite path b2, ownEntry 0x8000 1 (leBytes 2 b2.toNat)),
      (.recorderFreezeWrite path b1, ownEntry 0x9100 2 (leBytes 1 b1.toNat)), (.logClearWrite path b1, ownEntry 0x9100 0xB (leBytes 1 b1.toNat)),
      (.recSelectWrite path b4, ownEntry 0x9100 6 (leBytes 4 b4.toNat))] →
    (s.serverUp = true → (path = .odp → s.opk.isSome = true) → s.writeCode path e ≠ 0 →
      exec c s = .next (s.emit (.dictDone path (s.writeCode path e) 0))) ∧
    (s.serverUp = true → path = .odp → s.opk = none → exec c s = .next (s.count 0x1040 8 1)) ∧
    (s.serverUp = false → path = .odp → exec c s = .next (s.count 0x1040 6 1)) ∧
    (s.serverUp = false → path = .mbx → s.dict.mbx.busy = false → s.barHalted = false → ∃ t : State, exec c s = .next t ∧
      t.dict.mbx.busy = true ∧ t.dict.mbx.buf = splice (bytesAt s.dict.mbx.buf 0 4096) 0 (ownBytes e) ∧
      t.dict.queue.length = 1 ∧ t.dict.obj = s.dict.obj ∧ t.mem = s.mem ∧ t.sent = s.sent) ∧
    (s.serverUp = false → path = .i3c → s.romServes = false → exec c s = .next (s.emit (.i3cAck false)))

/-! ### The control surfaces (chapter 2) -/

/-- Object Dictionary Protocol. Without a server, without a key, malformed, with a bad tag or replayed, a datagram changes
one counter each and nothing else, in that order; with a full queue it is answered BUSY; else it is counted, its `SEQ`
is taken and it joins the queue, where it waits unless the server comes to it now. The I3C target. A transfer to
another address than the static one, a write with a wrong CRC, while a request is under way, or with no one to answer,
is not acknowledged and changes nothing; a response is read once, and a read without one returns BUSY. The replay
window and the datagram with no server are the model's reading (log 28). -/
def Obligations.OdpAndI3c : Prop :=
  (∀ (s : State) (src : Nat) (bs : List Byte) (now : Bool),
     (s.serverUp = false → exec (.odpRequest src bs now) s = .next (s.count 0x1040 6 1)) ∧
     (s.serverUp = true → s.opk = none → exec (.odpRequest src bs now) s = .next (s.count 0x1040 8 1)) ∧
     (∀ k, s.serverUp = true → s.opk = some k →
       (odpEntries bs = none → exec (.odpRequest src bs now) s = .next (s.count 0x1040 4 1)) ∧
       (∀ es, odpEntries bs = some es →
         let q := beNat ((bs.drop 8).take 8)
         (odpTagOk k bs = false → exec (.odpRequest src bs now) s = .next (s.count 0x1040 2 1)) ∧
         (odpTagOk k bs = true → s.dict.odpHigh = some q → exec (.odpRequest src bs now) s = .next (s.count 0x1040 3 1)) ∧
         (odpTagOk k bs = true → (∀ h, s.dict.odpHigh = some h → q + 64 < h) → s.dict.odpHigh ≠ none →
           exec (.odpRequest src bs now) s = .next (s.count 0x1040 3 1)) ∧
         (odpTagOk k bs = true → (∀ h, s.dict.odpHigh = some h → h < q) →
           62 ≤ (s.dict.queue.filter (fun r => r.path == .odp)).length → ∃ t b, exec (.odpRequest src bs now) s = .next t ∧
           t = (s.count 0x1040 5 1).emit (.odp src b) ∧ fieldAt b 20 1 = 8) ∧
         (odpTagOk k bs = true → (∀ h, s.dict.odpHigh = some h → h < q) →
           (s.dict.queue.filter (fun r => r.path == .odp)).length < 62 → ∃ t : State, exec (.odpRequest src bs false) s = .next t ∧
           t.dict.odpHigh = some q ∧ t.obj 0x1040 1 = wrap48 (s.obj 0x1040 1 + 1) ∧
           t.dict.queue.length = s.dict.queue.length + 1 ∧ t.mem = s.mem ∧ t.mod = s.mod ∧ t.sent = s.sent)))) ∧
  (∀ (s : State) (bs : List Byte) (now : Bool) (addr other : BitVec 7), bs ≠ [] → addr.toNat = 0x50 + s.obj 0x1018 4 → other ≠ addr →
     exec (.i3cPrivateWrite other bs now) s = .next (s.emit (.i3cAck false)) ∧
     exec (.i3cPrivateRead other) s = .next (s.emit (.i3cAck false)) ∧
     (crc8 bs.dropLast ≠ (bs.getLastD 0).toNat ∨ s.dict.i3cBusy = true ∨ (s.romServes || s.serverUp) = false →
       exec (.i3cPrivateWrite addr bs now) s = .next (s.emit (.i3cAck false))) ∧
     (crc8 bs.dropLast = (bs.getLastD 0).toNat → s.dict.i3cBusy = false → s.romServes = false → s.serverUp = true →
       ∃ t : State, exec (.i3cPrivateWrite addr bs false) s = .next t ∧ t.dict.i3cBusy = true ∧ t.dict.i3cResp = none ∧
       t.dict.queue.length = s.dict.queue.length + 1 ∧ t.sent = .i3cAck true :: s.sent ∧ t.mod = s.mod ∧ t.mem = s.mem) ∧
     (crc8 bs.dropLast = (bs.getLastD 0).toNat → s.dict.i3cBusy = false → s.romServes = true → i3cParse bs = none →
       exec (.i3cPrivateWrite addr bs now) s = .next { s with
         dict := { s.dict with i3cResp := some (i3cResponse 5 0 []) }, sent := .i3cAck true :: s.sent }) ∧
     (∀ b, (s.romServes || s.serverUp) = true → s.dict.i3cResp = some b → exec (.i3cPrivateRead addr) s =
       .next { s with dict := { s.dict with i3cResp := none }, sent := .i3cRead b :: s.sent }) ∧
     ((s.romServes || s.serverUp) = true → s.dict.i3cResp = none → exec (.i3cPrivateRead addr) s =
       .next (s.emit (.i3cRead (i3cResponse 8 0 [])))) ∧
     ((s.romServes || s.serverUp) = false → exec (.i3cPrivateRead addr) s = .next (s.emit (.i3cAck false))))

/-- The mailbox. `GO` submits a request and sets BUSY, and with BUSY set it is dropped, counted and shown in `OVERRUN`;
`DONE` and `OVERRUN` clear by writing 1; the two registers alone change, with INTx following `DONE`. Mailbox requests
are carried out whole: with an empty queue and a running server, a read of the service state through `GO` returns it
in `MBX_BUF` with `DONE` set; a request whose `COUNT` is 0 is answered TYPE. -/
def Obligations.MailboxRequests : Prop :=
  (∀ (s : State) (len : BitVec 16) (n : BitVec 8) (w now : Bool), s.firm.phase ≠ .halted →
     (s.dict.mbx.busy = true → exec (.mbxGo len n w now) s =
       .next (({ s with dict := { s.dict with mbx := { s.dict.mbx with overrun := true } } }).count 0x1040 7 1)) ∧
     (s.dict.mbx.busy = false → ∃ t : State, exec (.mbxGo len n w false) s = .next t ∧ t.dict.mbx.busy = true ∧
       t.dict.mbx.length = len.toNat ∧ t.dict.mbx.count = n.toNat ∧ t.dict.mbx.kindW = w ∧
       t.dict.queue.length = s.dict.queue.length + 1 ∧ t.dict.obj = s.dict.obj ∧ t.mem = s.mem ∧ t.mod = s.mod) ∧
     (∃ t : State, exec .mbxDoneClear s = .next t ∧ t.dict = { s.dict with mbx := { s.dict.mbx with done := false } } ∧
       t.adm = s.adm ∧ t.mod = s.mod ∧ t.mem = s.mem ∧
       (s.host.pf0.msixEnable = false → s.host.pf0.intxDisable = false →
         t.host.pf0.intx = decide (s.adm.cqTail ≠ s.adm.cqHead))) ∧
     (∃ t : State, exec .mbxOverrunClear s = .next t ∧ t.dict = { s.dict with mbx := { s.dict.mbx with overrun := false } } ∧
       t.mod = s.mod ∧ t.mem = s.mem)) ∧
  (∀ (s : State), s.firm.phase ≠ .halted → s.serverUp = true → s.dict.queue = [] → s.dict.mbx.busy = false →
     (s.pendingOf 0x1020 0 = none → s.dict.mbx.buf = leBytes 8 0x1020 → ∃ t : State, exec (.mbxGo 8 1 false true) s = .next t ∧
       t.dict.mbx.busy = false ∧ t.dict.mbx.done = true ∧ t.dict.mbx.status = 0 ∧ t.dict.mbx.respLen = 16 ∧
       fieldAt t.dict.mbx.buf 0 2 = 0x1020 ∧ fieldAt t.dict.mbx.buf 6 2 = 1 ∧ fieldAt t.dict.mbx.buf 8 1 = s.mod.svc.code ∧
       t.dict.queue = [] ∧ t.mod = s.mod) ∧
     (∃ t : State, exec (.mbxGo 8 0 false true) s = .next t ∧ t.dict.mbx.busy = false ∧ t.dict.mbx.done = true ∧
       t.dict.mbx.status = 5 ∧ t.dict.mbx.fail = 0xFFFF ∧ t.dict.mbx.respLen = 0))

/-- Wide mailboxes and wide values. A selector clears `VALID` and starts a capture; the capture takes value and tick
together and advances the generation; the HI word makes an aperture entry take effect with the LO word written before.
Bus errors. An access that the register map refuses raises a bus error and changes nothing else; a glove page of a
slice that does not exist refuses every write. The host's controls in configuration space are taken as written. Reads
of BAR registers. A glove page that does not answer gives a bus error; the key slots and doorbells read as zero; a
wide value reads as zero where wide values are not live, with STALE set in its page, and as its two words elsewhere;
the state and readiness registers read in every service state. -/
def Obligations.WideValuesAndBusErrors : Prop :=
  (∀ (s : State) (sl : Fin 512) (v w : BitVec 32) (i : Fin 1024),
     (s.slice sl.val).st ≠ .free → (s.slice sl.val).st ≠ .destroying →
     (∃ t : State, exec (.wmbSelWrite (some sl) v) s = .next t ∧
       (let x := sget t.dict.wmb (1 + sl.val)
        x.sel = v.toNat % 2 ^ 26 ∧ x.valid = false ∧ x.run = true ∧ x.gen = (sget s.dict.wmb (1 + sl.val)).gen) ∧
       t.host = s.host ∧ t.mem = s.mem ∧ t.mod = s.mod) ∧
     ((sget s.dict.wmb (1 + sl.val)).run = true → ∃ t : State, exec (.wmbCapture (some sl)) s = .next t ∧
       (let x := sget t.dict.wmb (1 + sl.val)
        let y := sget s.dict.wmb (1 + sl.val)
        x.valid = true ∧ x.run = false ∧ x.gen = (y.gen + 1) % 256 ∧ x.tick = s.mod.tick ∧
        x.badsel = (s.gloveWide sl.val y.sel).isNone ∧ x.data = (s.gloveWide sl.val y.sel).getD 0) ∧ t.host = s.host) ∧
     ((sget s.dict.wmb (1 + sl.val)).run = false → exec (.wmbCapture (some sl)) s = .next s) ∧
     (s.wideLive = true → exec (.genericWrite (.glove sl (BitVec.ofNat 16 (0x2000 + 8 * i.val)) v)) s =
       .next { s with dict := { s.dict with
         wideLo := put 0 s.dict.wideLo ((1 + sl.val) * 65536 + 0x2000 + 8 * i.val) v.toNat } }) ∧
     (s.wideLive = true → look 0 s.dict.wideLo ((1 + sl.val) * 65536 + 0x2000 + 8 * i.val) = v.toNat →
       exec (.wideHiWrite (some sl) (BitVec.ofNat 16 (0x2004 + 8 * i.val)) w) s =
         .next (s.setSlice sl.val (fun x => { x with
           apert := put 0 x.apert i.val ((v.toNat + 2 ^ 32 * w.toNat) % 2 ^ 57) }))) ∧
     (s.wideLive = false → exec (.wideHiWrite (some sl) (BitVec.ofNat 16 (0x2004 + 8 * i.val)) w) s = .next s)) ∧
  (∀ (s : State) (sl : Fin 512) (off : BitVec 16) (o26 : BitVec 26) (v : BitVec 32) (l1 l11 l12 l0p ats : Bool),
     exec (.barBadAccess true) s = .next (s.emit (.busError .pcieWrite)) ∧
     exec (.barBadAccess false) s = .next (s.emit (.busError .pcieRead)) ∧
     ((s.slice sl.val).st = .free → exec (.genericWrite (.glove sl off v)) s = .next (s.emit (.busError .pcieWrite))) ∧
     ((s.slice sl.val).st = .free → exec (.wmbSelWrite (some sl) v) s = .next (s.emit (.busError .pcieWrite))) ∧
     (o26.toNat % 4 ≠ 0 → exec (.genericWrite (.bar0 o26 v)) s = .next (s.emit (.busError .pcieWrite))) ∧
     (s.firm.phase = .halted → exec (.mbxGo 0 0 false true) s = .next (s.emit (.busError .pcieWrite))) ∧
     exec (.genericWrite (.config l1 l11 l12 l0p ats)) s = .next { s with host := { s.host with
       l1Enable := l1, l11Enable := l11, l12Enable := l12, l0pEnable := l0p, ats := ats, atsCache := if ats then s.host.atsCache else [] } }) ∧
  (∀ (s : State) (sl : Fin 512) (off : Nat), off % 4 = 0 →
     (s.gloveThere sl.val = false → s.gloveRead sl off = none) ∧
     (s.gloveThere sl.val = true →
       (0x4000 ≤ off → off < 0x8000 → s.gloveRead sl off = some 0) ∧
       (0x1000 ≤ off → off < 0x2000 → s.gloveRead sl off = some 0) ∧
       (∀ i : Fin 1024, let e := look 0 (s.slice sl.val).apert i.val
         s.gloveRead sl (0x2000 + 8 * i.val) = some (if s.wideLive then bits e 31 0 else 0) ∧
         s.gloveRead sl (0x2004 + 8 * i.val) = some (if s.wideLive then bits e 63 32 else 0)) ∧
       (∀ pg ∈ [2, 3, 8], (bit (s.pageStatus (some sl) pg) 0 = true ↔ s.wideLive = false)) ∧
       (bit (s.pageStatus (some sl) 8) 1 = true ↔ ∃ w ∈ s.dict.pend, counterKey sl.val 0 ≤ w.key ∧ w.key < counterKey sl.val 512) ∧
       s.gloveRead sl 0x004 = some sl.val)) ∧
  (∀ s : State, s.bar0Read 0x10 = some s.mod.svc.code ∧ s.bar0Read 0x14 = some s.mod.readyCopy ∧ s.bar0Read 0x18 = some s.mod.fns ∧
     (s.barHalted = true → s.bar0Read 0x08 = none) ∧
     (s.barHalted = false → s.bar0Read 0x20 = some (if s.wideLive then bits s.mod.tick 31 0 else 0)))

/-! ### Itette sequencers (chapter 5) -/

/-- Register arithmetic. Each instruction of Table 5-7 with two source registers writes its result to `RD`, takes its
issue cycles and steps to the next word; a destination of g0 discards the result; nothing else changes. Counts and
immediates. `CLZ`, `CTZ` and `POPC` count over `RA` and need `RB` to be 0; the immediate forms extend as Table 5-7
says, with a prefix to 32 bits, `LI` to 37; shifts by an immediate use its low 6 bits, whose others must be 0. -/
def Obligations.RegisterArithmetic : Prop :=
  (∀ (s : State) (h : Hdr) (rd ra rb : BitVec 5) (c : Instr) (v : Word) (cost : Nat), s.issues h [rd, ra, rb] [] →
     let z := s.seqr h.seq.val
     let a := z.gpr ra.toNat
     let b := z.gpr rb.toNat
     (c, v, cost) ∈ [(.add h rd ra rb, a + b, 1), (.sub h rd ra rb, a - b, 1), (.and h rd ra rb, a &&& b, 1),
       (.or h rd ra rb, a ||| b, 1), (.xor h rd ra rb, a ^^^ b, 1), (.andn h rd ra rb, a &&& ~~~b, 1),
       (.shl h rd ra rb, a <<< (b.toNat % 64), 1), (.shr h rd ra rb, a >>> (b.toNat % 64), 1),
       (.sra h rd ra rb, a.sshiftRight (b.toNat % 64), 1), (.min h rd ra rb, if a.slt b then a else b, 1),
       (.max h rd ra rb, if b.slt a then a else b, 1), (.minu h rd ra rb, if a.ult b then a else b, 1),
       (.maxu h rd ra rb, if b.ult a then a else b, 1), (.mul h rd ra rb, a * b, 1),
       (.mulh h rd ra rb, BitVec.ofInt 64 (a.toInt * b.toInt / 2 ^ 64), 1),
       (.mulhu h rd ra rb, BitVec.ofNat 64 (a.toNat * b.toNat / 2 ^ 64), 1),
       (.div h rd ra rb, if b = 0 then -1 else BitVec.ofInt 64 (a.toInt.tdiv b.toInt), 34),
       (.divu h rd ra rb, if b = 0 then -1 else BitVec.ofNat 64 (a.toNat / b.toNat), 34),
       (.rem h rd ra rb, if b = 0 then a else BitVec.ofInt 64 (a.toInt.tmod b.toInt), 34),
       (.remu h rd ra rb, if b = 0 then a else BitVec.ofNat 64 (a.toNat % b.toNat), 34)] →
     ∃ t : State, exec c s = .next t ∧ OnlySeqr h.seq.val s t ∧ t.seqr h.seq.val = (z.advance h cost).setGpr rd.toNat v ∧
       (t.seqr h.seq.val).gpr 0 = 0 ∧ (rd ≠ 0 → (t.seqr h.seq.val).gpr rd.toNat = v) ∧
       (∀ r, r ≠ rd.toNat → (t.seqr h.seq.val).gpr r = z.gpr r)) ∧
  (∀ (s : State) (h : Hdr) (rd ra : BitVec 5) (imm : BitVec 11) (i16 : BitVec 16),
     let z := s.seqr h.seq.val
     let a := z.gpr ra.toNat
     let d := z.gpr rd.toNat
     let yields (c : Instr) (P : Word → Prop) : Prop := ∃ t v, exec c s = .next t ∧ OnlySeqr h.seq.val s t ∧ P v ∧
       t.seqr h.seq.val = (z.advance h 1).setGpr rd.toNat v
     (s.issues h [rd, ra, 0] [] →
       yields (.clz h rd ra 0) (fun v => v.toNat ≤ 64 ∧ a.toNat < 2 ^ (64 - v.toNat) ∧ (v.toNat < 64 → 2 ^ (63 - v.toNat) ≤ a.toNat)) ∧
       yields (.ctz h rd ra 0) (fun v => v.toNat ≤ 64 ∧ a.toNat % 2 ^ v.toNat = 0 ∧ (v.toNat < 64 → bit a.toNat v.toNat = true)) ∧
       yields (.popc h rd ra 0) (fun v => v.toNat = ((List.range 64).filter (fun i => a.getLsbD i)).length)) ∧
     (s.issues h [rd, ra] [] →
       yields (.addi h rd ra imm) (· = a + imm.signExtend 64) ∧ yields (.andi h rd ra imm) (· = a &&& imm.zeroExtend 64) ∧
       yields (.ori h rd ra imm) (· = a ||| imm.zeroExtend 64) ∧ yields (.xori h rd ra imm) (· = a ^^^ imm.zeroExtend 64) ∧
       yields (.muli h rd ra imm) (· = a * imm.signExtend 64) ∧
       (imm.toNat < 64 → yields (.shli h rd ra imm) (· = a <<< imm.toNat) ∧ yields (.shri h rd ra imm) (· = a >>> imm.toNat) ∧
         yields (.srai h rd ra imm) (· = a.sshiftRight imm.toNat))) ∧
     (s.issues h [rd] [] → yields (.li h rd i16) (· = i16.signExtend 64) ∧ yields (.lit h rd i16) (· = d <<< 16 ||| i16.zeroExtend 64)))

/-- Compares and predicates. A compare sets `PT` to the condition and `PF` to its negation, with writes of p0 discarded;
the predicate operations combine two predicates; `MFP` reads p7 to p0 with p0 as 1; `MTP` writes p1 to p7, of which
the S profile has p1 to p3. -/
def Obligations.ComparesAndPredicates : Prop :=
  ∀ (s : State) (h : Hdr) (pt pf pd pa pb : BitVec 3) (ra rb rd : BitVec 5) (imm : BitVec 10),
    let z := s.seqr h.seq.val
    let a := z.gpr ra.toNat
    let b := z.gpr rb.toNat
    let i : Word := imm.signExtend 64
    let p := z.pred pa.toNat
    let r := z.pred pb.toNat
    (pt ≠ pf ∨ pt = 0 → ∀ (c : Instr) (v : Bool),
      (s.issues h [ra, rb] [pt, pf] ∧ (c, v) ∈ [(.cmpEq h pt pf ra rb, decide (a = b)), (.cmpLt h pt pf ra rb, a.slt b),
        (.cmpLtu h pt pf ra rb, a.ult b), (.cmpGt h pt pf ra rb, b.slt a), (.cmpGtu h pt pf ra rb, b.ult a),
        (.cmpTst h pt pf ra rb, a &&& b != 0)]) ∨
      (s.issues h [ra] [pt, pf] ∧ (c, v) ∈ [(.cmpiEq h pt pf ra imm, decide (a = i)), (.cmpiLt h pt pf ra imm, a.slt i),
        (.cmpiLtu h pt pf ra imm, a.ult i), (.cmpiGt h pt pf ra imm, i.slt a), (.cmpiGtu h pt pf ra imm, i.ult a)]) →
      ∃ t : State, exec c s = .next t ∧ OnlySeqr h.seq.val s t ∧
        t.seqr h.seq.val = ((z.advance h 1).setPred pt.toNat v).setPred pf.toNat (!v)) ∧
    (s.issues h [] [pd, pa, pb] → ∀ (c : Instr) (v : Bool),
      (c, v) ∈ [(.pand h pd pa pb 0, p && r), (.por h pd pa pb 0, p || r), (.pxor h pd pa pb 0, xor p r),
        (.pandn h pd pa pb 0, p && !r), (.porn h pd pa pb 0, p || !r)] →
      ∃ t : State, exec c s = .next t ∧ OnlySeqr h.seq.val s t ∧ t.seqr h.seq.val = (z.advance h 1).setPred pd.toNat v ∧
        (t.seqr h.seq.val).pred 0 = true ∧ (pd ≠ 0 → (t.seqr h.seq.val).pred pd.toNat = v)) ∧
    (s.issues h [rd, 0, 0] [] → ∃ t v, exec (.mfp h rd 0 0) s = .next t ∧ OnlySeqr h.seq.val s t ∧
      t.seqr h.seq.val = (z.advance h 1).setGpr rd.toNat v ∧ ∀ k < 64, v.getLsbD k = (decide (k < 8) && z.pred k)) ∧
    (s.issues h [0, ra, 0] [] → ∃ t : State, exec (.mtp h 0 ra 0) s = .next t ∧ OnlySeqr h.seq.val s t ∧
      (∀ k, 1 ≤ k → k < 8 → (t.seqr h.seq.val).pred k = (a.getLsbD k && (!(isS h.seq.val) || decide (k < 4)))) ∧
      ∀ k, (t.seqr h.seq.val).gpr k = z.gpr k)

/-- The guard, the prefix and the checks of fields. A false guard leaves a no-operation of one cycle; a prefix holds its
extension for the next word and extends it; a compare with equal destinations, a non-zero unused field, and a register
that an S-profile sequencer lacks, raise UNDEF whatever the guard. The order of unlike checks is the model's reading
(log 44). -/
def Obligations.GuardPrefixAndUndef : Prop :=
  ∀ (s : State) (h : Hdr) (rd ra rb : BitVec 5) (imm : BitVec 11) (x : BitVec 21) (pt : BitVec 3) (i16 : BitVec 16),
    let q := h.seq.val
    let z := s.seqr q
    let free := s.live q = true ∧ z.awaited = []
    let traps (c : Instr) (info : Nat) : Prop := ∃ t : State, exec c s = .next t ∧ OnlySeqr q s t ∧
      t.seqr q = (z.advance h 1).trapped 1 info z.pc
    (isS q = false → free → z.pfx = none → z.pred (h.guard.toNat % 8) = bit h.guard.toNat 3 →
      ∀ c ∈ [.add h rd ra rb, .div h rd ra rb, .addi h rd ra imm, .li h rd i16, .stdx h rd ra imm, .push h 0 ra 0,
        .halt h 0 0 0, .trap h 0 0], ∃ t : State, exec c s = .next t ∧ OnlySeqr q s t ∧ t.seqr q = z.advance h 1) ∧
    (free → z.pfx = none → h.guard = 0 → ∃ t : State, exec (.pfx h x) s = .next t ∧ OnlySeqr q s t ∧
      t.seqr q = { z with cycle := z.cycle + h.stall.toNat + 1, pfx := some x.toNat }) ∧
    (isS q = false → free → z.pfx = some x.toNat → h.guard = 0 → ∃ t : State, exec (.addi h rd ra imm) s = .next t ∧ OnlySeqr q s t ∧
      t.seqr q = ({ z with cycle := z.cycle + h.stall.toNat + 1, pc := z.pc + 8, pfx := none }).setGpr rd.toNat
        (z.gpr ra.toNat + (x ++ imm : BitVec 32).signExtend 64)) ∧
    (free → z.pfx = some x.toNat → z.inTrap = false → z.tvbase ≠ 0 → ∃ t : State, exec (.add h rd ra rb) s = .next t ∧
      (t.seqr q).trapcause = 1 ∧ (t.seqr q).trappc = z.pc ∧ (t.seqr q).trapinfo = 2 ^ 21 + x.toNat ∧ (t.seqr q).pfx = none) ∧
    (free → z.pfx = none → z.inTrap = false → z.tvbase ≠ 0 →
      (pt ≠ 0 → traps (.cmpEq h pt pt ra rb) (h.guard.toNat * 2 ^ 28 + 0x10 * 2 ^ 21 + pt.toNat * 2 ^ 18 + pt.toNat * 2 ^ 15 +
        ra.toNat * 1024 + rb.toNat * 32)) ∧
      (rb ≠ 0 → traps (.clz h rd ra rb) (h.guard.toNat * 2 ^ 28 + 0x02 * 2 ^ 21 + rd.toNat * 65536 + ra.toNat * 2048 +
        rb.toNat * 64 + 0x0D)) ∧
      (isS q = true → 16 ≤ rd.toNat → traps (.add h rd ra rb) (h.guard.toNat * 2 ^ 28 + 0x02 * 2 ^ 21 + rd.toNat * 65536 +
        ra.toNat * 2048 + rb.toNat * 64)))

/-- Control transfers. A transfer to a multiple of 4 inside the code region goes there in 2 cycles; calls push the next
address, on the L profile into memory below `RSP`, on the S profile into the eight hardware entries; a return takes it
back; another target raises FETCH, and a full or an empty return stack its own trap, with nothing pushed or popped. -/
def Obligations.ControlTransfer : Prop :=
  ∀ (s : State) (h : Hdr) (ra : BitVec 5) (off : BitVec 21),
    let q := h.seq.val
    let z := s.seqr q
    let a := (z.gpr ra.toNat).toNat
    let rel := unsigned 64 ((z.pc : Int) + off.toInt * 4)
    let jumped (y : Seqr) (dst : Nat) : Seqr := { y.advance h 2 with pc := dst }
    (s.issues h [] [] → z.target rel = true → ∃ t : State, exec (.br h off) s = .next t ∧ OnlySeqr q s t ∧ t.seqr q = jumped z rel) ∧
    (s.issues h [] [] → z.target rel = false → z.inTrap = false → z.tvbase ≠ 0 → ∃ t : State, exec (.br h off) s = .next t ∧
      OnlySeqr q s t ∧ t.seqr q = (z.advance h 1).trapped 3 rel z.pc) ∧
    (s.issues h [0, ra, 0] [] → z.target a = true → ∃ t : State, exec (.jr h 0 ra 0) s = .next t ∧ OnlySeqr q s t ∧ t.seqr q = jumped z a) ∧
    (q < 16 → z.rslo + 8 ≤ z.rsp → z.rsp < 2 ^ 64 →
      let top := localBase q + (z.rsp - 8) % 2 ^ 26
      let pushed (c : Instr) (dst : Nat) : Prop := ∃ t : State, exec c s = .next t ∧ t.seqr q = { jumped z dst with rsp := z.rsp - 8 } ∧
        (∀ x, t.byte x = if top ≤ x ∧ x < top + 8 then (leBytes 8 (z.pc + 4)).getD (x - top) 0 else s.byte x) ∧
        t = { s with seqs := t.seqs, mem := t.mem, spBad := t.spBad } ∧ ∀ k, k ≠ q → t.seqr k = s.seqr k
      (s.issues h [] [] → z.target rel = true → pushed (.call h off) rel) ∧
      (s.issues h [0, ra, 0] [] → z.target a = true → pushed (.callr h 0 ra 0) a)) ∧
    (q < 16 → s.issues h [] [] → z.target rel = true → z.rsp = z.rslo → 8 ≤ z.rslo → z.rslo < 2 ^ 64 → z.inTrap = false → z.tvbase ≠ 0 →
      ∃ t : State, exec (.call h off) s = .next t ∧ OnlySeqr q s t ∧ t.seqr q = (z.advance h 1).trapped 0x0A z.rsp z.pc) ∧
    (17 ≤ q → s.issues h [] [] → z.target rel = true → z.stkmode = 0 → ∃ t : State, exec (.call h off) s = .next t ∧ OnlySeqr q s t ∧
      (let y := t.seqr q
       y.pc = rel ∧ look 0 y.rets z.retq = z.pc + 4 ∧ y.retq = (z.retq + 1) % 8 ∧ y.rsdepth = min (z.rsdepth + 1) 8 ∧
       ∀ i, i ≠ z.retq → look 0 y.rets i = look 0 z.rets i)) ∧
    (17 ≤ q → s.issues h [] [] → z.target rel = true → z.stkmode = 1 → z.rsdepth = 8 → z.inTrap = false → z.tvbase ≠ 0 →
      ∃ t : State, exec (.call h off) s = .next t ∧ OnlySeqr q s t ∧ t.seqr q = (z.advance h 1).trapped 0x0A z.retq z.pc) ∧
    (17 ≤ q → s.issues h [0, 0, 0] [] → z.stkmode = 0 → z.target (look 0 z.rets ((z.retq + 7) % 8)) = true →
      ∃ t : State, exec (.ret h 0 0 0) s = .next t ∧ OnlySeqr q s t ∧
        t.seqr q = { jumped z (look 0 z.rets ((z.retq + 7) % 8)) with retq := (z.retq + 7) % 8, rsdepth := z.rsdepth - 1 }) ∧
    (q < 16 → s.issues h [0, 0, 0] [] → h.ecc = .clean → z.rsp + 8 ≤ z.rshi → z.rsp + 8 < 2 ^ 64 →
      let top := localBase q + z.rsp % 2 ^ 26
      s.wordBad top = false → z.target (leNat (s.bytes top 8)) = true → ∃ t : State, exec (.ret h 0 0 0) s = .next t ∧ OnlySeqr q s t ∧
        t.seqr q = { jumped z (leNat (s.bytes top 8)) with rsp := z.rsp + 8 }) ∧
    (q < 16 → s.issues h [0, 0, 0] [] → z.rshi < (z.rsp + 8) % 2 ^ 64 → z.inTrap = false → z.tvbase ≠ 0 →
      ∃ t : State, exec (.ret h 0 0 0) s = .next t ∧ OnlySeqr q s t ∧ t.seqr q = (z.advance h 1).trapped 0x0B z.rsp z.pc)

/-- Loads from the local space of an island sequencer. A banked and a based load of each size deliver the bytes, extended
with zeros or by sign, and change nothing but the destination register. Stores into the local space of an island
sequencer. A banked and a based store of each size put the low bytes of the register at the address they compute and
leave every other byte, every register and every other sequencer as it was. -/
def Obligations.LocalLoadsAndStores : Prop :=
  (∀ (s : State) (h : Hdr) (rd ra : BitVec 5) (bs : BitVec 3) (off : BitVec 13) (imm : BitVec 11) (c : Instr) (n a : Nat) (sx : Bool),
     let q := h.seq.val
     let z := s.seqr q
     let bank := look 0 z.b bs.toNat
     let v := leNat (s.bytes (localBase q + a) n)
     q < 16 → h.ecc = .clean → z.localOk q a n false = true → a + n ≤ 2 ^ 26 → s.wordBad (localBase q + a) = false → z.ops = [] →
     (s.issues h [rd] [] ∧ bits bank 33 32 = 1 ∧ a = bits bank 31 0 * 65536 + off.toNat * n ∧ (c, n, sx) ∈ [(.ldb h rd bs off, 1, false),
         (.ldh h rd bs off, 2, false), (.ldw h rd bs off, 4, false), (.ldd h rd bs off, 8, false), (.ldbs h rd bs off, 1, true),
         (.ldhs h rd bs off, 2, true), (.ldws h rd bs off, 4, true)]) ∨
     (s.issues h [rd, ra] [] ∧ (z.gpr ra.toNat + imm.signExtend 64).toNat = 2 ^ 63 + a ∧ a % n = 0 ∧ (c, n, sx) ∈
       [(.ldbx h rd ra imm, 1, false), (.ldhx h rd ra imm, 2, false), (.ldwx h rd ra imm, 4, false), (.lddx h rd ra imm, 8, false),
         (.ldbsx h rd ra imm, 1, true), (.ldhsx h rd ra imm, 2, true), (.ldwsx h rd ra imm, 4, true)]) →
     ∃ t : State, exec c s = .next t ∧ OnlySeqr q s t ∧ t.seqr q = (z.advance h 1).setGpr rd.toNat
       (if sx = true ∧ 2 ^ (8 * n - 1) ≤ v then BitVec.ofInt 64 ((v : Int) - 2 ^ (8 * n)) else BitVec.ofNat 64 v)) ∧
  (∀ (s : State) (h : Hdr) (rd ra : BitVec 5) (bs : BitVec 3) (off : BitVec 13) (imm : BitVec 11) (c : Instr) (n a : Nat),
     let q := h.seq.val
     let z := s.seqr q
     let bank := look 0 z.b bs.toNat
     let d := localBase q + a
     q < 16 → z.localOk q a n true = true → a + n ≤ 2 ^ 26 → z.ops = [] →
     (s.issues h [rd] [] ∧ bits bank 33 32 = 1 ∧ a = bits bank 31 0 * 65536 + off.toNat * n ∧ (c, n) ∈ [(.stb h rd bs off, 1),
         (.sth h rd bs off, 2), (.stw h rd bs off, 4), (.std h rd bs off, 8)]) ∨
     (s.issues h [rd, ra] [] ∧ (z.gpr ra.toNat + imm.signExtend 64).toNat = 2 ^ 63 + a ∧ a % n = 0 ∧ (c, n) ∈ [(.stbx h rd ra imm, 1),
         (.sthx h rd ra imm, 2), (.stwx h rd ra imm, 4), (.stdx h rd ra imm, 8)]) →
     ∃ t : State, exec c s = .next t ∧ t = { s with seqs := t.seqs, mem := t.mem, spBad := t.spBad } ∧
       t.seqr q = z.advance h 1 ∧ (∀ k, k ≠ q → t.seqr k = s.seqr k) ∧
       ∀ x, t.byte x = if d ≤ x ∧ x < d + n then (leBytes n (z.gpr rd.toNat).toNat).getD (x - d) 0 else s.byte x)

/-- Which trap a bad address takes. A based address that is not a multiple of the size raises MISALIGN; a local one
outside the space, a bank with a reserved space, a load in the return-stack region and a store into code raise
BANKFAULT; a slice address that no page maps raises XLATE; nothing else changes, in memory or registers. -/
def Obligations.AddressTraps : Prop :=
  ∀ (s : State) (h : Hdr) (rd ra : BitVec 5) (bs : BitVec 3) (off : BitVec 13) (imm : BitVec 11),
    let q := h.seq.val
    let z := s.seqr q
    let a := (z.gpr ra.toNat + imm.signExtend 64).toNat
    let bank := look 0 z.b bs.toNat
    let traps (c : Instr) (cause info : Nat) : Prop := ∃ t : State, exec c s = .next t ∧ OnlySeqr q s t ∧
      t.seqr q = (z.advance h 1).trapped cause info z.pc
    q < 16 → z.inTrap = false → z.tvbase ≠ 0 →
    (s.issues h [rd, ra] [] →
      (a % 8 ≠ 0 → traps (.lddx h rd ra imm) 4 a ∧ traps (.stdx h rd ra imm) 4 a) ∧
      (2 ^ 63 + 2 ^ 26 ≤ a → traps (.ldbx h rd ra imm) 5 a ∧ traps (.stbx h rd ra imm) 5 a) ∧
      (2 ^ 57 ≤ a → a < 2 ^ 63 → traps (.ldbx h rd ra imm) 6 a) ∧
      (a < 2 ^ 57 → s.xlate z.slice z.pasid a false = none → traps (.ldbx h rd ra imm) 6 a) ∧
      (a < 2 ^ 57 → s.xlate z.slice z.pasid a true = none → traps (.stbx h rd ra imm) 6 a) ∧
      (2 ^ 63 ≤ a → z.rslo % 2 ^ 63 ≤ a - 2 ^ 63 → a - 2 ^ 63 < z.rshi % 2 ^ 63 → traps (.ldbx h rd ra imm) 5 a) ∧
      (2 ^ 63 ≤ a → a - 2 ^ 63 < z.codeHi → traps (.stbx h rd ra imm) 5 a)) ∧
    (s.issues h [rd] [] → 2 ≤ bits bank 33 32 → traps (.ldd h rd bs off) 5 (bits bank 31 0 * 65536 + off.toNat * 8))

/-- The data stack and the atomics in the local space of an island sequencer. `PUSH` stores below g29 and lowers it, `POP`
loads and raises it; the limits trap with nothing changed. `AMOADD` and `AMOCAS` deliver the old value and store the
sum, or the new value where the old one matches. -/
def Obligations.StackAndAtomics : Prop :=
  ∀ (s : State) (h : Hdr) (rd ra rb : BitVec 5) (a : Nat),
    let q := h.seq.val
    let z := s.seqr q
    let d := localBase q + a
    let old := BitVec.ofNat 64 (leNat (s.bytes d 8))
    let stored (t : State) (v : Word) : Prop := t = { s with seqs := t.seqs, mem := t.mem, spBad := t.spBad } ∧
      (∀ k, k ≠ q → t.seqr k = s.seqr k) ∧
      ∀ x, t.byte x = if d ≤ x ∧ x < d + 8 then (leBytes 8 v.toNat).getD (x - d) 0 else s.byte x
    q < 16 → h.ecc = .clean → a % 8 = 0 → a + 8 ≤ 2 ^ 26 → s.wordBad d = false → z.ops = [] →
    (s.issues h [0, ra, 0, 29] [] → (z.gpr 29).toNat = 2 ^ 63 + a + 8 → z.localOk q a 8 true = true →
      (z.dslo ≤ 2 ^ 63 + a → ∃ t : State, exec (.push h 0 ra 0) s = .next t ∧ stored t (z.gpr ra.toNat) ∧
        t.seqr q = (z.advance h 1).setGpr 29 (BitVec.ofNat 64 (2 ^ 63 + a))) ∧
      (2 ^ 63 + a < z.dslo → z.inTrap = false → z.tvbase ≠ 0 → ∃ t : State, exec (.push h 0 ra 0) s = .next t ∧ OnlySeqr q s t ∧
        t.seqr q = (z.advance h 1).trapped 8 (2 ^ 63 + a + 8) z.pc)) ∧
    (s.issues h [rd, 0, 0, 29] [] → (z.gpr 29).toNat = 2 ^ 63 + a → z.localOk q a 8 false = true →
      (2 ^ 63 + a + 8 ≤ z.dshi → ∃ t : State, exec (.pop h rd 0 0) s = .next t ∧ OnlySeqr q s t ∧
        t.seqr q = ((z.advance h 1).setGpr 29 (BitVec.ofNat 64 (2 ^ 63 + a + 8))).setGpr rd.toNat old) ∧
      (z.dshi < 2 ^ 63 + a + 8 → z.inTrap = false → z.tvbase ≠ 0 → ∃ t : State, exec (.pop h rd 0 0) s = .next t ∧ OnlySeqr q s t ∧
        t.seqr q = (z.advance h 1).trapped 9 (2 ^ 63 + a) z.pc)) ∧
    (s.issues h [rd, ra, rb] [] → (z.gpr ra.toNat).toNat = 2 ^ 63 + a → z.localOk q a 8 true = true →
      (∃ t : State, exec (.amoadd h rd ra rb) s = .next t ∧ stored t (old + z.gpr rb.toNat) ∧
        t.seqr q = (z.advance h 1).setGpr rd.toNat old) ∧
      (old = z.gpr rd.toNat → ∃ t : State, exec (.amocas h rd ra rb) s = .next t ∧ stored t (z.gpr rb.toNat) ∧
        t.seqr q = (z.advance h 1).setGpr rd.toNat old) ∧
      (old ≠ z.gpr rd.toNat → ∃ t : State, exec (.amocas h rd ra rb) s = .next t ∧ OnlySeqr q s t ∧
        t.seqr q = (z.advance h 1).setGpr rd.toNat old))

/-- System instructions. `NOP`, `HALT`, `TRAP`, `RFT`, `FENCE`, `WAITEV`, the moves of special and bank registers and
`SETB`, with the accesses that Table 5-4 refuses and the entry and the end of a trap. The end of work that HALT gives
the management core is the model's reading (log 13). -/
def Obligations.SystemInstructions : Prop :=
  ∀ (s : State) (h : Hdr) (rd ra rb : BitVec 5) (sr : BitVec 10) (bn : BitVec 3) (imm : BitVec 16) (sp : BitVec 2) (code : BitVec 10),
    let q := h.seq.val
    let z := s.seqr q
    let yields (c : Instr) (y : Seqr) : Prop := ∃ t : State, exec c s = .next t ∧ OnlySeqr q s t ∧ t.seqr q = y
    (s.issues h [0, 0, 0] [] → yields (.nop h 0 0 0 none) (z.advance h 1)) ∧
    (∀ w, listed w.toNat = false → s.issues h [0, 0, 0] [] → z.inTrap = false → z.tvbase ≠ 0 →
      yields (.nop h 0 0 0 (some w)) ((z.advance h 1).trapped 1 w.toNat z.pc)) ∧
    (s.issues h [0, 0, 0] [] → isMgmt q = false → yields (.halt h 0 0 0) { z.advance h 1 with run := .ending, endCause := 0, pfx := none }) ∧
    (s.issues h [0] [] → z.inTrap = false → z.tvbase ≠ 0 → yields (.trap h 0 code) ((z.advance h 1).trapped 0x0D code.toNat (z.pc + 4))) ∧
    (s.issues h [0] [] → z.inTrap = true → isMgmt q = false →
      yields (.trap h 0 code) { z.advance h 1 with run := .ending, endCause := 0x0F, pfx := none }) ∧
    (s.issues h [0, 0, 0] [] → z.inTrap = true → z.held = none → z.wdWait = false →
      yields (.rft h 0 0 0) { z.advance h 2 with inTrap := false, pc := z.trappc }) ∧
    (∀ e, s.issues h [0, 0, 0] [] → z.inTrap = true → z.held = some e → z.wdWait = false → z.tvbase ≠ 0 → yields (.rft h 0 0 0)
      (({ z.advance h 2 with inTrap := false, pc := z.trappc, held := none }).trapped 0x0C
        (e.status + e.engine * 256 + e.num % 2 ^ 32 * 2 ^ 32) z.trappc)) ∧
    (s.issues h [0, 0, 0] [] → z.inTrap = false → z.tvbase ≠ 0 →
      yields (.rft h 0 0 0) ((z.advance h 2).trapped 1 (h.guard.toNat * 2 ^ 28 + 3) z.pc)) ∧
    (s.issues h [0, 0, 0] [] → z.ops = [] → yields (.fence h 0 0 0) (z.advance h 1)) ∧
    (s.issues h [0, 0, 0] [] → (∃ o ∈ z.ops, o.isStore = true) → exec (.fence h 0 0 0) s = .next s) ∧
    (s.issues h [0, ra, 0] [] → (z.gpr ra.toNat).toNat ≤ z.evcount → z.evcount < 2 ^ 63 → yields (.waitev h 0 ra 0) (z.advance h 1)) ∧
    (s.issues h [0, ra, 0] [] → z.evcount < (z.gpr ra.toNat).toNat → (z.gpr ra.toNat).toNat < 2 ^ 63 →
      exec (.waitev h 0 ra 0) s = .next s) ∧
    (s.issues h [rd] [] →
      (srAccess q sr.toNat ≠ 0 → yields (.mfs h rd sr) ((z.advance h 1).setGpr rd.toNat
        (BitVec.ofNat 64 ((z.advance h 1).special q sr.toNat)))) ∧
      (srAccess q sr.toNat = 2 → z.srReserved sr.toNat (z.gpr rd.toNat).toNat = false →
        yields (.mts h rd sr) ((z.advance h 1).setSpecial sr.toNat (z.gpr rd.toNat).toNat)) ∧
      (z.inTrap = false → z.tvbase ≠ 0 →
        (srAccess q sr.toNat = 0 → yields (.mfs h rd sr) ((z.advance h 1).trapped 2 sr.toNat z.pc)) ∧
        (srAccess q sr.toNat ≠ 2 → yields (.mts h rd sr) ((z.advance h 1).trapped 2 sr.toNat z.pc)))) ∧
    (s.issues h [ra] [] → rd.toNat < 4 → yields (.mtb h rd ra 0) { z.advance h 1 with b := put 0 z.b rd.toNat (z.gpr ra.toNat).toNat }) ∧
    (s.issues h [rd] [] → rb.toNat < 4 → yields (.mfb h rd 0 rb) ((z.advance h 1).setGpr rd.toNat (BitVec.ofNat 64 (look 0 z.b rb.toNat)))) ∧
    (s.issues h [] [] → bn.toNat < 4 → sp.toNat < 2 → ∃ t : State, exec (.setb h bn sp imm) s = .next t ∧ OnlySeqr q s t ∧
      (let b := look 0 (t.seqr q).b bn.toNat
       bits b 31 0 = imm.toNat ∧ bits b 33 32 = sp.toNat ∧ b / 2 ^ 34 = look 0 z.b bn.toNat / 2 ^ 34) ∧
      (∀ i, i ≠ bn.toNat → look 0 (t.seqr q).b i = look 0 z.b i) ∧ (t.seqr q).g = z.g ∧ (t.seqr q).pc = z.pc + 4)

/-! ### Coprocessor operations and kernels (chapters 4 and 5) -/

/-- Issue to an engine of an island sequencer. Each coprocessor instruction puts one operation with the next issue number,
its captured operands, `NCTL` and `SEED` at the end of the scoreboard and goes on; where its engine's queue holds 16
operations it stalls and nothing changes. Issue with a captured descriptor, and tile descriptors. `CIPHER`, `DIGEST`
and `STREAM` capture the 64 bytes at the offset in `RA` and the key of the slot; `COLL` gives its queue and value to
the collectives engine, and an arrival stops issue; `TDSET` sets a descriptor without its reserved bits. -/
def Obligations.EngineIssue : Prop :=
  (∀ (s : State) (h : Hdr) (core : BitVec 4) (ta tb : BitVec 6) (plane clr : Bool) (fold : BitVec 3) (ra vd va vb : BitVec 5)
     (ve rm : BitVec 2) (c : Instr) (engine : Nat) (k : CopKind) (gs : List (BitVec 5)),
     let q := h.seq.val
     let z := s.seqr q
     let g (r : Nat) : Nat := (z.gpr r).toNat
     let e := 16 + ve.toNat
     let v (f : Nat) : CopKind := .vop f ve.toNat vd.toNat va.toNat vb.toNat
     let u (f : Nat) : CopKind := .sfu f ve.toNat vd.toNat va.toNat
     let td (i : BitVec 6) : Nat := look 0 z.tds i.toNat
     q < 16 → (c, engine, k, gs) ∈ [
       (.mma h core ta tb plane clr fold, core.toNat, .mma core.toNat (b2n plane) fold.toNat clr (td ta) (td tb), []),
       (.mdrain h core ta plane ra 0, core.toNat, .mdrain core.toNat (b2n plane) (td ta) (g ra.toNat / 2 ^ 48) (g ra.toNat % 2 ^ 48), [ra]),
       (.mzero h core plane 0, core.toNat, .mzero core.toNat (b2n plane), []),
       (.vopFadd h ve vd va vb, e, v 0, []), (.vopFsub h ve vd va vb, e, v 1, []), (.vopFmul h ve vd va vb, e, v 2, []),
       (.vopFmin h ve vd va vb, e, v 3, []), (.vopFmax h ve vd va vb, e, v 4, []), (.vopIadd h ve vd va vb, e, v 5, []),
       (.vopIsub h ve vd va vb, e, v 6, []), (.vopImul h ve vd va vb, e, v 7, []), (.vopAnd h ve vd va vb, e, v 8, []),
       (.vopOr h ve vd va vb, e, v 9, []), (.vopXor h ve vd va vb, e, v 10, []), (.vopShl h ve vd va vb, e, v 11, []),
       (.vopShr h ve vd va vb, e, v 12, []), (.vopFrsum h ve vd va 0, e, .vop 13 ve.toNat vd.toNat va.toNat 0, []),
       (.vopFrmax h ve vd va 0, e, .vop 14 ve.toNat vd.toNat va.toNat 0, []), (.vopFcmplt h ve vd va vb, e, v 15, []),
       (.vfma h ve vd va vb 0, e, .vfma ve.toNat vd.toNat va.toNat vb.toNat, []),
       (.vld h ve vd ra 0 0, e, .vld ve.toNat vd.toNat (g ra.toNat), [ra]),
       (.vst h ve vd ra 0 0, e, .vst ve.toNat vd.toNat (g ra.toNat), [ra]),
       (.vbcast h ve vd ra 0 0, e, .vbcast ve.toNat vd.toNat (g ra.toNat % 2 ^ 32), [ra]),
       (.vmovg h ve vd ra 0 0, e, .vmovg ve.toNat vd.toNat ra.toNat, [ra]),
       (.vsfuExp2 h ve vd va 0, 20, u 0, []), (.vsfuExp h ve vd va 0, 20, u 1, []), (.vsfuLog2 h ve vd va 0, 20, u 2, []),
       (.vsfuRcp h ve vd va 0, 20, u 3, []), (.vsfuRsqrt h ve vd va 0, 20, u 4, []), (.vsfuTanh h ve vd va 0, 20, u 5, []),
       (.vsfuSigmoid h ve vd va 0, 20, u 6, [])] ∨
     (q < 16 ∧ ra.toNat ≤ 29 ∧ gs = [ra, ra + 1, ra + 2] ∧ (c, engine, k) ∈ [
       (.vldc h ve vd ra rm 0, e, .vldc ve.toNat vd.toNat (g ra.toNat) (g (ra.toNat + 1)) (g (ra.toNat + 2)) rm.toNat),
       (.vstc h ve vd ra rm 0, e, .vstc ve.toNat vd.toNat (g ra.toNat) (g (ra.toNat + 1)) (g (ra.toNat + 2)) rm.toNat)]) →
     s.issues h gs [] →
     ((z.queued engine).length < 16 → z.ops.length < 256 → ∃ t : State, exec c s = .next t ∧ OnlySeqr q s t ∧
       t.seqr q = { z.advance h 1 with ops := z.ops ++ [⟨z.issued, engine, k, z.nctl, z.seed, 0, false⟩], issued := z.issued + 1 }) ∧
     (16 ≤ (z.queued engine).length → exec c s = .next s)) ∧
  (∀ (s : State) (h : Hdr) (ra rb : BitVec 5) (kslot : BitVec 12) (queue : BitVec 14) (td : BitVec 6),
     let q := h.seq.val
     let z := s.seqr q
     let o := (z.gpr ra.toNat).toNat
     let d := s.bytes (localBase q + o) 64
     let key := s.kslot kslot.toNat
     q < 16 → z.ops = [] →
     (∀ (c : Instr) (e : Nat) (k : CopKind), s.issues h [ra] [] → z.rangeOk q (o, 64) = true → s.sramBad (localBase q + o) 64 = false →
       z.marked (o, 64) = false → (c, e, k) ∈ [(.cipherGcmEncrypt h ra kslot, 28, .cipher false kslot.toNat d key),
         (.cipherGcmDecrypt h ra kslot, 28, .cipher true kslot.toNat d key), (.digestSha384 h ra kslot, 29, .digest false kslot.toNat d key),
         (.digestHmacSha384 h ra kslot, 29, .digest true kslot.toNat d key),
         (.stream h ra 0, if fieldAt d 0 1 = 1 then 25 else 24, .stream d (look 0 z.tds (fieldAt d 2 1 % 64)))] →
       ∃ t : State, exec c s = .next t ∧ OnlySeqr q s t ∧
         t.seqr q = { z.advance h 1 with ops := [⟨z.issued, e, k, z.nctl, z.seed, 0, false⟩], issued := z.issued + 1 }) ∧
     (∀ (c : Instr) (k : Nat), s.issues h [ra] [] →
       (c, k) ∈ [(.collDoorbell h ra queue, 0), (.collArrive h ra queue, 1), (.collBarrier h ra queue, 2)] →
       ∃ t : State, exec c s = .next t ∧ OnlySeqr q s t ∧ (t.seqr q).ops = [⟨z.issued, 30, .coll k queue.toNat o, z.nctl, z.seed, 0, false⟩] ∧
         (t.seqr q).arriving = (if k = 1 then some z.issued else none) ∧ (t.seqr q).pc = z.pc + 4 ∧ (t.seqr q).g = z.g) ∧
     (s.issues h [ra, rb] [] → ∃ t : State, exec (.tdset h td ra rb 0) s = .next t ∧ OnlySeqr q s t ∧
       (let x := look 0 (t.seqr q).tds td.toNat
        let v := o + (z.gpr rb.toNat).toNat * 2 ^ 64
        tdBase x = bits v 25 0 ∧ tdHbase x = bits v 57 32 ∧ tdElem x = bits v 67 64 ∧ tdScale x = bits v 69 68 ∧ tdPacked x = bit v 70 ∧
        tdLinear x = bit v 71 ∧ tdRows x = bits v 80 72 ∧ tdCols x = bits v 89 81 ∧ tdSize x = bits v 121 96 ∧
        bits x 31 26 = 0 ∧ bits x 63 58 = 0 ∧ bits x 95 90 = 0 ∧ x < 2 ^ 122) ∧
       (∀ i, i ≠ td.toNat → look 0 (t.seqr q).tds i = look 0 z.tds i) ∧ (t.seqr q).g = z.g))

/-- The scoreboard. An operation that heads its queue starts once every earlier operation that it waits for has completed;
one that waits for an earlier operation does not start. Vector and special-function operations complete. A lane-wise
operation writes the result of each lane to its destination register and leaves the scoreboard; `FRSUM` writes the
canonical tree's sum to every lane; `VBCAST` copies one value; `VMOVG` writes lane 0 to a general register. Memory and
the other registers stay. Matrix, stream and cipher operations complete. An unset tile fails with TDBAD and a core
above 11 with GEOM, which trap, touch nothing and are counted; `MZERO` sets the plane to zero; a descriptor whose `OP`
is not 0 or 1 fails with FMT; a cipher operation with a length above 4 MiB fails with CI_RANGE, which is recorded in
`OPERR` and traps nothing. Engine operations that complete. Where its checks find nothing wrong, an MMA leaves its
plane and its counts, an MDRAIN, a VLD and a VST move their values, a stream moves every unit between slice memory and
its tile, a staging DMA writes what it moved, and a cipher or digest operation writes its result or ends with
AUTH_FAILED; each then leaves the scoreboard with status 0 but for AUTH_FAILED. A LOAD of one unit into a LINEAR tile
puts the bytes of slice memory there and changes no other byte. -/
def Obligations.EngineCompletion : Prop :=
  (∀ (s : State) (q : Fin 49) (o : CopOp), let z := s.seqr q.val
     z.ops.find? (fun e => e.num == o.num) = some o → (∀ kind queue v, o.kind ≠ .coll kind queue v) →
     (z.mayStart q.val o = true → ∃ t : State, exec (.copOpStart q o.num) s = .next t ∧ OnlySeqr q.val s t ∧
       t.seqr q.val = { z with ops := z.ops.map (fun e => if e.num = o.num then { e with started := true } else e) }) ∧
     ((∃ e ∈ z.ops, e.num < o.num ∧ o.kind.waitsFor e.kind q.val = true) → exec (.copOpStart q o.num) s = .next s) ∧
     (o.started = true → exec (.copOpStart q o.num) s = .next s)) ∧
  (∀ (s : State) (q : Fin 49) (o : CopOp), let z := s.seqr q.val
     let n := lanesOf q.val
     let met : Met := ⟨[], [], 0, [], 0⟩
     let ends (t : State) : Prop := (t.seqr q.val).ops = z.ops.filter (fun e => e.num != o.num) ∧ t.mem = s.mem ∧
       (t.seqr q.val).operr = z.operr ∧ (t.seqr q.val).pc = z.pc ∧ ∀ k, k ≠ q.val → t.seqr k = s.seqr k
     let lanes (t : State) (ve vd : Nat) (f : Nat → Nat) : Prop :=
       (∀ l < n, (t.seqr q.val).lane ve vd l = f l) ∧ (t.seqr q.val).g = z.g ∧
       ∀ ve' v l, ¬(ve' = ve ∧ v = vd) → ve < 4 → ve' < 4 → vd < 32 → v < 32 → l < 128 → (t.seqr q.val).lane ve' v l = z.lane ve' v l
     (z.ops.find? (fun e => e.num == o.num) = some o → o.started = true →
       (∀ f ve vd va vb, o.kind = .vop f ve vd va vb → f < 13 ∨ f = 15 → ∃ t : State, exec (.vectorOpComplete q o.num met) s = .next t ∧ ends t ∧
         lanes t ve vd (fun l => vopLane f (z.lane ve va l) (z.lane ve vb l) % 2 ^ 32)) ∧
       (∀ ve vd va vb, o.kind = .vop 13 ve vd va vb → ∃ t : State, exec (.vectorOpComplete q o.num met) s = .next t ∧ ends t ∧
         lanes t ve vd (fun _ => canon32 (z.vreg q.val ve va) % 2 ^ 32)) ∧
       (∀ ve vd va vb, o.kind = .vfma ve vd va vb → ∃ t : State, exec (.vectorOpComplete q o.num met) s = .next t ∧ ends t ∧
         lanes t ve vd (fun l => fma32 (z.lane ve va l) (z.lane ve vb l) (z.lane ve vd l) % 2 ^ 32)) ∧
       (∀ ve vd v, o.kind = .vbcast ve vd v → ∃ t : State, exec (.vectorOpComplete q o.num met) s = .next t ∧ ends t ∧
         lanes t ve vd (fun _ => v % 2 ^ 32)) ∧
       (∀ ve vd ga, o.kind = .vmovg ve vd ga → ga ≠ 0 → ∃ t : State, exec (.vectorOpComplete q o.num met) s = .next t ∧ ends t ∧
         (t.seqr q.val).gpr ga = BitVec.ofNat 64 (z.lane ve vd 0)) ∧
       (∀ f ve vd va, o.kind = .sfu f ve vd va → ∃ t : State, exec (.sfuResult q o.num) s = .next t ∧ ends t ∧
         lanes t ve vd (fun l => sfu f (z.lane ve va l) % 2 ^ 32)))) ∧
  (∀ (s : State) (q : Fin 16) (o : CopOp), let z := s.seqr q.val
     let n : Fin 49 := Fin.ofNat 49 q.val
     let met : Met := ⟨[], [], 0, [], 0⟩
     let errs := s.obj (0x2000 + q.val) 0x16
     z.ops.find? (fun e => e.num == o.num) = some o → o.started = true → z.run = .running →
     (∀ core plane fold clr a b, o.kind = .mma core plane fold clr a b → tdRows a = 0 → z.inTrap = false → z.arriving = none →
       z.wdWait = false → z.held = none → z.tvbase ≠ 0 → ∃ t : State, exec (.matrixOpComplete n o.num met) s = .next t ∧ t.mem = s.mem ∧
       (t.seqr q.val).planes = z.planes ∧ (t.seqr q.val).trapcause = 0x0C ∧ (t.seqr q.val).trappc = z.pc ∧
       (t.seqr q.val).trapinfo % 256 = 3 ∧ t.obj (0x2000 + q.val) 0x16 = wrap48 (errs + 1)) ∧
     (∀ core plane, o.kind = .mzero core plane → core < 12 → ∃ t : State, exec (.matrixOpComplete n o.num met) s = .next t ∧ t.mem = s.mem ∧
       (sget (t.seqr q.val).planes (core * 2 + plane)).acc = [] ∧ (∀ i, i ≠ core * 2 + plane →
         sget (t.seqr q.val).planes i = sget z.planes i) ∧ (t.seqr q.val).pc = z.pc ∧ t.obj (0x2000 + q.val) 0x16 = errs) ∧
     (∀ core plane, o.kind = .mzero core plane → 12 ≤ core → z.inTrap = true → z.held = none →
       ∃ t : State, exec (.matrixOpComplete n o.num met) s = .next t ∧ (t.seqr q.val).held = some ⟨2, o.engine, o.num⟩ ∧
       (t.seqr q.val).pc = z.pc ∧ (t.seqr q.val).planes = z.planes) ∧
     (∀ d td, o.kind = .stream d td → 1 < fieldAt d 0 1 → o.pre = 0 → z.inTrap = true → z.held = none →
       ∃ t : State, exec (.streamDescComplete n o.num met [] 0) s = .next t ∧ t.mem = s.mem ∧
       (t.seqr q.val).held = some ⟨1, o.engine, o.num⟩) ∧
     (∀ dec ks d cap, o.kind = .cipher dec ks d cap → 4194304 < fieldAt d 8 4 → z.operr % 256 = 0 →
       ∃ t : State, exec (.cipherOpComplete n o.num met) s = .next t ∧ t.mem = s.mem ∧ (t.seqr q.val).operr % 256 = 0x23 ∧
       (t.seqr q.val).held = z.held ∧ (t.seqr q.val).pc = z.pc)) ∧
  (∀ (s : State) (q : Fin 49) (o : CopOp) (met : Met) (dma : List DmaWrite) (st : BitVec 8), let n := q.val
     let rs := o.kind.reads n
     let u := s.meetWords n rs met
     let z := u.seqr n
     let base := localBase n
     (s.seqr n).ops.find? (fun e => e.num == o.num) = some o → o.started = true → o.pre = 0 →
     (∀ (v : State) (b : Bool), ((v.copDone n o 0 b).seqr n).ops = (v.seqr n).ops.filter (fun e => e.num != o.num) ∧ (v.copDone n o 0 b).mem = v.mem) ∧
     (∀ core plane fold clr a b, o.kind = .mma core plane fold clr a b → u.mmaStatus n core plane fold clr a b = 0 → u.srcStatus n rs = (u, 0) →
       exec (.matrixOpComplete q o.num met) s = .next ((((u.setPlane n core plane (u.mmaPlane n core plane fold clr a b)).count (0x2000 + n) 0x13
         (tdCols a / 2 ^ fold)).use z.slice 1 (tdCols a / 2 ^ fold)).copDone n o 0 true)) ∧
     (∀ core plane tc tid idx, o.kind = .mdrain core plane tc tid idx → u.drainStatus n core plane tc = 0 →
       exec (.matrixOpComplete q o.num met) s = .next ((u.drain n core plane tc tid idx o.nctl o.seed).copDone n o 0 true)) ∧
     (∀ ve vd off, o.kind = .vld ve vd off → z.vecStatus n rs = 0 → u.srcStatus n rs = (u, 0) →
       exec (.vectorOpComplete q o.num met) s = .next ((u.setSeqr n (fun y =>
         y.setVreg ve vd (unpackCodes 32 (lanesOf n) (u.bytes (base + off) (4 * lanesOf n))))).copDone n o 0 true)) ∧
     (∀ ve vd off, o.kind = .vst ve vd off → z.vecStatus n (o.kind.writes n) = 0 →
       exec (.vectorOpComplete q o.num met) s = .next ((u.sramStore (base + off) (packCodes 32 (z.vreg n ve vd))).copDone n o 0 true)) ∧
     (∀ d td, o.kind = .stream d td → u.streamStatus n d td = 0 → let us := sdUnits d td
       let ends (v : State) : Res := .next (((if sdEvent d then v.setSeqr n (fun y => { y with evcount := (y.evcount + 1) % 2 ^ 64 }) else v).forgetUnits
         n d td).copDone n o 0 true)
       (fieldAt d 0 1 = 0 → met.sectors = [] → (∀ x ∈ us, u.unitFailed n d x.1 = false ∧ u.unitBad n d x = []) →
         (exec (.streamDescComplete q o.num met dma st) s = ends
           (((List.range (sdMoved d td)).foldl (fun w r => w.loadRow n o d td (fun _ => true) r) u).countStream n false (us.map Prod.snd).sum)) ∧
         (∀ a l, tdLinear td = true → sdMoved d td = 1 → l = sdRowLen d td 0 → 0 < l → sdVaddr d / 256 = (sdVaddr d + l - 1) / 256 →
           u.xlate z.slice (sdPasid d) (sdVaddr d) false = some a → ∃ t : State, exec (.streamDescComplete q o.num met dma st) s = .next t ∧
           ∀ x, t.byte x = if base + tdBase td ≤ x ∧ x < base + tdBase td + l then u.byte (a + (x - (base + tdBase td))) else u.byte x)) ∧
       (fieldAt d 0 1 = 1 → u.srcStatus n rs = (u, 0) → (∀ x ∈ us, u.unitFailed n d x.1 = false) →
         let m := (List.range (sdMoved d td)).foldl (fun (w : State × Bool) r =>
           let x := w.1.storeRow n o d td (fun _ => true) r
           (x.1, w.2 && x.2)) (u, true)
         m.2 = true → exec (.streamDescComplete q o.num met dma st) s = ends (m.1.countStream n true (us.map Prod.snd).sum))) ∧
     (∀ d, o.kind = .dma d → exec (.streamDescComplete q o.num met dma st) s =
       .next ((dma.foldl (fun v w => v.dmaWrite n w) s).copDone n o st.toNat true)) ∧
     (∀ dec ks d cap, o.kind = .cipher dec ks d cap → let k := u.opSlot ks cap
       u.ciRange n o d true = false → u.slotStatus n ks k = 0 → u.srcStatus n rs = (u, 0) →
       let aad := u.bytes (base + cdAad d) (cdAadLen d)
       (dec = false → let iv := slotNonce k.fixed (bit (cdFlags d) 0) k.inv
         let ct := gcmCrypt k.keyBytes iv (u.bytes (base + cdSrc d) (cdLen d))
         exec (.cipherOpComplete q o.num met) s = .next (((u.sramStore (base + cdDst d) (beBytes 8 k.inv ++ ct ++
           gcmTag k.keyBytes iv aad ct)).opInvoke z.slice ks cap).copDone n o 0 false)) ∧
       (dec = true → let iv := slotNonce k.fixed (bit (cdFlags d) 0) (beNat (u.bytes (base + cdSrc d) 8))
         let opened := gcmOpen k.keyBytes iv aad (u.bytes (base + cdSrc d + 8) (cdLen d)) (u.bytes (base + cdSrc d + 8 + cdLen d) 16)
         (∀ pt, opened = some pt → exec (.cipherOpComplete q o.num met) s =
           .next (((u.sramStore (base + cdDst d) pt).opInvoke z.slice ks cap).copDone n o 0 false)) ∧
         (opened = none → exec (.cipherOpComplete q o.num met) s = .next (u.copDone n o 0x22 false)))) ∧
     (∀ hm ks d cap, o.kind = .digest hm ks d cap → let k := u.opSlot ks cap
       let msg := u.bytes (base + cdSrc d) (cdLen d)
       u.ciRange n o d false = false → u.srcStatus n rs = (u, 0) →
       (hm = false → ks = 0 → exec (.cipherOpComplete q o.num met) s = .next ((u.sramStore (base + cdDst d) (sha384 msg)).copDone n o 0 false)) ∧
       (hm = true → u.slotStatus n ks k = 0 → exec (.cipherOpComplete q o.num met) s =
         .next (((u.sramStore (base + cdDst d) (hmac384 k.keyBytes msg)).opInvoke z.slice ks cap).copDone n o 0 false))))

/-- Kernel launches. `KLAUNCH` queues a kernel on a ready island of which its slice holds a share, under a PASID that the
slice holds, and completes only later; the failures complete at once with their codes. Kernel entry and end. A queued
kernel whose image passes the loader starts with its code and data in the window, the registers of R164 and everything
else of the sequencer clear; one whose image fails completes with the loader's status; a kernel that has stopped issue
ends when its scoreboard is empty, and not before. The watchdog, the arrival at a step boundary and the time-share.
The watchdog fires once when `CYCLE` has reached a limit that is not zero, the cycles of a stall included, traps at
once outside a trap and waits inside one; 65,536 cycles later it ends the kernel. The arrival is signalled only when
nothing else is in the scoreboard. An island changes its slice only between kernels. -/
def Obligations.KernelLifetime : Prop :=
  (∀ (s : State) (sl : Fin 512) (d : List Byte) (reach : Bool), let x := s.slice sl.val
     let k := kCmdOf d
     let q : QCtx := ⟨sl, 0, BitVec.ofNat 32 (fieldAt d 4 4)⟩
     fieldAt d 0 1 = 6 → s.doorbellsLive sl.val = true → x.hello = true → (s.queue sl.val 0).used = true → (s.queue sl.val 0).halted = false →
     (k.reserved = true → exec (.klaunch sl d reach) s = .next (s.finish q 1 0 0)) ∧
     (k.reserved = false → k.pasid.toNat ∉ x.pasids → exec (.klaunch sl d reach) s = .next (s.finish q 1 0 0)) ∧
     (k.reserved = false → k.pasid.toNat ∈ x.pasids →
       (16 ≤ k.island.toNat ∨ x.quota.islands.getD k.island.toNat 0 = 0 → exec (.klaunch sl d reach) s = .next (s.finish q 5 0 0)) ∧
       (k.island.toNat < 16 → x.quota.islands.getD k.island.toNat 0 ≠ 0 →
         (s.isReady k.island.toNat = false → exec (.klaunch sl d reach) s = .next (s.finish q 3 0 0)) ∧
         (s.isReady k.island.toNat = true → s.kReach sl.val k reach = false → exec (.klaunch sl d reach) s = .next (s.finish q 9 0 0)) ∧
         (s.isReady k.island.toNat = true → s.kReach sl.val k reach = true → ∃ l, exec (.klaunch sl d reach) s =
             .next { s with launches := s.launches ++ [l] } ∧ l.running = false ∧ l.island = k.island.toNat ∧ l.slice = sl.val ∧
           l.tag = fieldAt d 4 4 ∧ l.addr = k.addr.toNat ∧ l.arg = k.arg.toNat ∧ l.pasid = k.pasid.toNat ∧ l.endp = k.endp.toNat)))) ∧
  (∀ (s : State) (n : Fin 16) (im : List Byte) (l : Launch), let q := n.val
     let w := s.kernelWindow l.slice q
     let z := s.seqr q
     (s.nextLaunch q = some l → l.host = true → l.argblk = 0 → loadStatus im false w.2 = 0 → im.length = 64 + imgCode im + imgData im →
       ∃ t : State, exec (.klaunchStart n im) s = .next t ∧
       (let y := t.seqr q
        y.run = .running ∧ y.pc = w.1 + imgEntry im ∧ y.gpr 1 = BitVec.ofNat 64 l.arg ∧ y.gpr 29 = BitVec.ofNat 64 (2 ^ 63 + w.1 + w.2) ∧
        (∀ r, 1 < r → r < 29 → y.gpr r = 0) ∧ y.gpr 31 = 0 ∧ y.p = 0 ∧ look 0 y.b 0 = 2 ^ 32 + w.1 / 65536 ∧
        y.nctl = l.nctl.getD (imgNctl im) ∧ y.seed = l.seed.getD (imgSeed im) ∧ y.klimit = l.klimit.getD (imgKlimit im) ∧
        y.nstat = 0 ∧ y.operr = 0 ∧ y.cycle = 0 ∧ y.evcount = 0 ∧ y.inTrap = false ∧ y.held = none ∧ y.rsp = y.rshi ∧ y.tds = [] ∧
        y.ops = [] ∧ y.marks = [] ∧ y.winbase = w.1 ∧ y.winsize = w.2 ∧ y.pasid = l.pasid ∧ y.planes = z.planes ∧ y.vregs = z.vregs) ∧
       (∀ i < imgCode im, t.byte (localBase q + w.1 + i) = im.getD (64 + i) 0) ∧
       t.launches = s.launches.map (fun e => if e = l then { e with running := true } else e)) ∧
     (s.nextLaunch q = some l → l.host = true → l.argblk = 0 → loadStatus im false w.2 ≠ 0 →
       exec (.klaunchStart n im) s = .next (({ s with launches := s.launches.erase l }).finish ⟨Fin.ofNat 512 l.slice, 0, BitVec.ofNat 32 l.tag⟩
         0x0C 0 (loadStatus im false w.2))) ∧
     (s.nextLaunch q = none → exec (.klaunchStart n im) s = .next s) ∧
     (z.run = .ending → z.ops ≠ [] → exec (.kernelEnd n) s = .next s) ∧
     (z.run = .running → exec (.kernelEnd n) s = .next s) ∧
     (z.run = .ending → z.ops = [] → s.launches.find? (fun e => e.island == q && e.running) = some l →
       (s.slice l.slice).st = .destroying → ∃ t : State, exec (.kernelEnd n) s = .next t ∧ (t.seqr q).run = .idle ∧ (t.seqr q).pc = 0 ∧
         (t.seqr q).planes = z.planes ∧ t.launches = s.launches.erase l) ∧
     (z.run = .ending → z.ops = [] → s.launches.find? (fun e => e.island == q && e.running) = some l →
       (s.slice l.slice).st ≠ .destroying → exec (.kernelEnd n) s =
         .next ((({ (s.vwrite l.slice l.pasid l.endp (z.endRecord (if z.endCause = 0 then 0 else 1))).1 with
           launches := s.launches.erase l }.use l.slice 0 z.cycle).setSeqr q Seqr.idle).finish
             ⟨Fin.ofNat 512 l.slice, 0, BitVec.ofNat 32 l.tag⟩ 0 0 0))) ∧
  (∀ (s : State) (q : Fin 49) (n : Fin 16) (next : Option (Fin 512)) (us stalled : BitVec 32),
     let z : Seqr := { s.seqr q.val with cycle := (s.seqr q.val).cycle + stalled.toNat }
     let due := z.run = .running ∧ z.klimit ≠ 0 ∧ z.klimit ≤ z.cycle ∧ z.fired = none
     (due → z.inTrap = false → z.arriving = none → z.tvbase ≠ 0 → ∃ t : State, exec (.watchdog q stalled) s = .next t ∧ OnlySeqr q.val s t ∧
       t.seqr q.val = ({ z with fired := some z.cycle, wdWait := false }).trapped 0x0E z.cycle z.pc) ∧
     (due → z.inTrap = true → ∃ t : State, exec (.watchdog q stalled) s = .next t ∧ OnlySeqr q.val s t ∧
       t.seqr q.val = { z with fired := some z.cycle, wdWait := true }) ∧
     (¬ due → exec (.watchdog q stalled) s = .next s) ∧
     (∀ f, z.fired = some f → z.run = .running → isMgmt q.val = false → f + 65536 ≤ z.cycle →
       ∃ t : State, exec (.watchdogEnd q stalled) s = .next t ∧ OnlySeqr q.val s t ∧
       t.seqr q.val = { z with run := .ending, endCause := 0x0E, pfx := none }) ∧
     (∀ f, z.fired = some f → z.cycle < f + 65536 → exec (.watchdogEnd q stalled) s = .next s) ∧
     (z.fired = none → exec (.watchdogEnd q stalled) s = .next s) ∧
     (z.arriving = none → exec (.tiBoundarySignal q) s = .next s) ∧
     (∀ num, z.arriving = some num → (∃ o ∈ z.ops, o.num ≠ num) → exec (.tiBoundarySignal q) s = .next s) ∧
     (∀ num queue v k m o, z.arriving = some num → z.ops = [o] → o.num = num → o.kind = .coll 1 queue v → z.inTrap = true →
       s.stepMember z.slice queue = some (k, m) → (s.group k).st = .active → v % 2 ^ 32 = (s.group k).epoch →
       (s.job (s.group k).slice).st ≠ .fenced →
       ∃ t : State, exec (.tiBoundarySignal q) s = .next t ∧ (t.seqr q.val).arriving = none ∧ (t.seqr q.val).stepHold = true ∧
         (t.seqr q.val).ops = [] ∧ (t.seqr q.val).pc = z.pc) ∧
     (s.launches.any (fun l => l.island == n.val && l.running) = true → exec (.timeshareSliceSwitch n next us) s = .next s) ∧
     (s.launches.any (fun l => l.island == n.val && l.running) = false → s.chunkRuns n.val = false → ∃ t : State,
       exec (.timeshareSliceSwitch n next us) s = .next t ∧ t = { s with share := t.share } ∧
       (sget t.share n.val).cur = next.map Fin.val ∧ (∀ i, i ≠ n.val → sget t.share i = sget s.share i) ∧
       ∀ sl, (sget s.share n.val).cur = some sl → look 0 (sget t.share n.val).excess sl =
         us.toNat - ((s.slice sl).quota.islands.getD n.val 0 * 1000 / 64 - look 0 (sget s.share n.val).excess sl)))

/-! ### Stacked memory and the KV cache manager (chapter 6) -/

/-- Sectors of stacked memory. A clean read changes nothing; a corrected one counts and keeps the data; an uncorrectable
one poisons the sector, counts and raises `MEM_UE`; later reads and partial writes of a poisoned sector fail and
count; a write of all 64 bytes clears the poison; every access to a FAILED stack fails and counts; a hole of the
address map answers a bus error. The BAR4 window. An aperture entry that is valid leads through the slice's page
tables: a read answers the bytes there, a write stores its bytes and nothing else; a read that meets a bad sector is
answered with EP set and zero bytes, and one found uncorrectable is poisoned from then on; without an entry or a
mapping either is a bus error. -/
def Obligations.SectorsAndBar4 : Prop :=
  (∀ (s : State) (a : BitVec 48) (bs : List Byte) (w : Option (List Byte)) (ecc : Ecc) (ch st : Fin 16), let d := a.toNat
     let m := miOf d
     (region d = .hole → exec (.memSectorAccess a w ecc ch) s = .next (s.emit (.busError .device))) ∧
     (region d ≠ .hole → inStacks d = false → exec (.memSectorAccess a w ecc ch) s = .next s) ∧
     (inStacks d = true → s.badSector d = false → exec (.memSectorAccess a none .clean ch) s = .next s) ∧
     (inStacks d = true → s.badSector d = false → m < s.mis.length → ∃ t : State, exec (.memSectorAccess a none .corrected ch) s = .next t ∧
       t.obj (0x4010 + m) 1 = wrap48 (s.obj (0x4010 + m) 1 + 1) ∧ (t.mi m).ceNow = (s.mi m).ceNow + 1 ∧
       look 0 (t.mi m).frameCe (d / 0x200000) = look 0 (s.mi m).frameCe (d / 0x200000) + 1 ∧
       t.mem = s.mem ∧ t.poison = s.poison ∧ t.sent = s.sent) ∧
     (inStacks d = true → s.badSector d = false → ∃ t : State, exec (.memSectorAccess a none .uncorrectable ch) s = .next t ∧
       t.poisoned d = true ∧ t.obj (0x4010 + m) 2 = wrap48 (s.obj (0x4010 + m) 2 + 1) ∧ t.mem = s.mem ∧
       (∀ x, x / 64 ≠ d / 64 → t.poisoned x = s.poisoned x) ∧
       (s.mod.holding = false → .event .operator 0x0601 m (d / 64 * 64) 0 ∈ t.sent)) ∧
     (inStacks d = true → s.badSector d = true → exec (.memSectorAccess a none ecc ch) s = .next (s.countUe d)) ∧
     (inStacks d = true → s.badSector d = true → (bs.take (64 - d % 64)).length ≠ 64 →
       exec (.memSectorAccess a (some bs) ecc ch) s = .next (s.countUe d)) ∧
     (inStacks d = true → s.deadStack d = false → d % 64 = 0 → bs.length = 64 → ∃ t : State, exec (.memSectorAccess a (some bs) ecc ch) s = .next t ∧
       t.poisoned d = false ∧ (∀ x, t.byte x = (s.store d bs).byte x) ∧ t.dict = s.dict ∧ t.sent = s.sent) ∧
     (inStacks d = true → s.badSector d = false → s.deadStack (d / 64 * 64) = false → s.poisoned (d / 64 * 64) = false →
       0 < bs.length → d % 64 + bs.length ≤ 64 → bs.length ≠ 64 →
       exec (.memSectorAccess a (some bs) .clean ch) s = .next (s.store d bs)) ∧
     (inStacks d = true → s.deadStack d = true → s.deadStack (d / 64 * 64) = true → d % 64 = 0 → bs.length = 64 →
       exec (.memSectorAccess a (some bs) ecc ch) s = .next (s.countUe d)) ∧
     exec (.stackRefresh st) s = .next s) ∧
  (∀ (s : State) (sl : Fin 512) (off : BitVec 31) (len : BitVec 13) (bs : List Byte) (ue : List (BitVec 34)),
     (s.bar4 sl.val off.toNat false = none → exec (.bar4Read sl off len ue) s = .next (s.emit (.busError .pcieRead))) ∧
     (s.bar4 sl.val off.toNat true = none → exec (.bar4Write sl off bs ue) s = .next (s.emit (.busError .pcieWrite))) ∧
     (∀ va pasid e, s.sliceExists sl.val = true → s.aperture sl.val off.toNat = some (va, pasid) → s.leaf sl.val pasid va = some e →
       off.toNat % 0x200000 + len.toNat ≤ 0x200000 → off.toNat % 0x200000 + bs.length ≤ 0x200000 →
       let a := leafAddr e va
       ((sectorsOf a len.toNat).any s.badSector = false → (∀ x ∈ sectorsOf a len.toNat, x / 64 ∉ ue.map BitVec.toNat) →
         exec (.bar4Read sl off len ue) s = .next (s.emit (.barRead (s.bytes a len.toNat) false))) ∧
       ((sectorsOf a len.toNat).any s.badSector = true → ∃ t : State, exec (.bar4Read sl off len ue) s =
         .next (t.emit (.barRead (List.replicate len.toNat 0) true)) ∧ t.mem = s.mem) ∧
       (∀ x ∈ sectorsOf a len.toNat, x / 64 ∈ ue.map BitVec.toNat → s.deadStack x = false → ∃ t : State, exec (.bar4Read sl off len ue) s =
         .next (t.emit (.barRead (List.replicate len.toNat 0) true)) ∧ t.poisoned x = true ∧ t.mem = s.mem) ∧
       (bit e 1 = false → exec (.bar4Write sl off bs ue) s = .next (s.emit (.busError .pcieWrite))) ∧
       (bit e 1 = true → (sectorsOf a bs.length).any s.badSector = false → (∀ x ∈ partSectors a bs.length, x / 64 ∉ ue.map BitVec.toNat) →
         (∀ j ∈ s.ckpt.jobs, j.2.unread = []) → ∃ t : State,
         exec (.bar4Write sl off bs ue) s = .next t ∧ (∀ x, t.byte x = (s.store a bs).byte x) ∧ t.dict = s.dict ∧ t.host = s.host)))

/-- Scrub, its rate, retraining and retirement. A scrub read goes on by one sector and, at the end of the pass, counts the
pass with its tick and starts again; a count above the threshold doubles the rate and clears the clean run; the third
failed training window in a row marks the stack FAILED; a frame that qualifies enters the retired list, pending while
it is mapped. -/
def Obligations.ScrubTrainingRetirement : Prop :=
  ∀ (s : State) (m : Fin 4) (ch st : Fin 16) (w : Option Bool) (f : Fin 376832), s.mis.length = 4 →
    let e := [Ecc.clean, .clean, .clean, .clean]
    let x := s.mi m.val
    let clean := ∀ l < 4, s.badSector (dpaOf (4 * m.val + l) x.scrubPos) = false
    (s.scrubRuns = false → exec (.scrubRead m e ch) s = .next s) ∧
    (s.scrubRuns = true → clean → x.scrubPos + 64 < 48 * 2 ^ 30 →
      exec (.scrubRead m e ch) s = .next (s.setMi m.val (fun y => { y with scrubPos := x.scrubPos + 64 }))) ∧
    (s.scrubRuns = true → clean → 48 * 2 ^ 30 ≤ x.scrubPos + 64 → ∃ t : State, exec (.scrubRead m e ch) s = .next t ∧
      (t.mi m.val).scrubPos = 0 ∧ (t.mi m.val).frameCe = [] ∧ t.obj (0x4210 + m.val) 3 = wrap48 (s.obj (0x4210 + m.val) 3 + 1) ∧
      t.obj (0x4210 + m.val) 5 = s.mod.tick ∧ t.mem = s.mem) ∧
    (s.mod.svc ≠ .boot → s.mod.svc ≠ .test → s.fwRuns = true → ∃ t : State, exec .scrubRateLoop s = .next t ∧ t = { s with mis := t.mis } ∧
      (let y := t.mi m.val
       let n := ((x.ceNow :: x.ceHist).take 60).sum
       y.ceNow = 0 ∧ y.ceHist = (x.ceNow :: x.ceHist).take 60 ∧ y.minutes = x.minutes + 1 ∧ y.scrubPos = x.scrubPos ∧
       (s.obj 0x4200 2 < n → y.doubled = true ∧ y.cleanRun = 0) ∧
       (n ≤ s.obj 0x4200 2 → (x.minutes + 1) % 60 ≠ 0 → y.cleanRun = x.cleanRun) ∧
       (n ≤ s.obj 0x4200 2 → (x.minutes + 1) % 60 = 0 → y.cleanRun = min 65535 (x.cleanRun + 1)) ∧
       (n ≤ s.obj 0x4200 2 → y.doubled = (x.doubled && decide (y.cleanRun < s.obj 0x4200 3))))) ∧
    (let z := s.mi (st.val / 4)
     (z.stackSt.getD (st.val % 4) .ok = .failed → exec (.stackRetrainWindow st w) s = .next s) ∧
     (z.trainFails.length = 4 → z.stackSt.getD (st.val % 4) .ok ≠ .failed → ∃ t : State, exec (.stackRetrainWindow st (some true)) s = .next t ∧
       (t.mi (st.val / 4)).trainFails.getD (st.val % 4) 9 = 0 ∧ t.obj (0x4010 + st.val / 4) 4 = wrap48 (s.obj (0x4010 + st.val / 4) 4 + 1) ∧
       t.mem = s.mem) ∧
     (z.trainFails.length = 4 → z.stackSt.getD (st.val % 4) .ok ≠ .failed → z.trainFails.getD (st.val % 4) 0 < 2 → ∃ t : State,
       exec (.stackRetrainWindow st (some false)) s = .next t ∧ (t.mi (st.val / 4)).trainFails.getD (st.val % 4) 9 = z.trainFails.getD (st.val % 4) 0 + 1 ∧
       (t.mi (st.val / 4)).stackSt = z.stackSt.set (st.val % 4) .ok ∧ t.mod = s.mod) ∧
     (z.stackSt.length = 4 → z.stackSt.getD (st.val % 4) .ok ≠ .failed → ∃ t : State, exec (.stackRetrainWindow st none) s = .next t ∧
       t = { s with mis := t.mis } ∧ (t.mi (st.val / 4)).stackSt = z.stackSt.set (st.val % 4) .retraining ∧
       (t.mi (st.val / 4)).trainFails = z.trainFails) ∧
     (z.stackSt.length = 4 → z.stackSt.getD (st.val % 4) .ok ≠ .failed → 2 ≤ z.trainFails.getD (st.val % 4) 0 → s.mod.svc = .boot → ∃ t : State,
       exec (.stackRetrainWindow st (some false)) s = .next t ∧ (t.mi (st.val / 4)).stackSt.getD (st.val % 4) .ok = .failed ∧
       t.mod.bootFault = true)) ∧
    (s.qualifies f.val = false → exec (.frameRetire f) s = .next s) ∧
    (s.fwRuns = true → s.qualifies f.val = true → (∀ r ∈ s.nor.retired, r.1 ≠ f.val) → s.nor.retired.length < 4096 →
      exec (.frameRetire f) s = .next { s with nor := { s.nor with retired := s.nor.retired ++ [(f.val, s.usedFrames.contains f.val)] } }) ∧
    (s.fwRuns = true → s.qualifies f.val = true → (∀ r ∈ s.nor.retired, r.1 ≠ f.val) → 4096 ≤ s.nor.retired.length →
      exec (.frameRetire f) s = .next (s.event .operator 0x0602 0 (f.val * 0x200000) 0))

/-- KV commands. A descriptor with an unknown OP or a reserved field set fails with KV_FORMAT, a handle that is not
current with KV_BADHANDLE; CREATE, FORK, APPEND, TRUNCATE, PIN, UNPIN, RELEASE, QUERY and SETCEIL have the effects of
R187, R193 and R194; a command whose turn on its handle has not come waits (R189); an APPEND or TRUNCATE that meets no
failure moves the committed length in one step, and one that fails leaves the cache as it was. The row's OP is in byte
0 of the descriptor `d`. Tiering. The loop changes blocks only from resident to being demoted, never one that is
pinned, captured or held, and no byte of memory; a demotion that is complete leaves the block's encrypted copy on
flash and frees its place, and one that may not go on leaves the block where it is; a block whose flash read fails is
LOST, and one read back is resident again, which ends the PIN that waited for it last. The choices among KV details
are those of log 32. -/
def Obligations.KvCacheManager : Prop :=
  (∀ (s : State) (q : QCtx) (d : List Byte), s.takes q 1 → let sl := q.slice.val
     let k := kvCmdOf d
     let op := fieldAt d 0 1
     let h := k.handle.toNat
     let i := h % 2 ^ 18
     let x := s.seq i
     let layer := k.layer.toNat
     let pos := k.pos.toNat
     let len := s.kvLen q k
     let ls := x.layerList layer
     let bs := x.rangeBlocks ls pos k.count.toNat
     let turn := s.kv.waiting = [] ∧ s.kv.pinning = []
     let good := turn ∧ k.reserved = false ∧ s.handleOk sl h = true
     let rows := [(Instr.kvCreate q d, 1), (.kvFork q d, 2), (.kvAppend q d, 3), (.kvTruncate q d, 4), (.kvPin q d, 5), (.kvUnpin q d, 6),
       (.kvRelease q d, 7), (.kvQuery q d, 8), (.kvSetceil q d, 9)]
     (op ∉ rows.map Prod.snd → ∀ c ∈ rows, exec c.1 s = .next (s.finish q 3 (fieldAt d 4 4) 0)) ∧
     (op ∈ rows.map Prod.snd → ∀ c ∈ rows, c.2 ≠ op → exec c.1 s = .next s) ∧
     (∀ c ∈ [(Instr.kvFork q d, 2, KvOp.fork), (.kvAppend q d, 3, .append), (.kvTruncate q d, 4, .truncate), (.kvPin q d, 5, .pin),
       (.kvUnpin q d, 6, .unpin), (.kvRelease q d, 7, .release), (.kvQuery q d, 8, .query)], op = c.2.1 →
       s.kvBlocked s.kv.waiting ⟨q, c.2.2, k⟩ = true →
       exec c.1 s = .next { s with kv := { s.kv with waiting := s.kv.waiting ++ [⟨q, c.2.2, k⟩] } }) ∧
     (∀ c ∈ rows, op = c.2 → 4 ≤ op → op ≤ 8 → k.reserved = false → s.kv.waiting = [] → s.handleOk sl h = false →
       exec c.1 s = .next (s.finish q 1 h 0)) ∧
     (∀ c ∈ rows, op = c.2 → k.reserved = true → s.kv.waiting = [] → s.handleOk sl h = false → s.handleOk sl k.src.toNat = false →
       exec c.1 s = .next (s.finish q 3 h 0)) ∧
     (op = 1 → k.reserved = false → 1 ≤ k.layers.toNat → k.layers.toNat ≤ 256 → 1 ≤ k.groups.toNat → k.groups.toNat ≤ 64 →
       k.dim.toNat ≤ 2 → k.fmt.toNat ≤ 6 →
       ((s.slice sl).quota.handles ≤ s.handlesUsed sl → exec (.kvCreate q d) s = .next (s.finish q 2 h 0)) ∧
       (s.handlesUsed sl < (s.slice sl).quota.handles → ∃ t : State, exec (.kvCreate q d) s = .next (t.finish q 0 (s.handleOf s.freeIndex) 0) ∧
         t.seq s.freeIndex = { live := true, gen := (s.seq s.freeIndex).gen, slice := sl, layers := k.layers.toNat, groups := k.groups.toNat
                               dim := k.dim.toNat, elem := k.fmt.toNat, lens := [], blocks := [], tails := [], pages := [] } ∧
         (∀ j, j ≠ s.freeIndex → t.seq j = s.seq j) ∧ t.mem = s.mem)) ∧
     (op = 2 → turn → k.reserved = false → let src := k.src.toNat % 2 ^ 18
       let z := s.seq src
       let f := (s.forkSeq s.freeIndex src pos).forkAll s.freeIndex src pos
       (s.handleOk sl k.src.toNat = false → exec (.kvFork q d) s = .next (s.finish q 1 h 0)) ∧
       (s.handleOk sl k.src.toNat = true → s.handlesUsed sl < (s.slice sl).quota.handles → (∀ l < z.layers, pos ≤ z.len l) →
         (∀ u, f = .ok (u, .none) → exec (.kvFork q d) s = .next (u.finish q 0 (u.handleOf s.freeIndex) 0) ∧
           (u.seq s.freeIndex).live = true ∧ (u.seq s.freeIndex).layers = z.layers ∧ (∀ l < z.layers, (u.seq s.freeIndex).len l = pos)) ∧
         (∀ u, f = .ok (u, .lost) → exec (.kvFork q d) s = .next (s.finish q 0x0A h 0)) ∧
         (f = .error .full → exec (.kvFork q d) s = .next (s.finish q 6 h 0)))) ∧
     (op = 7 → good → ∃ t : State, exec (.kvRelease q d) s = .next (t.finish q 0 h 0) ∧ (t.seq i).live = false ∧
       (t.seq i).gen = (x.gen + 1) % 256 ∧ ∀ j, j ≠ i → t.seq j = s.seq j) ∧
     (op = 8 → good → let first := if layer = 0xFFFF then 0 else layer
       (first < x.layers → ∀ t bs, s.vwrite sl (s.qPasid q) k.addr.toNat (s.kvRecord i first) = (t, .ok bs) →
         exec (.kvQuery q d) s = .next (t.finish q 0 h 0)) ∧
       (x.layers ≤ first → exec (.kvQuery q d) s = .next (s.finish q 4 h 0))) ∧
     (op = 6 → good → x.rangeOk ls pos k.count.toNat = true → (∀ b, (s.kvb b).pins.Nodup) → ∃ t : State,
       exec (.kvUnpin q d) s = .next (t.finish q 0 h len) ∧ (∀ b ∈ bs, i ∉ (t.kvb b).pins) ∧ (∀ b, b ∉ bs → t.kvb b = s.kvb b) ∧
       (∀ j, t.seq j = s.seq j)) ∧
     (op = 5 → good → x.rangeOk ls pos k.count.toNat = true →
       let p := bs.foldl (fun u b => (u.stayBlock b).setKvb b (fun y => { y with pins := insSet y.pins i })) s
       let away := bs.filter (fun b => (s.kvb b).away)
       (s.kvCeil sl < p.kvFloor sl → exec (.kvPin q d) s = .next (s.finish q 7 h len)) ∧
       (p.kvFloor sl ≤ s.kvCeil sl → (∀ b ∈ bs, (s.kvb b).loc = .hbm ∨ (s.kvb b).loc = .demoting) → ∃ t : State,
         exec (.kvPin q d) s = .next (t.finish q 0 h len) ∧ (∀ b ∈ bs, i ∈ (t.kvb b).pins ∧ (t.kvb b).loc = .hbm) ∧ t.mem = s.mem) ∧
       (p.kvFloor sl ≤ s.kvCeil sl → (∀ b ∈ bs, (s.kvb b).loc ≠ .lost) → away ≠ [] →
         (p.reserveAll away = .error .full → exec (.kvPin q d) s = .next (s.finish q 6 h len)) ∧
         ∀ u, p.reserveAll away = .ok (u, .none) → ∃ t : State, exec (.kvPin q d) s = .next t ∧ t.mem = u.mem ∧ t.sent = u.sent ∧
           (∀ b ∈ away, (t.kvb b).loc ≠ .flash) ∧ t.kv.pinning.map (fun w => (w.q, w.idx, w.waits, w.lost)) =
             u.kv.pinning.map (fun w => (w.q, w.idx, w.waits, w.lost)) ++ [(q, i, away, false)])) ∧
     (op = 9 → k.reserved = false → k.bytes.toNat % 0x200000 = 0 →
       let used := ((s.slice sl).pages.filter (fun p => !p.kv)).length * 0x200000
       (k.bytes.toNat < s.kvFloor sl → exec (.kvSetceil q d) s = .next (s.finish q 7 h 0)) ∧
       (s.kvFloor sl ≤ k.bytes.toNat → used + k.bytes.toNat ≤ (s.slice sl).quota.memBytes → exec (.kvSetceil q d) s = .next
         ({ s with kv := { s.kv with newCeil := put 0 s.kv.newCeil sl (k.bytes.toNat + 1) } }.finish q 0 h 0)) ∧
       (s.kvFloor sl ≤ k.bytes.toNat → (s.slice sl).quota.memBytes < used + k.bytes.toNat →
         exec (.kvSetceil q d) s = .next (s.finish q 6 h 0))) ∧
     (op = 3 → good → s.tailHeld i layer = false → (k.srcfmt.toNat = 7 ∨ k.srcfmt.toNat = 4) → 1 ≤ k.count.toNat → k.count.toNat ≤ 65536 →
       layer < x.layers → pos = len →
       let n := x.groups * 2 * k.count.toNat * x.d * (elemWidth k.srcfmt.toNat / 8)
       (4194304 < len + k.count.toNat → exec (.kvAppend q d) s = .next (s.finish q 5 h len)) ∧
       (len + k.count.toNat ≤ 4194304 → s.mapped sl (s.qPasid q) k.addr.toNat n false = false →
         exec (.kvAppend q d) s = .next (s.finish q 8 h len)) ∧
       (len + k.count.toNat ≤ 4194304 → s.mapped sl (s.qPasid q) k.addr.toNat n false = true → ∀ r src,
         s.vread sl (s.qPasid q) k.addr.toNat n = (r, .ok src) →
         (r.appendAll i layer len k.srcfmt.toNat k.count.toNat src = .error .full → exec (.kvAppend q d) s = .next (s.finish q 6 h len)) ∧
         (r.appendAll i layer len k.srcfmt.toNat k.count.toNat src = .error .stopped →
           exec (.kvAppend q d) s = .next (s.stopDemotion.finish q 6 h len)) ∧
         (∀ u, r.appendAll i layer len k.srcfmt.toNat k.count.toNat src = .ok (u, .none) → ∃ t : State,
           exec (.kvAppend q d) s = .next (t.finish q 0 h (len + k.count.toNat)) ∧
           (t.seq i).len layer = len + k.count.toNat ∧ t.mem = u.mem ∧ t.kv.blocks = u.kv.blocks))) ∧
     (op = 4 → good → (∀ l ∈ ls, l < x.layers ∧ pos ≤ x.len l) →
       (s.cutAll i pos ls = .error .full → exec (.kvTruncate q d) s = .next (s.finish q 6 h len)) ∧
       (∀ u, s.cutAll i pos ls = .ok (u, .lost) → exec (.kvTruncate q d) s = .next (s.finish q 0x0A h len)) ∧
       (∀ u xs, s.cutAll i pos ls = .ok (u, .memErr xs) → exec (.kvTruncate q d) s = .next ((xs.foldl State.countUe s).finish q 9 h len)) ∧
       (∀ u, s.cutAll i pos ls = .ok (u, .none) → ∃ t : State,
         exec (.kvTruncate q d) s = .next (t.finish q 0 h (if layer = 0xFFFF then 0 else pos)) ∧
         (∀ l ∈ ls, (t.seq i).len l = pos) ∧ t.mem = u.mem ∧ t.kv.blocks = u.kv.blocks)) ∧
     (op = 4 → good → (∃ l ∈ ls, l < x.layers ∧ x.len l < pos) → exec (.kvTruncate q d) s = .next (s.finish q 4 h len))) ∧
  (∀ (s : State) (b : Nat) (late : Bool), let k := s.kvb b
     let back := s.setKvb b (fun x => { x with loc := .fetched })
     (s.fwRuns = false → exec (.tierPeriod late) s = .next s) ∧
     (s.fwRuns = true → ∃ t : State, exec (.tierPeriod late) s = .next t ∧ t.mem = s.mem ∧ t.kv.seqs = s.kv.seqs ∧ t.kv.ceil = s.kv.ceil ∧
       (late = true → t.obj 0x4100 0x0E = wrap48 (s.obj 0x4100 0x0E + 1)) ∧
       ((t.kvb b).loc ≠ k.loc → k.loc = .hbm ∧ (t.kvb b).loc = .demoting ∧ k.pins = [] ∧ k.caught = 0 ∧ k.hold = false)) ∧
     (k.loc = .demoting → s.demotable k.slice b = true → ∀ u bs, s.kvRead k.slice k.va k.size = (u, some bs) → ∃ t : State,
       exec (.kvDemoteWritten b) s = .next t ∧ (t.kvb b).loc = .flash ∧ (t.kvb b).va = 0 ∧ (t.kvb b).lba = k.lba ∧
       (t.kvb b).copy = s.kvCipher (k.lba - 1) bs ∧ t.obj 0x4100 9 = wrap48 (s.obj 0x4100 9 + 1) ∧ (∀ c, c ≠ b → t.kvb c = s.kvb c)) ∧
     (k.loc = .demoting → s.demotable k.slice b = false → exec (.kvDemoteWritten b) s = .next (s.setKvb b (fun x =>
       { x with loc := .hbm, lba := 0 }))) ∧
     (k.loc ≠ .demoting → exec (.kvDemoteWritten b) s = .next s) ∧
     (s.kv.waiting = [] →
       (k.loc ≠ .fetching → exec (.kvBlockFetched b true) s = .next s ∧ exec (.kvBlockFetched b false) s = .next s) ∧
       (k.loc = .fetching → s.kv.pinning = [] → exec (.kvBlockFetched b false) s =
         .next (((s.setKvb b (fun x => { x with loc := .lost, copy := [], lba := 0, va := 0 })).kvUnmap k.slice).count 0x4100 0x0C 1)) ∧
       (k.loc = .fetching → k.caught ≠ 0 → exec (.kvBlockFetched b true) s = .next back) ∧
       (k.loc = .fetching → k.caught = 0 → ∀ t, back.bringBack b = .ok t → s.kv.pinning = [] →
         (t.kvb b).loc = .hbm ∧ exec (.kvBlockFetched b true) s =
           .next (t.setKvb b (fun x => { x with hold := x.defer && back.holdFits k.slice b, defer := false }))) ∧
       (k.loc = .fetching → k.caught = 0 → ∀ t, back.bringBack b = .ok t → ∀ p, s.kv.pinning = [p] → p.waits = [b] → p.lost = false →
         ∃ v : State, exec (.kvBlockFetched b true) s = .next (v.finish p.q 0 p.result p.len) ∧ v.kv.pinning = [] ∧
           (v.kvb b).loc = .hbm ∧ v.mem = t.mem) ∧
       (k.loc = .fetching → k.caught = 0 → back.bringBack b = .error .full → exec (.kvBlockFetched b true) s =
         .next (back.setKvb b (fun x => { x with loc := .flash, defer := false })))))

/-! ### Number formats (chapter 3) -/

/-- EXACT reductions do not depend on the order of the contributions or on their split over nodes, and no lane leaves its
range: the result of an element, a node's exponent bytes and its lane sums are the same for every order of the
contributions, the bytes of two parts of a node combine to those of the whole, and a lane lies within 1,023 of zero. -/
def Obligations.ExactReductions : Prop :=
  (∀ (b b' : List (List Val)) (i : Nat), b.Perm b' → exactElem b i = exactElem b' i) ∧
  (∀ (n : Nat) (g : List Nat) (cs cs' : List (Nat × List Nat)), (∀ c ∈ cs, c.2.length = n) → cs.Perm cs' →
    nodeExps cs = nodeExps cs' ∧ nodeLanes g cs = nodeLanes g cs') ∧
  (∀ (n : Nat) (cs ds : List (Nat × List Nat)), (∀ c ∈ cs ++ ds, c.2.length = n) → cs ≠ [] → ds ≠ [] →
    nodeExps (cs ++ ds) = List.zipWith max (nodeExps cs) (nodeExps ds)) ∧
  (∀ (codes : List Nat) (c x : Nat), (∀ y ∈ codes, y < 2 ^ 32) → x ∈ codes → exactByte (vals32 codes) ≤ c → c < 0xFF →
    (exactLane c (elemVal 9 x)).natAbs ≤ 1023)

/-! ### Cache-side attention and the optimizer (chapter 7) -/

/-- Cache-side attention. An ATTEND is refused as BUSY with 2,048 in flight, on a bad handle, and otherwise goes into
flight with every chunk queued; a chunk starts on a free ready island once its blocks are readable and ends with the
partials of its rows; with the last chunk the answer is sent with the merged rows and the ATTEND leaves; at a deadline
it is deferred only where a block is not readable. A partial of weight zero merges to the other one. The shares of
blocks follow the model's reading (log 33). -/
def Obligations.CacheSideAttention : Prop :=
  (∀ (s : State) (p : Fin 9) (t : Txn), s.serves p.val t 0x0A → let u := s.accepted p.val t
    let b := t.body
    let x := s.seq (fieldAt b 0 4 % 2 ^ 18)
    let sl := t.hat.stag.toNat
    let layer := fieldAt b 4 2
    let ps := fieldAt b 8 4
    let pe := if fieldAt b 12 4 = 0xFFFFFFFF then x.len layer else fieldAt b 12 4
    let sp := spans ps pe (fieldAt b 19 1)
    let gs := (List.range (fieldAt b 7 1)).map (fun i => fieldAt b 6 1 + i)
    let lost := ps < pe ∧ ∃ g ∈ gs, ∃ i, ps / 256 ≤ i ∧ i ≤ (pe - 1) / 256 ∧ (s.kvb (x.blk layer g i)).loc = .lost
    (2048 ≤ s.attends.length → exec (.epjorAttend p t) s = .next (u.attFail p.val t.hat 8 0 0)) ∧
    (s.attends.length < 2048 → s.handleOk sl (fieldAt b 0 4) = false → exec (.epjorAttend p t) s = .next (u.attFail p.val t.hat 2 0 0)) ∧
    (s.attends.length < 2048 → s.handleOk sl (fieldAt b 0 4) = true → attFormatOk b x.d = true → layer < x.layers →
      (pe < ps ∨ x.len layer < pe ∨ x.groups < fieldAt b 6 1 + fieldAt b 7 1 →
        exec (.epjorAttend p t) s = .next (u.attFail p.val t.hat 4 0 (x.len layer))) ∧
      (fieldAt b 6 1 + fieldAt b 7 1 ≤ x.groups → ps ≤ pe → pe ≤ x.len layer → fieldAt b 7 1 * sp.length ≤ 65536 →
        (s.serving sl = [] → exec (.epjorAttend p t) s = .next (u.attFail p.val t.hat 7 sp.length (x.len layer))) ∧
        (s.serving sl ≠ [] → lost → exec (.epjorAttend p t) s = .next (u.attFail p.val t.hat 5 sp.length (x.len layer))) ∧
        (s.serving sl ≠ [] → ¬ lost → ∃ (v : State) (i : Nat), exec (.epjorAttend p t) s = .next v ∧ (v.att i).hat = t.hat ∧
          (v.att i).port = p.val ∧ (v.att i).len = x.len layer ∧
          (v.att i).chunks.map (fun c => (c.grp, c.lo, c.hi)) = gs.flatMap (fun g => sp.map (fun r => (g, r))) ∧
          (∀ c ∈ (v.att i).chunks, c.st = .queued ∧ c.island ∈ s.serving sl) ∧
          (∀ e ∈ (v.att i).blocks, 1 ≤ (v.kvb e.2).caught ∧ (v.kvb e.2).loc ≠ .flash) ∧ v.mem = s.mem)))) ∧
  (∀ (s : State) (i : Fin 2048) (c b : Nat) (k : Chunk) (us : BitVec 32), let a := s.att i.val
    let sl := a.hat.stag.toNat
    (a.chunks[c]? = some k → k.st = .queued → s.isReady k.island = true → s.chunkRuns k.island = false →
      s.launches.any (fun l => l.island == k.island && l.running) = false → (sget s.share k.island).cur = some sl →
      s.chunkReady a k = true →
      exec (.attendChunkStart i c) s = .next (s.setAtt i.val (fun y => { y with chunks := modAt y.chunks c (fun z => { z with st := .running }) }))) ∧
    (a.chunks[c]? = some k → k.st = .running → ∀ (u v : State) ds tail, s.chunkData a k = (u, some ds) → u.chunkTail a k = (v, some tail) →
      exec (.attendChunkComplete i c) s = .next (v.setAtt i.val (fun y => { y with
        chunks := modAt y.chunks c (fun z => { z with st := .done, parts := (a.chunkRows k ds tail).1, stats := (a.chunkRows k ds tail).2 }) }))) ∧
    (a.chunks[c]? = some k → k.st = .running → ∀ u : State, s.chunkData a k = (u, none) →
      exec (.attendChunkComplete i c) s = .next (u.endAtt i.val 6 0)) ∧
    (s.attends.any (fun e => e.1 == i.val) = true → (∀ z ∈ a.chunks, z.st = .done) → s.kv.waiting = [] → ∃ t u : State,
      exec (.attendComplete i) s = .next u ∧ u = t.reply a.port a.hat 0x0B (attHeader 0 a.perGroup a.len 0 ++ a.rowBytes) ∧
      t.att i.val = default ∧ (∀ j, j ≠ i.val → t.att j = s.att j) ∧ t.obj 0x4140 4 = wrap48 (s.obj 0x4140 4 + 1) ∧
      (a.hat.enc = false → a.hat ∈ (s.port a.port).tags →
        .epjor a.port 0x0B a.hat.ttag.toNat 0 (attHeader 0 a.perGroup a.len 0 ++ a.rowBytes) ∈ u.sent) ∧
      (a.blocks = [] → u.mem = s.mem)) ∧
    (a.deadline ≠ 0 → (∃ b ∈ a.held, (s.kvb b).loc = .fetching) → ∃ t u : State, exec (.attendDeadline i us) s = .next t ∧
      t = u.endAtt i.val 1 us.toNat ∧ u.attends = s.attends ∧ u.mem = s.mem) ∧
    ((∀ b ∈ a.held, (s.kvb b).loc = .hbm) → exec (.attendDeadline i us) s = .next s) ∧
    (a.deadline = 0 → exec (.attendDeadline i us) s = .next s) ∧
    exec (.deferHoldExpire b) s = .next (s.setKvb b (fun x => { x with hold := false }))) ∧
  (∀ a b : Part, ((elemVal 9 a.l).isZero = true → mergePart a b = b) ∧
    ((elemVal 9 a.l).isZero = false → (elemVal 9 b.l).isZero = true → mergePart a b = a))

/-- The optimizer's commands and units. A set is registered in the lowest free index with the generation of its
descriptor; commands on an unknown handle fail with OPT_BADSET; hyper-parameters wait for the boundary; a skip of a
committed generation is stale; RELEASE drops a set that no sequencer works on; a kernel in use cannot be unloaded. A
gradient that fails a check is counted and changes nothing else of the optimizer; a unit goes to an idle sequencer of
its island; the ratio starts the second pass. At a boundary a set commits, commits as skipped, or stalls. The order of
the checks is the model's reading (log 34). -/
def Obligations.OptimizerInFabric : Prop :=
  (∀ (s : State) (q : QCtx) (d : List Byte), s.takes q 2 → let sl := q.slice.val
    let pasid := s.qPasid q
    let op := fieldAt d 0 1
    let kid := fieldAt d 1 1
    let h := fieldAt d 4 4
    let step := fieldAt d 12 4
    let addr := fieldAt d 16 8
    let size := fieldAt d 24 8
    let key := sl * 256 + kid
    let rsv := fieldAt d 2 2 ≠ 0 ∨ fieldAt d 32 32 ≠ 0
    let rows := [(Instr.optRegister q d, 1), (.optSethyper q d, 2), (.optSkip q d, 3), (.optQuery q d, 4), (.optRelease q d, 5),
      (.optLoad q d, 6), (.optUnload q d, 7)]
    (op ∉ rows.map Prod.snd → ∀ c ∈ rows, exec c.1 s = .next (s.finish q 2 h 0)) ∧
    (op ∈ rows.map Prod.snd → ∀ c ∈ rows, c.2 ≠ op → exec c.1 s = .next s) ∧
    (∀ c ∈ rows, op = c.2 → rsv → exec c.1 s = .next (s.finish q 2 (if op = 7 then kid else if op = 1 ∨ op = 6 then 0 else h) 0)) ∧
    (¬ rsv → (s.setIdx sl h = none → ∀ c ∈ rows, op = c.2 → 2 ≤ op → op ≤ 5 → exec c.1 s = .next (s.finish q 1 h 0)) ∧
    (op = 1 → ∀ (t : State) b, s.vread sl pasid addr 256 = (t, .ok b) → let i := lowestFree (t.opt.sets.map Prod.fst) 4096 0
      let x := setOfDesc sl pasid (look 0 t.opt.gens i) b
      (t.setFormatOk sl b = false → exec (.optRegister q d) s = .next (t.finish q 2 0 0)) ∧
      (t.setFormatOk sl b = true → x.lo ≤ x.hi → x.hi ≤ (x.elems + x.u - 1) / x.u * x.u → t.mapped sl pasid x.stateVa (x.units * 4096) true = true →
        (x.emitVa = 0 ∨ t.mapped sl pasid x.emitVa x.emitBytes true = true) → i < 4096 → exec (.optRegister q d) s =
          .next ((t.setOpt (fun o => { o with sets := sput o.sets i x })).finish q 0 (i + look 0 t.opt.gens i * 4096) x.gen))) ∧
    (∀ i, s.setIdx sl h = some i → (s.optSet i).releasing = none → let x := s.optSet i
      (x.stalled = true → (op = 2 → exec (.optSethyper q d) s = .next (s.finish q 0x0A h x.gen)) ∧
        (op = 3 → exec (.optSkip q d) s = .next (s.finish q 0x0A h x.gen))) ∧
      (op = 3 → x.stalled = false → step ≤ x.gen → exec (.optSkip q d) s = .next (s.finish q 7 h x.gen)) ∧
      (op = 3 → x.stalled = false → x.gen < step → exec (.optSkip q d) s =
        .next ((s.modSet i (fun y => { y with skips := insSet y.skips step })).finish q 0 h x.gen)) ∧
      (op = 2 → ∀ (t : State) bs, x.stalled = false → s.vread sl pasid addr 64 = (t, .ok bs) → ∃ u : State,
        exec (.optSethyper q d) s = .next (u.finish q 0 h (t.optSet i).gen) ∧
        (u.optSet i).newHyper = some (codes32 16 bs) ∧ (u.optSet i).hyper = (t.optSet i).hyper) ∧
      (op = 4 → ∀ (t : State) bs, s.vwrite sl pasid addr (OptSet.record x) = (t, .ok bs) →
        exec (.optQuery q d) s = .next (t.finish q 0 h x.gen)) ∧
      (op = 5 → s.setRuns i = false → ∃ t : State, exec (.optRelease q d) s = .next (t.finish q 0 h x.gen) ∧ t.optSet i = default ∧
        look 0 t.opt.gens i = (x.hgen + 1) % 256 ∧ (∀ j, j ≠ i → t.optSet j = s.optSet j) ∧ t.mem = s.mem) ∧
      (op = 5 → s.setRuns i = true → exec (.optRelease q d) s = .next (s.modSet i (fun y => { y with releasing := some q })))) ∧
    (op = 6 → ∀ (t : State) im, s.vread sl pasid addr size = (t, .ok im) →
      ((s.opt.kernels.filter (fun e => e.1 / 256 == sl)).length < 64 → loadStatus im true 0 ≠ 0 →
        exec (.optLoad q d) s = .next (t.finish q 6 0 (loadStatus im true 0))) ∧
      ((s.opt.kernels.filter (fun e => e.1 / 256 == sl)).length < 64 → loadStatus im true 0 = 0 →
        let k := lowestFree ((s.opt.kernels.filter (fun e => e.1 / 256 == sl)).map (fun e => e.1 % 256)) 192 128
        exec (.optLoad q d) s =
          .next ((t.setOpt (fun o => { o with kernels := ins o.kernels (sl * 256 + k) (pasid, im) })).finish q 0 k 0))) ∧
    (op = 7 → (∀ e ∈ s.opt.kernels, e.1 ≠ key) → exec (.optUnload q d) s = .next (s.finish q 2 kid 0)) ∧
    (op = 7 → (∃ e ∈ s.opt.kernels, e.1 = key) → (∀ e ∈ s.setsOf sl, e.2.kernel ≠ kid) → ∃ t : State,
      exec (.optUnload q d) s = .next (t.finish q 0 kid 0) ∧ t = { s with opt := t.opt } ∧ t.opt.kernels = drop1 s.opt.kernels key ∧
      t.opt.sets = s.opt.sets ∧ t.opt.queue = s.opt.queue) ∧
    (op = 7 → (∃ e ∈ s.opt.kernels, e.1 = key) → (∃ e ∈ s.setsOf sl, e.2.kernel = kid) →
      exec (.optUnload q d) s = .next (s.finish q 0x0B kid 0)))) ∧
  (∀ (s : State) (p : Fin 9) (t : Txn), s.serves p.val t 0x0C → let u := s.accepted p.val t
    let zeros : List Byte := List.replicate 7 0
    ((∀ e ∈ s.setsOf t.hat.stag.toNat, e.2.id ≠ fieldAt t.body 0 4) →
      exec (.epjorGrad p t) s = .next ((u.count 0x4300 8 1).reply p.val t.hat 0x0D (1 :: zeros))) ∧
    (∀ i x, (s.setsOf t.hat.stag.toNat).find? (fun e => e.2.id == fieldAt t.body 0 4) = some (i, x) →
      (u.gradStatus p.val t.hat t.body x ≠ 0 → exec (.epjorGrad p t) s =
        .next ((u.count 0x4300 8 1).reply p.val t.hat 0x0D (leBytes 1 (u.gradStatus p.val t.hat t.body x) ++ zeros))) ∧
      (u.gradStatus p.val t.hat t.body x = 0 →
        exec (.epjorGrad p t) s = .next ((u.gradTake i t.body).reply p.val t.hat 0x0D (0 :: zeros)) ∧
        ∀ k < fieldAt t.body 16 2 / 32, ∃ l, (fieldAt t.body 20 4, l) ∈
          look [] ((u.gradTake i t.body).optSet i).got (fieldAt t.body 8 8 / 32 + k)))) ∧
  (∀ (s : State) (q : Fin 32) (i : Fin 4096) (r : UnitRun) (others : List (BitVec 64 × BitVec 32 × BitVec 32)),
    let x := s.optSet i.val
    ((sget s.opt.nm q.val).run ≠ none → exec (.optUnitDispatch q) s = .next s) ∧
    ((sget s.opt.nm q.val).run = none → s.isReady (16 + q.val / 8) = true → (s.seqr (17 + q.val)).run = .idle →
      s.opt.queue.find? (fun e => s.unitMi e == some (q.val / 8)) = some r →
      ∀ (u : State) st, (s.setOpt (fun o => { o with queue := o.queue.erase r })).vread (s.optSet r.set).slice (s.optSet r.set).pasid
        ((s.optSet r.set).stateVa + r.unit * 4096 + (if r.pass = 2 then 1 - (s.optSet r.set).copy else (s.optSet r.set).copy) * 2048)
          2048 = (u, .ok st) →
      ∃ t : State, exec (.optUnitDispatch q) s = .next t ∧ (sget t.opt.nm q.val).run = some r ∧ t.opt.queue = s.opt.queue.erase r ∧
        t.opt.sets = s.opt.sets ∧
        t.bytes (localBase (17 + q.val) + regBuf (!(sget s.opt.nm q.val).buf) + 0x400) st.length = st) ∧
    ((sget s.opt.nm q.val).run = none → exec (.optUnitHalt q) s = .next s) ∧
    ((sget s.opt.nm q.val).run = some r → (s.optSet r.set).kernel < 128 → (s.optSet r.set).releasing = none →
      let y := s.optSet r.set
      let o := localBase (17 + q.val) + regBuf (sget s.opt.nm q.val).buf
      let e := y.builtin r (look [] y.grads r.unit) (s.bytes (o + 0x400) 2048)
      let w := ((s.sramStore (o + 0xC00) e.state).sramStore (o + 0x1400) (e.el ++ e.hd)).vwrite y.slice y.pasid
        (y.stateVa + r.unit * 4096 + (1 - y.copy) * 2048) e.state
      ∃ t : State, exec (.optUnitHalt q) s = .next t ∧ (sget t.opt.nm q.val).run = none ∧ (t.optSet r.set).copy = y.copy ∧
        (t.optSet r.set).gen = y.gen ∧
        (∀ bs, w.2 = .ok bs → (y.kernel ≠ 4 ∨ r.pass ≠ 1) → r.unit ∈ (t.optSet r.set).applied ∧ t.obj 0x4300 3 = wrap48 (s.obj 0x4300 3 + 1)) ∧
        (∀ bs, w.2 = .ok bs → y.kernel = 4 → r.pass = 1 → (r.unit, e.sums) ∈ (t.optSet r.set).sums)) ∧
    (x.wantsRatio = false → exec (.lambRatioReady i others) s = .next s) ∧
    (x.wantsRatio = true → others.length + 1 = (s.optNode x).1 → ∃ t : State, exec (.lambRatioReady i others) s = .next t ∧
      (t.optSet i.val).ratio ≠ none ∧ t.opt.queue = s.opt.queue ++ (List.range x.units).map (fun k => ⟨i.val, k, 2⟩))) ∧
  (∀ (s : State) (i g : Nat), let x := s.optSet i
    let skip := g ∈ x.skips ∨ (bit x.flags 0 = true ∧ x.nonfin ≠ [])
    x.stalled = false → x.gen + 1 = g →
    (x.applied.length = x.units → x.emitted.length = x.units → ¬ skip →
      ((s.commitSet i g).optSet i).gen = g ∧ ((s.commitSet i g).optSet i).copy = 1 - x.copy ∧
      (s.commitSet i g).obj 0x4300 4 = wrap48 (s.obj 0x4300 4 + 1)) ∧
    (x.applied.length = x.units → skip → ((s.commitSet i g).optSet i).gen = g ∧ ((s.commitSet i g).optSet i).copy = x.copy ∧
      (s.commitSet i g).obj 0x4300 5 = wrap48 (s.obj 0x4300 5 + 1)) ∧
    ((x.applied.length ≠ x.units ∨ (¬ skip ∧ x.emitted.length ≠ x.units)) → ((s.commitSet i g).optSet i).stalled = true ∧ ((s.commitSet i g).optSet i).gen = x.gen ∧
      ((s.commitSet i g).optSet i).copy = x.copy))

/-! ### The Epjor link (chapter 8) -/

/-- Transactions for the SP9. A foreign source is discarded and counted; outside NORMAL a request is answered STATE; a
pair without a binding is answered SLICE; a tag in flight is counted and the slice hears of it; a malformed Hat is
answered TYPE. READ, WRITE, WRITE_FINAL and ATOMIC reach memory through the slice's leaf and answer data, an
acknowledgement or the old value; an unmapped address, a leaf without `WRITE` and a range over a 4 KiB boundary are
answered XLATE, ACCESS and ALIGN. A DOORBELL within its queue's window is taken, any other counted; an EVENT goes to
the slice's ring. -/
def Obligations.EpjorTransactions : Prop :=
  (∀ (s : State) (p : Fin 8) (t : Txn) (ty : Nat) (c : Instr), let n : Fin 9 := ⟨p.val, by omega⟩
    let h := t.hat
    let a := s.arrivalOf p.val t
    (ty = 0x03 ∧ c = .epjorRead n t) ∨ (ty = 0x05 ∧ c = .epjorWrite n t) ∨ (ty = 0x06 ∧ c = .epjorWriteFinal n t ∧ s.writesBefore p.val t = []) ∨
      (ty = 0x0A ∧ c = .epjorAttend n t) ∨ (ty = 0x0C ∧ c = .epjorGrad n t) →
    h.typ.toNat = ty → (s.port p.val).usable = true → s.selfEp = some h.dest.toNat → s.myTurn p.val t = true → let u := s.accept p.val t
    (h.src.toNat ≠ s.partnerEp p.val → exec c s = .next ((s.takeArrived p.val t).countPort p.val 0x12 1)) ∧
    (h.src.toNat = s.partnerEp p.val →
      (a.abort = true → a.dup = false → exec c s = .next (u.sendError p.val h 0x0D 0)) ∧
      (a.abort = false → s.mod.svc ≠ .normal → exec c s = .next (u.sendError p.val h 0x0E 0)) ∧
      (a.abort = false → s.mod.svc = .normal → a.bind = none → exec c s = .next ((u.count 0x3100 7 1).sendError p.val h 0x07 0)) ∧
      (a.abort = false → s.mod.svc = .normal → ∀ b, a.bind = some b →
        (a.dup = true → exec c s =
          .next ((u.countPort p.val 0x13 1).event (.slice h.stag.toNat) 0x0801 p.val h.ttag.toNat 0)) ∧
        (a.dup = false → t.hatOk = false → exec c s = .next (u.sendError p.val h 0x06 0)) ∧
        (a.dup = false → t.hatOk = true → h.enc = false → bodyOk ty t.body = true → bit b 30 = true →
          exec c s = .next (u.sendError p.val h 0x08 0))))) ∧
  (∀ (s : State) (p : Fin 9) (t w : Txn), s.writesBefore p.val t = [w] → w.hat.typ = 0x05 → ∃ u : State, exec (.epjorWrite p w) s = .next u ∧
    (u.writesBefore p.val t = [] → exec (.epjorWriteFinal p t) s = exec (.epjorWriteFinal p t) u)) ∧
  (∀ (s : State) (p : Fin 9) (t : Txn) (g g' : Nat), let u := s.accepted p.val t
    let h := t.hat
    let sl := h.stag.toNat
    let va := fieldAt t.body 0 8
    let n := fieldAt t.body 8 4
    let a := leafAddr g va
    let from_ := 8 + miOf a
    let leaf (m : Nat) := s.leaf sl h.pasid.toNat va = some g ∧ s.leaf sl h.pasid.toNat (va + m - 1) = some g'
    let writes := bit g 1 = true ∧ bit g' 1 = true
    (u.port p.val).tags.contains h = true →
    (s.serves p.val t 0x03 →
      (leaf n → va % 4096 + n ≤ 4096 → (sectorsOf a n).any s.badSector = false →
        exec (.epjorRead p t) s = .next (u.sendAnswer from_ p.val h 0x04 (s.bytes a n))) ∧
      (leaf n → 4096 < va % 4096 + n → exec (.epjorRead p t) s = .next (u.sendError p.val h 0x04 0)) ∧
      (s.leaf sl h.pasid.toNat va = none → exec (.epjorRead p t) s = .next (u.sendError p.val h 0x02 0))) ∧
    (∀ c, (s.serves p.val t 0x05 ∧ c = Instr.epjorWrite p t) ∨ (s.serves p.val t 0x06 ∧ s.writesBefore p.val t = [] ∧ c = .epjorWriteFinal p t) →
      (leaf n → writes → va % 4096 + n ≤ 4096 → (sectorsOf a n).any s.badSector = false → ∃ v : State,
        exec c s = .next (v.sendAnswer from_ p.val h 0x07 []) ∧ (∀ x, v.byte x = (s.store a (t.body.drop 16)).byte x) ∧ v.ports = u.ports ∧
          v.dict = u.dict) ∧
      (leaf n → ¬ writes → exec c s = .next (u.sendError p.val h 0x03 0)) ∧
      (s.leaf sl h.pasid.toNat va = none → exec c s = .next (u.sendError p.val h 0x02 0))) ∧
    (∀ c cas, (cas = false ∧ fieldAt t.body 12 1 = 0 ∧ c = Instr.epjorAtomicFadd p t) ∨ (cas = true ∧ fieldAt t.body 12 1 = 1 ∧ c = .epjorAtomicCas p t) →
      s.serves p.val t 0x08 → leaf 8 →
      (writes → va % 8 = 0 → s.badSector (a / 64 * 64) = false → let old := leNat (s.bytes a 8)
        ∃ v : State, exec c s = .next (v.sendAnswer from_ p.val h 0x09 (leBytes 8 old)) ∧ v.ports = u.ports ∧
          ∀ x, v.byte x = (s.store a (leBytes 8 (atomicNew cas old (fieldAt t.body 16 8) (fieldAt t.body 24 8)))).byte x) ∧
      (writes → va % 8 ≠ 0 → exec c s = .next (u.sendError p.val h 0x04 0)) ∧
      (¬ writes → exec c s = .next (u.sendError p.val h 0x03 0)))) ∧
  (∀ (s : State) (p : Fin 9) (t : Txn), let u := s.accepted p.val t
    let h := t.hat
    let sl := h.stag.toNat
    (s.serves p.val t 0x10 → let dev := fieldAt t.body 0 4 % 2 ^ 14
      let v := fieldAt t.body 4 4
      (s.slotOfDev sl dev = none → exec (.epjorDoorbell p t) s = .next (u.doorbellRefused p.val h)) ∧
      (∀ slot, s.slotOfDev sl dev = some slot →
        (2 ^ (s.queue sl slot).cfg.log2Size < (v + 2 ^ 32 - (s.queue sl slot).dqHead) % 2 ^ 32 →
          exec (.epjorDoorbell p t) s = .next (u.doorbellRefused p.val h)) ∧
        ((v + 2 ^ 32 - (s.queue sl slot).dqHead) % 2 ^ 32 ≤ 2 ^ (s.queue sl slot).cfg.log2Size →
          exec (.epjorDoorbell p t) s = .next (u.produce sl slot v)))) ∧
    (s.serves p.val t 0x11 → exec (.epjorEvent p t) s =
      .next (u.ringEvent sl (fieldAt t.body 0 2) (fieldAt t.body 2 4) (fieldAt t.body 6 8) (fieldAt t.body 14 10))))

/-- Ports, link layer, own requests and forwarding. A port trains as Table 8-7 says, spares at most one lane, and starts
its link layer afresh from CONFIG; a numbered flit is accepted only in order with a good CRC, a first discard owes a
NAK, and a flit without credit resets the link; a slot carries LCTL before flits to be sent again, those before the
channels, and IDLE when nothing waits; an answer for an unused tag is an orphan and a late one quarantines its tag; a
transaction for another port's partner is forwarded there, into its SP9's tunnel, or refused UNREACH. Details of
credits and channels are the model's reading (log 40). -/
def Obligations.PortsAndLinkLayer : Prop :=
  (∀ (s : State) (p : Fin 8) (m : BitVec 8) (l : Fin 8) (bl : List Byte), let x := s.port p.val
    let alone := x.ownReqs = [] ∧ x.queued = [] ∧ ∀ e ∈ s.attends, e.2.port ≠ p.val
    let out (fs : List Nat) := (x.excluded.toList ++ fs ++ laneList m.toNat).eraseDups
    let got (f : List Byte) (n : Nat) := fecDecode bl = some (f, n) ∧ crc64 (bytesAt f 0 248) = fieldAt f 248 8
    (x.st = .detect → s.pins.ref156 = true → bit s.pins.cables p.val = true → 7 ≤ (laneList m.toNat).length →
      exec (.portDetectPoll p m) s = .next (s.setPort p.val (fun y => { y with st := .equalise }))) ∧
    (x.st = .detect → (laneList m.toNat).length < 7 → exec (.portDetectPoll p m) s = .next s) ∧
    (x.st = .equalise → out [] = [] → exec (.equaliseComplete p m) s =
      .next (s.setPort p.val (fun y => { y with st := .align, lanes := 255 }))) ∧
    (x.st = .equalise → out [] = [l.val] → ∃ t : State, exec (.equaliseComplete p m) s = .next t ∧ (t.port p.val).st = .align ∧
      (t.port p.val).excluded = some l.val ∧ (t.port p.val).lanes = 255 - 2 ^ l.val ∧
      (x.excluded = none → s.mod.holding = false → .event .operator 0x0803 p.val (255 - 2 ^ l.val) 0 ∈ t.sent)) ∧
    (x.st = .equalise → 2 ≤ (out []).length → ∃ t : State, exec (.equaliseComplete p m) s = .next t ∧ (t.port p.val).st = .detect ∧
      t.obj (0x3000 + p.val) 0x11 = satAdd (2 ^ 32 - 1) (s.obj (0x3000 + p.val) 0x11) 1) ∧
    (x.st = .align → exec (.alignComplete p) s = .next (s.setPort p.val (fun y => { y with st := .config }))) ∧
    (x.st = .align → exec (.alignTimeout p) s = .next (s.setPort p.val (fun y => { y with st := .detect, lanes := 0 }))) ∧
    (∀ e, x.st = .config → s.selfEp = some e →
      exec (.configFlitSend p) s = .next (s.putFlit p.val (linkFlit 2 3 (configBody e x.lanes)))) ∧
    (∀ fl, let t := s.putFlit p.val fl
      .flit p.val fl ∈ t.sent ∧ .lanes p.val (stripe (laneList x.lanes) x.laneAt (fecEncode fl)) ∈ t.sent ∧
      (x.sinceMark = 0 → .markers p.val (laneList x.lanes) ∈ t.sent) ∧ (t.port p.val).sinceMark = (x.sinceMark + 1) % 16384) ∧
    (∀ f n, x.st = .config → got f n → flitType f = 2 → s.selfEp.isSome → x.ownReqs = [] → configCause (configOf f) (s.partnerEp p.val) = 0 →
      ∃ t : State, exec (.configFlitReceive p bl) s = .next t ∧ (let y := t.port p.val
        y.st = .active ∧ y.txSeq = 0 ∧ y.rxSeq = 0 ∧ y.rxAny = false ∧ y.replay = [] ∧ y.tags = [] ∧ y.partner = (configOf f).endpoint.toNat ∧
        y.lanes = x.lanes ∧ ∀ c < 4, look 0 y.cred c = ((configOf f).cred.getD c 0).toNat ∧ look 0 y.freed c = 0 ∧
          look 0 y.grant c = recvCredits c)) ∧
    (∀ f n, x.st = .config → got f n → flitType f = 2 → s.selfEp.isSome → configCause (configOf f) (s.partnerEp p.val) ≠ 0 → ∃ t : State,
      exec (.configFlitReceive p bl) s = .next t ∧ (t.port p.val).st = .down ∧
      (t.port p.val).cause = configCause (configOf f) (s.partnerEp p.val)) ∧
    (x.st = .config → ∃ t : State, exec (.configTimeout p) s = .next t ∧ (t.port p.val).st = .down ∧
      (t.port p.val).cause = if s.selfEp.isNone then 2 else 7) ∧
    (x.st = .retrain → (out x.failing = [] ∨ (out x.failing = [l.val] ∧ x.excluded = some l.val)) → exec (.retrainComplete p true m) s =
      .next (s.setPort p.val (fun y =>
        { y with st := .active, replay := y.replay.map Flit.fresh, resend := y.replay.map Flit.fresh, nak := false }))) ∧
    (x.st = .retrain → out x.failing = [l.val] → x.excluded = none → ∃ t : State, exec (.retrainComplete p true m) s = .next t ∧
      (t.port p.val).st = .active ∧ (t.port p.val).excluded = some l.val ∧ (t.port p.val).lanes = 255 - 2 ^ l.val ∧
      (t.port p.val).resend = x.replay.map Flit.fresh) ∧
    (x.st = .retrain → alone → ∃ t : State, exec (.retrainComplete p false m) s = .next t ∧
      (t.port p.val).st = .down ∧ (t.port p.val).cause = 5 ∧ (t.port p.val).replay = []) ∧
    (x.st = .down → s.obj (0x3000 + p.val) 8 = 1 → s.obj (0x3000 + p.val) 2 = 1 →
      exec (.downHoldExpire p) s = .next (s.setPort p.val (fun y => { y with st := .detect }))) ∧
    (∀ c ∈ [Instr.laneLockLoss p l, .laneSymbolLimit p l],
      (x.st = .active → x.excluded = none → x.failing = [] → x.retrains = [] → ∃ t : State, exec c s = .next t ∧
        (t.port p.val).st = .retrain ∧ (t.port p.val).failing = [l.val] ∧ (t.port p.val).replay = x.replay ∧
        t.obj (0x3000 + p.val) 0x10 = wrap48 (s.obj (0x3000 + p.val) 0x10 + 1)) ∧
      (∀ e, x.st = .active → x.excluded = some e → e ≠ l.val → x.failing = [] → alone → ∃ t : State,
        exec c s = .next t ∧ (t.port p.val).st = .down ∧ (t.port p.val).cause = 4))) ∧
  (∀ (s : State) (p : Fin 8) (bl f : List Byte) (n : Nat), let x := s.port p.val
    let alone := x.ownReqs = [] ∧ x.queued = [] ∧ ∀ e ∈ s.attends, e.2.port ≠ p.val
    let hat := fieldAt f 0 16
    let h := hatOf hat
    let vc := h.vc.toNat
    let b := lctlOf f
    let ok := fecDecode bl = some (f, n)
    let good := ok ∧ crc64 (bytesAt f 0 248) = fieldAt f 248 8
    let body := (bytesAt f 16 232).take (min (bits hat 111 104) 232)
    let mine := isRequest h.typ.toNat = true ∧ s.selfEp = some h.dest.toNat ∧ h.src.toNat = s.partnerEp p.val
    (x.st = .active → good → 3 ≤ flitType f → bits hat 20 9 = x.rxSeq → look 0 x.grant vc ≠ 0 → ∃ t : State,
      exec (.numberedFlitReceive p bl) s = .next t ∧ (t.port p.val).rxSeq = (x.rxSeq + 1) % 4096 ∧ (t.port p.val).nak = false ∧
      (t.port p.val).owed = true ∧ look 0 (t.port p.val).grant vc = look 0 x.grant vc - 1 ∧
      t.obj (0x3000 + p.val) 0x0C = wrap48 (s.obj (0x3000 + p.val) 0x0C + 1) ∧
      t.obj (0x3000 + p.val) 0x0D = wrap48 (s.obj (0x3000 + p.val) 0x0D + n) ∧
      (bit hat 112 = false → (t.port p.val).arrived = x.arrived) ∧
      (look none x.part vc = none → (mine → x.inFlight h = false → (t.port p.val).tags = x.tags ++ [h]) ∧
        (bit hat 112 = true → ∃ a : Arrival, (t.port p.val).arrived = x.arrived ++ [a] ∧ a.txn.hat = h ∧ a.txn.body = body ∧
          a.ingress = p.val ∧ a.bind = s.binding p.val h.stag.toNat h.pasid.toNat ∧ a.abort = false ∧
          (a.dup = true ↔ mine ∧ x.inFlight h = true)))) ∧
    (x.st = .active → (fecDecode bl = none ∨ (ok ∧ ¬ good)) → ∃ t : State, exec (.numberedFlitReceive p bl) s = .next t ∧
      (t.port p.val).rxSeq = x.rxSeq ∧ (t.port p.val).nak = true ∧ (x.nak = false → (t.port p.val).nakOwed = true) ∧
      (t.port p.val).arrived = x.arrived ∧ t.obj (0x3000 + p.val) 0x0E = wrap48 (s.obj (0x3000 + p.val) 0x0E + 1)) ∧
    (x.st = .active → good → 3 ≤ flitType f → bits hat 20 9 ≠ x.rxSeq → ∃ t : State, exec (.numberedFlitReceive p bl) s = .next t ∧
      (t.port p.val).rxSeq = x.rxSeq ∧ (t.port p.val).nak = true ∧ (t.port p.val).arrived = x.arrived) ∧
    (x.st = .active → good → 3 ≤ flitType f → bits hat 20 9 = x.rxSeq → look 0 x.grant vc = 0 → alone → ∃ t : State,
      exec (.numberedFlitReceive p bl) s = .next t ∧ (t.port p.val).st = .down ∧ (t.port p.val).cause = 6) ∧
    (∀ g r a, x.st = .active → good → flitType f = 1 → x.replay = g :: r → b.ack = some a → a.toNat = g.seq → b.nak = none → b.lreq = 0 →
      ∃ t : State, exec (.lctlFlitReceive p bl) s = .next t ∧ (t.port p.val).replay = r ∧
      ∀ c < 4, look 0 (t.port p.val).seen c = (b.cred.getD c 0).toNat ∧
        look 0 (t.port p.val).cred c = look 0 x.cred c + ((b.cred.getD c 0).toNat + 65536 - look 0 x.seen c) % 65536) ∧
    (∀ g r a, x.st = .active → good → flitType f = 1 → x.replay = g :: r → b.ack = none → b.nak = some a → a.toNat = g.seq → b.lreq = 0 →
      (∀ y ∈ x.replay, y.tries < 7) → ∃ t : State, exec (.lctlFlitReceive p bl) s = .next t ∧ (t.port p.val).st = .active ∧
      (t.port p.val).resend = x.replay.map (fun y => { y with tries := y.tries + 1 }) ∧
      t.obj (0x3000 + p.val) 0x0F = wrap48 (s.obj (0x3000 + p.val) 0x0F + 1)) ∧
    (x.st = .active → good → flitType f = 0 → exec (.idleFlitReceive p bl) s = .next (s.count (0x3000 + p.val) 0x0D n)) ∧
    (x.st = .active → exec (.lctlSend p) s = .next ((if x.mustIdle then s.sendIdle p.val else s).sendLctl p.val) ∧
      (let t := s.sendLctl p.val
       .flit p.val (linkFlit 1 0 x.lctl) ∈ t.sent ∧ (t.port p.val).owed = false ∧ (t.port p.val).nakOwed = false ∧ (t.port p.val).quiet = 0 ∧
       ∀ c < 4, look 0 (t.port p.val).grant c = look 0 x.grant c + (look 0 x.freed c + 65536 - look 0 x.told c) % 65536)) ∧
    (x.st = .active → x.replay = [] → exec (.replayTimeout p) s = .next s) ∧
    (x.st = .active → x.replay ≠ [] → (∀ y ∈ x.replay, y.tries < 7) → ∃ t : State, exec (.replayTimeout p) s = .next t ∧
      (t.port p.val).resend = x.replay.map (fun y => { y with tries := y.tries + 1 }) ∧ (t.port p.val).st = .active ∧
      t.obj (0x3000 + p.val) 0x0F = wrap48 (s.obj (0x3000 + p.val) 0x0F + 1)) ∧
    (x.st = .active → x.mustIdle = true → exec (.flitSlotTransmit p) s = .next (s.sendIdle p.val)) ∧
    (x.st = .active → x.mustIdle = false →
      let lctl := x.nakOwed = true ∨ x.owed = true ∨ (x.rxSince = true ∧ 63 ≤ x.quiet)
      (lctl → exec (.flitSlotTransmit p) s = .next (s.sendLctl p.val)) ∧
      (∀ g r, ¬ lctl → x.resend = g :: r → exec (.flitSlotTransmit p) s =
        .next ((s.putFlit p.val g.bytes).setPort p.val (fun y => { y.slot false false with resend := r }))) ∧
      (∀ c g fs, ¬ lctl → x.resend = [] → x.turn = some c → ((sget x.out c).load).cur = g :: fs → ∃ t : State,
        exec (.flitSlotTransmit p) s = .next t ∧ .flit p.val { g with seq := x.txSeq }.bytes ∈ t.sent ∧
        (t.port p.val).replay = x.replay ++ [{ g with seq := x.txSeq }] ∧ (t.port p.val).txSeq = (x.txSeq + 1) % 4096 ∧
        look 0 (t.port p.val).cred c = look 0 x.cred c - 1 ∧ t.obj (0x3000 + p.val) 0x0B = wrap48 (s.obj (0x3000 + p.val) 0x0B + 1)) ∧
      (¬ lctl → x.resend = [] → x.turn = none → exec (.flitSlotTransmit p) s = .next (s.sendIdle p.val))) ∧
    (.flit p.val (linkFlit 0 0 []) ∈ (s.sendIdle p.val).sent ∧ ((s.sendIdle p.val).port p.val).busy = 0)) ∧
  (∀ (s : State) (p q : Fin 8) (t : Txn) (tag : BitVec 12) (r : OwnReq), let n : Fin 9 := ⟨p.val, by omega⟩
    let h := t.hat
    let x := s.port p.val
    let a := s.arrivalOf p.val t
    let u := s.takeArrived p.val t
    let w := s.dropArrived p.val t
    let done (z : State) := if s.awaits p.val t then z.freeBuffers p.val t else z
    (x.usable = true → isAnswer h.typ.toNat = true → s.selfEp = some h.dest.toNat → s.myTurn p.val t = true → h.src.toNat = s.partnerEp p.val →
      (s.mod.svc ≠ .normal → exec (.epjorAnswerReceive p t) s = .next u) ∧
      (s.mod.svc = .normal → a.bind.isSome →
        (sget x.own h.ttag.toNat = .free ∨ sget x.own h.ttag.toNat = .quarantined →
          exec (.epjorAnswerReceive p t) s = .next (u.countPort p.val 0x14 1)) ∧
        (sget x.own h.ttag.toNat = .used r → r.answer t = none → exec (.epjorAnswerReceive p t) s = .next (u.dropPosted p.val h 0x06)) ∧
        (∀ b, sget x.own h.ttag.toNat = .used r → r.answer t = some b → h.typ ≠ 0x12 →
          let z := (u.setPort p.val (fun y => { y with own := sput y.own h.ttag.toNat .free })).ownEnd r b
          exec (.epjorAnswerReceive p t) s = .next ((State.pumpOwn p.val (z.port p.val).ownWait.length z).use h.stag.toNat 12 1)))) ∧
    (sget x.own tag.toNat = .used r → exec (.epjorRspTimeout p tag) s =
      .next ((s.setPort p.val (fun y => { y with own := sput y.own tag.toNat .quarantined })).ownEnd r none)) ∧
    (sget x.own tag.toNat ≠ .quarantined → exec (.tagQuarantineEnd p tag) s = .next s) ∧
    (sget x.own tag.toNat = .quarantined → x.ownWait = [] → exec (.tagQuarantineEnd p tag) s =
      .next (s.setPort p.val (fun y => { y with own := sput y.own tag.toNat .free }))) ∧
    (∀ b, x.usable = true → s.selfEp ≠ some h.dest.toNat → s.myTurn p.val t = true → h.src.toNat = s.partnerEp p.val → h.enc = false →
      a.bind = some b → bit b 30 = false →
      ((List.range 8).find? (fun j => s.partnerEp j == h.dest.toNat && (s.port j).usable) = some q.val →
        (∀ c, s.binding q.val h.stag.toNat h.pasid.toNat = some c → bit c 30 = false → exec (.epjorForward n t) s =
          .next ((w.count 0x3100 5 1).queueOn q.val a.ingress (s.awaits p.val t) h t.body)) ∧
        (s.binding q.val h.stag.toNat h.pasid.toNat = none → isRequest h.typ.toNat = true → exec (.epjorForward n t) s =
          .next ((done (w.count 0x3100 7 1)).sendError p.val h 0x07 0))) ∧
      ((∀ j < 8, s.partnerEp j = h.dest.toNat → (s.port j).usable = false) → h.dest.toNat ∈ s.routeCache →
        (look 0 s.routes h.dest.toNat = 0 → isRequest h.typ.toNat = true →
          exec (.epjorForward n t) s = .next ((done (w.count 0x3100 6 1)).sendError p.val h 0x0B 0)) ∧
        (∀ sp peer v, look 0 s.routes h.dest.toNat = 2 ^ 31 + sp → sp < 2 ^ 21 → s.selfEp ≠ some sp → w.fabric sp = some peer →
          w.tunnel p.val peer t = (v, true) → exec (.epjorForward n t) s = .next (done (v.count 0x3100 5 1))))))

/-! ### Collectives, barriers and step boundaries (chapter 9) -/

/-- Arrivals and the barrier tree. A SYNC, BARRIER or ARRIVE is answered by R295's table: BADGROUP for an unknown group,
ABORTED while the job is fenced, TIMEOUT in a FAILED group, OK, STALE or EARLY at once for another epoch than the
current one, and held for the current one. A child's ARRIVE counts once for the current epoch, a complete subtree is
passed to the parent, a release advances the epoch and answers every member, a failure leaves the epoch and marks the
group FAILED, and a STEP group's release waits for the actions of R303. -/
def Obligations.BarrierArrivals : Prop :=
  let answer (s : State) (g : Group) (e code : Nat) : Prop :=
    let fenced := g.step = true ∧ (s.job g.slice).st = .fenced
    (fenced ∧ code = 5) ∨ (¬ fenced ∧ g.st = .failed ∧ code = 4) ∨
    (¬ fenced ∧ g.st = .active ∧ ((e + 1 = g.epoch ∧ g.done = true ∧ code = 0) ∨ (e < g.epoch ∧ ¬ (e + 1 = g.epoch ∧ g.done = true) ∧ code = 1) ∨
      (g.epoch < e ∧ code = 2)))
  let held (s : State) (k m : Nat) (w : Waiter) (t : State) : Prop :=
    let g := s.group k
    let y := { g with waiting := g.waiting ++ [(m, w)], arrived := insSet g.arrived m }
    (∀ p, parentOf g.index = some p → y.complete = true → g.passed = false →
      t.group k = { y with passed := true } ∧ .coll p 0 g.id g.epoch (leBytes 1 0) ∈ t.sent ∧
      ∀ c, s.nodeConn k p = some c → (t.conn c).outs =
        (s.conn c).outs ++ [((s.conn c).msn, .coll 0 (collHeader g.id g.epoch 0 0 0 0 0 0) [])]) ∧
    ((parentOf g.index = none ∨ y.complete = false ∨ g.passed = true) → t.group k = y ∧ t.sent = s.sent) ∧
    (∀ j, j ≠ k → t.group j = s.group j) ∧ t.dict = s.dict ∧ t.mem = s.mem ∧ t.host = s.host ∧ t.seqs = s.seqs
  (∀ (s : State) (q : QCtx) (b : List Byte), s.takes q 3 → s.isReady 20 = true →
    ∀ x ∈ [(0x15, Instr.callBarrier q b), (0x16, .callArrive q b)], fieldAt b 0 1 = x.1 →
    let c := x.2
    let d := collOf b
    let id := d.group.toNat
    let e := d.root.toNat
    (s.groupSlot q.slice.val id = none → exec c s = .next (s.finish q 1 id e)) ∧
    (∀ k, s.groupSlot q.slice.val id = some k → let g := s.group k
      (g.memberOfQueue (s.queue q.slice.val q.slot.val).dev = none → exec c s = .next (s.finish q 2 id e)) ∧
      (∀ m, g.memberOfQueue (s.queue q.slice.val q.slot.val).dev = some m →
        ((d.reserved = true ∨ d.mode ≠ 0 ∨ d.cseq ≠ 0 ∨ (g.members.getD m default).rank ≠ d.rank.toNat) →
          exec c s = .next (s.finish q 2 id e)) ∧
        (d.reserved = false → d.mode = 0 → d.cseq = 0 → (g.members.getD m default).rank = d.rank.toNat →
          (∀ code, answer s g e code → exec c s = .next (s.finish q ([0, 0x0B, 0x0C, 1, 8, 9].getD code 0) g.id e)) ∧
          (g.st = .active → ¬ (g.step = true ∧ (s.job g.slice).st = .fenced) → e = g.epoch → ∃ t : State, exec c s = .next t ∧
            held s k m (.call q) t))))) ∧
  (∀ (s : State) (p : Fin 9) (t : Txn), s.serves p.val t 0x0E → let u := s.accepted p.val t
    let id := fieldAt t.body 0 4
    let e := fieldAt t.body 4 4
    let rsp (n code : Nat) := u.reply p.val t.hat 0x0F (leBytes 4 n ++ leBytes 4 e ++ leBytes 1 code ++ List.replicate 7 0)
    ∀ c, (fieldAt t.body 8 1 = 0 ∧ c = Instr.epjorSyncBarrier p t) ∨ (fieldAt t.body 8 1 = 1 ∧ c = .epjorSyncStepArrive p t) →
      (s.groupSlot t.hat.stag.toNat id = none → exec c s = .next (rsp id 3)) ∧
      (∀ k, s.groupSlot t.hat.stag.toNat id = some k → let g := s.group k
        (g.accelOf p.val t.hat = none → exec c s = .next (rsp id 3)) ∧
        (∀ m, g.accelOf p.val t.hat = some m →
          (∀ code, answer s g e code → exec c s = .next (rsp g.id code)) ∧
          (g.st = .active → ¬ (g.step = true ∧ (s.job g.slice).st = .fenced) → e = g.epoch → ∃ v : State, exec c s = .next v ∧
            held u k m (.sync p.val t.hat) v)))) ∧
  (∀ (s : State) (p : CollPkt) (k : Nat), s.groupSlot p.slice.val p.group.toNat = some k → let g := s.group k
    let leave (t : State) := ∀ j, j ≠ k → t.group j = s.group j
    let msgs (kind code : Nat) (t : State) := ∀ n ∈ childrenOf g.nodes.length g.index, Out.coll n kind g.id g.epoch (leBytes 1 code) ∈ t.sent
    (g.st = .active → p.seq.toNat = g.epoch → p.node.toNat ∈ childrenOf g.nodes.length g.index → ∃ t : State,
      exec (.collPktArrive p) s = .next t ∧ (t.group k).kids = insSet g.kids p.node.toNat ∧ (t.group k).epoch = g.epoch ∧
      (t.group k).arrived = g.arrived ∧ (t.group k).waiting = g.waiting ∧ leave t ∧
      (∀ n, parentOf g.index = some n → { g with kids := insSet g.kids p.node.toNat }.complete = true → g.passed = false →
        Out.coll n 0 g.id g.epoch (leBytes 1 0) ∈ t.sent)) ∧
    ((p.seq.toNat ≠ g.epoch ∨ p.node.toNat ∉ childrenOf g.nodes.length g.index) → exec (.collPktArrive p) s = .next s) ∧
    ((p.seq.toNat ≠ g.epoch ∨ parentOf g.index ≠ some p.node.toNat) → ∀ c ∈ [Instr.collPktRelease p, .collPktFail p], exec c s = .next s) ∧
    (g.st = .active → p.seq.toNat = g.epoch → parentOf g.index = some p.node.toNat → g.release = none →
      (p.code = 0 → g.step = false → ∃ t : State, exec (.collPktRelease p) s = .next t ∧ (t.group k).epoch = g.epoch + 1 ∧
        (t.group k).done = true ∧ (t.group k).waiting = [] ∧ (t.group k).arrived = [] ∧ (t.group k).kids = [] ∧ (t.group k).passed = false ∧
        leave t ∧ msgs 1 0 t) ∧
      (p.code = 0 → g.step = true → ∃ t : State, exec (.collPktRelease p) s = .next t ∧ t.group k = { g with release := some g.epoch } ∧
        leave t ∧ msgs 1 0 t ∧ t.dict = s.dict) ∧
      ((p.code = 0 ∨ p.code = 4) → g.step = false → ∃ t : State, exec (.collPktFail p) s = .next t ∧ (t.group k).st = .failed ∧
        (t.group k).epoch = g.epoch ∧ (t.group k).waiting = [] ∧ leave t ∧ msgs 1 4 t ∧
        (s.mod.holding = false → .event .operator 0x0901 g.id g.epoch 0 ∈ t.sent)))) ∧
  (∀ (s : State) (k : Fin 4096), let g := s.group k.val
    (s.timeoutRuns k.val = false → exec (.barrierEpochTimeout k) s = .next s) ∧
    (s.timeoutRuns k.val = true → g.step = false → ∃ t : State, exec (.barrierEpochTimeout k) s = .next t ∧
      (t.group k.val).st = .failed ∧ (t.group k.val).epoch = g.epoch ∧ t.obj 0x3200 8 = wrap48 (s.obj 0x3200 8 + 1) ∧
      (s.mod.holding = false → .event .operator 0x0901 g.id g.epoch 0 ∈ t.sent)) ∧
    (g.allHere = false → exec (.stepArrivalRaise k) s = .next s) ∧
    (g.st = .active → g.step = true → g.raised = false → g.release = none → g.allHere = true → let t := s.sendMarks g.slice
      (t.stepDone g.slice = true → t.setsHeard g.slice = true → t.withholds g.slice = false →
        exec (.stepArrivalRaise k) s = .next (((t.setGroup k.val (fun y => { y with raised := true })).countHeld g.slice).passUp k.val)) ∧
      ((t.stepDone g.slice = false ∨ t.setsHeard g.slice = false ∨ t.withholds g.slice = true) → exec (.stepArrivalRaise k) s = .next t)) ∧
    ((g.release = none ∨ (s.job g.slice).st = .census ∨ (s.job g.slice).st = .fenced) → exec (.stepRelease k) s = .next s) ∧
    (∀ e, g.release = some e → (s.job g.slice).st ≠ .census → (s.job g.slice).st ≠ .fenced →
      let u := (((s.optCommit g.slice e).applyPlain .step).takeCut g.slice).resizeArea g.slice
      exec (.stepRelease k) s = .next ((((((u.releaseWaiters k.val 0).setGroup k.val (fun y => { y with
        epoch := y.epoch + 1, done := true, release := none })).count 0x3200 7 1).count 0x3200 9 1).holdEnd g.slice).deliverHeld k.val))) ∧
  (∀ (s : State) (n : Fin 16) (pl : BitVec 50) (err : CsErr), err ≠ .uncorrectable →
    let hub : Fin 26 := 20
    let src : Fin 26 := ⟨n.val, by omega⟩
    let slot := bits pl.toNat 49 38
    let epoch := bits pl.toNat 37 22
    let act := bits pl.toNat 21 20
    let code := bits pl.toNat 19 12
    let sent (a b cls : Nat) := s.csSend (csm b a cls pl.toNat) err
    (s.csTakes 20 2 = true → act = 0 → let t := sent n.val 20 2
      let g := t.group slot
      ∀ o m, t.barrierOp n.val slot epoch = some (o, m, g.epoch) → g.st = .active → ¬ (g.step = true ∧ (t.job g.slice).st = .fenced) →
        (∀ w ∈ g.waiting, w.2 ≠ .cop n.val o.num) → ∃ v : State, exec (.csBarrier src 20 pl err) s = .next v ∧ held t slot m (.cop n.val o.num) v) ∧
    (s.csTakes 20 3 = true → act = 0 → let t := sent n.val 20 3
      ∀ num o queue v k m, (t.seqr n.val).arriving = some num → (t.seqr n.val).ops = [o] → o.num = num → o.kind = .coll 1 queue v →
        t.stepMember (t.seqr n.val).slice queue = some (k, m) → (t.group k).st = .active → v % 2 ^ 32 = (t.group k).epoch →
        (t.job (t.group k).slice).st ≠ .fenced → ∃ w : State, exec (.csStep src 20 pl err) s = .next w ∧ m ∈ (w.group k).arrived ∧
          (w.seqr n.val).stepHold = true ∧ (w.seqr n.val).stepEpoch = v % 2 ^ 32 ∧ (w.seqr n.val).arriving = none ∧ (w.seqr n.val).ops = []) ∧
    (s.csTakes n.val 2 = true → (act = 1 ∨ act = 2) → let t := sent 20 n.val 2
      ∀ o m e, t.barrierOp n.val slot epoch = some (o, m, e) → exec (.csBarrier hub (BitVec.ofNat 5 n.val) pl err) s =
        .next ((t.setGroup slot (fun g => { g with waiting := g.waiting.filter (fun w => w.2 != .cop n.val o.num) })).copDone n.val o
          (collCode code) false)) ∧
    (s.csTakes n.val 3 = true → (act = 1 ∨ act = 2) → let t := sent 20 n.val 3
      (t.seqr n.val).stepHold = true → (t.seqr n.val).slice = (t.group slot).slice → (t.seqr n.val).stepEpoch % 2 ^ 16 = epoch →
      exec (.csStep hub (BitVec.ofNat 5 n.val) pl err) s = .next (t.setSeqr n.val (fun z => { z with
        stepHold := false, operr := if code = 0 then z.operr else operrAdd z.operr (collCode code) 30 })))) ∧
  (∀ (s : State) (src : Fin 26) (dest : BitVec 5) (pl : BitVec 50) (err : CsErr),
    ∀ x ∈ [(2, Instr.csBarrier src dest pl err), (3, .csStep src dest pl err)],
      (err = .uncorrectable ∨ s.csTakes dest.toNat x.1 = false ∨ (bits pl.toNat 21 20 ≠ 0 ∧ bits pl.toNat 21 20 ≠ 1 ∧ bits pl.toNat 21 20 ≠ 2)) →
      exec x.2 s = .next (s.csSend (csm dest.toNat src.val x.1 pl.toNat) err))

/-- Groups and calls. A group exists from the moment every node has registered it, with a connection to each of its peers,
and ends with GROUP_DESTROY; a post is checked for its group, member, format and `CSEQ`, in that order, and joins its
call; a call starts when every local rank has posted it and ends once with one completion to each; a call that does
not end in time fails with TIMEOUT and tells every other node; data of a call that has not started here waits for its
start, and data of a slice held at its step boundary waits there and is counted in `HELD`. Some orders of checks and
completions are the model's reading (log 35). -/
def Obligations.GroupsAndCalls : Prop :=
  (∀ (s : State) (q : QCtx) (d : List Byte), s.takes q 3 →
    let rows := [(Instr.groupCreate q d, 0x01), (.groupDestroy q d, 0x02), (.allReduce q d, 0x10), (.reduceScatter q d, 0x11),
      (.allGather q d, 0x12), (.broadcast q d, 0x13), (.allToAll q d, 0x14), (.callBarrier q d, 0x15), (.callArrive q d, 0x16)]
    (fieldAt d 0 1 ∉ rows.map Prod.snd → s.isReady 20 = true → ∀ c ∈ rows, exec c.1 s = .next (s.finish q 2 (fieldAt d 4 4) (fieldAt d 8 4))) ∧
    (fieldAt d 0 1 ∈ rows.map Prod.snd → ∀ c ∈ rows, c.2 ≠ fieldAt d 0 1 → exec c.1 s = .next s)) ∧
  (∀ (s : State) (k : Fin 4096) (q : QCtx), let g := s.group k.val
    g.st = .creating → g.creator = some q →
      (∃ t : State, exec (.groupRegistered k) s = .next (t.finish q 0 g.id 0) ∧ t.group k.val = { g with st := .active, creator := none } ∧
        (∀ j, j ≠ k.val → t.group j = s.group j) ∧ ∀ node ∈ g.peers, ∀ c, s.nodeConn k.val node = some c → g.index < node →
          (s.conn c).st = .listen → (t.conn c).st = .connecting ∧ (t.conn c).starter = true) ∧
      ∃ t : State, exec (.groupCreateTimeout k) s = .next (t.finish q 8 g.id 0) ∧ t.group k.val = default ∧
        (∀ j, j ≠ k.val → t.group j = s.group j)) ∧
  (∀ (s : State) (q : QCtx) (d : List Byte), s.takes q 3 → s.isReady 20 = true → let sl := q.slice.val
    let id := fieldAt d 4 4
    (fieldAt d 0 1 = 2 →
      (groupCmdOk d = false → exec (.groupDestroy q d) s = .next (s.finish q 2 id 0)) ∧
      (groupCmdOk d = true → s.groupSlot sl id = none → exec (.groupDestroy q d) s = .next (s.finish q 1 id 0)) ∧
      (∀ k, groupCmdOk d = true → s.groupSlot sl id = some k → (s.group k).calls = [] → (s.group k).waiting = [] →
        ∃ t : State, exec (.groupDestroy q d) s = .next (t.finish q 0 id 0) ∧ t.group k = default ∧
          (∀ j, j ≠ k → t.group j = s.group j) ∧ t.mem = s.mem)) ∧
    (fieldAt d 0 1 = 1 → ∀ t b u nt v lt, s.vread sl (s.qPasid q) (fieldAt d 16 8) 64 = (t, .ok b) →
      t.vread sl (s.qPasid q) (fieldAt b 32 8) (8 * min 262144 (fieldAt b 12 4)) = (u, .ok nt) →
      u.vread sl (s.qPasid q) (fieldAt b 40 8) (16 * min 64 (fieldAt b 24 2)) = (v, .ok lt) →
      let g := v.groupOf sl q b nt lt
      let k := lowestFree (v.groups.map Prod.fst) 4096 0
      let n := g.peers.length
      let ok := groupCmdOk d = true ∧ g.id = id ∧ fieldAt b 12 4 ≤ 262144 ∧ fieldAt b 24 2 ≤ 64 ∧ v.groupOk sl b nt lt g = true
      (¬ ok → exec (.groupCreate q d) s = .next (v.finish q 2 id 0)) ∧
      (ok → (4096 ≤ k ∨ (v.slice sl).quota.conns < v.connsUsed sl + n ∨ 131072 < v.net.conns.length + n) →
        exec (.groupCreate q d) s = .next (v.finish q 10 id 0)) ∧
      (ok → k < 4096 → v.connsUsed sl + n ≤ (v.slice sl).quota.conns → v.net.conns.length + n ≤ 131072 → ∃ w : State,
        exec (.groupCreate q d) s = .next w ∧ w.group k = g ∧ g.st = .creating ∧ (∀ j, j ≠ k → w.group j = v.group j) ∧
        ∀ node ∈ g.peers, ∃ c, (w.conn c).group = some (k, node) ∧ (w.conn c).slice = sl ∧ ((w.conn c).st = .listen ∨ (w.conn c).st = .error)))) ∧
  (∀ (s : State) (q : QCtx) (d : List Byte), s.takes q 3 → s.isReady 20 = true →
    ∀ x ∈ [(0x10, Instr.allReduce q d), (0x11, .reduceScatter q d), (0x12, .allGather q d), (0x13, .broadcast q d), (0x14, .allToAll q d)],
      fieldAt d 0 1 = x.1 → let c := collOf d
      let sl := q.slice.val
      let id := c.group.toNat
      let n := c.cseq.toNat
      let dev := (s.queue sl q.slot.val).dev
      (s.groupSlot sl id = none → exec x.2 s = .next (s.finish q 1 id n)) ∧
      (∀ k, s.groupSlot sl id = some k → let g := s.group k
        (g.memberOfQueue dev = none → exec x.2 s = .next (s.finish q 2 id n)) ∧
        (∀ m, g.memberOfQueue dev = some m → let r := (g.members.getD m default).rank
          let ok := callOk x.1 c = true ∧ g.only = false ∧ r = c.rank.toNat ∧ (x.1 = 0x13 → c.root.toNat < g.ranks)
          let fenced := g.step = true ∧ (s.job sl).st = .fenced
          (fenced → exec x.2 s = .next (s.finish q 9 id n)) ∧
          (¬ fenced → ¬ ok → exec x.2 s = .next (s.finish q 2 id n)) ∧
          (¬ fenced → ok → n ≠ look 0 g.next r → exec x.2 s = .next (s.finish q 4 id n)) ∧
          (¬ fenced → ok → n = look 0 g.next r →
            (n < g.ended → ∃ t : State, exec x.2 s = .next (t.finish q 9 id n) ∧ t = { s with groups := t.groups } ∧
              t.group k = { g with next := put 0 g.next r (n + 1) }) ∧
            (g.ended ≤ n → ∃ t : State, exec x.2 s = .next t ∧ look 0 (t.group k).next r = n + 1 ∧
              (∀ j, j ≠ k → t.group j = s.group j) ∧ t.sent = s.sent ∧ t.mem = s.mem ∧ ∃ late,
              (g.call n = none → (t.group k).calls = g.calls ++ [{ (default : Call) with cseq := n, posts := [⟨q, x.1, c, late⟩] }]) ∧
              (∀ y, g.call n = some y → (t.group k).call n = some { y with posts := y.posts ++ [⟨q, x.1, c, late⟩] })))))) ∧
  (∀ (s : State) (k : Fin 4096) (c : BitVec 32) (x : Call), let g := s.group k.val
    g.call c.toNat = some x →
      (x.posts.length ≠ g.members.length → exec (.collCallStart k c) s = .next s) ∧
      (g.st = .failed → exec (.collCallStart k c) s = .next s) ∧
      (g.st = .active → x.started = false → x.posts.length = g.members.length →
        (g.calls.filter (fun y => y.started && !(y.ended g.ranks))).length < 16 →
        let t := s.setCall k.val c.toNat (fun y => { y with started := true, seg := s.obj 0x3200 3, early := [] })
        (x.agree = false → exec (.collCallStart k c) s = .next (s.callFail k.val c.toNat 3)) ∧
        (x.agree = true → x.posts.all (s.recvOk k.val (x.recvBytes g.ranks)) = false →
          exec (.collCallStart k c) s = .next (t.callFail k.val c.toNat 5)) ∧
        (x.agree = true → x.posts.all (s.recvOk k.val (x.recvBytes g.ranks)) = true → exec (.collCallStart k c) s =
          .next (x.early.foldl (State.collTake k.val c.toNat) (((x.posts.filter (fun p => x.reads p.cmd.rank.toNat)).foldl
            (State.gatherRank k.val c.toNat (x.sendBytes g.ranks)) t).pumpCall k.val c.toNat)))) ∧
      ((x.ended g.ranks = false ∨ c.toNat ≠ g.ended) → exec (.collCallComplete k c) s = .next s) ∧
      (x.ended g.ranks = true → (x.posts.length = g.members.length ∨ x.fail = some 9) → c.toNat = g.ended →
        let t := x.posts.foldl (fun u p => u.finish p.q (x.fail.getD 0) p.cmd.group.toNat p.cmd.cseq.toNat) s
        exec (.collCallComplete k c) s = .next
          ((((t.setGroup k.val (fun z => { z with calls := z.calls.filter (fun y => y.cseq != c.toNat), ended := max z.ended (c.toNat + 1) })).use
            g.slice 10 1).restage k.val).count 0x3200 (if x.fail.isNone then 5 else 6) 1)) ∧
      ((x.started = false ∨ x.ended g.ranks = true) → exec (.collCallTimeout k c) s = .next s) ∧
      (x.started = true → x.ended g.ranks = false → ∃ t : State, exec (.collCallTimeout k c) s = .next t ∧
        (t.group k.val).call c.toNat = some { x with fail := some 8 } ∧ (∀ j, j ≠ k.val → t.group j = s.group j) ∧
        ∀ n ∈ g.others, ∃ b, Out.coll n 8 g.id c.toNat b ∈ t.sent)) ∧
  (∀ (s : State) (p : CollPkt), let sl := p.slice.val
    let data := [(3, Instr.collPktExpbytes p), (4, .collPktPartial p), (5, .collPktLanes p), (6, .collPktResult p), (7, .collPktIncomplete p)]
    (∀ k, s.stepGroup sl = some k → s.holding sl = true → ∀ c ∈ data, exec c.2 s =
      .next ((s.setGroup k (fun g => { g with heldPkts := g.heldPkts ++ [⟨c.1, p⟩] })).count 0x3200 0x0A 1)) ∧
    (∀ i j x, s.holding sl = false → p.set = some i → (s.setsOf sl).find? (fun e => e.2.id == i.toNat) = some (j, x) →
      p.node.toNat ≠ (s.optNode x).2.1 → p.node.toNat < (s.optNode x).1 →
      (∃ t : State, exec (.collPktResult p) s = .next t ∧ t.mem = s.mem ∧ .emission sl x.id p.eoff.toNat p.data ∈ t.sent) ∧
      (x.stalled = false → p.seq.toNat = x.gen + 1 → ∀ c ∈ data, c.1 ≠ 6 → let u := p.run.toNat
        exec c.2 s = .next ((s.modRed j u (fun r => r.take false (s.unitUp x u) (u * x.u) c.1 p)).pumpUnit j u))) ∧
    (∀ k x, s.holding sl = false → p.set = none → s.groupSlot sl p.group.toNat = some k → (s.group k).call p.seq.toNat = some x →
      x.fail = none → p.node.toNat ≠ (s.group k).index → p.node.toNat < (s.group k).nodes.length → (s.group k).ended ≤ p.seq.toNat →
      let g := s.group k
      let i := p.run.toNat
      let got (c : Instr) (y : Call) : Prop := ∃ t : State, exec c s = .next t ∧ (t.group k).call p.seq.toNat = some y ∧
        (∀ j, j ≠ k → t.group j = s.group j) ∧ t.sent = s.sent ∧ t.mem = s.mem
      (x.started = false → ∀ c ∈ data, got c.2 { x with early := x.early ++ [⟨c.1, p⟩] }) ∧
      got (.collPktFailmark p) { x with fail := some 7 } ∧
      (x.started = true → reduces x.op = true → i < x.runs g.ranks → (x.next ≤ i ∨ ∃ e ∈ x.reds, e.1 = i) → ∀ c ∈ data, c.1 ≠ 6 →
        exec c.2 s = .next (((s.setCall k p.seq.toNat (fun y => y.setRed i (fun r => r.take (isInt x.elem)
          (chainParent (g.rings x) (g.redChain i) g.index) (i * x.per) c.1 p))).restage k).pumpCall k p.seq.toNat)) ∧
      (x.started = true → exec (.collPktResult p) s = .next (((g.resultKids x i p.lo.toNat).foldl (fun u m =>
        u.collSend k m 6 p.seq.toNat i p.lo.toNat p.n.toNat p.eoff.toNat x.ratio p.data)
          (s.setCall k p.seq.toNat (fun y => y.addRes (resultKey p) (p.eoff.toNat - (if reduces x.op then i * x.per else 0)) p.data))).pumpCall
            k p.seq.toNat))))

/-! ### Ethernet ports and traffic scheduling (chapters 10 and 11) -/

/-- Ethernet ports. A logical port comes up only where its mode creates it, and going down discards and counts what its
queues hold; a frame is counted, then dropped and counted for its length, its FCS or its address; PAUSE is counted, an
IPv4 header or a transport packet that fails its check is dropped, a packet that does not parse or matches no entry
goes to the exception ring, a transport packet that matches none to the engine; the firmware serves the ring in order,
and SPREAD installs a well-formed record whole. Queue selection, charging and sampling. The queue chosen at a transmit
opportunity is eligible and in the first of R343's tiers that holds one; its head leaves, is counted and charged, and
the port's virtual time becomes its tag; a sample adds one to every queue of each port that is up; a window that ends
latches its values at a multiple of `SAMPLE_WINDOW`. Bucket units and counted frames are the model's reading (log 38). -/
def Obligations.EthernetAndScheduling : Prop :=
  (∀ (s : State) (l : Fin 32), let p := l.val / 4
    (s.lportExists l.val = true → s.obj (0x3400 + p) 1 = 1 → s.isReady (21 + l.val / 16) = true → s.pins.ref156 = true →
      bit s.pins.cables (8 + l.val / 8) = true →
      exec (.ethLinkUp l) s = .next (s.setNet (fun n => { n with up := setBit n.up l.val true }))) ∧
    ((s.lportExists l.val = false ∨ s.obj (0x3400 + p) 1 ≠ 1) → exec (.ethLinkUp l) s = .next s) ∧
    (s.lportUp l.val = false → exec (.ethLinkDown l) s = .next s) ∧
    (s.lportUp l.val = true → ∃ t : State, exec (.ethLinkDown l) s = .next t ∧ t.lportUp l.val = false ∧
      (∀ q, q < 2048 → (t.txq l.val q).pkts = [] ∧ (t.txq l.val q).tag = (s.txq l.val q).tag) ∧
      (∀ m q, m ≠ l.val → q < 2048 → (t.txq m q).pkts = (s.txq m q).pkts) ∧
      t.obj (0x3400 + p) (0x10 + 0x10 * (l.val % 4) + 0xB) = wrap48 (s.obj (0x3400 + p) (0x10 + 0x10 * (l.val % 4) + 0xB) + 1) ∧
      t.mem = s.mem ∧ t.sent = s.sent)) ∧
  (∀ (s : State) (l : Fin 32) (f : List Byte) (fec bad now : Nat), let r := s.at now
    let n := f.length
    let u := (((r.portCount l.val 0 1).portCount l.val 2 n).portCount l.val 5 fec).portCount l.val 6 bad
    let fcs := fieldAt f (n - 4) 4 = crc32 (f.take (n - 4))
    let fits := 64 ≤ n ∧ n ≤ s.obj (0x3400 + l.val / 4) 4
    let mine := netAt f 0 1 % 2 = 1 ∨ netAt f 0 6 = macOf l.val
    let run := exec (.ethFrameReceive l f fec bad now) s
    (s.lportUp l.val = false → run = .next r) ∧
    (s.lportUp l.val = true →
      ((n < 64 ∨ s.obj (0x3400 + l.val / 4) 4 < n) → run = .next (u.portCount l.val 7 1)) ∧
      (fits → ¬ fcs → run = .next (u.portCount l.val 4 1)) ∧
      (fits → fcs → ¬ mine → run = .next (u.portCount l.val 8 1)) ∧
      (fits → fcs → mine → parse f = none → run = .next ((u.portCount l.val 0xA 1).except l.val f)) ∧
      (∀ p, fits → fcs → mine → parse f = some p → let v := if p.tclass % 4 = 3 then u.portCount l.val 0xC 1 else u
        let h := p.l4 + 8
        let sum := netAt f (p.l4 + 6) 2
        let good := ¬ (sum = 0 ∧ p.v6 = true) ∧ (sum = 0 ∨ udpSum f p = 0)
        (p.etype = 0x8808 → run = .next (v.portCount l.val 9 1)) ∧
        (p.etype ≠ 0x8808 → p.badSum = true → run = .next (v.count 0x3500 0x14 1)) ∧
        (p.etype ≠ 0x8808 → p.badSum = false → v.isTransport p = false → v.classify (v.clsKey l.val f p) = none →
          run = .next ((v.count 0x3600 7 1).except l.val f)) ∧
        (p.etype ≠ 0x8808 → p.badSum = false → v.isTransport p = true → ¬ good → run = .next (v.count 0x3500 0x14 1)) ∧
        (p.etype ≠ 0x8808 → p.badSum = false → v.isTransport p = true → good → netAt f h 1 ≠ 1 → run = .next (v.count 0x3500 0x13 1)) ∧
        (∀ x, p.etype ≠ 0x8808 → p.badSum = false → v.isTransport p = true → good → v.classify (v.clsKey l.val f p) = none →
          xpOf l.val f p = some x → ∃ t : State, run = .next t ∧ t.net.xpIn = v.net.xpIn ++ [x] ∧ t.net.conns = v.net.conns ∧
          t.net.exc = v.net.exc ∧ t.dict = v.dict ∧ t.mem = v.mem) ∧
        (∀ i e, p.etype ≠ 0x8808 → p.badSum = false → v.isTransport p = false → v.classify (v.clsKey l.val f p) = some (i, e) →
          bit e.action 38 = false → bits e.action 37 26 = 0xFFF →
          (bits e.action 2 0 = 0 → run = .next v) ∧ (bits e.action 2 0 = 3 → run = .next (v.except l.val f)))))) ∧
  (∀ (s : State) (now : Nat), let r := s.at now
    (s.net.exc = [] → exec (.exceptionPacketServe now) s = .next r) ∧
    (∀ x xs, s.net.exc = x :: xs → s.fwRuns = true → let t := r.setNet (fun n => { n with exc := xs })
      (t.excAnswer x.lport x.frame = none → exec (.exceptionPacketServe now) s = .next (t.setNet (fun n => { n with excDone := n.excDone + 1 }))) ∧
      (∀ b, t.excAnswer x.lport x.frame = some b → t.lportUp x.lport = true →
        exec (.exceptionPacketServe now) s = .next (t.enqueue x.lport 0 (frameOf b) none)))) ∧
  (∀ (s : State) (sl : Fin 512) (d : List Byte), (s.queue sl.val 0).used = true → (s.queue sl.val 0).halted = false →
    s.doorbellsLive sl.val = true → (s.slice sl.val).hello = true → fieldAt d 0 1 = 4 → let tag := BitVec.ofNat 32 (fieldAt d 4 4)
    let a := fieldAt d 8 8
    (∀ t b, s.vread sl.val (s.queue sl.val 0).cfg.pasid a 3080 = (t, .ok b) →
      (spreadOk b = false → exec (.spread sl d) s = .next (t.finish ⟨sl, 0, tag⟩ 1 0 0)) ∧
      (spreadOk b = true → ∃ u : State, exec (.spread sl d) s = .next (u.finish ⟨sl, 0, tag⟩ 0 0 0) ∧ u.spreadRec sl.val = b ∧
        ∀ j, j ≠ sl.val → u.spreadRec j = s.spreadRec j)) ∧
    (∀ t, s.vread sl.val (s.queue sl.val 0).cfg.pasid a 3080 = (t, .xlate) →
      exec (.spread sl d) s = .next (t.finish ⟨sl, 0, tag⟩ 9 0 0))) ∧
  (∀ (s : State) (l q : Nat), s.chosen l = some q → let es := s.eligible l
    let open_ (r x : Nat) := qRank (s.qcfg (l / 4) x) = r ∧ s.guarOpen l x = true
    q ∈ es ∧ ((∃ x ∈ es, open_ 0 x) → open_ 0 q) ∧ ((∀ x ∈ es, ¬ open_ 0 x) → (∃ x ∈ es, open_ 1 x) → open_ 1 q)) ∧
  (∀ (s : State) (l q : Nat), canonical default s.net.txq = true → q ∈ s.eligible l → (s.txq l q).pkts ≠ [] ∧
    (qMax (s.qcfg (l / 4) q) ≠ 0 → 0 < balance (s.txq l q).shaper (qMax (s.qcfg (l / 4) q)) (qBurst (s.qcfg (l / 4) q)) s.net.now)) ∧
  (∀ (s : State) (l : Fin 32) (now : Nat), let u := s.at now
    ((s.lportUp l.val = false ∨ u.chosen l.val = none) → exec (.txOpportunity l now) s = .next u) ∧
    (∀ q p ps, s.lportUp l.val = true → u.chosen l.val = some q → (s.txq l.val q).pkts = p :: ps → ∃ t : State,
      exec (.txOpportunity l now) s = .next t ∧ let x := s.txq l.val q
      let c := s.counted (l.val / 4) p.frame.length
      (t.txq l.val q).pkts = ps ∧ look 0 t.net.vtime l.val = x.tag ∧ t.sent = .frame l.val p.frame :: s.sent ∧
      (t.txq l.val q).stat.sent = wrap48 (x.stat.sent + 1) ∧ (t.txq l.val q).stat.bytes = wrap48 (x.stat.bytes + c) ∧
      (t.txq l.val q).guar = some (charge x.guar (s.guarantee (l.val / 4) q) (s.guarDepth (l.val / 4)) u.net.now c) ∧
      (ps = [] → (t.txq l.val q).tag = x.tag) ∧ (∀ j, j ≠ q → j < 2048 → q < 2048 → t.txq l.val j = s.txq l.val j) ∧ t.mem = s.mem)) ∧
  (∀ (s : State) (now l q : Nat), canonical default s.net.txq = true → q < 2048 → (s.txq l q).pkts ≠ [] → s.background = true → ∃ t : State,
    exec (.queueSample now) s = .next t ∧ (let x := (s.txq l q).stat
      let y := (t.txq l q).stat
      (t.txq l q).pkts = (s.txq l q).pkts ∧
      (s.lportUp l = true → y.n = x.n + 1 ∧ y.dSum = x.dSum + (s.txq l q).bytes ∧ y.dMax = max x.dMax (s.txq l q).bytes) ∧
      (s.lportUp l = false → y = x))) ∧
  (∀ (s : State) (now : Nat), s.background = false → exec (.queueSample now) s = .next (s.at now)) ∧
  (∀ s : State, (s.mod.tick % s.obj 0x3700 7 ≠ 0 ∨ s.net.winEnd = s.mod.tick → exec .sampleWindowEnd s = .next s) ∧
    (s.mod.tick % s.obj 0x3700 7 = 0 → s.net.winEnd ≠ s.mod.tick → ∃ t : State, exec .sampleWindowEnd s = .next t ∧ t.net.winEnd = s.mod.tick ∧ t.net.samples = [] ∧
      t.net.winLast = s.net.samples ∧ ∀ l q, q < 2048 → canonical default s.net.txq = true → (t.txq l q).stat.n = 0 ∧
        (t.txq l q).pkts = (s.txq l q).pkts))

/-! ### The remote memory transport (chapter 10) -/

/-- Connections. OPEN and LISTEN check fields, key and quota in that order and take the lowest unused number; CLOSE,
RESET, QUERY and MODIFY act where the state allows and answer XP_STATE elsewhere; CONNECT is repeated until the
sixteenth goes unanswered; an ACCEPT establishes, a REFUSE or RESET ends in ERROR, a packet of another incarnation or
for a connection that is not open is counted and changes nothing else, and a released number gets the next
incarnation. When LISTEN and OPEN complete is the model's reading (log 39). -/
def Obligations.Connections : Prop :=
  (∀ (s : State) (q : QCtx) (d : List Byte) (now : Nat), s.takes q 4 → let u := s.at now
    let c := connCmdOf d
    let op := fieldAt d 0 1
    let sl := q.slice.val
    let k := c.conn.toNat
    let x := s.conn k
    let rows := [(Instr.connOpen q d now, 1), (.connListen q d now, 2), (.connClose q d now, 3), (.connReset q d now, 4), (.connQuery q d, 5),
      (.connModify q d, 6)]
    let keyBad (b : Bool) := (connOf sl c b).enc = true ∧ (s.ownsSlot sl c.kslot.toNat = false ∨ (s.kslot c.kslot.toNat).st = .empty ∨
      (s.kslot c.kslot.toNat).st = .needsKey)
    let full := (s.slice sl).quota.conns ≤ s.connsUsed sl ∨ 131072 ≤ s.net.conns.length
    let reach := s.isReady (21 + s.freeConn % 2) = true ∧ (c.laddr = 0xFFFF → s.ownFabric s.selfEp ≠ none)
    let own := x.device = false ∧ x.cls ≠ 0 ∧ x.slice = sl
    (op ∉ rows.map Prod.snd → ∀ e ∈ rows, exec e.1 s = .next (s.finish q 1 (fieldAt d 4 4) 0)) ∧
    (op ∈ rows.map Prod.snd → ∀ e ∈ rows, e.2 ≠ op → exec e.1 s = .next s) ∧
    (∀ b, ∀ e ∈ [(true, 1, Instr.connOpen q d now), (false, 2, .connListen q d now)], e.1 = b → op = e.2.1 →
      (s.connFieldsOk sl c b = false → exec e.2.2 s = .next (u.finish q 1 0 0)) ∧
      (s.connFieldsOk sl c b = true → keyBad b → exec e.2.2 s = .next (u.finish q 0x0B 0 0)) ∧
      (s.connFieldsOk sl c b = true → ¬ keyBad b → full → exec e.2.2 s = .next (u.finish q 0x0A 0 0)) ∧
      (s.connFieldsOk sl c b = true → ¬ keyBad b → ¬ full → ¬ reach → exec e.2.2 s = .next (u.finish q 8 0 0)) ∧
      (s.connFieldsOk sl c b = true → ¬ keyBad b → ¬ full → reach →
        ∃ t v : State, exec e.2.2 s = .next t ∧ (b = false → t = v.finish q 0 s.freeConn (s.freshIncarn s.freeConn)) ∧ (b = true → t = v) ∧
        (let y := v.conn s.freeConn
         y.st = (if b then .connecting else .listen) ∧ y.slice = sl ∧ y.rdv = c.rdv.toNat ∧ y.incarn = s.freshIncarn s.freeConn ∧
         y.opener = (if b then some q else none) ∧ y.psn = 0 ∧ y.cum = 0 ∧ y.recs = []) ∧
        ∀ j, j ≠ s.freeConn → v.conn j = s.conn j)) ∧
    (∀ e ∈ rows, op = e.2 → 3 ≤ op → let v := if op ≤ 4 then u else s
      (c.reserved = true → exec e.1 s = .next (v.finish q 1 k 0)) ∧
      (c.reserved = false → (x.st = .closed ∨ ¬ own) → exec e.1 s = .next (v.finish q 0x0D k x.incarn))) ∧
    (c.reserved = false → x.st ≠ .closed → own →
      (op = 3 → (x.st = .connecting ∨ x.st = .closing → exec (.connClose q d now) s = .next (u.finish q 0x0D k x.incarn)) ∧
        (x.st = .listen ∨ x.st = .error → ∃ t : State, exec (.connClose q d now) s = .next (t.finish q 0 k x.incarn) ∧ t.conn k = default ∧
          t.freshIncarn k = (s.freshIncarn k + 1) % 256 ∧ ∀ j, j ≠ k → t.conn j = s.conn j) ∧
        (x.st = .established → x.quiet = false → ∃ t : State, exec (.connClose q d now) s = .next t ∧
          t.conn k = { x with st := .closing, opener := some q } ∧ ∀ j, j ≠ k → t.conn j = s.conn j) ∧
        (x.st = .established → x.quiet = true → x.closeRx = false → ∃ t : State, exec (.connClose q d now) s = .next t ∧
          t.conn k = { x with st := .closing, opener := some q, closeTx := true } ∧ ∀ j, j ≠ k → t.conn j = s.conn j)) ∧
      (op = 4 → (x.st = .listen ∨ x.st = .error → exec (.connReset q d now) s = .next (u.finish q 0x0D k x.incarn)) ∧
        (x.st = .connecting ∨ x.st = .established ∨ x.st = .closing → ∃ t : State,
          exec (.connReset q d now) s = .next (t.finish q 0 k x.incarn) ∧
          (t.conn k).st = .error ∧ (t.conn k).wrs = [] ∧ ∀ j, j ≠ k → t.conn j = s.conn j)) ∧
      (op = 5 → ∀ v, s.vwrite sl (s.qPasid q) c.addr.toNat (leBytes 64 (Config.free s.fresh)) = (v, .ok []) →
        exec (.connQuery q d) s = .next (v.tick1.finish q 0 k x.incarn)) ∧
      (op = 6 → (1 ≤ c.cls.toNat → c.cls.toNat ≤ 15 → bits c.flags.toNat 7 6 = 0 → exec (.connModify q d) s = .next
          ((s.setConn k (fun y => { y with cls := c.cls.toNat, allow := bits c.flags.toNat 5 3 })).finish q 0 k x.incarn)) ∧
        ((c.cls = 0 ∨ 15 < c.cls.toNat ∨ bits c.flags.toNat 7 6 ≠ 0) → exec (.connModify q d) s = .next (s.finish q 1 k x.incarn))))) ∧
  (∀ (s : State) (k : Fin 131072) (now : Nat), let c := s.conn k.val
    (c.st ≠ .connecting → exec (.connectRetry k now) s = .next s) ∧
    (c.st = .connecting → c.tries < 16 → ∃ t : State, exec (.connectRetry k now) s = .next t ∧ t.conn k.val = { c with tries := c.tries + 1 } ∧
      ∀ j, j ≠ k.val → t.conn j = s.conn j) ∧
    (c.st = .connecting → 16 ≤ c.tries → c.device = false → ∃ t : State, exec (.connectRetry k now) s = .next t ∧ (t.conn k.val).st = .error ∧
      (t.conn k.val).status = 9) ∧
    (c.st ≠ .closing → exec (.closingTimeout k) s = .next s) ∧
    (c.st = .closing → ∃ t : State, exec (.closingTimeout k) s = .next t ∧ t.conn k.val = default ∧ ∀ j, j ≠ k.val → t.conn j = s.conn j)) ∧
  (∀ (s : State) (p : XpPkt) (now : Nat), let u := s.at now
    let k := p.dconn.toNat
    let c := s.conn k
    (s.isFor p [.connecting] = false → exec (.xpAccept p) s = .next ((s.takeXp p).count 0x3500 0x12 1) ∧
      exec (.xpRefuse p now) s = .next ((s.takeXp p).count 0x3500 0x12 1)) ∧
    (s.isFor p [.established, .closing] = false → exec (.xpResetPacket p now) s = .next ((s.takeXp p).count 0x3500 0x12 1) ∧
      exec (.xpClose p now) s = .next ((s.takeXp p).count 0x3500 0x12 1) ∧
      ∀ e ∈ [(4, Instr.xpWrite p now), (5, .xpReadReq p now), (6, .xpReadRsp p now), (7, .xpAtomic p now), (8, .xpAtomicRsp p now),
        (9, .xpSend p now), (0xA, .xpEpjor p now), (0xC, .xpAck p now), (0xD, .xpErrRsp p now)], p.op.toNat = e.1 →
        exec e.2 s = .next ((u.takeXp p).count 0x3500 0x12 1).keyLimits) ∧
    (s.isFor p [.connecting] = true →
      (∀ q, c.opener = some q → ∃ t : State, exec (.xpAccept p) s = .next (t.finish q 0 k c.incarn) ∧ (let y := t.conn k
        y.st = .established ∧ y.pconn = payAt p.data 0 4 ∧ y.pincarn = payAt p.data 4 1) ∧ ∀ j, j ≠ k → t.conn j = s.conn j) ∧
      (c.device = false → ∃ t : State, exec (.xpRefuse p now) s = .next t ∧ (t.conn k).st = .error ∧ (t.conn k).status = 8)) ∧
    (s.isFor p [.established] = true → c.device = false →
      (∃ t : State, exec (.xpResetPacket p now) s = .next t ∧ (t.conn k).st = .error ∧ (t.conn k).status = 7 ∧
        (c.wrs = [] → c.opener = none → t.sent = s.sent ∧ t.obj 0x3500 0x1C = wrap48 (s.obj 0x3500 0x1C + 1))) ∧
      (exec (.xpClose p now) s = .next ((u.takeXp p).setConn k (fun y => { y with closeRx := true })))) ∧
    (s.isFor p [.closing] = true → c.quiet = true → c.closeTx = true → ∃ t : State, exec (.xpClose p now) s = .next t ∧ t.conn k = default) ∧
    (let cls := payAt p.data 5 1 % 16
     let rdv := payAt p.data 8 8
     let twin (e : Nat × Conn) := e.2.st == .established && !e.2.starter && e.2.pconn == payAt p.data 0 4 && e.2.pincarn == payAt p.data 4 1 &&
       e.2.peerKey == p.src.toNat
     let fits (e : Nat × Conn) := e.2.st == .listen && e.2.group.isNone && e.2.rdv == rdv && (e.2.anyPeer || e.2.peerKey == p.src.toNat)
     let joins (n : Nat) := ∃ t : State, exec (.xpConnect p now) s = .next t ∧ (t.conn n).st = .established ∧
       (t.conn n).pconn = payAt p.data 0 4 ∧ (t.conn n).pincarn = payAt p.data 4 1 ∧ ∀ j, j ≠ n → t.conn j = s.conn j
     (∀ e, s.net.conns.find? twin = some e → exec (.xpConnect p now) s = .next ((u.takeXp p).sendAccept e.1)) ∧
     (s.net.conns.find? twin = none →
      (cls ≠ 0 → (∀ n y, s.net.conns.find? (fun e => fits e && e.2.enc == (payAt p.data 6 1 == 1)) = some (n, y) → joins n) ∧
        (s.net.conns.find? (fun e => fits e && e.2.enc == (payAt p.data 6 1 == 1)) = none → exec (.xpConnect p now) s =
          .next ((u.takeXp p).refuseConnect p (if s.net.conns.any fits then 1 else 0)))) ∧
      (cls = 0 → rdv ≠ 0 → ∀ n y, s.net.conns.find? (fun e => e.2.st == .listen && e.2.group.isSome && e.2.rdv == rdv &&
        e.2.peerKey == p.src.toNat) = some (n, y) → joins n) ∧
      (cls = 0 → rdv = 0 → s.ownFabric s.selfEp = some p.dst.toNat → s.deviceConns < s.obj 0x3500 7 → s.freeConn < 131072 → joins s.freeConn))))

/-- Sequenced packets, acknowledgements and work requests. A duplicate is acknowledged and changes nothing; a packet far
ahead is counted; one held at a step boundary is counted once and not acknowledged; a WRITE, READ_REQ, ATOMIC or SEND
in order has its effect, or is refused with ERR_RSP and ERROR; `CUM` advances past it; an ACK releases what it covers;
a timeout asks for every packet not marked received, halves the rate, and past the retry limit ends in ERROR; work
requests queue in order and complete in order. Some details of responses are the model's reading (log 39). -/
def Obligations.TransportPackets : Prop :=
  (∀ (s : State) (p : XpPkt) (now : Nat), let u := s.at now
    let k := p.dconn.toNat
    let c := s.conn k
    let w := u.takeXp p
    let psn := p.psn.toNat
    let dist := (psn + 2 ^ 32 - c.cum) % 2 ^ 32
    let a := p.addr.toNat
    let ran (i : Instr) (t : State) := exec i s = .next t
    let placing := w.setConn k (fun x => { x with finals := [] })
    let moved (v t : State) := (t.conn k).cum = (psn + 1) % 2 ^ 32 ∧ (t.conn k).unacked = c.unacked + 1 ∧ (t.conn k).psn = c.psn ∧
      (∀ j, j ≠ k → t.conn j = v.conn j) ∧ t.sent = v.sent
    s.isFor p [.established] = true → c.enc = false → p.enc = false → p.ce = false →
    (∀ e ∈ s.net.conns, e.2.enc = true → (s.kslot e.2.kslot).st ≠ .exhausted) →
    (∀ e ∈ [(4, Instr.xpWrite p now), (5, .xpReadReq p now), (6, .xpReadRsp p now), (7, .xpAtomic p now), (8, .xpAtomicRsp p now),
      (9, .xpSend p now), (0xA, .xpEpjor p now), (0xD, .xpErrRsp p now)], p.op.toNat = e.1 →
      (2 ^ 31 ≤ dist → ran e.2 (w.sendAck k)) ∧
      (65536 ≤ dist → dist < 2 ^ 31 → ran e.2 (w.count 0x3500 0x15 1)) ∧
      (dist < 65536 → psn ∈ c.got → ran e.2 (w.sendAck k)) ∧
      (dist < 65536 → psn ∉ c.got → c.device = false → s.holding c.slice = true → [4, 7, 0xA].contains e.1 = true →
        (psn ∈ c.heldPsns → ran e.2 (w.sendAck k)) ∧
        (psn ∉ c.heldPsns → ran e.2 (((w.setConn k (fun x => { x with heldPsns := x.heldPsns ++ [psn] })).count 0x3200 0x0A 1).sendAck k)))) ∧
    (psn = c.cum → c.got = [] → c.finals = [] → p.final = false → p.ackreq = false → c.unacked + 1 < s.cls c 0xD → s.holding c.slice = false →
      (c.device = false → a < 2 ^ 63 →
        (p.op = 4 → bit c.allow 0 = true → ∀ v, w.vwrite c.slice c.pasid a p.data = (v, .ok []) → ∃ t : State, ran (.xpWrite p now) t ∧
          moved v t ∧ t.mem = v.mem) ∧
        (p.op = 5 → bit c.allow 1 = true → ∀ v bs, w.vread c.slice c.pasid a p.aux.toNat = (v, .ok bs) → p.aux ≠ 0 → s.paySize (k % 2) ≠ 0 → ∃ t : State,
          ran (.xpReadReq p now) t ∧ moved v t ∧ t.mem = v.mem ∧ c.outs.length < (t.conn k).outs.length) ∧
        (p.op = 7 → bit c.allow 2 = true → a % 8 = 0 → p.aux.toNat ≤ 1 → s.mapped c.slice c.pasid a 8 true = true →
          ∀ r bs v, w.vread c.slice c.pasid a 8 = (r, .ok bs) →
          r.vwrite c.slice c.pasid a (leBytes 8 (atomicNew (p.aux == 1) (leNat bs) (payAt p.data 0 8) (payAt p.data 8 8))) = (v, .ok []) →
          ∃ t : State, ran (.xpAtomic p now) t ∧ moved v t ∧ t.mem = v.mem ∧ (t.conn k).outs = c.outs ++ [(p.msn.toNat, .atomicRsp (leNat bs))]) ∧
        (p.op = 4 → bit c.allow 0 = false → c.wrs = [] → c.opener = none → ∃ t : State, ran (.xpWrite p now) t ∧ (t.conn k).st = .error ∧ (t.conn k).status = 4 ∧ t.mem = s.mem)) ∧
      (p.op = 9 → c.device = true → ∃ t : State, ran (.xpSend p now) t ∧ moved w t ∧ t.mem = s.mem) ∧
      (p.op = 9 → c.device = false → (s.queueOfKind c.slice c.rq 8 = none → ran (.xpSend p now) (placing.count 0x3500 0x1A 1)) ∧
        (∀ slot i b v, s.queueOfKind c.slice c.rq 8 = some slot → a / 2 ^ 32 = 0 → a % 2 ^ 32 = 0 → p.last = true → p.data ≠ [] →
          look default c.rxSends 0 = default →
          (sget s.net.recv (recvKey c.slice slot)).bufs.find? (fun e => e.1 == c.rqBase) = some (i, b) → p.data.length ≤ b.len →
          w.vwrite c.slice c.pasid (b.addr + 0) p.data = (v, .ok []) → ∃ t y : State, ran (.xpSend p now) t ∧ moved y t ∧ ∃ z : State,
          y = z.rxDone c slot b.tag 0 p.data.length p.aux.toNat ∧ z.mem = v.mem ∧
          (sget z.net.recv (recvKey c.slice slot)).bufs = drop1 (sget s.net.recv (recvKey c.slice slot)).bufs i)) ∧
      (p.op = 6 → ∀ x v, c.wrOf p.msn.toNat 2 = some x → w.vwrite c.slice c.pasid (x.cmd.laddr.toNat + a) (p.data.take (x.cmd.len.toNat - a)) = (v, .ok []) →
        ∃ t : State, ran (.xpReadRsp p now) t ∧ moved v t ∧ t.mem = v.mem) ∧
      (p.op = 8 → ∀ x v, c.wrOf p.msn.toNat 3 = some x → x.cmd.len = 8 → p.data.length = 8 →
        w.vwrite c.slice c.pasid (x.cmd.laddr.toNat + 0) p.data.reverse = (v, .ok []) →
        ∃ t : State, ran (.xpAtomicRsp p now) t ∧ moved v t ∧ t.mem = v.mem) ∧
      (p.op = 0xA → c.device = true → p.last = true → p.aux = 0 → 16 ≤ p.data.length → look default c.rxSends p.msn.toNat = default →
        look [] c.part p.msn.toNat = [] → c.inMsn = p.msn.toNat → c.ready = [] →
        ∃ t : State, ran (.xpEpjor p now) t ∧ (∃ dup, (t.port tunnelPort).arrived = (s.port tunnelPort).arrived ++
          [⟨⟨hatOf (leNat (p.data.take 16)), p.data.drop 16, true⟩, 16 + k % 2, some 0, dup, false⟩]) ∧ (t.conn k).inMsn = (c.inMsn + 1) % 2 ^ 32 ∧ (t.conn k).cum = (psn + 1) % 2 ^ 32) ∧
      (p.op = 0xD → c.device = false → ∃ t : State, ran (.xpErrRsp p now) t ∧ (t.conn k).st = .error ∧ (t.conn k).status = payAt p.data 4 1 ∧
        (t.conn k).wrs = [])) ∧
    (p.op = 0xC → payAt p.data 0 4 = (c.una + 1) % 2 ^ 32 → c.una < 2 ^ 32 → (c.psn + 2 ^ 32 - c.una) % 2 ^ 32 ≠ 0 → payAt p.data 4 4 = c.peerCe →
      payAt p.data 8 1 = 0 → payAt p.data 16 32 = 0 → c.hold = false → ∃ t : State, ran (.xpAck p now) t ∧
        (t.conn k).una = (c.una + 1) % 2 ^ 32 ∧ (t.conn k).timeouts = 0 ∧ (t.conn k).rate = c.rate ∧
        (∀ e ∈ (t.conn k).recs, e.1 ∈ c.recs.map Prod.fst ∧ (e.1 + 2 ^ 32 - c.una) % 2 ^ 32 ≠ 0) ∧ t.mem = s.mem)) ∧
  (∀ (s : State) (k : Fin 131072) (now : Nat), let u := s.at now
    let c := s.conn k.val
    (c.unacked = 0 → exec (.ackDelayExpire k now) s = .next s) ∧
    (c.unacked ≠ 0 → exec (.ackDelayExpire k now) s = .next (u.sendAck k.val).keyLimits) ∧
    (∃ t : State, exec (.reorderExpire k now) s = .next t ∧ t.conn k.val = c.reorder (s.cls c 0xA) u.net.now ∧
      ∀ j, j ≠ k.val → t.conn j = s.conn j) ∧
    (c.recs = [] → exec (.rtoExpire k now) s = .next u) ∧
    (c.recs ≠ [] → c.hold = true → exec (.rtoExpire k now) s = .next (u.setConn k.val (fun x => x.retry (fun n _ => n == x.una)))) ∧
    (c.recs ≠ [] → c.hold = false → c.timeouts < s.cls c 9 → ∃ t : State, exec (.rtoExpire k now) s = .next t ∧ (let y := t.conn k.val
      y.timeouts = c.timeouts + 1 ∧ y.rate = s.clampRate c (c.rate / 2) ∧ y.recs.length = c.recs.length ∧ (∀ e ∈ y.recs, e.2.acked = false → e.2.queued = true)) ∧
      t.obj 0x3500 0x17 = wrap48 (s.obj 0x3500 0x17 + 1)) ∧
    (c.recs ≠ [] → c.hold = false → s.cls c 9 ≤ c.timeouts → c.device = false → c.st = .established → ∃ t : State,
      exec (.rtoExpire k now) s = .next t ∧ (t.conn k.val).st = .error ∧ (t.conn k.val).status = 6) ∧
    (c.st ≠ .closed → ∃ t : State, exec (.aiIntervalExpire k) s = .next t ∧ (t.conn k.val).ceSeen = false ∧
      (t.conn k.val).rate = (if c.ceSeen then c.rate else s.clampRate c (c.rate + s.cls c 6)) ∧ ∀ j, j ≠ k.val → t.conn j = s.conn j) ∧
    ((c.device = false ∨ c.starter = false ∨ c.cls ≠ 0 ∨ c.st ≠ .established ∨ c.quiet = false ∨
      u.net.now < c.lastUse + s.obj 0x3500 8 * 1000000) → exec (.tunnelIdleExpire k now) s = .next s) ∧
    (c.device = true → c.starter = true → c.cls = 0 → c.st = .established → c.quiet = true → c.closeRx = false →
      c.lastUse + s.obj 0x3500 8 * 1000000 ≤ u.net.now → ∃ t : State, exec (.tunnelIdleExpire k now) s = .next t ∧
      t.conn k.val = { c with st := .closing, closeTx := true } ∧ ∀ j, j ≠ k.val → t.conn j = s.conn j) ∧
    (c.wrs = [] → exec (.wrComplete k now) s = .next u) ∧
    (∀ x xs, c.wrs = x :: xs →
      (c.wrDone x = false → exec (.wrComplete k now) s = .next u) ∧
      (c.wrDone x = true → c.st = .established → exec (.wrComplete k now) s =
        .next ((u.setConn k.val (fun y => { y with wrs := xs })).finish x.q x.status x.cmd.len.toNat 0))) ∧
    ((c.st ≠ .established ∧ c.st ≠ .closing ∨ u.net.now < c.pace) → exec (.xpPacketEnqueue k now) s = .next u.keyLimits) ∧
    (∀ m b d, c.st = .established → c.pace ≤ u.net.now → c.recs.find? (fun e => e.2.queued && !e.2.acked) = none →
      c.nextNew (s.paySize (k.val % 2)) = some (m, b, d) →
      (s.cls c 0xC ≤ (c.psn + 2 ^ 32 - c.una) % 2 ^ 32 → exec (.xpPacketEnqueue k now) s = .next u.keyLimits) ∧
      (c.admits (s.cls c 0xC) = 2 → exec (.xpPacketEnqueue k now) s = .next (u.count 0x3500 0x18 1).keyLimits) ∧
      (c.admits (s.cls c 0xC) = 0 → let after := { d with
          psn := (c.psn + 1) % 2 ^ 32, recs := c.recs ++ [(c.psn, ⟨m, b, 1, u.net.now, false, false⟩)] }
        exec (.xpPacketEnqueue k now) s = .next (u.transmit k.val c after c.psn m 1 b).keyLimits ∧
        ∀ path v op fl a x y z n, u.pathOf k.val c c.psn 1 = some path → (b.gated = false ∨ u.gateOpen k.val c path = true) →
          u.bodyOut c b = (v, .inr (op, fl, a, x, y)) → v.sendXp k.val c ⟨op, fl, c.psn, m, a, x, y⟩ 1 (some (k.val, c.psn)) = (z, .sent n) →
          u.transmit k.val c after c.psn m 1 b = z.setConn k.val (fun _ =>
            { after with waited := false, pace := max c.pace u.net.now + (if c.rate = 0 then 0 else n * 1000 / c.rate) })))) ∧
  (∀ (s : State) (q : QCtx) (d : List Byte), s.takes q 7 → let w := wrCmdOf d
    let op := fieldAt d 0 1
    let rows := [(1, false, Instr.wrWrite q d), (2, false, .wrRead q d), (3, false, .wrAtomicFadd q d), (3, true, .wrAtomicCas q d),
      (4, false, .wrSend q d)]
    ((op = 0 ∨ 4 < op) → ∀ e ∈ rows, exec e.2.2 s = .next (s.finish q 1 0 0)) ∧
    (1 ≤ op → op ≤ 4 → ∀ e ∈ rows, (e.1 ≠ op ∨ (op = 3 ∧ (fieldAt d 2 1 == 1) ≠ e.2.1)) → exec e.2.2 s = .next s) ∧
    ∀ e ∈ rows, op = e.1 → (op = 3 → (fieldAt d 2 1 == 1) = e.2.1) →
      (s.connOfQueue q = none → exec e.2.2 s = .next (s.finish q 0x0D 0 0)) ∧
      (∀ k, s.connOfQueue q = some k → let c := s.conn k
        let st := if s.wrCheck c op w = 0 ∧ s.isReady (21 + k % 2) = false then 0x0D else s.wrCheck c op w
        (st ≠ 0 → c.wrs = [] → exec e.2.2 s = .next (s.finish q st 0 0)) ∧
        (st = 0 ∨ c.wrs ≠ [] → ∃ t : State, exec e.2.2 s = .next t ∧ (t.conn k).wrs = c.wrs ++ [⟨q, op, e.2.1, w, c.msn, 0, 0, st != 0, st⟩] ∧
          (t.conn k).msn = (c.msn + 1) % 2 ^ 32 ∧ (∀ j, j ≠ k → t.conn j = s.conn j) ∧ t.mem = s.mem ∧ t.sent = s.sent))) ∧
  (∀ (s : State) (q : QCtx) (a : BitVec 64) (n : BitVec 32), s.takes q 8 → let rk := recvKey q.slice.val q.slot.val
    let r := sget s.net.recv rk
    ∃ t : State, exec (.recvPost q a n) s = .next t ∧ sget t.net.recv rk = { r with
      bufs := ins r.bufs r.posted ⟨a.toNat, n.toNat, q.tag⟩, posted := r.posted + 1 } ∧ (∀ j, j ≠ rk → sget t.net.recv j = sget s.net.recv j) ∧
      t.mem = s.mem ∧ t.sent = s.sent)

/-! ### Checkpoint and recovery (chapter 12) -/

/-- CKPT commands, each a 64-byte descriptor: an unknown OP or a reserved field fails with CK_FORMAT and a slice without a
job with CK_NOJOB, in that order; a command behind a RESTORE of its job waits and goes on at its end; JOB, REGION,
UNREGION, RESTORE, EXPORT, RESUME, LEAVE and QUERY do what Table 12-1 says where Table 12-8 lets them and answer
CK_STATE elsewhere; a RESTORE that fails leaves the job as it was, and one that succeeds arms it at its generation.
Corners of the state table are the model's reading (log 36). -/
def Obligations.CheckpointCommands : Prop :=
  (∀ (s : State) (q : QCtx) (d : List Byte) (host : Bool) (ans : List HolderCopy),
    s.takes q 5 → let sl := q.slice.val
    let j := s.job sl
    let op := fieldAt d 0 1
    let f (o : Nat) := fieldAt d o 8
    let n := fieldAt d 8 4
    let rows := [(Instr.ckJob q d, 1, CkWait.mk q d false []), (.ckRegion q d, 2, ⟨q, d, false, []⟩), (.ckUnregion q d, 3, ⟨q, d, false, []⟩),
      (.ckRestore q d, 4, ⟨q, d, false, []⟩), (.ckExport q d host ans, 5, ⟨q, d, host, ans⟩), (.ckResume q d, 6, ⟨q, d, false, []⟩),
      (.ckLeave q d, 7, ⟨q, d, false, []⟩), (.ckQuery q d host, 8, ⟨q, d, host, []⟩)]
    let rest (t : State) := ∀ k, k ≠ sl → t.job k = s.job k
    (op = 0 ∨ 8 < op → ∀ e ∈ rows, exec e.1 s = .next (s.finish q 1 0 0)) ∧
    (1 ≤ op → op ≤ 8 → ∀ e ∈ rows, e.2.1 ≠ op → exec e.1 s = .next s) ∧
    (∀ e ∈ rows, op = e.2.1 →
      (j.restore.isSome → exec e.1 s = .next (s.setJob sl (fun y => { y with waiting := y.waiting ++ [e.2.2] }))) ∧
      (j.restore = none → ckZeros d = false → exec e.1 s = .next (s.finish q 1 0 0)) ∧
      (j.restore = none → ckZeros d = true → 2 ≤ op → j.st = .none → exec e.1 s = .next (s.finish q 2 0 0))) ∧
    (op = 1 → ckZeros d = true → j.restore = none → let id := f 8
      let bytes := f 40
      let anchor := fieldAt d 48 4
      (s.stepGroup sl = none → exec (.ckJob q d) s = .next (s.finish q 3 0 0)) ∧
      (∀ k, s.stepGroup sl = some k → let m := (s.group k).nodes.length
        let fits := bytes % 0x200000 = 0 ∧ bytes ≠ 0 ∧ bytes ≤ 384 * 2 ^ 30 ∧ anchor < m ∧ id ≠ 0
        let bound (y : Job) := y.id = id ∧ y.anchor = anchor ∧ y.index = (s.group k).index ∧ y.ranks = (s.group k).ranks ∧
          y.nodes = (s.group k).nodes.map Prod.fst ∧ y.heard = []
        (j.st ≠ .none → ¬ (j.st = .recovering ∧ j.id = id) → exec (.ckJob q d) s = .next (s.finish q 3 0 j.genC)) ∧
        (j.st = .none ∨ (j.st = .recovering ∧ j.id = id) → ¬ fits → exec (.ckJob q d) s = .next (s.finish q 1 0 0)) ∧
        (j.st = .none → fits → s.jobRoom sl bytes 0 = false → exec (.ckJob q d) s = .next (s.finish q 4 0 0)) ∧
        (j.st = .none → fits → s.jobRoom sl bytes 0 = true → ∃ t : State,
          exec (.ckJob q d) s = .next (t.finish q 0 0 (s.onFlash id).1) ∧ bound (t.job sl) ∧ (let y := t.job sl
            y.st = .armed ∧ y.bytes = bytes ∧ y.regions = [] ∧ y.genC = (s.onFlash id).1 ∧ y.genS = (s.onFlash id).1 ∧
            y.slotB = !(s.onFlash id).2) ∧ rest t ∧ (t.slice sl).memUsed = (s.slice sl).memUsed + bytes) ∧
        (j.st = .recovering → j.id = id → fits → s.jobRoom sl bytes j.bytes = true → ∃ t : State,
          exec (.ckJob q d) s = .next (t.finish q 0 0 j.genC) ∧ bound (t.job sl) ∧ (let y := t.job sl
            y.st = .recovering ∧ y.bytes = j.bytes ∧ y.resize = some bytes ∧ y.regions = j.regions ∧ y.genC = j.genC ∧
            (j.old = [] → y.old = j.nodes)) ∧ rest t))) ∧
    (2 ≤ op → ckZeros d = true → j.restore = none → j.st ≠ .none →
      (op = 2 →
        (∀ t r, s.vread sl (s.qPasid q) (f 24) 192 = (t, .ok r) → t.regionOk sl r = false →
          exec (.ckRegion q d) s = .next (t.finish q 1 0 j.genC)) ∧
        (∀ t r, s.vread sl (s.qPasid q) (f 24) 192 = (t, .ok r) → t.regionOk sl r = true → let x := regionOf r
          copyBytes (t.shardSizes sl (j.regions ++ [x])) ≤ j.bytes → j.regions.length + 1 + (t.setsOf sl).length ≤ 65536 →
          ((j.regions ++ [x]).map CkRegion.id ++ (t.setsOf sl).map (fun e => e.2.id)).eraseDups.length ≤ 16384 →
          (t.mapped sl x.pasid x.va x.size true = false → exec (.ckRegion q d) s = .next (t.finish q 5 0 j.genC)) ∧
          (t.mapped sl x.pasid x.va x.size true = true → ∃ u : State, exec (.ckRegion q d) s = .next (u.finish q 0 0 j.genC) ∧
            (u.job sl).regions = j.regions ++ [x] ∧ rest u ∧ u.mem = t.mem))) ∧
      (op = 3 → ((∀ x ∈ j.regions, x.id ≠ n) → exec (.ckUnregion q d) s = .next (s.finish q 1 0 j.genC)) ∧
        ((∃ x ∈ j.regions, x.id = n) → exec (.ckUnregion q d) s =
          .next ((s.setJob sl (fun y => { y with regions := y.regions.filter (fun x => x.id != n) })).finish q 0 0 j.genC))) ∧
      (op = 4 → let gen := f 16
        let size := f 32
        let taken := j.st ≠ .armed ∧ j.st ≠ .recovering ∨ ∃ e ∈ s.setsOf sl, e.2.gen ≠ gen
        let going (y : Job) (tab : List Byte) := y.st = .recovering ∧
          y.restore = some ⟨q, gen, (List.range size).map (fun i => fieldAt tab (8 * i) 4 % 2 ^ 21)⟩
        (size = 0 ∨ 262144 < size → exec (.ckRestore q d) s = .next (s.finish q 1 0 gen)) ∧
        (1 ≤ size → size ≤ 262144 → taken → exec (.ckRestore q d) s = .next (s.finish q 3 0 gen)) ∧
        (∀ t tab, 1 ≤ size → size ≤ 262144 → ¬ taken → s.vread sl (s.qPasid q) (f 24) (size * 8) = (t, .ok tab) →
          (fieldAt d 1 1 = 0 → ∃ u : State, exec (.ckRestore q d) s = .next u ∧ going (u.job sl) tab ∧
            (u.job sl).imports = (t.job sl).imports ∧ rest u ∧ u.mem = t.mem ∧ u.sent = t.sent) ∧
          (∀ v b, fieldAt d 1 1 = 1 → t.readImage q (f 56) = (v, .ok b) → ∃ u : State, exec (.ckRestore q d) s = .next u ∧
            going (u.job sl) tab ∧ look [] (u.job sl).imports (fieldAt b 20 4) = b ∧ rest u ∧ u.mem = v.mem))) ∧
      (op = 5 → let gen := f 16
        (gen = 0 ∨ (gen ≠ j.genC ∧ gen ≠ j.genS) → exec (.ckExport q d host ans) s = .next (s.finish q 3 0 gen)) ∧
        (gen ≠ 0 → gen = j.genC →
          (s.holderCopies j j.nodes gen j.index ans = [] → exec (.ckExport q d host ans) s = .next (s.finish q 0x0A 0 gen)) ∧
          (∀ b bs, s.holderCopies j j.nodes gen j.index ans = b :: bs →
            (f 32 < b.length → exec (.ckExport q d host ans) s = .next (s.finish q 1 0 gen)) ∧
            (b.length ≤ f 32 → exec (.ckExport q d host ans) s = .next (s.ckWrite q (f 24) gen host b))))) ∧
      (op = 6 → (j.st = .stopped → exec (.ckResume q d) s = .next ((s.setJob sl (fun y => { y with st := .armed })).finish q 0 0 j.genC)) ∧
        (j.st ≠ .stopped → exec (.ckResume q d) s = .next (s.finish q 3 0 j.genC))) ∧
      (op = 7 → (j.st = .census ∨ j.st = .fenced → exec (.ckLeave q d) s = .next (s.finish q 3 0 j.genC)) ∧
        (j.st = .armed ∨ j.st = .stopped ∨ j.st = .recovering → ∃ t : State, exec (.ckLeave q d) s = .next (t.finish q 0 0 j.genC) ∧
          t.job sl = default ∧ rest t ∧ t.ckpt.copies = s.ckpt.copies ∧
          (j.phase.open = false → j.attached = none → j.notice = none → j.noticeC = none → j.waiting = [] →
            (t.slice sl).memUsed = (s.slice sl).memUsed + 0 - max j.bytes (j.resize.getD 0)))) ∧
      (op = 8 → (host = true → exec (.ckQuery q d host) s =
          .next ((s.emit (.hostWrite (some (s.qPasid q)) (f 24) j.bytesOf)).finish q 0 0 j.genC)) ∧
        (∀ t, host = false → s.vwrite sl (s.qPasid q) (f 24) j.bytesOf = (t, .ok []) →
          exec (.ckQuery q d host) s = .next (t.finish q 0 0 j.genC))))) ∧
  (∀ (s : State) (sl : Fin 512) (ans : List HolderCopy), let j := s.job sl.val
    (j.restore = none → exec (.ckRestoreComplete sl ans) s = .next s) ∧
    (∀ x, j.restore = some x →
      let olds := (List.range x.nodes.length).map (fun k => s.oldCopy j.id x.gen k (s.oldImages j x ans k))
      let all := oldShards olds
      let st := restoreStatus olds ((j.regions.map CkRegion.target ++ (s.setsOf sl.val).map (fun e => e.2.target)).flatMap (fun y => y.cells all))
      (s.boxesMapped sl.val = false → exec (.ckRestoreComplete sl ans) s = .next (State.ckGoOn sl.val j.waiting
        ((s.setJob sl.val (fun y => { y with restore := none, waiting := [] })).finish x.q 5 0 x.gen))) ∧
      (s.boxesMapped sl.val = true → (∀ k < x.nodes.length, manVersion ((s.oldImages j x ans k).headD []) ≠ 1) → ∃ t : State,
        exec (.ckRestoreComplete sl ans) s = .next (State.ckGoOn sl.val j.waiting (t.finish x.q st 0 x.gen)) ∧
        (t.job sl.val).restore = none ∧ (t.job sl.val).waiting = [] ∧ (st ≠ 0 → (t.job sl.val).st = j.st) ∧
        (st = 0 → (t.job sl.val).st = (if j.stopAfter then .stopped else .armed) ∧ (t.job sl.val).genC = x.gen ∧ (t.job sl.val).genS = x.gen))))

/-- Cohorts. A message of another kind or for no job changes nothing, one of a higher incident opens that incident, and
one of the job's own incident has its effect: notices and their acknowledgement, marks, COPIED, COMMIT, SECURED, FAIL
and census views; any message of the job says that its sender has registered. The copy is sent in pieces, verified by
its holder and drained in two copies; a silent neighbour is a job fault; a side continues with a majority, or with
half the nodes and the tie anchor, and fences otherwise. Corners of the protocol are the model's reading (log 36). -/
def Obligations.CohortMessages : Prop :=
  (∀ (s : State) (b : List Byte), let m := cohortOf b
    let rows := [(Instr.cohortHeartbeat b, 1), (.cohortNotice b, 2), (.cohortNoticeAck b, 3), (.cohortMark b, 4), (.cohortMarkAck b, 5),
      (.cohortCopied b, 6), (.cohortCommit b, 7), (.cohortSecured b, 8), (.cohortSecuredAll b, 9), (.cohortCensus b, 10), (.cohortFail b, 11)]
    (∀ e ∈ rows, m.kind ≠ e.2 → exec e.1 s = .next s) ∧
    (s.jobSlice m.job = none → ∀ e ∈ rows, exec e.1 s = .next s) ∧
    (∀ sl, s.jobSlice m.job = some sl → canonical default s.ckpt.jobs = true → let j := s.job sl
      let rest (t : State) := ∀ k, k ≠ sl → t.job k = s.job k
      let up := parentOf j.index = some m.sender
      let runs := j.st = .armed ∨ j.st = .stopped
      let mine := j.genP = m.gen ∧ j.phase.open = true
      let others (l : Store Nat) := ∀ c ∈ j.kids, c ≠ m.sender → look 0 l c ≠ 0
      let u := s.setJob sl (fun y => { y with
        heard := insSet y.heard m.sender, beats := if m.kind = 1 then put 0 y.beats m.sender (s.mod.tick + 1) else y.beats })
      (j.incident < m.incident → j.st ≠ .fenced → ∀ e ∈ rows, m.kind = e.2 → ∃ t : State, exec e.1 s = .next t ∧
        (t.job sl).st = .census ∧ (t.job sl).incident = m.incident ∧ (t.job sl).phase.open = false) ∧
      (m.incident < j.incident ∨ (j.incident < m.incident ∧ j.st = .fenced) → ∀ e ∈ rows, m.kind = e.2 → exec e.1 s = .next u) ∧
      (j.incident = m.incident →
        (m.kind = 1 → exec (.cohortHeartbeat b) s = .next u) ∧
        (m.kind = 2 → j.index = 0 → exec (.cohortNotice b) s = .next ((u.holdNotice sl (noticeOf m.body)).cohort sl m.sender 3 0 0 0 [])) ∧
        (∀ p, m.kind = 2 → j.index ≠ 0 → parentOf j.index = some p → ∃ t : State, exec (.cohortNotice b) s = .next t ∧
          (t.job sl).asked = insSet j.asked m.sender ∧ t.sent = .cohort p (j.msg 2 0 0 0 m.body) :: s.sent ∧ rest t) ∧
        (m.kind = 3 → ∃ t : State, exec (.cohortNoticeAck b) s = .next t ∧ (t.job sl).asked = [] ∧
          (∀ n, (t.job sl).notice = some n ∨ (t.job sl).attached = some n ∨ (t.job sl).noticeC = some n → n.acked = true) ∧
          (∀ c ∈ j.asked, Out.cohort c (j.msg 3 0 0 0 []) ∈ t.sent) ∧ rest t) ∧
        (m.kind = 4 → runs → up → j.mark = 0 → j.phase.open = false → ∃ t : State, exec (.cohortMark b) s = .next t ∧ (let y := t.job sl
          y.phase = .marked ∧ y.genP = m.gen ∧ y.mark = m.gen + 1 ∧ y.acks = [] ∧ y.genC = j.genC ∧ y.notice = none) ∧
          (∀ c ∈ j.kids, Out.cohort c (j.msg 4 0 0 m.gen m.body) ∈ t.sent) ∧ rest t) ∧
        (m.kind = 4 → (¬ runs ∨ ¬ up ∨ j.mark ≠ 0 ∨ j.phase.open = true) → exec (.cohortMark b) s = .next u) ∧
        (m.kind = 5 → j.mark = m.gen + 1 → m.sender ∈ j.kids → ∃ t : State, exec (.cohortMarkAck b) s = .next t ∧
          (t.job sl).acks = insSet j.acks m.sender ∧ rest t) ∧
        (m.kind = 6 → mine → j.phase = .copying → m.count = 0 → m.sender = j.succ →
          exec (.cohortCopied b) s = .next (u.setJob sl (fun y => { y with phase := .copied }))) ∧
        (m.kind = 6 → mine → m.count ≠ 0 → m.sender ∈ j.kids →
          (j.verified = false → exec (.cohortCopied b) s = .next (u.setJob sl (fun y => { y with ups := put 0 y.ups m.sender m.count }))) ∧
          (j.verified = true → j.index = 0 → others j.ups → ∃ t : State, exec (.cohortCopied b) s = .next t ∧
            (t.job sl).genC = j.genP ∧ (t.job sl).phase.open = false ∧ rest t)) ∧
        (¬ mine → ∀ e ∈ [(Instr.cohortCopied b, 6), (.cohortCommit b, 7), (.cohortFail b, 11)], m.kind = e.2 → exec e.1 s = .next u) ∧
        (m.kind = 7 → mine → runs → up → j.index ≠ 0 → ∃ t : State, exec (.cohortCommit b) s = .next t ∧
          (t.job sl).genC = j.genP ∧ (t.job sl).tie = j.anchor ∧ (t.job sl).phase.open = false ∧ (t.job sl).genS = j.genS ∧ rest t) ∧
        (m.kind = 11 → mine → ∃ t : State, exec (.cohortFail b) s = .next t ∧ (t.job sl).phase = .abandoned ∧ (t.job sl).genC = j.genC ∧
          (t.job sl).attached = none ∧ (t.job sl).st = (if m.count = 6 ∧ j.st = .armed ∧ (j.attached.map Notice.pre).getD false then .stopped
            else j.st)) ∧
        (m.kind = 8 → j.genC = m.gen → j.genS < j.genC → m.sender ∈ j.kids → m.count ≠ 0 →
          (look 0 j.secs j.index = 0 → m.sender ≠ j.index → exec (.cohortSecured b) s = .next (u.setJob sl (fun y => { y with
            secs := put 0 y.secs m.sender m.count, flags := if bit m.flags 0 then 1 else y.flags }))) ∧
          (look 0 j.secs j.index ≠ 0 → j.index = 0 → others j.secs → ∃ t : State, exec (.cohortSecured b) s = .next t ∧
            (t.job sl).genS = j.genC ∧ (t.job sl).slotB = !j.slotB ∧ (t.job sl).noticeC = none ∧ rest t)) ∧
        (m.kind = 9 → j.genC = m.gen → j.genS < j.genC → up → ∃ t : State, exec (.cohortSecuredAll b) s = .next t ∧
          (t.job sl).genS = j.genC ∧ (t.job sl).noticeC = none ∧ (t.job sl).slotB = !j.slotB ∧ (t.job sl).imageC = [] ∧ rest t) ∧
        (let n := j.nodes.length
         let v := j.view.join n (viewOf n m.body)
         let w : View := { v with gens := v.gens.map (fun g => (g.1, sortNodes n (g.2 ++ s.holds sl g.1))) }
         (m.kind = 10 → (j.st ≠ .census ∨ w = j.view.join n j.view) → exec (.cohortCensus b) s = .next u) ∧
         (m.kind = 10 → j.st = .census → w ≠ j.view.join n j.view → exec (.cohortCensus b) s =
           .next ((u.setJob sl (fun y => { y with view := w })).sendView sl)))))) ∧
  (∀ (s : State) (sl : Fin 512) (node : Nat), let j := s.job sl.val
    let n := j.nodes.length
    let runs := j.st = .armed ∨ j.st = .stopped
    let reports := ∀ c ∈ j.kids, look 0 j.ups c ≠ 0
    (j.st = .none → exec (.heartbeatSend sl) s = .next s) ∧
    (j.st ≠ .none → ∃ t : State, exec (.heartbeatSend sl) s = .next t ∧
      ∀ k ∈ linksOf n j.index, Out.cohort k (j.msg 1 0 0 0 []) ∈ t.sent) ∧
    ((node ∉ linksOf n j.index ∨ s.linkLive sl.val node = true ∨ j.st = .none ∨ j.st = .census ∨ j.st = .fenced) →
      exec (.neighbourSilent sl node) s = .next s) ∧
    ((runs ∨ (j.st = .recovering ∧ node ∉ j.missing)) → node ∈ linksOf n j.index → s.linkLive sl.val node = false → ∃ t : State,
      exec (.neighbourSilent sl node) s = .next t ∧ (t.job sl.val).st = .census ∧ (t.job sl.val).incident = j.incident + 1) ∧
    (j.st ≠ .census → exec (.censusQuietExpire sl) s = .next s) ∧
    (j.st = .census → s.obj 0x5100 3 ≤ s.mod.tick - j.viewTick → ∃ t : State, exec (.censusQuietExpire sl) s = .next t ∧
      ((n < 2 * j.view.side.length ∨ (2 * j.view.side.length = n ∧ j.tie ∈ j.view.side)) → (t.job sl.val).st = .recovering) ∧
      (¬ (n < 2 * j.view.side.length ∨ (2 * j.view.side.length = n ∧ j.tie ∈ j.view.side)) → (t.job sl.val).st = .fenced ∧
        (t.job sl.val).decision = 2 ∧ (s.stepGroup sl.val = none → t.obj 0x5100 9 = wrap48 (s.obj 0x5100 9 + 1)))) ∧
    ((j.phase ≠ .cut ∨ j.genS < j.genC ∨ ¬ runs) → exec (.buddyCopyStart sl) s = .next s) ∧
    (j.phase = .cut → j.genC ≤ j.genS → runs →
      (n ≤ 1 → exec (.buddyCopyStart sl) s = .next (s.setJob sl.val (fun y => { y with phase := .copying, unread := [] }))) ∧
      (1 < n → j.succ ∉ j.heard → exec (.buddyCopyStart sl) s = .next s) ∧
      (∀ peer k0 k1, 1 < n → j.succ ∈ j.heard → s.fabric (j.nodes.getD j.succ 0) = some peer →
        s.deviceConn peer (s.obj 0x5000 3) 0 = some k0 → s.deviceConn peer (s.obj 0x5000 3) 1 = some k1 → 0 < s.paySize 0 →
        ∃ (t : State) (ps qs : List (Nat × List Byte × Bool)), exec (.buddyCopyStart sl) s = .next t ∧
          t.conn k0 = (s.conn k0).copyOut ps ∧ t.conn k1 = (s.conn k1).copyOut qs ∧
          (∀ x ∈ ps ++ qs, x.2.1 = bytesAt j.image x.1 x.2.1.length) ∧ ((ps ++ qs).map (fun x => x.2.1.length)).sum = j.image.length ∧
          (t.job sl.val).phase = .copying ∧ (t.job sl.val).unread = [] ∧ ∀ k, k ≠ sl.val → t.job k = s.job k)) ∧
    ((j.taking = false ∨ j.phase.open = false) → exec (.buddyCopyReceived sl) s = .next s) ∧
    (j.taking = true → j.phase.open = true →
      let good := s.manOk j.buddy j.id j.genP j.pred = true ∧ manVersion j.buddy = 2 ∧ (manShards j.buddy).all (shardOk j.buddy) = true
      (¬ good → ∃ t : State, exec (.buddyCopyReceived sl) s = .next t ∧ (t.job sl.val).phase = .abandoned ∧ (t.job sl.val).taking = false) ∧
      (good → j.index ≠ 0 → ∃ t : State, exec (.buddyCopyReceived sl) s = .next t ∧ (t.job sl.val).verified = true ∧
        (t.job sl.val).taking = false ∧ (t.job sl.val).buddyGen = j.genP ∧ .cohort j.pred (j.msg 6 0 0 j.genP []) ∈ t.sent) ∧
      (good → j.index = 0 → reports → ∃ t : State, exec (.buddyCopyReceived sl) s = .next t ∧ (t.job sl.val).genC = j.genP ∧
        (t.job sl.val).buddyGen = j.genP)) ∧
    (let place (pred : Bool) := j.lba + (2 * b2n pred + b2n j.slotB) * (j.bytes / 4096)
     let copy (gen : Nat) (pred : Bool) (x : List Byte) : FlashCopy :=
       ⟨j.id, gen, pred, j.slotB, place pred, x.length, s.ckptCipher false (place pred) x⟩
     (s.flash.tier ≠ .rw → exec (.flashDrainFlushed sl) s = .next s) ∧
     (s.flash.tier = .rw → ¬ (j.phase = .copying ∧ n = 1) → (j.genC ≤ j.genS ∨ look 0 j.secs j.index ≠ 0) →
       exec (.flashDrainFlushed sl) s = .next s) ∧
     (s.flash.tier = .rw → ¬ (j.phase = .copying ∧ n = 1) → j.genS < j.genC → look 0 j.secs j.index = 0 → ∃ t : State,
       exec (.flashDrainFlushed sl) s = .next t ∧ copy j.genC false j.imageC ∈ t.ckpt.copies ∧ copy j.genC true j.buddy ∈ t.ckpt.copies ∧
       (t.job sl.val).genC = j.genC ∧ (t.job sl.val).imageC = []) ∧
     (s.flash.tier = .rw → j.phase = .copying → n = 1 → j.index = 0 → ∃ t : State, exec (.flashDrainFlushed sl) s = .next t ∧
       copy j.genP false j.image ∈ t.ckpt.copies ∧ (t.job sl.val).genC = j.genP ∧ (t.job sl.val).genS = j.genP))) ∧
  (∀ (s : State) (d b : List Byte), s.admits 0x03 d → s.mod.svc = .normal → let tag := (admCmdOf d).tag
    exec (.adminNotice d none) s = .next (s.admDone 0 9 0 tag) ∧
    (s.noticeCheck b ≠ 0 → exec (.adminNotice d (some b)) s = .next (s.admDone 0 (s.noticeCheck b) 0 tag)) ∧
    (s.noticeCheck b = 0 → exec (.adminNotice d (some b)) s = .next (s.noticeTake b 2 [tag]))) ∧
  (∀ (s : State) (k : Fin 4096), let g := s.group k.val
    let j := s.job g.slice
    let runs := j.st = .armed ∨ j.st = .stopped
    ((g.st ≠ .active ∨ g.index ≠ 0 ∨ g.complete = false ∨ g.release.isSome) → exec (.barrierEpochComplete k) s = .next s) ∧
    (g.st = .active → g.index = 0 → g.complete = true → g.release = none →
      (g.step = false → exec (.barrierEpochComplete k) s = .next (s.releaseEpoch k.val g.epoch 0)) ∧
      (g.step = true → (j.st = .census ∨ j.st = .fenced) → exec (.barrierEpochComplete k) s = .next s) ∧
      (g.step = true → runs → j.mark = 0 → j.eligible = true → ∃ t : State, exec (.barrierEpochComplete k) s = .next t ∧
        (t.job g.slice).phase = .marked ∧ (t.job g.slice).genP = g.epoch ∧
        (t.group k.val).release = (if j.kids = [] then some g.epoch else none)) ∧
      (g.step = true → j.st ≠ .census → j.st ≠ .fenced → ¬ (runs ∧ j.mark = 0 ∧ j.eligible = true) →
        ((j.mark = 0 ∨ ∀ c ∈ j.kids, c ∈ j.acks) → ∃ t : State, exec (.barrierEpochComplete k) s = .next t ∧
          (t.group k.val).release = some g.epoch ∧ (t.group k.val).epoch = g.epoch) ∧
        (j.mark ≠ 0 → (∃ c ∈ j.kids, c ∉ j.acks) → exec (.barrierEpochComplete k) s = .next s))))

/-! ### The flash tier (chapter 13) -/

/-- Storage commands, each a 64-byte descriptor: an unknown OP fails with SQ_FORMAT, and a command beyond the 65,536 in
progress waits. Each is checked in one order (FORMAT, DOWN, NOVOL, RANGE, WORN, XLATE) before any block is touched; an
accepted WRITE replaces its blocks and no other, a TRIM makes its blocks read as zeros and changes no other, a READ
delivers the most recent content or SQ_MEDIA_ERR, a FLUSH completes once nothing of its volume waits for media or the
journal, and QUERY writes the record of R396. Logs 30 and 31 name the model's readings. -/
def Obligations.StorageCommands : Prop :=
  (∀ (s : State) (q : QCtx) (d : List Byte) (h : Option (List Byte)) (b : Bool), s.takes q 6 →
    s.flash.queued = [] → (∀ e ∈ s.flash.cmds, e.op ≠ .trim) →
    let c := storDescOf d
    let op := fieldAt d 0 1
    let v := s.vol c.vol.toNat
    let up := s.isReady 24 = true ∧ (s.flash.tier = .rw ∨ s.flash.tier = .readOnly)
    let mine := v.valid = true ∧ v.owner = q.slice.val
    let inside := c.lba.toNat + c.count.toNat ≤ v.size / 4096
    let no (st : Nat) := s.finish q st 0 0xFFFFFFFF
    let n := c.count.toNat
    let key (i : Nat) := blockKey c.vol.toNat (c.lba.toNat + i)
    let zeros : List Byte := List.replicate 4096 0
    let alone := ∀ e ∈ s.flash.cmds, e.op ≠ .write ∨ e.vol ≠ c.vol.toNat
    let rows := [(Instr.storWrite q d h, 1, c.ok 1 1024 true, true, StorWait.mk q d h false), (.storRead q d b, 2, c.ok 1 1024 true, false, ⟨q, d, none, b⟩),
      (.storFlush q d, 3, c.ok 0 0 false, false, ⟨q, d, none, false⟩), (.storTrim q d, 4, c.ok 1 (2 ^ 24) false, true, ⟨q, d, none, false⟩),
      (.storQuery q d b, 5, c.ok 0 0 false, false, ⟨q, d, none, b⟩)]
    (op = 0 ∨ 5 < op → ∀ x ∈ rows, exec x.1 s = .next (no 1)) ∧
    (1 ≤ op → op ≤ 5 → ∀ x ∈ rows, x.2.1 ≠ op → exec x.1 s = .next s) ∧
    (∀ x ∈ rows, op = x.2.1 →
      (65536 ≤ s.flash.cmds.length → exec x.1 s = .next (s.setFlash (fun f => { f with queued := [x.2.2.2.2] }))) ∧
      (s.flash.cmds.length < 65536 →
        (x.2.2.1 = false → exec x.1 s = .next (no 1)) ∧
        (x.2.2.1 = true → ¬ up → exec x.1 s = .next (no 8)) ∧
        (x.2.2.1 = true → up → ¬ mine → exec x.1 s = .next (no 2)) ∧
        (x.2.2.1 = true → up → mine → ¬ inside → exec x.1 s = .next (no 3)) ∧
        (x.2.2.1 = true → up → mine → inside → x.2.2.2.1 = true → (s.flash.tier = .readOnly ∨ v.ro = true) → exec x.1 s = .next (no 7)))) ∧
    (s.flash.cmds.length < 65536 → up → mine → inside →
      (op = 1 → c.ok 1 1024 true = true → s.flash.tier = .rw → v.ro = false →
        (s.bufOk q c.bufSpace c.buf.toNat (n * 4096) false h.isSome = false → exec (.storWrite q d h) s = .next (no 4)) ∧
        (∀ u bs, c.bufSpace = .slice → s.bufOk q .slice c.buf.toNat (n * 4096) false h.isSome = true →
          s.readBlocks q.slice.val (s.qPasid q) c.buf.toNat n = (u, bs, true) → (∀ x ∈ bs, x ≠ []) → s.flash.buf.length + n ≤ 2097152 →
          alone → ∃ t : State, exec (.storWrite q d h) s = .next (t.finish q 0 n 0xFFFFFFFF) ∧ t.flash.cmds = s.flash.cmds ∧
          ∀ k, t.blockData k = if key 0 ≤ k ∧ k < key 0 + n then bs[k - key 0]? else s.blockData k) ∧
        (∀ x, c.bufSpace = .host → h = some x → s.flash.buf.length + n ≤ 2097152 → alone → ∃ t : State,
          exec (.storWrite q d h) s = .next (t.finish q 0 n 0xFFFFFFFF) ∧ t.flash.cmds = s.flash.cmds ∧ t.mem = s.mem ∧
          ∀ k, t.blockData k = if key 0 ≤ k ∧ k < key 0 + n then some (bytesAt x ((k - key 0) * 4096) 4096) else s.blockData k)) ∧
      (op = 2 → c.ok 1 1024 true = true →
        (s.bufOk q c.bufSpace c.buf.toNat (n * 4096) true b = false → exec (.storRead q d b) s = .next (no 4)) ∧
        (s.bufOk q c.bufSpace c.buf.toNat (n * 4096) true b = true → (∀ e, s.eraseOn e = none) →
          exec (.storRead q d b) s = .next (s.setFlash (fun f => { f with cmds := f.cmds ++ [s.newCmd q .read c] })))) ∧
      (op = 4 → c.ok 1 (2 ^ 24) false = true → s.flash.tier = .rw → v.ro = false → alone → canonical default s.flash.map = true → ∃ t : State,
        exec (.storTrim q d) s = .next (t.finish q 0 0 0xFFFFFFFF) ∧ ∀ k, t.blockData k =
          if key 0 ≤ k ∧ k < key 0 + n then some zeros else s.blockData k) ∧
      (op = 3 → c.ok 0 0 false = true → (∀ e ∈ s.flash.cmds, e.op ≠ .flush) →
        (s.flash.flushed c.vol.toNat s.flash.seq = true → s.flash.waiting = [] → ∃ t : State,
          exec (.storFlush q d) s = .next ((t.finish q 0 0 0xFFFFFFFF).count 0x6000 0x1B 1) ∧ t.flash = s.flash ∧ t.mem = s.mem) ∧
        (s.flash.flushed c.vol.toNat s.flash.seq = false → ∃ t : State, exec (.storFlush q d) s = .next t ∧
          (∃ e ∈ t.flash.cmds, e.op = .flush ∧ e.q = q ∧ e.vol = c.vol.toNat) ∧ t.host = s.host ∧ t.mem = s.mem)) ∧
      (op = 5 → c.ok 0 0 false = true →
        (s.bufOk q c.bufSpace c.buf.toNat 64 true b = false → exec (.storQuery q d b) s = .next (no 4)) ∧
        (∀ u, s.bufOk q c.bufSpace c.buf.toNat 64 true b = true → c.bufSpace = .slice →
          s.vwrite q.slice.val (s.qPasid q) c.buf.toNat (s.volRecord c.vol.toNat) = (u, .ok []) →
          exec (.storQuery q d b) s = .next (u.finish q 0 0 0xFFFFFFFF)) ∧
        (b = true → c.bufSpace = .host → exec (.storQuery q d b) s =
          .next (((s.emit (.hostWrite (some (s.qPasid q)) c.buf.toNat (s.volRecord c.vol.toNat))).use q.slice.val 20 64).finish q 0 0 0xFFFFFFFF))))) ∧
  (∀ (s : State) (id : Nat) (bad : List Nat) (fixed : List (Fin 64 × Nat)) (tries : List (Fin 16 × Nat)),
    s.flash.queued = [] → (∀ e ∈ s.flash.cmds, e.op ≠ .trim) →
    (s.cmd id = none → exec (.storWriteComplete id) s = .next s ∧ exec (.storReadComplete id bad fixed tries) s = .next s) ∧
    (∀ c, s.cmd id = some c → let key := blockKey c.vol (c.lba + c.done)
      (c.op ≠ .write → exec (.storWriteComplete id) s = .next s) ∧
      (c.op ≠ .read → exec (.storReadComplete id bad fixed tries) s = .next s) ∧
      (∀ d, c.op = .write → s.behind c.q id c.vol c.lba c.count = false → c.done + 1 = c.count → c.data.length = c.count →
        c.data.getD c.done [] = d → d ≠ [] → s.flash.buf.length < 2097152 → ∃ t : State,
        exec (.storWriteComplete id) s = .next (t.finish c.q 0 c.count 0xFFFFFFFF) ∧
        ∀ k, t.blockData k = if k = key then some d else s.blockData k) ∧
      (c.op = .read → c.count = 1 → c.want = 0 → c.fail = none → c.held = false → s.behind c.q id c.vol c.lba c.count = false →
        let first := blockKey c.vol (c.lba + 0)
        let u := ((s.readPages c).foldl (fun w p => w.setPblk (p / 2048) (fun y => { y with reads := y.reads + 1 })) s).mediaRead fixed tries
        (s.blockData first = none → ∃ t : State, exec (.storReadComplete id [] fixed tries) s = .next (t.finish c.q 6 0 0) ∧ t.mem = s.mem) ∧
        (∀ p, s.flash.buf.any (fun e => e.1 == first) = false → s.flash.pageOf first = some p → ∃ t : State,
          exec (.storReadComplete id [0] fixed tries) s = .next (t.finish c.q 6 0 0) ∧ t.mem = s.mem ∧ t.blockData first = none) ∧
        (∀ d w, c.space = .slice → s.blockData first = some d → u.vwrite c.q.slice.val (u.qPasid c.q) (c.buf + 0 * 4096) d = (w, .ok []) →
          ∃ t : State, exec (.storReadComplete id [] fixed tries) s = .next (t.finish c.q 0 1 0xFFFFFFFF) ∧ t.mem = w.mem) ∧
        (∀ d, c.space = .host → s.blockData first = some d → ∃ t : State,
          exec (.storReadComplete id [] fixed tries) s = .next (t.finish c.q 0 1 0xFFFFFFFF) ∧ t.mem = s.mem ∧
          .hostWrite (some (s.qPasid c.q)) (c.buf + 0 * 4096) d ∈ t.sent))))

/-- The translation layer. Programming a unit maps it and changes no block's content; a journal checkpoint takes the
waiting records, is programmed again when it fails, and advances its sequence number when it persists; a relocation
leaves the map to its record; an erased block is free again with one more erase; a mount ends in RW, READ_ONLY or
FAILED; the scans act as R410 to R414 say, and nothing happens unmounted. Logs 30 and 31 name the model's readings. -/
def Obligations.FlashMaintenance : Prop :=
  (∀ (s : State) (unit page : Nat), let run := exec (.bufferUnitProgrammed unit page true none) s
    ((s.flash.mounted = false ∨ s.flash.pageFree page = false ∨ (s.flash.first = true ∧ s.flash.gcWork = true)) → run = .next s.gcPriority) ∧
    (s.flash.mounted = true → s.flash.pageFree page = true → (s.flash.first = false ∨ s.flash.gcWork = false) → s.flash.buf.any (fun e => e.1 / 4 == unit && !e.2.prog) = true →
      (∀ e ∈ s.flash.map, e.2.page ≠ page + 1) → canonical default s.flash.buf = true → ∃ t : State, run = .next t ∧
      sget t.flash.map unit = ⟨page + 1, []⟩ ∧ (∀ u, u ≠ unit → sget t.flash.map u = sget s.flash.map u) ∧ (∀ k, t.blockData k = s.blockData k) ∧
      t.flash.dmap = s.flash.dmap)) ∧
  (∀ s : State,
    ((s.flash.mounted = false ∨ s.flash.waiting = [] ∨ s.flash.flight ≠ []) → exec .journalTimer s = .next s) ∧
    (s.flash.mounted = true → s.flash.waiting ≠ [] → s.flash.flight = [] → ∃ t : State, exec .journalTimer s = .next t ∧
      t.flash.flight = s.flash.waiting ∧ t.flash.waiting = [] ∧ t.flash.map = s.flash.map ∧ t.flash.buf = s.flash.buf) ∧
    (∀ ok, (s.flash.flight = [] ∨ s.flash.mounted = false) → exec (.journalPersisted ok) s = .next s.storGoOn) ∧
    (s.flash.flight ≠ [] → s.flash.mounted = true → s.flash.queued = [] → (∀ e ∈ s.flash.cmds, e.op ≠ .trim) →
      exec (.journalPersisted false) s = .next (s.setFlash (fun f => { f with waiting := s.flash.flight ++ f.waiting, flight := [] })) ∧
      ∃ t : State, exec (.journalPersisted true) s = .next t ∧ t.flash.jseq = s.flash.jseq + 1 ∧ t.flash.flight = [] ∧
        t.flash.dmap = s.flash.flight.foldl replayRec s.flash.dmap) ∧
    (s.flash.mounted = false → exec .mapSnapshot s = .next s) ∧
    (s.flash.mounted = true → ∃ t : State, exec .mapSnapshot s = .next t ∧ t.flash.snap = (s.flash.snap + 1) % 4096 ∧ t.flash.map = s.flash.map ∧
      t.flash.buf = s.flash.buf)) ∧
  (∀ (s : State) (unit page blk : Nat), let e := sget s.flash.map unit
    ((s.flash.mounted = false ∨ e.page = 0) → exec (.gcUnitRelocate unit page true) s = .next s.gcPriority) ∧
    (s.flash.mounted = true → e.page ≠ 0 → s.gcRuns = true → s.flash.pageFree page = true → s.flash.moving unit = false → ∃ t : State,
      exec (.gcUnitRelocate unit page true) s = .next t ∧ t.flash.map = s.flash.map ∧
      t.flash.waiting = s.flash.waiting ++ [.relocate unit (e.page - 1) page] ∧
      sget t.flash.pages page = { sget s.flash.pages (e.page - 1) with copy := true } ∧ t.flash.buf = s.flash.buf) ∧
    (∀ ok, ((s.pblk blk).st ≠ .erasing ∨ s.flash.mounted = false) → exec (.eraseComplete blk ok) s = .next s.gcPriority) ∧
    ((s.pblk blk).st = .erasing → s.flash.mounted = true → (s.pblk blk).erases + 1 < s.obj 0x6000 0xC → ∃ t : State,
      exec (.eraseComplete blk true) s = .next t ∧ (t.pblk blk).st = .free ∧ (t.pblk blk).erases = (s.pblk blk).erases + 1 ∧ (t.pblk blk).reads = 0 ∧
      t.flash.map = s.flash.map ∧ t.flash.spare = s.flash.spare) ∧
    ((s.pblk blk).st = .erasing → s.flash.mounted = true → ∃ t : State, exec (.eraseComplete blk false) s = .next t ∧
      (t.pblk blk).st = .retired ∧ t.flash.spare = s.flash.spare - 1)) ∧
  (∀ (s : State) (ms : Nat) (rep : Bool) (torn : List Nat) (mix : List (Nat × List Byte)),
    (s.flash.tier = .unmounted → s.keys.stage = 0 → (∀ n ∈ [16, 17, 18, 19, 24], s.isReady n = true) →
      exec .flashMount s = .next (s.setFlash (fun f => { f with tier := .mounting }))) ∧
    ((s.flash.tier ≠ .unmounted ∨ s.keys.stage ≠ 0 ∨ ∃ n ∈ [16, 17, 18, 19, 24], s.isReady n = false) → exec .flashMount s = .next s) ∧
    (∀ ok, s.flash.tier ≠ .mounting → exec (.flashMountComplete ok ms rep torn mix) s = .next s) ∧
    (s.flash.tier = .mounting →
      (∃ t : State, exec (.flashMountComplete false ms rep torn mix) s = .next t ∧ t.flash.tier = .failed ∧ t.obj 0x6000 0xE = ms ∧
        (s.mod.holding = false → .event .operator 0x0D02 0 0 0 ∈ t.sent)) ∧
      ∃ t : State, exec (.flashMountComplete true ms rep torn mix) s = .next t ∧ t.flash.flight = [] ∧ t.flash.lost = [] ∧ t.obj 0x6000 0xE = ms ∧
        t.flash.tier = (if s.flash.worn = true ∨ s.flash.spare < Config.spareFloor then .readOnly else .rw) ∧
        (mix = [] → t.flash.map = (if rep then s.flash.flight else []).foldl replayRec s.flash.dmap))) ∧
  (∀ (s : State) (col b : Nat) (opp weak : Bool) (dest units : List Nat) (seg : Option Nat) (lost : List Nat),
    (s.flash.mounted = false → exec (.mapRebuild seg lost) s = .next s) ∧
    (s.flash.mounted = false ∨ s.background = false → exec (.columnScan col [b] opp dest) s = .next s ∧
      exec (.readDisturbScan b weak dest) s = .next s ∧ exec (.wearLevel units dest) s = .next s) ∧
    (s.flash.mounted = true → s.background = true → let cs := sget s.flash.cols (blkGroup b)
      ((opp = false ∨ col ∈ cs) → exec (.columnScan col [b] opp dest) s = .next s) ∧
      (opp = true → col ∉ cs → exec (.columnScan col [b] opp dest) s = .next (s.setPblk b (fun y => { y with cell := true }))) ∧
      (∀ a, opp = true → col ∉ cs → a ≠ b → blkGroup a = blkGroup b → cs.length < 32 → ∃ t : State,
        exec (.columnScan col [b, a] opp dest) s = .next t ∧ sget t.flash.cols (blkGroup b) = cs ++ [col] ∧
        .columnSkip (blkGroup b) col ∈ t.flash.waiting ∧ t.flash.map = s.flash.map) ∧
      ((weak = false ∨ ((s.pblk b).reads < 100000 ∧ (s.pblk b).cell = false)) → exec (.readDisturbScan b weak dest) s = .next s) ∧
      (weak = true → 100000 ≤ (s.pblk b).reads → ∃ t : State, exec (.readDisturbScan b weak dest) s = .next t ∧ t.flash.map = s.flash.map ∧
        t.obj 0x6000 0x1A = wrap48 (s.obj 0x6000 0x1A + (s.flash.unitsIn (fun x => x == b)).length)) ∧
      (s.flash.eraseSpread.2 - s.flash.eraseSpread.1 ≤ s.obj 0x6000 0xA → exec (.wearLevel units dest) s = .next s) ∧
      (s.obj 0x6000 0xA < s.flash.eraseSpread.2 - s.flash.eraseSpread.1 → ∃ t : State, exec (.wearLevel units dest) s = .next t ∧
        t.flash.map = s.flash.map ∧ t.flash.buf = s.flash.buf)) ∧
    (s.flash.mounted = true →
      (exec (.mapRebuild seg []) s = .next (if seg.isSome then s.count 0x6000 0x1C 1 else s)) ∧
      (∀ k x, s.flash.buf.find? (fun e => e.1 == k) = some (k, x) → ∃ t : State, exec (.mapRebuild none [k]) s = .next t ∧ t.blockData k = none ∧
        (∀ j, j ≠ k → t.blockData j = s.blockData j) ∧
        (s.mod.holding = false → .event (.slice (s.vol (k / 2 ^ 34)).owner) 0x0D03 (k / 2 ^ 34) (k % 2 ^ 34) 1 ∈ t.sent))))

/-! ### Host endpoint and slices (chapter 14) -/

/-- The host's link, interrupts and accesses. L1, its substates and L0p follow the host's enables; a steering entry
signals as the mode of PF1 says, and INTx follows the count of pending entries; an invalidation is answered only when
no request uses its translation; the end of a host request starts its descriptor or halts its queue; a read of CQ_HEAD
lets waiting completions go on; a doorbell of an empty slot is dropped and counted. Resets of the host side. A hot
reset and the link going down leave both functions unconfigured, the admin rings and the mailbox reset, the control
rings gone and every other queue HALTED; an FLR of PF0 resets the admin rings and the mailbox and leaves the slices;
an FLR of PF1 destroys the slices. When descriptors are read and halted commands end is the model's reading (log 41). -/
def Obligations.HostSide : Prop :=
  (∀ s : State, let yields (p : LinkPower) := s.setHost (fun h => { h with power := p })
    let l1 := s.host.up = true ∧ s.host.l1Enable = true ∧ s.hostBusy = false
    let subs := [(Instr.aspmL1Entry 0, LinkPower.l1, true), (.aspmL1Entry 1, .l11, s.host.l11Enable), (.aspmL1Entry 2, .l12, s.host.l12Enable)]
    let inL1 := s.host.power = .l1 ∨ s.host.power = .l11 ∨ s.host.power = .l12
    let l0p := s.host.up = true ∧ s.host.l0pEnable = true ∧ s.host.power = .l0
    (∀ e ∈ subs, (l1 → e.2.2 = true → exec e.1 s = .next (yields e.2.1)) ∧ ((¬ l1 ∨ e.2.2 = false) → exec e.1 s = .next s)) ∧
    (inL1 → exec .aspmL1Exit s = .next (yields .l0)) ∧ (¬ inL1 → exec .aspmL1Exit s = .next s) ∧
    (l0p → exec .l0pNarrow s = .next (yields .l0p)) ∧ (¬ l0p → exec .l0pNarrow s = .next s) ∧
    (s.host.power = .l0p → exec .l0pWiden s = .next (yields .l0)) ∧ (s.host.power ≠ .l0p → exec .l0pWiden s = .next s)) ∧
  (∀ (s : State) (sl : Fin 512) (i : Fin 256), let x := s.slice sl.val
    let e := sget x.steer i.val
    let level (t : State) := t.host.pf1.intx = (!t.host.pf1.msixEnable && !t.host.pf1.intxDisable && t.pf1Count != 0)
    let rest (t : State) := ∀ k, k ≠ i.val → sget (t.slice sl.val).steer k = sget x.steer k
    let v := x.msixBase + e.vector
    (s.gloveThere sl.val = false → exec (.steerPendingClear sl i) s = .next (s.emit (.busError .pcieWrite))) ∧
    (s.gloveThere sl.val = true → ∃ t : State, exec (.steerPendingClear sl i) s = .next t ∧
      sget (t.slice sl.val).steer i.val = { e with pending := false } ∧ rest t ∧ level t) ∧
    (s.sliceExists sl.val = false → exec (.steerModExpire sl i) s = .next s) ∧
    (s.sliceExists sl.val = true →
      (e.enable = true → e.pending = true → s.host.pf1.msixEnable = true → ∃ t : State, exec (.steerModExpire sl i) s = .next t ∧
        sget (t.slice sl.val).steer i.val = { e with pending := false, quiet := decide (e.modUs ≠ 0) } ∧ rest t ∧
        (e.vector < x.quota.msix → if s.host.pf1.fnMask = true ∨ v ∈ s.host.pf1.masked then v ∈ t.host.pf1.pba else .msix true v ∈ t.sent)) ∧
      (e.enable = false ∨ e.pending = false ∨ s.host.pf1.msixEnable = false → ∃ t : State, exec (.steerModExpire sl i) s = .next t ∧
        sget (t.slice sl.val).steer i.val = { e with quiet := false } ∧ rest t ∧ level t))) ∧
  (∀ (s : State) (m d fm : Bool) (ms : List Nat),
    let masks (p : PciFn) := p.msixEnable = m ∧ p.intxDisable = d ∧ p.fnMask = fm ∧ p.masked = ms
    (∃ t : State, exec (.msixModeChange true m d fm ms) s = .next t ∧ masks t.host.pf1 ∧ (m = true → fm = false → ∀ v ∈ s.host.pf1.pba, v ∉ ms → .msix true v ∈ t.sent) ∧
      t.host.pf1.intx = (!m && !d && t.pf1Count != 0) ∧ t.mem = s.mem) ∧
    (∃ t : State, exec (.msixModeChange false m d fm ms) s = .next t ∧ masks t.host.pf0 ∧
      (m = true → fm = false → ∀ v ∈ s.host.pf0.pba, v ∉ ms → .msix false v ∈ t.sent) ∧
      t.host.pf0.intx = (!m && !d && (s.dict.mbx.done || s.adm.cqTail != s.adm.cqHead)) ∧ t.host.pf1 = s.host.pf1)) ∧
  (∀ (s : State) (pasid : BitVec 20) (vpage : BitVec 52), let i := (pasid.toNat, vpage.toNat)
    ∃ t : State, exec (.atsInvalidation pasid vpage) s = .next t ∧ t.host.atsCache = s.host.atsCache.filter (· != i) ∧ t.host.reqs = s.host.reqs ∧
    ((∃ r ∈ s.host.reqs, r.pasid = i.1 ∧ r.page = i.2) → i ∈ t.host.invals) ∧
    ((∀ r ∈ s.host.reqs, r.pasid ≠ i.1 ∨ r.page ≠ i.2) → i ∉ t.host.invals ∧ .atsAnswer i.1 i.2 ∈ t.sent)) ∧
  (∀ (s : State) (id : Nat) (ok : Bool) (head : BitVec 32), let found := s.host.reqs.find? (fun r => r.id == id)
    let odd := s.setHost (fun h => { h with unexpected := h.unexpected + 1 })
    (found = none → exec (.hostCompletionReceive id ok head) s = .next odd ∧ exec (.hostCompletionTimeout id) s = .next s) ∧
    (∀ r, found = some r → s.host.reqs.length < 4096 → let q := s.queue r.slice r.slot
      let gone := s.host.reqs.filter (fun x => x.id != id)
      let read := { q with cqHead := head.toNat }
      (r.abandoned = true → exec (.hostCompletionReceive id ok head) s = .next (odd.setHost (fun h => { h with reqs := gone }))) ∧
      (r.abandoned = false → q.halted = true → ∃ t : State, exec (.hostCompletionReceive id ok head) s = .next t ∧ t.host.reqs = gone ∧
        t.queue r.slice r.slot = q) ∧
      (r.abandoned = false → q.halted = false → ∀ c ∈ [Instr.hostCompletionReceive id false head, .hostCompletionTimeout id], ∃ t : State,
        exec c s = .next t ∧ t.host.reqs = gone ∧ (t.queue r.slice r.slot).halted = true ∧
        (s.mod.holding = false → .event (.slice r.slice) 0x0E03 q.dev r.slot (if r.head then q.cfg.hdr + 8 else q.descAddr r.index) ∈ t.sent)) ∧
      (r.abandoned = false → s.host.ats = true → (r.pasid, r.page) ∉ s.host.invals → ∃ t : State,
        exec (.hostCompletionReceive id true head) s = .next t ∧ (r.pasid, r.page) ∈ t.host.atsCache) ∧
      (r.abandoned = false → q.halted = false → r.head = false → q.cfg.host = true → s.host.up = true → ∃ t : State,
        exec (.hostCompletionReceive id true head) s = .next t ∧ t.host.reqs = gone ∧ (t.queue r.slice r.slot).halted = false ∧
        (t.queue r.slice r.slot).dqHead = (q.dqHead + 1) % 2 ^ 32 ∧ (t.queue r.slice r.slot).inflight = q.inflight + 1 ∧
        .hostWrite (some q.cfg.pasid) (q.cfg.hdr + 4) (leBytes 4 ((q.dqHead + 1) % 2 ^ 32)) ∈ t.sent) ∧
      (r.abandoned = false → q.halted = false → r.head = true →
        (read.full = true → ∃ t : State, exec (.hostCompletionReceive id true head) s = .next t ∧ t.host.reqs = gone ∧
          t.queue r.slice r.slot = read) ∧
        (∀ c, read.full = false → q.waiting = [c] → q.cfg.host = true → s.host.up = true → ∃ t : State,
          exec (.hostCompletionReceive id true head) s = .next t ∧ .completion r.slice r.slot c.tag c.status c.result c.len ∈ t.sent)))) ∧
  (∀ (s : State) (sl : Fin 512) (slot : Fin 1024) (v : BitVec 32), let x := s.slice sl.val
    let q := s.queue sl.val slot.val
    let run := exec (.queueDoorbell sl slot v) s
    (x.st = .free ∨ x.st = .destroying → run = .next (s.emit (.busError .pcieWrite))) ∧
    (x.st ≠ .free → x.st ≠ .destroying →
      (q.used = false → run = .next (s.count (0xA100 + sl.val) 6 1)) ∧
      (q.used = true → q.halted = true → ∃ t : State, run = .next t ∧ (t.queue sl.val slot.val).prod = q.prod ∧
        (t.queue sl.val slot.val).halted = true ∧ t.sent = s.sent ∧ t.mem = s.mem ∧ t.host.reqs = s.host.reqs) ∧
      (q.used = true → q.halted = false → s.doorbellsLive sl.val = false → ∃ t : State, run = .next t ∧
        (t.queue sl.val slot.val).held = some v.toNat ∧ (t.queue sl.val slot.val).prod = q.prod ∧ t.sent = s.sent ∧ t.mem = s.mem) ∧
      (q.used = true → q.halted = false → s.doorbellsLive sl.val = true → (∃ t : State, run = .next t ∧ (t.queue sl.val slot.val).prod = v.toNat) ∧
        (q.cfg.host = true → q.waiting = [] → q.dqHead < 2 ^ 32 → v.toNat = (q.dqHead + 1) % 2 ^ 32 →
          q.full = false → s.host.reqs.length < 4096 → (∀ r ∈ s.host.reqs, r.slice ≠ sl.val ∨ r.slot ≠ slot.val) → ∃ t : State,
          run = .next t ∧ t.mem = s.mem ∧ t.sent = s.sent ∧
          t.host.reqs = s.host.reqs ++ [⟨s.fresh, sl.val, slot.val, q.dqHead, q.cfg.pasid, hostPage (q.descAddr q.dqHead), false, false⟩])))) ∧
  (∀ s : State, let fresh : PciFn := ⟨false, false, false, false, [], []⟩
    let adm (t : State) := t.adm.st = .off ∧ t.adm.sqTail = 0 ∧ t.adm.sqHead = 0 ∧ t.adm.cqTail = 0 ∧ t.adm.cqHead = 0
    let mbx (t : State) := t.dict.mbx.busy = false ∧ t.dict.mbx.done = false ∧ t.dict.mbx.overrun = false ∧ t.dict.mbx.status = 0 ∧ t.dict.mbx.fail = 0xFFFF
    (∀ c ∈ [Instr.pcieHotReset, .pcieLinkDown], ∃ t : State, exec c s = .next t ∧ t.host.up = false ∧ t.host.pf0 = fresh ∧ t.host.pf1 = fresh ∧
      t.host.power = .l0 ∧ t.host.l1Enable = false ∧ t.host.l11Enable = false ∧ t.host.l12Enable = false ∧ t.host.l0pEnable = false ∧
      t.host.atsCache = [] ∧ t.host.reqs = [] ∧ t.host.invals = [] ∧ t.host.ats = false ∧ adm t ∧ mbx t ∧
      ∀ n ∈ s.hostSlices, (t.slice n).hello = false ∧ (t.queue n 0).used = false ∧ ∀ k, (t.queue n k).used = true → (t.queue n k).halted = true) ∧
    (∃ t u : State, exec .flrPf0 s = .next t ∧ t = u.faultJobs ∧ adm u ∧ mbx u ∧ u.host.pf0 = fresh ∧ u.host.slices = s.host.slices ∧ u.mem = s.mem ∧
      (∀ g ∈ s.adm.started, g ∈ u.adm.discard) ∧ u.adm.started = []) ∧
    (∃ t : State, exec .flrPf1 s = .next t ∧ t.host.pf1 = fresh ∧ t.host.ats = false ∧ t.host.atsCache = []) ∧
    (∀ n, s.hostSlices = [n] → ∃ t : State, exec .flrPf1 s = .next t ∧ (t.slice n).st = .destroying ∧ (t.slice n).queues = [] ∧ (t.slice n).steer = [] ∧
      (t.slice n).hello = false) ∧
    (s.hostSlices = [] → ∃ t : State, exec .flrPf1 s = .next t ∧ t.host.slices = s.host.slices ∧ t.mem = s.mem ∧ t.sent = s.sent))

/-- Slice admin commands, each a 64-byte entry of the admin ring. All are checked alike (R427); SLICE_CREATE takes a quota
whole, in free contiguous runs, or nothing; MAP and UNMAP act on a range whole or not at all; a PASID serves one slice
and is unbound only when nothing names it; DESTROY ends in FREE with its frames zero. -/
def Obligations.SliceCommands : Prop :=
  (∀ (s : State) (d : List Byte) (q bs : Option (List Byte)) (b : BitVec 64) (r : Bool),
    let c := admCmdOf d
    let on := [(Instr.sliceDestroy d, 0x21), (.map d, 0x22), (.unmap d, 0x23), (.pasidBind d, 0x24), (.pasidUnbind d, 0x25), (.freeze d, 0x26),
      (.thaw d, 0x27), (.save d b r, 0x28), (.restore d bs, 0x29), (.chanNotify d, 0x2A)]
    let all := [(Instr.sliceCreate d q, 0x20), (.sliceQuery d r, 0x2B)] ++ on
    (s.adm.st ≠ .running ∨ s.fwRuns = false → ∀ e ∈ all, exec e.1 s = .next s) ∧
    (s.adm.st = .running → s.fwRuns = true →
      (c.op ∉ admOps → ∀ e ∈ all, exec e.1 s = .next (s.admDone 0 1 0 c.tag)) ∧
      (c.op ∈ admOps → ∀ e ∈ all, c.op ≠ e.2 → exec e.1 s = .next s) ∧
      (c.reserved = true ∨ c.tag = 0xFFFFFFFF → ∀ e ∈ all, c.op = e.2 → exec e.1 s = .next (s.admDone 0 1 0 c.tag)) ∧
      (c.reserved = false → c.tag ≠ 0xFFFFFFFF →
        (s.slicesOk = false → ∀ e ∈ all, c.op = e.2 → exec e.1 s = .next (s.admDone 0 3 0 c.tag)) ∧
        (s.slicesOk = true → s.sliceExists c.slice.toNat = false → ∀ e ∈ on, c.op = e.2 →
          exec e.1 s = .next (s.admDone 0 2 0 c.tag))))) ∧
  (∀ (s : State) (d : List Byte) (q : Option (List Byte)), s.admits 0x20 d → let c := admCmdOf d
    let n := s.createNumber c.slice.toNat
    let run := exec (.sliceCreate d q) s
    (q = none → run = .next (s.admDone 0 9 0 c.tag)) ∧
    (∀ y, q = some y → let x := quotaOf y
      (Quota.ok x = false → run = .next (s.admDone 0 1 0 c.tag)) ∧
      (Quota.ok x = true → n < 512 → (s.mod.req = some .enterTest ∨ s.sliceExists n = true) → run = .next (s.admDone 0 3 0 c.tag)) ∧
      (Quota.ok x = true → 512 ≤ n → s.mod.req ≠ some .enterTest → run = .next (s.admDone 0 4 0 c.tag)) ∧
      (Quota.ok x = true → n < 512 → s.mod.req ≠ some .enterTest → s.sliceExists n = false →
        (s.newSlice x = none → run = .next (s.admDone n 4 0 c.tag)) ∧
        (∀ y, s.newSlice x = some y → ∃ t : State, run = .next (t.admDone n 0 0 c.tag) ∧ t.slice n = y ∧ (∀ m, m ≠ n → t.slice m = s.slice m) ∧
          y.st = (if x.restoreTarget then .restoring else .active) ∧ y.quota = x ∧ y.pages = [] ∧ y.pasids = [] ∧ y.queues = [] ∧ y.memUsed = 0 ∧
          y.keyBase + x.keySlots ≤ 4096 ∧ y.msixBase + x.msix ≤ 2016 ∧ y.clsBase + x.cls ≤ 8192 ∧ s.obj 0x3600 2 ≤ y.clsBase ∧
          s.reserved Quota.memBytes + x.memBytes ≤ s.poolBytes ∧ t.mem = s.mem ∧
          ∀ e ∈ s.host.slices, e.2.quota.keySlots ≠ 0 →
            y.keyBase + x.keySlots ≤ e.2.keyBase ∨ e.2.keyBase + e.2.quota.keySlots ≤ y.keyBase)))) ∧
  (∀ (s : State) (op : Nat) (d : List Byte), s.admits op d → s.sliceExists (admCmdOf d).slice.toNat = true →
    let c := admCmdOf d
    let sl := c.slice.toNat
    let x := s.slice sl
    let p := c.pasid.toNat
    let n := c.count.toNat
    let v := c.va.toNat / 0x200000
    let say (st : Nat) := s.admDone sl st 0 c.tag
    let fs := s.freeFrames n
    let inside (g : Page) : Bool := g.pasid == p && !g.kv && decide (v ≤ g.vpn) && decide (g.vpn < v + n)
    let rest (t : State) := ∀ m, m ≠ sl → t.slice m = s.slice m
    let place := c.va.toNat % 0x200000 = 0 ∧ c.va.toNat + n * 0x200000 ≤ 0x01FC000000000000 ∧
      ∀ g ∈ x.pages, g.pasid = p → g.vpn < v ∨ v + n ≤ g.vpn
    (x.st ≠ .active → ∀ e ∈ [(Instr.map d, 0x22), (.unmap d, 0x23), (.pasidBind d, 0x24), (.pasidUnbind d, 0x25), (.freeze d, 0x26)], op = e.2 →
      exec e.1 s = .next (say 3)) ∧
    (op = 0x22 → x.st = .active →
      ((p ∉ x.pasids ∨ n = 0) → exec (.map d) s = .next (say 1)) ∧
      (p ∈ x.pasids → n ≠ 0 → (¬ place → exec (.map d) s = .next (say 5)) ∧
        (place → (x.quota.memBytes < x.memUsed + n * 0x200000 ∨ fs.length < n) → exec (.map d) s = .next (say 4)) ∧
        (place → x.memUsed + n * 0x200000 ≤ x.quota.memBytes → fs.length = n → ∃ t : State, exec (.map d) s = .next (t.admDone sl 0 0 c.tag) ∧
          (t.slice sl).pages = x.pages ++ newPages p v (bit c.flags.toNat 0) fs 0 ∧ (t.slice sl).memUsed = x.memUsed + n * 0x200000 ∧ rest t ∧
          t.mem = s.mem ∧ (∀ f ∈ fs, f ∉ s.usedFrames ∧ f < 376832) ∧ fs.Nodup))) ∧
    (op = 0x23 → x.st = .active →
      (n = 0 → exec (.unmap d) s = .next (say 1)) ∧
      (n ≠ 0 → (c.va.toNat % 0x200000 ≠ 0 ∨ (x.pages.filter inside).length ≠ n) → exec (.unmap d) s = .next (say 5)) ∧
      (n ≠ 0 → c.va.toNat % 0x200000 = 0 → (x.pages.filter inside).length = n → ∃ t : State, exec (.unmap d) s = .next (t.admDone sl 0 0 c.tag) ∧
        (t.slice sl).pages = x.pages.filter (fun g => !inside g) ∧ (t.slice sl).memUsed = x.memUsed - n * 0x200000 ∧ rest t ∧
        (∀ a, (∃ g ∈ x.pages, inside g = true ∧ a / 0x200000 = g.frame) → t.byte a = 0) ∧
        ∀ a, (∀ g ∈ x.pages, inside g = true → a / 0x200000 ≠ g.frame) → t.byte a = s.byte a)) ∧
    (op = 0x24 → x.st = .active →
      (p ∈ x.pasids → exec (.pasidBind d) s = .next (say 0)) ∧
      (p ∉ x.pasids →
        ((∃ e ∈ s.host.slices, e.1 ≠ sl ∧ p ∈ e.2.pasids) → exec (.pasidBind d) s = .next (say 3)) ∧
        ((∀ e ∈ s.host.slices, e.1 = sl ∨ p ∉ e.2.pasids) → x.quota.pasids ≤ x.pasids.length → exec (.pasidBind d) s = .next (say 4)) ∧
        ((∀ e ∈ s.host.slices, e.1 = sl ∨ p ∉ e.2.pasids) → x.pasids.length < x.quota.pasids → ∃ t : State,
          exec (.pasidBind d) s = .next (t.admDone sl 0 0 c.tag) ∧ p ∈ (t.slice sl).pasids ∧ (∀ k ∈ x.pasids, k ∈ (t.slice sl).pasids) ∧
          (t.slice sl).pages = x.pages ∧ rest t ∧ t.mem = s.mem))) ∧
    (op = 0x25 → x.st = .active →
      (p ∉ x.pasids → exec (.pasidUnbind d) s = .next (say 1)) ∧
      (p ∈ x.pasids → s.pasidBusy sl p = true → exec (.pasidUnbind d) s = .next (say 6)) ∧
      (p ∈ x.pasids → s.pasidBusy sl p = false → ∃ t : State, exec (.pasidUnbind d) s = .next (t.admDone sl 0 0 c.tag) ∧
        (t.slice sl).pasids = x.pasids.erase p ∧ (t.slice sl).pages = x.pages ∧ rest t ∧ t.mem = s.mem)) ∧
    (op = 0x2A → x.st = .destroying → exec (.chanNotify d) s = .next (say 3)) ∧
    (op = 0x21 → x.st = .destroying → exec (.sliceDestroy d) s = .next (say 3)) ∧
    (op = 0x21 → x.st ≠ .destroying → ∃ t : State, exec (.sliceDestroy d) s = .next t ∧ (t.slice sl).st = .destroying ∧
        (t.slice sl).destroyTag = some c.tag.toNat ∧ (t.slice sl).queues = [] ∧ (t.slice sl).hello = false)) ∧
  (∀ (s : State) (sl : Fin 512), let x := s.slice sl.val
    let t := s.sliceFree sl.val
    (x.st ≠ .destroying → exec (.sliceDestroyComplete sl) s = .next s) ∧
    (x.st = .destroying → (x.destroyTag = none → exec (.sliceDestroyComplete sl) s = .next t) ∧
      (∀ g, x.destroyTag = some g → exec (.sliceDestroyComplete sl) s = .next (t.admDone sl.val 0 0 (BitVec.ofNat 32 g)))) ∧
    (t.slice sl.val).st = .free ∧ (∀ m, m ≠ sl.val → t.slice m = s.slice m) ∧
    (∀ a, (∃ g ∈ x.pages, a / 0x200000 = g.frame) → t.byte a = 0) ∧
    ∀ a, (∀ g ∈ x.pages, a / 0x200000 ≠ g.frame) → t.byte a = s.byte a) ∧
  (∀ (s : State) (d : List Byte), s.admits 0x2B d → let c := admCmdOf d
    let sl := c.slice.toNat
    exec (.sliceQuery d false) s = .next (s.admDone sl 9 0 c.tag) ∧
    exec (.sliceQuery d true) s = .next ((s.emit (.hostWrite none c.addr.toNat (s.sliceRecord sl))).admDone sl 0 0 c.tag) ∧
    (s.sliceExists sl = false → s.sliceRecord sl = List.replicate 64 0))

/-- Freezing and moving a slice. FREEZE completes when nothing started remains, and THAW acts on the held producer
indices; SAVE gives the bytes of one blob, the same for every repetition; RESTORE takes a blob in order, and a failure
leaves its target only to be destroyed. Log 37 names the model's readings. -/
def Obligations.SliceMigration : Prop :=
  (∀ (s : State) (op : Nat) (d : List Byte), s.admits op d → s.sliceExists (admCmdOf d).slice.toNat = true →
    let c := admCmdOf d
    let sl := c.slice.toNat
    let x := s.slice sl
    let say (st : Nat) := s.admDone sl st 0 c.tag
    (op = 0x26 → x.st = .active → exec (.freeze d) s = .next (s.setSlice sl (fun y => { y with st := .freezing, freezeTag := some c.tag.toNat }))) ∧
    (op = 0x27 → x.st ≠ .frozen → exec (.thaw d) s = .next (say 3)) ∧
    (op = 0x27 → x.st = .frozen → ∃ t : State, exec (.thaw d) s = .next t ∧ (t.slice sl).st = .active ∧ (t.slice sl).blobId = none ∧ (t.slice sl).pages = x.pages ∧
      ∀ k p, (s.queue sl k).held = some p → (t.queue sl k).prod = p ∧ (t.queue sl k).held = none) ∧
    (∀ (b : BitVec 64) (r : Bool), op = 0x28 →
      let id := x.blobId.getD b.toNat
      let size := s.blobBytes sl (s.clsSection sl) (s.spreadSection sl)
      let o := c.offset.toNat
      let l := c.length.toNat
      let range := o % 4096 = 0 ∧ o + l ≤ size ∧ (l % 4096 = 0 ∨ o + l = size)
      (x.st ≠ .frozen → exec (.save d b r) s = .next (say 3)) ∧
      (x.st = .frozen → s.cohortBound sl = true → exec (.save d b r) s = .next (say 6)) ∧
      (x.st = .frozen → s.cohortBound sl = false → ¬ range → exec (.save d b r) s = .next (say 1)) ∧
      (x.st = .frozen → s.cohortBound sl = false → range → exec (.save d b false) s = .next (say 9) ∧
        ∃ t : State, exec (.save d b true) s = .next (t.admDone sl 0 0 c.tag) ∧ (t.slice sl).blobId = some id ∧ (t.slice sl).st = .frozen ∧
          t.sent = .hostWrite none c.addr.toNat (((s.blob sl id (s.clsSection sl) (s.spreadSection sl)).drop o).take l) :: s.sent ∧ t.mem = s.mem) ∧
      (x.blobId.isSome = true → ∀ b2 : BitVec 64, exec (.save d b2 r) s = exec (.save d b r) s)) ∧
    (∀ bs : Option (List Byte), op = 0x29 → let run := exec (.restore d bs) s
      let bad (st : Nat) := (s.setSlice sl (fun y => { y with blobBad := true })).admDone sl st 0 c.tag
      ((x.st ≠ .restoring ∨ x.blobBad = true) → run = .next (say 3)) ∧
      (x.st = .restoring → x.blobBad = false →
        (c.offset.toNat ≠ x.blob.length → run = .next (bad 5)) ∧
        (c.offset.toNat = x.blob.length → (bs = none → run = .next (bad 9)) ∧
          (∀ m, bs = some m → let b := x.blob ++ m.take c.length.toNat
            let h := b.take 4096
            let kept := s.setSlice sl (fun y => { y with blob := b })
            let chunks := openChunks s.cke (leBytes 8 (fieldAt h 8 8)) (fieldAt h 16 8 / 0x400000 + 1) 0 (fieldAt h 16 8) (b.drop 4096)
            (b.length < 4096 → run = .next (kept.admDone sl 0 0 c.tag)) ∧
            (4096 ≤ b.length → s.blobHeaderOk h = false → run = .next (bad 7)) ∧
            (4096 ≤ b.length → s.blobHeaderOk h = true → blobTotal h < b.length → run = .next (bad 5)) ∧
            (4096 ≤ b.length → s.blobHeaderOk h = true → b.length ≤ blobTotal h →
              (chunks = none → run = .next (bad 7)) ∧
              (∀ st, chunks = some st →
                (b.length < blobTotal h → run = .next (kept.admDone sl 0 0 c.tag)) ∧
                (b.length = blobTotal h → s.blobFits sl h st = false → run = .next (bad 8)) ∧
                (b.length = blobTotal h → s.blobFits sl h st = true → ∃ t : State, run = .next (t.admDone sl 0 0 c.tag) ∧
                  (t.slice sl).st = .frozen ∧ (∀ m, m ≠ sl → t.slice m = s.slice m) ∧ (t.slice sl).quota = x.quota)))))))) ∧
  (∀ (s : State) (sl : Fin 512), let x := s.slice sl.val
    let t := s.setSlice sl.val (fun y => { y with st := .frozen, freezeTag := none })
    ((x.st ≠ .freezing ∨ s.sliceBusy sl.val = true) → exec (.sliceFrozen sl) s = .next s) ∧
    (x.st = .freezing → s.sliceBusy sl.val = false → (x.freezeTag = none → exec (.sliceFrozen sl) s = .next t) ∧
      ∀ g, x.freezeTag = some g → exec (.sliceFrozen sl) s = .next (t.admDone sl.val 0 0 (BitVec.ofNat 32 g))))

/-- Control commands. Nothing starts before a HELLO has passed; a queue takes the lowest free slot and a device queue
number of its own; QUEUE_DESTROY frees a slot that nothing names, QUEUE_RESET restarts a HALTED queue with indices
zero, and KEY_QUERY writes a record without key material. -/
def Obligations.ControlCommands : Prop :=
  (∀ (s : State) (sl : Fin 512) (d : List Byte),
    let op := fieldAt d 0 1
    let tag := BitVec.ofNat 32 (fieldAt d 4 4)
    let ver := fieldAt d 8 4
    let a := fieldAt d 8 8
    let q0 := s.queue sl.val 0
    let x := s.slice sl.val
    let c := ctrlCtx sl tag
    let j := fieldAt d 2 2
    let q := s.queue sl.val j
    let cmds := [(Instr.queueCreate sl d, 1), (.queueDestroy sl d, 2), (.queueReset sl d, 3), (.keyQuery sl d, 5)]
    let all := (Instr.hello sl d, 0) :: cmds
    let live := q0.used = true ∧ q0.halted = false ∧ s.doorbellsLive sl.val = true
    (¬ live → ∀ e ∈ all, exec e.1 s = .next s) ∧
    (op ≤ 6 → ∀ e ∈ all, e.2 ≠ op → exec e.1 s = .next s) ∧
    (live → 6 < op → ∀ e ∈ all, exec e.1 s = .next (s.finish c (if x.hello = true then 1 else 0xB) 0 0)) ∧
    (live →
      (x.hello = false → (∀ e ∈ cmds, op = e.2 → exec e.1 s = .next (s.finish c 0xB 0 0)) ∧
        (op = 0 → ver / 65536 = bankVersion s.bootedBank 12 / 65536 → exec (.hello sl d) s =
          .next ((s.setSlice sl.val (fun y => { y with hello := true })).finish c 0 0 0)) ∧
        (op = 0 → ver / 65536 ≠ bankVersion s.bootedBank 12 / 65536 → exec (.hello sl d) s = .next (s.finish c 0xB 0 0))) ∧
      (x.hello = true → (op = 0 → exec (.hello sl d) s = .next (s.finish c 3 0 0)) ∧
        (∀ t b, op = 1 → s.vread sl.val q0.cfg.pasid a 64 = (t, .ok b) → let r := queueRecOf b
          let y := t.slice sl.val
          let k := lowestFree ((y.queues.filter (fun e => e.2.used)).map Prod.fst) 1024 0
          let good := QueueRec.ok r = true ∧ 1 ≤ r.kind ∧ r.kind ≤ 8 ∧ r.pasid ∈ y.pasids
          (¬ good → exec (.queueCreate sl d) s = .next (t.finish c 1 0 0)) ∧
          (good → (y.quota.queues ≤ y.queuesUsed ∨ 1024 ≤ k) → exec (.queueCreate sl d) s = .next (t.finish c 4 0 0)) ∧
          (good → y.queuesUsed < y.quota.queues → k < 1024 → ∃ u : State, exec (.queueCreate sl d) s = .next (u.finish c 0 k (u.queue sl.val k).dev) ∧
            u.queue sl.val k = { (default : Queue) with used := true, cfg := r, dev := lowestFree t.devQueues 16384 2048 } ∧
            (t.queue sl.val k).used = false ∧ (∀ i, i ≠ k → u.queue sl.val i = t.queue sl.val i) ∧ (∀ m, m ≠ sl.val → u.slice m = t.slice m) ∧
            u.mem = t.mem)) ∧
        (∀ t, op = 1 → s.vread sl.val q0.cfg.pasid a 64 = (t, .xlate) → exec (.queueCreate sl d) s = .next (t.finish c 9 0 0)) ∧
        ((1024 ≤ j ∨ q.used = false) → (op = 2 → exec (.queueDestroy sl d) s = .next (s.finish c 5 j 0)) ∧
          (op = 3 → exec (.queueReset sl d) s = .next (s.finish c 5 j 0))) ∧
        (j < 1024 → q.used = true → op = 2 →
          (s.queueNamed sl.val j = true → exec (.queueDestroy sl d) s = .next (s.finish c 6 j 0)) ∧
          (s.queueNamed sl.val j = false → ∃ t : State, exec (.queueDestroy sl d) s = .next t ∧ (t.queue sl.val j).used = false)) ∧
        (j < 1024 → q.used = true → op = 3 →
          (q.halted = false → exec (.queueReset sl d) s = .next (s.finish c 3 j 0)) ∧
          (q.halted = true → ∃ t : State, exec (.queueReset sl d) s = .next (t.finish c 0 j q.dev) ∧
            t.queue sl.val j = { (default : Queue) with used := true, cfg := q.cfg, dev := q.dev } ∧
            (∀ i, i ≠ j → t.queue sl.val i = s.queue sl.val i) ∧ t.mem = s.mem)) ∧
        (op = 5 → x.quota.keySlots ≤ j → exec (.keyQuery sl d) s = .next (s.finish c 5 j 0)) ∧
        (op = 5 → j < x.quota.keySlots → let k := s.kslot (x.keyBase + j)
          let code := if k.st = .empty then 0 else if k.st = .active then 1 else if k.st = .exhausted then 2 else 3
          let rec32 := leBytes 1 code ++ List.replicate 7 0 ++ leBytes 8 k.inv ++ leBytes 8 k.limit ++ leBytes 8 k.win0.high
          (∀ t, s.vwrite sl.val q0.cfg.pasid a rec32 = (t, .ok []) → exec (.keyQuery sl d) s = .next (t.finish c 0 j 0)) ∧
          (∀ t, s.vwrite sl.val q0.cfg.pasid a rec32 = (t, .xlate) → exec (.keyQuery sl d) s = .next (t.finish c 9 j 0))))))

/-! ### Compartments, keys and firmware (chapters 15 and 16) -/

/-- The key store and the cipher key slots. The first operator key enters only in the provisioning wait, by both halves
and a matching commit; a failed generator stays failed; INSTALL takes the staged registers in one step and keeps
counts only from NEEDS_KEY; ERASE empties a slot. -/
def Obligations.KeyStoreAndSlots : Prop :=
  (∀ (s : State) (lo : BitVec 256) (hi : BitVec 128) (v : BitVec 64), let cmds := [Instr.firstOpkLoWrite lo, .firstOpkHiWrite hi, .firstOpkCommitWrite v]
    let served := s.romServes = true ∨ (s.fn 0 = true ∧ s.mod.stopped = false)
    (s.provisioning = false → (served → ∀ i ∈ cmds, exec i s = .next (s.emit (.dictDone .i3c 7 0))) ∧
      (¬ served → ∀ i ∈ cmds, exec i s = .next (s.emit (.i3cAck false))) ∧ exec .provisionTimeout s = .next s) ∧
    (s.provisioning = true →
      exec (.firstOpkLoWrite lo) s = .next ((s.setKeys (fun k => { k with opkLo := some lo.toNat })).emit (.dictDone .i3c 0 0xFFFF)) ∧
      exec (.firstOpkHiWrite hi) s = .next ((s.setKeys (fun k => { k with opkHi := some hi.toNat })).emit (.dictDone .i3c 0 0xFFFF)) ∧
      exec .provisionTimeout s = .next (s.setFirm (fun f => { f with phase := .verifyA })) ∧
      (∀ l h, s.keys.opkLo = some l → s.keys.opkHi = some h → opkId (l + 2 ^ 256 * h) = v.toNat → ∃ t : State, exec (.firstOpkCommitWrite v) s = .next t ∧
        t.keys.record = { s.keys.record with seq := s.keys.record.seq + 1, opk := some (l + 2 ^ 256 * h) } ∧ t.firm.phase = .verifyA ∧
        t.keys.opkLo = none ∧ t.keys.opkHi = none ∧ t.sent = .dictDone .i3c 0 0xFFFF :: s.sent) ∧
      ((s.keys.opkLo = none ∨ s.keys.opkHi = none ∨ ∀ l h, s.keys.opkLo = some l → s.keys.opkHi = some h → opkId (l + 2 ^ 256 * h) ≠ v.toNat) →
        exec (.firstOpkCommitWrite v) s =
          .next ((s.setKeys (fun k => { k with opkLo := none, opkHi := none })).emit (.dictDone .i3c 4 0))))) ∧
  (∀ s : State, exec .rngHealthFail s = .next (s.setKeys (fun k => { k with rngBad := true }))) ∧
  (∀ (s : State) (sl : Fin 512) (j : Fin 256), let x := s.slice sl.val
    let d := x.keyBase + j.val
    let k := s.kslot d
    let key := ((List.range 8).map (fun i => look 0 k.words i * 2 ^ (32 * i))).sum
    let fresh : KeySlot := { (default : KeySlot) with st := .active, key := key, fixed := k.fixedReg, limit := if k.limitReg = 0 then 2 ^ 32 else k.limitReg }
    let rest (t : State) := (∀ i, i ≠ d → t.kslot i = s.kslot i) ∧ t.host = s.host ∧ t.mem = s.mem ∧ t.sent = s.sent
    (x.st = .free ∨ x.st = .destroying → ∀ i ∈ [Instr.keySlotInstall sl j, .keySlotErase sl j], exec i s = .next (s.emit (.busError .pcieWrite))) ∧
    (x.st ≠ .free → x.st ≠ .destroying →
      (x.quota.keySlots ≤ j.val → ∀ i ∈ [Instr.keySlotInstall sl j, .keySlotErase sl j], exec i s = .next (s.count (0xA100 + sl.val) 6 1)) ∧
      (j.val < x.quota.keySlots →
        (k.st ≠ .needsKey → ∃ t : State, exec (.keySlotInstall sl j) s = .next t ∧ t.kslot d = fresh ∧ rest t) ∧
        (k.st = .needsKey → ∃ t : State, exec (.keySlotInstall sl j) s = .next t ∧ rest t ∧ t.kslot d =
          { k with st := if k.limit ≤ k.inv then .exhausted else .active, key := key, fixed := k.fixedReg, words := [], fixedReg := 0, limitReg := 0 }) ∧
        ∃ t : State, exec (.keySlotErase sl j) s = .next t ∧ t.kslot d = default ∧ rest t)))

/-- The stages of a tenant switch and of the end of TEST. Each stage acts only in its turn: stage 1 ends every slice,
stage 2 zeroes SRAM and key slots, stage 3 the stacks; stage 4 commits the staged compartment in both copies, or, with
a failed generator, only destroys the old media key; the re-verification ends in NORMAL or RECOVERY and counts the
switch when its compartment was committed. Log 42 names the model's readings. -/
def Obligations.SwitchStages : Prop :=
  (∀ (s : State) (us : BitVec 32) (mk : BitVec 512),
    (s.inStage 1 = false → exec (.drainStageEnd us) s = .next s) ∧ (s.inStage 2 = false → exec (.clearStageEnd us) s = .next s) ∧
    (s.inStage 3 = false → exec (.zeroStageEnd us) s = .next s) ∧ (s.inStage 4 = false → exec (.mediaKeyCommit us mk) s = .next s) ∧
    (s.keys.stage ≠ 6 → exec (.firmwareReverifyEnd us) s = .next s) ∧
    (s.inStage 1 = true → ∃ t : State, exec (.drainStageEnd us) s = .next t ∧ t.keys.stage = 2 ∧ (∀ n, (t.slice n).st = .free) ∧ t.fn 5 = false ∧
      (∀ r ∈ t.host.reqs, r.abandoned = true) ∧ t.flash.tier = .unmounted ∧ t.flash.buf = [] ∧
      (s.mod.svc = .switching → t.keys.times = s.keys.times.set 0 us.toNat)) ∧
    (s.inStage 2 = true → ∃ t : State, exec (.clearStageEnd us) s = .next t ∧ t.keys.stage = 3 ∧ t.keys.slots = [] ∧ t.host.atsCache = [] ∧ t.spBad = [] ∧
      (s.mod.svc = .switching → t.keys.times = s.keys.times.set 1 us.toNat) ∧
      ∀ a, t.byte a = if (0x010000000000 ≤ a ∧ a < 0x010040000000) ∨ (0x010100000000 ≤ a ∧ a < 0x010101000000) then 0 else s.byte a) ∧
    (s.inStage 3 = true → s.mod.svc = .switching → ∃ t : State, exec (.zeroStageEnd us) s = .next t ∧ t.keys.stage = 4 ∧ t.mod.svc = .switching ∧
      t.routes = [] ∧ t.keys.times = s.keys.times.set 2 us.toNat ∧ t.flash = s.flash ∧ ∀ a, t.byte a = if a < 0x00C000000000 then 0 else s.byte a) ∧
    (s.inStage 3 = true → s.mod.svc ≠ .switching → ∃ t : State, exec (.zeroStageEnd us) s = .next t ∧ t.keys.stage = 5 ∧ t.mod.svc = .boot ∧
      t.keys.latch = false ∧ t.mod.jumped = false ∧ t.fn 0 = false ∧ t.flash.vols = s.flash.vols ∧ t.keys.record = s.keys.record ∧ t.routes = [] ∧
      ∀ a, a < 0x00C000000000 → t.byte a = 0) ∧
    (s.inStage 4 = true → s.keys.rngBad = false → ∀ id cs, s.keys.secret = some (id, cs) → ∃ t : State, exec (.mediaKeyCommit us mk) s = .next t ∧
      t.keys.copyA = t.keys.copyB ∧ t.keys.record = ⟨s.keys.record.seq + 1, id, s.obj 0x7200 5, some cs, some mk.toNat,
        s.keys.record.epoch + 1, s.keys.record.opk⟩ ∧ t.keys.committed = true ∧
      t.keys.entered = s.mod.tick ∧ t.keys.stage = 5 ∧ t.keys.latch = false ∧ t.mod.jumped = false ∧ t.mod.svc = s.mod.svc ∧ t.flash.vols = [] ∧ t.flash.map = [] ∧
      t.ckpt.copies = []) ∧
    (s.inStage 4 = true → s.keys.rngBad = true → ∃ t : State, exec (.mediaKeyCommit us mk) s = .next t ∧ t.keys.copyA = t.keys.copyB ∧
      t.keys.record = { s.keys.record with media := none } ∧ t.keys.committed = false ∧ t.flash.tier = .failed ∧ t.keys.stage = 5)) ∧
  (∀ (s : State) (us : BitVec 32), s.keys.stage = 6 →
    (s.mod.svc = .switching → ∃ t : State, exec (.firmwareReverifyEnd us) s = .next t ∧ t.keys.stage = 0 ∧ t.keys.secret = none ∧ t.fn 0 = true ∧ t.fn 1 = true ∧
      t.keys.record = s.keys.record ∧
      t.obj 0x7200 7 = (if s.keys.committed then 2 else 3) ∧
      (s.mod.swFault = true ∨ s.firm.other = true ∨ s.keys.committed = false → t.mod.svc = .recovery ∧ t.fn 2 = false ∧ t.fn 3 = false ∧ t.fn 4 = false) ∧
      (s.mod.swFault = false → s.firm.other = false → s.keys.committed = true → t.mod.svc = .normal ∧ t.fn 3 = true ∧ t.fn 4 = true)) ∧
    (s.mod.svc ≠ .switching → ∃ t : State, exec (.firmwareReverifyEnd us) s = .next t ∧ t.keys.stage = 0 ∧ t.fn 0 = true ∧ t.mod.testEnding = false ∧
      t.mod.svc = s.mod.svc ∧ t.dict.pend = s.dict.pend)) ∧
  (∀ s : State, (s.mod.flushing = true → s.flash.allFlushed = true →
      exec .testEnter s = .next { s with mod := { s.mod with svc := .test, req := none, flushing := false } }) ∧
    (s.mod.flushing = false ∨ s.flash.allFlushed = false → exec .testEnter s = .next s))

/-- Boot, update staging and the management core. The ROM boots the preferred bank, a pending activation first, else the
other bank in RECOVERY, else it halts; the image that COMMIT names ends STAGED or FAILED with its code; a stopped
management core raises `ALERT_N` and changes nothing else. The admin ring and its firmware commands. An ENABLE starts
the ring when the versions agree and refuses it otherwise; entries start in order while the completion ring has room;
a reset empties the pair and discards what is in progress; IDENTIFY writes the identity and CTRL_RING installs one
control ring. A CHAN notification written while the ring does not run is kept with its slice (log 42, the model's
reading). -/
def Obligations.BootUpdateAndAdminRing : Prop :=
  (∀ (s : State) (ra rb : BankCheck) (us : BitVec 32), let run := exec (.bankVerifyComplete ra rb us) s
    let act := s.nor.pendKind = 2 ∨ (s.nor.pendKind = 1 ∧ s.keys.stage ≠ 5)
    let p := if act then s.nor.pendB else s.nor.prefB
    let bank (b : Bool) := if b then s.nor.bankB else s.nor.bankA
    let chk (b : Bool) := if b then rb else ra
    let code (b : Bool) := verifyBank (bank b) s.nor.svnMin s.nor.keyDigest (chk b)
    let state (t : State) (b : Bool) := if b then t.nor.stateB else t.nor.stateA
    (s.mod.jumped = true ∨ s.firm.phase = .halted ∨ s.firm.phase = .provisionWait ∨ s.isReady 25 = false → run = .next s) ∧
    (s.mod.jumped = false → s.firm.phase ≠ .halted → s.firm.phase ≠ .provisionWait → s.isReady 25 = true →
      (code p = 0 ∨ code (!p) = 0 → ∃ t : State, run = .next t ∧ t.mod.jumped = true ∧ t.keys.latch = true ∧ t.keys.setup = some s.keys.record ∧
        t.firm.phase = .firmware ∧ t.firm.bootedB = (if code p = 0 then p else !p) ∧ t.nor.prefB = (if code p = 0 then p else !p) ∧
        (code p ≠ 0 → state t p = 2 ∧ state t (!p) = 1 ∧ t.firm.other = true) ∧ (code p = 0 → state t p = 1 ∧ t.firm.other = false) ∧
        (act → t.nor.pendKind = 0) ∧
        (s.keys.stage ≠ 5 ∨ s.mod.svc ≠ .switching → s.mgiHold = [] → t.mod.bootFault = false ∧
          t.mod.svc = (if code p ≠ 0 ∨ s.mod.bootFault = true then .recovery else .bringup)) ∧
        (s.keys.stage = 5 → t.keys.stage = 6) ∧
        (s.mgiHold = [] → let b := bank (if code p = 0 then p else !p)
          (t.seqr 16).pc = 0x010200000000 + bankField b 28 4 ∧ (t.seqr 16).codeLo = 0x010200000000 ∧
          (t.seqr 16).codeHi = 0x010200000000 + bankField b 24 4 ∧
          (∀ i < bankField b 24 4, t.byte (0x010200000000 + i) = look 0 b (512 + i)))) ∧
      (code p ≠ 0 → code (!p) ≠ 0 → ∃ t : State, run = .next t ∧ t.firm.phase = .halted ∧ t.mod.jumped = false ∧ t.mod.svc = s.mod.svc ∧
        bit t.pow.alert 3 = true ∧ t.keys = s.keys ∧ t.mem = s.mem ∧ state t true = 2 ∧ state t false = 2))) ∧
  (∀ s : State, (s.firm.stage = .erasing → exec .stageEraseDone s = .next (s.setFirm (fun f => { f with stage := .loading }))) ∧
    (s.firm.stage ≠ .erasing → exec .stageEraseDone s = .next s) ∧
    (∃ t : State, exec .mgmtCoreStop s = .next t ∧ t.mod = { s.mod with stopped := true } ∧ t.pow = { s.pow with alert := setBit s.pow.alert 4 true } ∧
      t.host = s.host ∧ t.dict = s.dict ∧ t.mem = s.mem ∧ t.net = s.net ∧ t.flash = s.flash ∧ t.fwRuns = false)) ∧
  (∀ (s : State) (c : BankCheck), let b := s.inactive
    let r0 := verifyBank (if b then s.nor.bankB else s.nor.bankA) s.nor.svnMin s.nor.keyDigest c
    let r := if r0 = 0 ∧ c.payloadOk = false then 5 else r0
    (s.firm.stage ≠ .verifying → exec (.stageVerifyDone c) s = .next s) ∧
    (s.firm.stage = .verifying → ∃ t : State, exec (.stageVerifyDone c) s = .next t ∧ t.firm.stage = (if r = 0 then .staged else .failed) ∧
      t.firm.stageRes = r ∧ (if b then t.nor.stateB else t.nor.stateA) = (if r = 0 then 3 else 2) ∧ t.nor.prefB = s.nor.prefB ∧
      t.firm.bootedB = s.firm.bootedB ∧ t.mem = s.mem)) ∧
  (∀ (s : State) (sl : Fin 512) (v : BitVec 32), let x := s.slice sl.val
    x.st ≠ .free → x.st ≠ .destroying → s.adm.st ≠ .running → ∃ t : State, exec (.chanDbWrite sl v) s = .next t ∧
      (t.slice sl.val).chanDb = some v.toNat ∧ t.adm = s.adm ∧
      t.obj 0xA000 0xD = (if x.chanDb.isSome then wrap48 (s.obj 0xA000 0xD + 1) else s.obj 0xA000 0xD)) ∧
  (∀ s : State, let same := s.adm.version / 65536 = bankVersion s.bootedBank 12 / 65536
    let wait := s.setAdm (fun a => { a with enabling := true })
    (s.fn 1 = false → exec .admEnable s = .next wait) ∧
    (s.fn 1 = true → ¬ same → exec .admEnable s = .next (s.setAdm (fun a => { a with enabling := false, st := .refused, code := 0xB }))) ∧
    (s.fn 1 = true → same → (∃ t : State, exec .admEnable s = .next t ∧ t.adm.st = .running ∧ t.adm.code = 0 ∧ t.adm.enabling = false ∧
        t.adm.cqHead = s.adm.cqHead ∧ t.mem = s.mem) ∧
      ((∀ e ∈ s.host.slices, e.2.chanDb = none) → exec .admEnable s =
        .next (s.setAdm (fun a => { a with enabling := false, st := .running, code := 0 })))) ∧
    ∃ t : State, exec .admReset s = .next t ∧ t.adm.st = .off ∧ t.adm.sqTail = 0 ∧ t.adm.sqHead = 0 ∧ t.adm.cqTail = 0 ∧ t.adm.cqHead = 0 ∧ t.adm.waiting = [] ∧
      t.adm.started = [] ∧ t.adm.discard = s.adm.discard ++ s.adm.started ∧ t.host.slices = s.host.slices ∧ t.mem = s.mem) ∧
  (∀ (s : State) (v : BitVec 32), let tag := look 0 s.adm.sub (s.adm.sqHead % 32 * 16 + 1)
    let take := s.setAdm (fun a => { a with sqTail := v.toNat, sqHead := v.toNat })
    (s.fwRuns = false → exec (.adminSqDoorbell v) s = .next s) ∧
    (s.fwRuns = true → (s.adm.st ≠ .running ∨ s.adm.sqHead = v.toNat ∨ s.adm.full = true) →
      exec (.adminSqDoorbell v) s = .next (s.setAdm (fun a => { a with sqTail := v.toNat }))) ∧
    (s.fwRuns = true → s.adm.st = .running → s.adm.full = false → s.adm.sqHead < 2 ^ 32 → v.toNat = (s.adm.sqHead + 1) % 2 ^ 32 →
      (tag ≠ 0xFFFFFFFF → exec (.adminSqDoorbell v) s = .next (take.setAdm (fun a => { a with started := a.started ++ [tag] }))) ∧
      (tag = 0xFFFFFFFF → exec (.adminSqDoorbell v) s = .next (take.admPush (admEntry 0 1 0 tag))))) ∧
  (∀ (s : State) (v : BitVec 32), let t0 := (s.setAdm (fun a => { a with cqHead := v.toNat })).syncPf0
    let idle := s.adm.st ≠ .running ∨ s.adm.sqHead = s.adm.sqTail
    (∃ t : State, exec (.adminCqHeadWrite v) s = .next t ∧ t.adm.cqHead = v.toNat ∧ t.host.slices = s.host.slices ∧ t.mem = s.mem) ∧
    (s.adm.waiting = [] → idle → exec (.adminCqHeadWrite v) s = .next t0) ∧
    (∀ e, s.adm.waiting = [e] → idle → t0.adm.full = false → ∃ t : State, exec (.adminCqHeadWrite v) s = .next t ∧ t.adm.waiting = [] ∧
      look 0 t.adm.comp (s.adm.cqTail % 32) = e ∧ t.adm.cqTail = (s.adm.cqTail + 1) % 2 ^ 32)) ∧
  (∀ (s : State) (d : List Byte) (q : Option (List Byte)) (r : Bool), let c := admCmdOf d
    let all := [(Instr.identify d r, 1), (.ctrlRing d q, 2)]
    (s.adm.st ≠ .running ∨ s.fwRuns = false → ∀ e ∈ all, exec e.1 s = .next s) ∧
    (s.adm.st = .running → s.fwRuns = true →
      (c.op ∉ admOps → ∀ e ∈ all, exec e.1 s = .next (s.admDone 0 1 0 c.tag)) ∧
      (c.op ∈ admOps → ∀ e ∈ all, c.op ≠ e.2 → exec e.1 s = .next s) ∧
      ((c.reserved = true ∨ c.tag = 0xFFFFFFFF) → ∀ e ∈ all, c.op = e.2 → exec e.1 s = .next (s.admDone 0 1 0 c.tag)) ∧
      (c.reserved = false → c.tag ≠ 0xFFFFFFFF → c.op = 1 →
        (s.mod.svc ≠ .normal → s.mod.svc ≠ .recovery → exec (.identify d r) s = .next (s.admDone 0 3 0 c.tag)) ∧
        (s.mod.svc = .normal ∨ s.mod.svc = .recovery → exec (.identify d false) s = .next (s.admDone 0 9 0 c.tag) ∧
          exec (.identify d true) s = .next ((s.emit (.hostWrite none c.addr.toNat s.identity)).admDone 0 0 0 c.tag))) ∧
      (c.reserved = false → c.tag ≠ 0xFFFFFFFF → c.op = 2 → let run := exec (.ctrlRing d q) s
        (s.mod.svc ≠ .normal → run = .next (s.admDone 0 3 0 c.tag)) ∧
        (s.mod.svc = .normal → let sl := c.slice.toNat
          let x := s.slice sl
          (x.st = .free → run = .next (s.admDone 0 2 0 c.tag)) ∧
          (x.st ≠ .free →
            (c.pasid.toNat ∉ x.pasids → run = .next (s.admDone sl 1 0 c.tag)) ∧
            (c.pasid.toNat ∈ x.pasids →
              ((∃ e ∈ x.queues, e.1 = 0 ∧ e.2.used = true) → run = .next (s.admDone sl 3 0 c.tag)) ∧
              ((∀ e ∈ x.queues, e.1 ≠ 0 ∨ e.2.used = false) → (q = none → run = .next (s.admDone sl 9 0 c.tag)) ∧
                (∀ b, q = some b → let y := queueRecOf b
                  let good := QueueRec.ok y = true ∧ y.kind = 9 ∧ y.pasid = c.pasid.toNat
                  (¬ good → run = .next (s.admDone sl 1 0 c.tag)) ∧
                  (good → x.quota.queues ≤ x.queuesUsed → run = .next (s.admDone sl 4 0 c.tag)) ∧
                  (good → x.queuesUsed < x.quota.queues → ∃ t : State, run = .next (t.admDone sl 0 0 c.tag) ∧
                    (t.slice sl).hello = false ∧ t.queue sl 0 = { (default : Queue) with used := true, cfg := y, dev := lowestFree s.devQueues 16384 2048 } ∧
                    (∀ k, k ≠ 0 → t.queue sl k = s.queue sl k) ∧ ∀ m, m ≠ sl → t.slice m = s.slice m)))))))))

/-! ### Power, thermal control, telemetry and the management tick (chapters 16 to 18) -/

/-- The power controller. A reading replaces a rail's values and a third failure in a row makes it count as its highest;
the guard halves the duty at the fourth reading in a row above 105 % of the cap; a period grants each class its
minimum and then the headroom in order, never more than the budget, or descends one step of Table 17-3; a duty window
takes the duty then in force. -/
def Obligations.PowerCapping : Prop :=
  (∀ (s : State) (r : List (Option (BitVec 16 × BitVec 16))), r.length = 31 → ∃ t : State, exec (.railReading r) s = .next t ∧
    (∀ i mv w, r[i]? = some (some (mv, w)) → t.rail i = ⟨w.toNat, mv.toNat, max (s.rail i).high w.toNat, 0⟩) ∧
    (∀ i, r[i]? = some none → t.rail i = ⟨(s.rail i).mw, (s.rail i).mv, (s.rail i).high, (s.rail i).fails + 1⟩ ∧
      ((s.rail i).fails = 2 → s.mod.holding = false → .event .operator 0x1104 i 0 0 ∈ t.sent)) ∧
    bit t.pow.alert 5 = (List.range 31).any (fun i => decide (3 ≤ (t.rail i).fails)) ∧ t.mod.islands = s.mod.islands ∧ t.mem = s.mem ∧
    let hot := s.obj 0x8000 1 * 105 < t.modulePower * 100
    (¬ hot → t.pow.guard = 0 ∧ t.pow.duty = s.pow.duty) ∧
    (hot → s.pow.guard + 1 ≠ 4 → t.pow.guard = s.pow.guard + 1 ∧ t.pow.duty = s.pow.duty) ∧
    (hot → s.pow.guard + 1 = 4 → t.pow.guard = 0 ∧ t.pow.duty = max 1 (s.pow.duty / 2) ∧ bit t.pow.alert 2 = true ∧
      t.obj 0x8000 0xA = wrap48 (s.obj 0x8000 0xA + 1) ∧ (s.mod.holding = false → .event .operator 0x1102 (max 1 (s.pow.duty / 2)) 0 0 ∈ t.sent))) ∧
  (∀ (v budget : Nat) (lo hi : List Nat), lo.length = 3 → hi.length = 3 → lo.sum ≤ budget →
    let g := capGrants lo hi (capOrder v) (budget - lo.sum) lo
    g.sum ≤ budget ∧ ∀ c, c < 3 → lo.getD c 0 ≤ g.getD c 0 ∧ g.getD c 0 ≤ max (lo.getD c 0) (hi.getD c 0)) ∧
  (∀ (s : State) (pr : Predict), let cap := s.obj 0x8000 1
    let budget := cap - s.railSum [28, 29, 30]
    let base := pr.lo.getD 0 0 + pr.lo.getD 1 0 + pr.lo.getD 2 0
    let runs := s.fwRuns = true ∧ s.mod.svc ≠ .boot ∧ s.mod.svc ≠ .test
    let give := capGrants pr.lo pr.hi (capOrder (s.obj 0x8100 1)) (budget - base) pr.lo
    let f (c : Nat) : Nat := min (s.classCeiling c) (classMin c + 25 * capStep (pr.curve.getD c []) (give.getD c 0))
    let p := s.pow.descend (decide (cap < s.modulePower)) (dutyFor pr.duty (budget - (pr.lo.getD 0 0 + pr.lo.getD 1 0)))
    let clocks (t : State) (f : Nat → Nat) := s.mod.islands.length = 26 → ∀ n, (n < 16 → (t.island n).clk = f 2) ∧ (16 ≤ n → n < 20 → (t.island n).clk = f 1) ∧
      (n = 20 → (t.island n).clk = f 0) ∧ (n = 21 ∨ n = 22 → (t.island n).clk = min 1600 (max 1200 (f 0))) ∧ (23 ≤ n → t.island n = s.island n)
    (¬ runs → exec (.capPeriod pr) s = .next s) ∧
    (runs → base ≤ budget → ∃ t : State, exec (.capPeriod pr) s = .next t ∧ t.pow.duty = 16 ∧ t.pow.memLimit = 16 ∧ t.pow.linkStep = 16 ∧ t.pow.capState ≤ 1 ∧
      t.pow.guard = 0 ∧ bit t.pow.alert 0 = false ∧ bit t.pow.alert 2 = false ∧ clocks t f ∧ t.sent = s.sent ∧ t.mem = s.mem) ∧
    (runs → budget < base → ∃ t : State, exec (.capPeriod pr) s = .next t ∧ t.pow.duty = p.duty ∧ t.pow.memLimit = p.memLimit ∧ t.pow.linkStep = p.linkStep ∧
      t.pow.capState = p.capState ∧ t.pow.guard = 0 ∧ clocks t classMin ∧ t.mem = s.mem ∧
      (p.capState ≠ 5 → bit t.pow.alert 0 = false ∧ t.sent = s.sent) ∧
      (p.capState = 5 → bit t.pow.alert 0 = true ∧ t.obj 0x8000 9 = wrap48 (s.obj 0x8000 9 + 1) ∧
        (s.mod.holding = false → t.sent = .event .operator 0x1101 cap s.modulePower 0 :: s.sent)))) ∧
  (∀ (p : PowerCtl) (k : Nat), 1 ≤ k → 1 ≤ p.duty → 1 ≤ p.memLimit → 1 ≤ p.linkStep →
    (1 < p.duty → (p.descend true k).duty = (if k < p.duty then k else p.duty - 1) ∧ (p.descend true k).memLimit = p.memLimit) ∧
    (p.duty = 1 → 1 < p.memLimit → (p.descend true k).memLimit = p.memLimit - 1 ∧ (p.descend true k).duty = 1 ∧ (p.descend true k).linkStep = p.linkStep) ∧
    (p.duty = 1 → p.memLimit = 1 → 1 < p.linkStep → (p.descend true k).linkStep = p.linkStep - 1) ∧
    (p.duty = 1 → p.memLimit = 1 → p.linkStep = 1 → p.descend true k = { p with capState := 5 })) ∧
  (∀ s : State, exec .dutyWindowStart s = .next (s.setPow (fun p => { p with
    window := p.window + 1, dutyNow := if s.keys.stage = 2 then 16 else p.duty })))

/-- Telemetry and the event recorder. A tally adds to its bin with saturation; a notice becomes the events of its code;
samples, interval ends, records and their log follow R523 to R529, and a slice's usage counters are latched and
cleared as R519 and R520 say. Log 43 names the model's readings. -/
def Obligations.TelemetryAndRecorder : Prop :=
  (∀ (s : State) (src : Fin 26) (pl : BitVec 50) (e : CsErr) (d : NoticeData), e ≠ .uncorrectable →
    let h := bits pl.toNat 48 45
    let k := 64 * h + bits pl.toNat 44 39
    let m : CsMsg := ⟨25, src.val, 6, pl.toNat, d.a0.toNat, d.a1.toNat, d.a2.toNat⟩
    let code := bits pl.toNat 48 33
    let ev (r : Recipient) : Out := .event r code d.a0.toNat d.a1.toNat d.a2.toNat
    ((s.island 25).istate ≠ .ready → exec (.eventTally src pl e) s = .next (s.count 0x2019 0xD 1) ∧
      exec (.eventNotice src pl e d) s = .next (s.count 0x2019 0xD 1)) ∧
    ((s.island 25).istate = .ready →
      (14 ≤ h → exec (.eventTally src pl e) s = .next ((s.count 0x9000 3 1).count 0x9000 4 1)) ∧
      (h < 14 → ∃ t : State, exec (.eventTally src pl e) s = .next t ∧ t.obj 0x9000 3 = wrap48 (s.obj 0x9000 3 + 1) ∧
        look 0 t.rcd.acc.bins k = min 65535 (look 0 s.rcd.acc.bins k + bits pl.toNat 38 23) ∧
        (∀ i, i ≠ k → look 0 t.rcd.acc.bins i = look 0 s.rcd.acc.bins i) ∧ t.sent = s.sent ∧ t.mod = s.mod ∧ t.mem = s.mem) ∧
      (s.mod.holding = true ∨ 4096 ≤ s.mod.inbox.length → exec (.eventNotice src pl e d) s =
        .next { s with mgiHold := s.mgiHold ++ [.msg m] }) ∧
      (s.mod.holding = false → s.mod.inbox.length < 4096 → ∃ t : State, exec (.eventNotice src pl e d) s = .next t ∧ t.rcd = s.rcd ∧ t.mem = s.mem ∧
        t.mod.inbox = (if s.mod.jumped then s.mod.inbox ++ [m] else s.mod.inbox) ∧
        ((eventTo code).1 = true → ev .operator ∈ t.sent) ∧ ((eventTo code).2.1 = true → ev .manager ∈ t.sent) ∧
        ((eventTo code).2.2 = true → bit pl.toNat 23 = false → ev (.slice (bits pl.toNat 32 24)) ∈ t.sent) ∧
        (eventTo code = (false, false, false) → t.sent = s.sent)))) ∧
  (∀ (s : State) (src : Fin 26) (pl : BitVec 50) (d : NoticeData), ∀ c ∈ [Instr.eventTally src pl .uncorrectable, .eventNotice src pl .uncorrectable d],
    ∃ t : State, exec c s = .next t ∧ t.rcd = s.rcd ∧ t.mem = s.mem ∧ (s.mod.svc = .normal → s.mod.holding = false → s.mod.inbox.length < 4096 → t.mod.svc = .recovery)) ∧
  (∀ s : State, let one (h : Nat) (b : Nat) (t : State) := look 0 t.rcd.acc.bins (64 * h + b) = min 65535 (look 0 s.rcd.acc.bins (64 * h + b) + 1)
    ∃ t : State, exec .histSample s = .next t ∧ one 8 (tempBin (s.hottest (List.range 16))) t ∧ one 9 (tempBin (s.hottest [16, 17, 18, 19])) t ∧
      one 10 (tempBin (s.hottest [20, 21, 22])) t ∧ one 11 (tempBin (s.hottest [23, 24, 25])) t ∧ one 12 (min 63 (s.pow.secMean / 50)) t ∧
      (∀ i, i < 512 ∨ 832 ≤ i → look 0 t.rcd.acc.bins i = look 0 s.rcd.acc.bins i) ∧ t.mod = s.mod ∧ t.sent = s.sent) ∧
  (∀ s : State, let due := s.mod.svc ≠ .boot ∧ s.mod.svc ≠ .test ∧ s.mod.tick ≠ 0 ∧ s.mod.tick % (s.obj 0x9100 1 * 60000) = 0 ∧
      s.rcd.acc.startTick ≠ s.mod.tick
    (¬ due → exec .intervalEnd s = .next s) ∧
    (due → ∃ t : State, exec .intervalEnd s = .next t ∧ t.rcd.acc = Rec.start s.mod.tick ∧ t.nor = s.nor ∧
      (s.rcd.pending = none → t.rcd.pending = some s.closing) ∧
      (∀ p, s.rcd.pending = some p → t.rcd.pending = some (p.merge s.closing)) ∧
      (s.fwRuns = true → ∀ w ∈ t.dict.pend, w.bnd ≠ .interval))) ∧
  (∀ s : State, let gone : State := { s with rcd := { s.rcd with pending := none } }
    (s.fwRuns = false ∨ s.rcd.freeze = true ∨ s.rcd.erasing = true ∨ s.rcd.pending = none → exec .recordWrite s = .next s) ∧
    (∀ p, s.fwRuns = true → s.rcd.freeze = false → s.rcd.erasing = false → s.rcd.pending = some p →
      (8192 ≤ s.nor.log.length → exec .recordWrite s = .next (gone.count 0x9100 0xC p.intervals)) ∧
      (s.nor.log.length < 8192 → ∃ t : State, exec .recordWrite s = .next t ∧ t.rcd.pending = none ∧ t.rcd.acc = s.rcd.acc ∧
        t.nor.log = s.nor.log ++ [{ p with seq := s.nor.nextSeq }] ∧ t.nor.nextSeq = min (2 ^ 32 - 1) (s.nor.nextSeq + 1) ∧
        (s.nor.log.length = 8191 → t.fn 7 = false ∧ (s.mod.holding = false → .event .operator 0x1201 0 t.nor.nextSeq 0 ∈ t.sent)) ∧
        (s.nor.log.length < 8191 → t.sent = s.sent))) ∧
    (s.rcd.freeze = false ∨ s.mod.tick < s.rcd.freezeTick + s.obj 0x9100 3 * 60000 → exec .freezeMaxExpire s = .next s) ∧
    (s.rcd.freeze = true → s.rcd.freezeTick + s.obj 0x9100 3 * 60000 ≤ s.mod.tick → ∃ t : State, exec .freezeMaxExpire s = .next t ∧ t.rcd.freeze = false ∧
      t.rcd.acc = s.rcd.acc ∧ (s.rcd.erasing = false → t.rcd.pending = none)) ∧
    (s.rcd.erasing = false → exec .logClearDone s = .next s) ∧
    (s.rcd.erasing = true → ∃ t : State, exec .logClearDone s = .next t ∧ t.rcd.erasing = false ∧ t.nor.log = [] ∧ t.nor.nextSeq = s.nor.nextSeq ∧ t.fn 7 = true)) ∧
  (∀ s : State, ∃ t : State, exec .sliceCounterLatch s = .next t ∧ ∀ n, s.sliceExists n = true → t.slice n = { s.slice n with latched := (s.slice n).live }) ∧
  (∀ (s : State) (sl i : Fin 512) (v : BitVec 64), let run := exec (.gloveCounterWrite sl i v) s
    let good := s.gloveThere sl.val = true ∧ (i.val ≤ 22 ∨ (56 ≤ i.val ∧ i.val ≤ 58))
    let clears := s.wideLive = true ∧ i.val ≤ 22 ∧ v = 0
    (¬ good → run = .next (s.emit (.busError .pcieWrite))) ∧ (good → ¬ clears → run = .next s) ∧
    (good → clears → ∃ t : State, run = .next t ∧ ⟨.tick, counterKey sl.val i.val, 0, 0⟩ ∈ t.dict.pend ∧ t.host = s.host ∧ t.mem = s.mem))

/-- The management tick. Out of reset `TICK` advances by one; where the firmware runs it then commits what waits for the
tick: a pending `CAP` becomes the cap, nothing pending for TICK stays, the readiness copy shows the readiness bits and
the inbox is empty; where it does not run, nothing else changes, but that the consumer indices of full rings are read
again. -/
def Obligations.ManagementTick : Prop :=
  ∀ (s : State) (w : TickWork), let on := s.pins.pwrOk = true ∧ s.pins.inReset = false
    let ticked : State := { s with mod := { s.mod with tick := s.mod.tick + 1 }, net := { s.net with now := max s.net.now ((s.mod.tick + 1) * 1000000) } }
    (¬ on → exec (.managementTick w) s = .next s) ∧
    (on → s.fwRuns = false → exec (.managementTick w) s = .next ticked.pollRings) ∧
    (on → s.fwRuns = false → (∀ e ∈ s.host.slices, ∀ q ∈ e.2.queues, q.2.full = false) → exec (.managementTick w) s = .next ticked) ∧
    (on → s.fwRuns = true → exec (.managementTick w) s = .next (ticked.firmTick w).pollRings ∧
      ∀ v, s.mgiHold = [] → s.host.slices = [] → s.ckpt.jobs = [] → s.dict.queue = [] → s.mod.req = none → s.mod.resetReq = 0 → s.dict.pend = [⟨.tick, 0x800001, 0, v⟩] →
        ∃ t : State, exec (.managementTick w) s = .next t ∧ t.obj 0x8000 1 = v ∧ t.dict.pend = [] ∧ t.mod.tick = s.mod.tick + 1 ∧ t.mod.svc = s.mod.svc ∧
          t.mod.readyCopy = s.readyWord ∧ t.mod.inbox = [])

/-! ### Single rules -/

/-- The canonical NaNs of R90: each format's code, and no conversion or FP32 operation gives another NaN, whatever payload
its source has. -/
def Obligations.CanonicalNaNs : Prop :=
  nanCode 4 = 0x7F ∧ nanCode 5 = 0x7E ∧ nanCode 7 = 0x7FC0 ∧ nanCode 8 = 0x7E00 ∧ nanCode 9 = 0x7FC00000 ∧
  (∀ (e e2 c : Nat) (r : Rnd), hasNan e = true → elemVal e2 c = .nan → (convert e r (elemVal e2 c)).1 = nanCode e) ∧
  (∀ (e : Nat) (r : Rnd) (v : Val), e ≤ 9 → elemVal e (convert e r v).1 = .nan → (convert e r v).1 = nanCode e) ∧
  ∀ (a b c f : Nat) (mx : Bool), ∀ x ∈ [add32 a b, sub32 a b, mul32 a b, fma32 a b c, minmax32 mx a b, sfu f a],
    x < 2 ^ 32 → elemVal 9 x = .nan → a < 2 ^ 32 → b < 2 ^ 32 → x = 0x7FC00000

/-- R420: a link that trains narrower than ×16 or slower than 64 GT/s raises an event to the operator and the manager, no
function stops working, and `LINK_STATUS` shows the rate, the width and the mode. -/
def Obligations.DegradedLinkTraining : Prop :=
  ∀ (s : State) (rate : BitVec 8) (width : BitVec 5) (flit : Bool), ∃ t : State, exec (.pcieLinkTrained rate width flit) s = .next t ∧
    (width.toNat < 16 ∨ rate.toNat < 64 → s.mod.holding = false → .event .operator 0x0E01 t.linkStatus 0 0 ∈ t.sent ∧ .event .manager 0x0E01 t.linkStatus 0 0 ∈ t.sent) ∧
    t.mod.fns = s.mod.fns ∧ t.host.slices = s.host.slices ∧ t.mem = s.mem ∧
    bits t.linkStatus 7 0 = rate.toNat ∧ bits t.linkStatus 12 8 = width.toNat ∧ bit t.linkStatus 13 = flit ∧ bits t.linkStatus 15 14 = 0

/-- R438: the two notifications of the tenant–manager channel, CHAN_DB with the admin ring running and CHAN_NOTIFY, which
leaves `CHAN_IN` and signals steering entry 1; both in every slice state except FREE and DESTROYING. -/
def Obligations.ManagerChannel : Prop :=
  (∀ (s : State) (sl : Fin 512) (v : BitVec 32), let x := s.slice sl.val
    let e := admEntry sl.val 0xF0 v.toNat 0xFFFFFFFF
    (x.st = .free ∨ x.st = .destroying → exec (.chanDbWrite sl v) s = .next (s.emit (.busError .pcieWrite))) ∧
    (x.st ≠ .free → x.st ≠ .destroying →
      (s.adm.st = .running → s.adm.waiting.any (isChan sl.val) = true → ∃ t : State, exec (.chanDbWrite sl v) s = .next t ∧
        t.adm = { s.adm with waiting := s.adm.waiting.map (fun w => if isChan sl.val w then e else w) } ∧
        t.obj 0xA000 0xD = wrap48 (s.obj 0xA000 0xD + 1)) ∧
      (s.adm.st = .running → s.adm.waiting.any (isChan sl.val) = false → exec (.chanDbWrite sl v) s = .next (s.admPush e) ∧
        (s.adm.full = false → s.adm.waiting = [] → look 0 (s.admPush e).adm.comp (s.adm.cqTail % 32) = e ∧
          (s.admPush e).adm.cqTail = (s.adm.cqTail + 1) % 2 ^ 32)))) ∧
  (∀ (s : State) (d : List Byte), s.admits 0x2A d → let c := admCmdOf d
    let sl := c.slice.toNat
    let x := s.slice sl
    let put := s.setSlice sl (fun y => { y with chanIn := c.count.toNat % 2 ^ 32 })
    (x.st = .free → exec (.chanNotify d) s = .next (s.admDone 0 2 0 c.tag)) ∧
    (x.st = .destroying → exec (.chanNotify d) s = .next (s.admDone sl 3 0 c.tag)) ∧
    (x.st ≠ .free → x.st ≠ .destroying → exec (.chanNotify d) s = .next ((put.steerSignal sl 1).admDone sl 0 0 c.tag) ∧
      ((put.steerSignal sl 1).slice sl).chanIn = c.count.toNat % 2 ^ 32))

/-- R313: an entry is met when key and entry agree under the mask over all 512 bits, and the packet takes the valid
matching entry with the lowest index; a slice's entry is valid for packets of that slice alone (R314), and no entry
acts where none matches. -/
def Obligations.FirstMatchClassifies : Prop :=
  ∀ (s : State) (k : Nat), canonical default s.net.cls = true →
    let valid (i : Nat) (e : ClsEntry) := bit e.action 63 = true ∧
      (s.clsOwner i = 1 ∨ ∃ sl, s.clsOwner i = 2 + sl ∧ bit k 490 = true ∧ bit k 491 = false ∧ bits k 500 492 = sl)
    let meets (i : Nat) := valid i (sget s.net.cls i) ∧ ∀ b, b < 512 → bit (sget s.net.cls i).mask b = true → bit k b = bit (sget s.net.cls i).key b
    let wide := k < 2 ^ 512 ∧ ∀ e ∈ s.net.cls, e.2.key < 2 ^ 512 ∧ e.2.mask < 2 ^ 512
    wide → (∀ i e, s.classify k = some (i, e) ↔ e = sget s.net.cls i ∧ meets i ∧ ∀ j, j < i → ¬ meets j) ∧
      (s.classify k = none ↔ ∀ i, ¬ meets i)
end

