-- ==== Sys2Proof/Laws/Store.lean ====
section
/-!
SUPPORT. Laws of sparse tables, byte strings and bit fields: what a table reads as after a write, the canonical form, and
numbers laid out in bytes and read back.
-/
namespace Sys2Proof.Machine
variable {α : Type}

/-! ### Sparse tables -/

theorem look_drop1 (d : α) (m : Store α) (k j : Nat) :
    look d (drop1 m k) j = if j = k then d else look d m j := by
  induction m with
  | nil => simp [drop1, look]
  | cons e m ih => simp only [drop1, look]; grind [look]

theorem look_ins (d : α) (m : Store α) (k : Nat) (v : α) (j : Nat) :
    look d (ins m k v) j = if j = k then v else look d m j := by
  induction m with
  | nil => simp only [ins, look]; grind
  | cons e m ih => simp only [ins]; grind [look]

/-- A table reads as it was written. -/
theorem look_put [DecidableEq α] (d : α) (m : Store α) (k : Nat) (v : α) (j : Nat) :
    look d (put d m k v) j = if j = k then v else look d m j := by
  unfold put; split
  · rw [look_drop1]; grind
  · rw [look_ins]

@[simp] theorem look_put_same [DecidableEq α] (d : α) (m : Store α) (k : Nat) (v : α) : look d (put d m k v) k = v := by
  simp [look_put]

theorem look_put_ne [DecidableEq α] (d : α) (m : Store α) {k j : Nat} (v : α) (h : j ≠ k) :
    look d (put d m k v) j = look d m j := by simp [look_put, h]

@[simp] theorem look_nil (d : α) (k : Nat) : look d [] k = d := rfl

theorem sget_sput [Inhabited α] [DecidableEq α] (m : Store α) (k : Nat) (v : α) (j : Nat) :
    sget (sput m k v) j = if j = k then v else sget m j := look_put ..

@[simp] theorem sget_sput_same [Inhabited α] [DecidableEq α] (m : Store α) (k : Nat) (v : α) : sget (sput m k v) k = v := by
  simp [sget_sput]

theorem sget_smod [Inhabited α] [DecidableEq α] (m : Store α) (k : Nat) (f : α → α) (j : Nat) :
    sget (smod m k f) j = if j = k then f (sget m k) else sget m j := sget_sput ..

@[simp] theorem sget_smod_same [Inhabited α] [DecidableEq α] (m : Store α) (k : Nat) (f : α → α) :
    sget (smod m k f) k = f (sget m k) := by simp [sget_smod]

@[simp] theorem sget_nil [Inhabited α] (k : Nat) : sget ([] : Store α) k = default := rfl

/-! ### The canonical form -/

/-- The canonical form in words: keys rise strictly and no entry equals the default. -/
theorem canonical_iff [DecidableEq α] (d : α) (m : Store α) :
    canonical d m = true ↔ m.Pairwise (fun a b => a.1 < b.1) ∧ ∀ e ∈ m, e.2 ≠ d := by
  induction m with
  | nil => simp [canonical]
  | cons e m ih =>
    cases m with
    | nil => obtain ⟨j, v⟩ := e; simp [canonical]
    | cons f m =>
      obtain ⟨j, v⟩ := e; obtain ⟨k, w⟩ := f
      simp only [canonical, Bool.and_eq_true, decide_eq_true_eq, ih, List.pairwise_cons]
      constructor
      · rintro ⟨⟨h1, h2⟩, ⟨h3, h4⟩, h5⟩
        refine ⟨⟨fun a ha => ?_, h3, h4⟩, fun e he => ?_⟩
        · rcases List.mem_cons.1 ha with rfl | ha
          · exact h1
          · exact Nat.lt_trans h1 (h3 a ha)
        · rcases List.mem_cons.1 he with rfl | he
          · exact h2
          · exact h5 e he
      · rintro ⟨⟨h1, h3, h4⟩, h5⟩
        exact ⟨⟨h1 (k, w) (List.mem_cons_self ..), h5 (j, v) (List.mem_cons_self ..)⟩, ⟨h3, h4⟩,
          fun e he => h5 e (List.mem_cons_of_mem _ he)⟩

theorem mem_drop1 (m : Store α) (k : Nat) (e : Nat × α) (h : e ∈ drop1 m k) : e ∈ m ∧ e.1 ≠ k := by
  induction m with
  | nil => simp [drop1] at h
  | cons f m ih => simp only [drop1] at h; grind

theorem mem_ins (m : Store α) (k : Nat) (v : α) (e : Nat × α) (h : e ∈ ins m k v) : e = (k, v) ∨ e ∈ m := by
  induction m with
  | nil => simpa [ins] using h
  | cons f m ih => simp only [ins] at h; grind

theorem pairwise_drop1 (m : Store α) (k : Nat) (h : m.Pairwise (fun a b => a.1 < b.1)) :
    (drop1 m k).Pairwise (fun a b => a.1 < b.1) := by
  induction m with
  | nil => simp [drop1]
  | cons f m ih =>
    simp only [drop1]
    rw [List.pairwise_cons] at h
    split
    · exact ih h.2
    · exact List.pairwise_cons.2 ⟨fun e he => h.1 e (mem_drop1 m k e he).1, ih h.2⟩

theorem pairwise_ins (m : Store α) (k : Nat) (v : α) (h : m.Pairwise (fun a b => a.1 < b.1)) :
    (ins m k v).Pairwise (fun a b => a.1 < b.1) := by
  induction m with
  | nil => simp [ins]
  | cons f m ih =>
    simp only [ins]
    rw [List.pairwise_cons] at h
    split
    · refine List.pairwise_cons.2 ⟨fun e he => ?_, List.pairwise_cons.2 h⟩
      rcases List.mem_cons.1 he with rfl | he
      · assumption
      · exact Nat.lt_trans (by assumption) (h.1 e he)
    · split
      · subst_vars; exact List.pairwise_cons.2 ⟨h.1, h.2⟩
      · refine List.pairwise_cons.2 ⟨fun e he => ?_, ih h.2⟩
        rcases mem_ins m k v e he with rfl | he
        · simp; omega
        · exact h.1 e he

/-- A write keeps the canonical form. -/
theorem canonical_put [DecidableEq α] (d : α) (m : Store α) (k : Nat) (v : α) (h : canonical d m = true) :
    canonical d (put d m k v) = true := by
  rw [canonical_iff] at h ⊢
  unfold put; split
  · exact ⟨pairwise_drop1 m k h.1, fun e he => h.2 e (mem_drop1 m k e he).1⟩
  · refine ⟨pairwise_ins m k v h.1, fun e he => ?_⟩
    rcases mem_ins m k v e he with rfl | he
    · assumption
    · exact h.2 e he

/-! ### Bytes -/

@[simp] theorem leBytes_length (n v : Nat) : (leBytes n v).length = n := by
  induction n generalizing v with
  | zero => rfl
  | succ n ih => simp [leBytes, ih]

/-- A number laid out in `n` bytes reads back modulo 2^(8n). -/
theorem leNat_leBytes (n v : Nat) : leNat (leBytes n v) = v % 256 ^ n := by
  induction n generalizing v with
  | zero => simp [leBytes, leNat, Nat.mod_one]
  | succ n ih =>
    simp only [leBytes, leNat, ih, BitVec.toNat_ofNat]
    rw [show (256 : Nat) ^ (n + 1) = 256 * 256 ^ n from by rw [Nat.pow_succ, Nat.mul_comm], Nat.mod_mul]

theorem leNat_lt (b : List Byte) : leNat b < 256 ^ b.length := by
  induction b with
  | nil => simp [leNat]
  | cons x b ih =>
    have := x.isLt
    simp only [leNat, List.length_cons, Nat.pow_succ]
    omega

/-- Bytes read as a number and laid out again are the bytes. -/
theorem leBytes_leNat (b : List Byte) : leBytes b.length (leNat b) = b := by
  induction b with
  | nil => rfl
  | cons x b ih =>
    have hx := x.isLt
    have h1 : (x.toNat + 256 * leNat b) / 256 = leNat b := by omega
    simp only [leNat, List.length_cons, leBytes, h1, ih, List.cons.injEq, and_true]
    apply BitVec.eq_of_toNat_eq
    simp [BitVec.toNat_ofNat, Nat.add_mod, Nat.mod_eq_of_lt hx]

theorem bytesAt_length (b : List Byte) (o n : Nat) : (bytesAt b o n).length = n := by
  simp only [bytesAt, List.length_append, List.length_take, List.length_drop, List.length_replicate]
  omega

theorem leNat_append (a b : List Byte) : leNat (a ++ b) = leNat a + 256 ^ a.length * leNat b := by
  induction a with
  | nil => simp [leNat]
  | cons x a ih =>
    simp only [List.cons_append, leNat, ih, List.length_cons, Nat.pow_succ]
    rw [Nat.mul_add, Nat.mul_comm (256 ^ a.length) 256, Nat.mul_assoc, ← Nat.add_assoc]

theorem leNat_take (b : List Byte) (n : Nat) : leNat (b.take n) = leNat b % 256 ^ n := by
  induction b generalizing n with
  | nil => simp [leNat]
  | cons x b ih =>
    cases n with
    | zero => simp [leNat, Nat.mod_one]
    | succ n =>
      have hx := x.isLt
      simp only [List.take_succ_cons, leNat, ih, Nat.pow_succ]
      have h1 : (x.toNat + 256 * leNat b) / 256 = leNat b := by omega
      rw [Nat.mul_comm (256 ^ n), Nat.mod_mul, h1]
      omega

theorem leNat_drop (b : List Byte) (n : Nat) : leNat (b.drop n) = leNat b / 256 ^ n := by
  induction n generalizing b with
  | zero => simp
  | succ n ih =>
    cases b with
    | nil => simp [leNat]
    | cons x b =>
      have hx := x.isLt
      simp only [List.drop_succ_cons, leNat, ih, Nat.pow_succ]
      rw [Nat.mul_comm (256 ^ n), ← Nat.div_div_eq_div_mul]
      congr 1; omega

/-- A field of a byte string as a part of the string's number. -/
theorem fieldAt_eq (b : List Byte) (o n : Nat) : fieldAt b o n = leNat b / 256 ^ o % 256 ^ n := by
  simp [fieldAt, leNat_take, leNat_drop]

/-! ### Bit fields -/

theorem bit_setBit_same (v i : Nat) (b : Bool) : bit (setBit v i b) i = b := by
  have hp : 0 < 2 ^ i := Nat.two_pow_pos i
  simp only [setBit, bit]
  by_cases h : v / 2 ^ i % 2 = 1 <;> cases b <;> simp [h]
  · have h1 : 2 ^ i ≤ v := by
      by_cases hl : v < 2 ^ i
      · rw [Nat.div_eq_of_lt hl] at h; simp at h
      · omega
    have h2 : (v - 2 ^ i) / 2 ^ i = v / 2 ^ i - 1 := by
      have := Nat.sub_mul_div v (2 ^ i) 1
      simpa using this
    rw [h2]; omega
  · first
    | omega
    | rw [Nat.add_div_right _ hp]; omega

end Sys2Proof.Machine
end

