-- ==== Sys2Proof/Laws/Crypto.lean ====
section
/-!
SUPPORT. The lengths of digests, tags and key streams, and that what the ciphers seal they open again.
-/
namespace Sys2Proof.Machine

/-! ### Digests -/

theorem shaRound_length {h : List (BitVec 64)} (kw : BitVec 64 × BitVec 64) (hh : h.length = 8) : (shaRound h kw).length = 8 := by
  unfold shaRound
  split
  · rfl
  · exact hh

theorem shaBlock_length {h : List (BitVec 64)} (b : List Byte) (hh : h.length = 8) : (shaBlock h b).length = 8 := by
  have (l : List (BitVec 64 × BitVec 64)) (g : List (BitVec 64)) (hg : g.length = 8) : (l.foldl shaRound g).length = 8 := by
    induction l generalizing g with
    | nil => exact hg
    | cons x l ih => exact ih _ (shaRound_length x hg)
  rw [shaBlock, List.length_zipWith, this _ _ hh, hh]
  rfl

theorem shaBlocks_length (n : Nat) {h : List (BitVec 64)} (b : List Byte) (hh : h.length = 8) : (shaBlocks n h b).length = 8 := by
  induction n generalizing h b with
  | zero => exact hh
  | succ n ih => exact ih _ (shaBlock_length _ hh)

@[simp] theorem beBytes_length (n v : Nat) : (beBytes n v).length = n := by
  simp [beBytes]

/-- A digest has 48 bytes. -/
@[simp] theorem sha384_length (m : List Byte) : (sha384 m).length = 48 := by
  have h := shaBlocks_length ((shaPad m).length / 128) (shaPad m) (h := shaH0) rfl
  simp only [sha384, List.length_flatMap, beBytes_length, List.map_const', List.sum_replicate_nat, List.length_take, h]
  rfl

/-- A MAC has 48 bytes. -/
@[simp] theorem hmac384_length (k m : List Byte) : (hmac384 k m).length = 48 := sha384_length _

/-! ### AES-256 and GCM -/

theorem aesNextWord_length {i : Nat} {ws : List (List Nat)} (h : ∀ w ∈ ws, w.length = 4) (h8 : 8 ≤ ws.length) :
    (aesNextWord i ws).length = 4 := by
  have hd (j : Nat) (hj : j < 8) : (ws.getD j []).length = 4 := by
    rw [List.getD_eq_getElem?_getD, List.getElem?_eq_getElem (by omega)]
    exact h _ (List.getElem_mem _)
  have h0 := hd 0 (by omega)
  have h7 := hd 7 (by omega)
  simp only [aesNextWord]
  rw [List.length_zipWith, h7]
  split
  · simp only [List.length_modify, List.length_map, List.length_append, List.length_drop, List.length_take]
    omega
  · split
    · rw [List.length_map, h0]; rfl
    · rw [h0]; rfl

theorem aesExpand_length (n : Nat) {i : Nat} {ws : List (List Nat)} (h : ∀ w ∈ ws, w.length = 4) (h8 : 8 ≤ ws.length) :
    (aesExpand n i ws).length = ws.length + n ∧ ∀ w ∈ aesExpand n i ws, w.length = 4 := by
  induction n generalizing i ws with
  | zero => exact ⟨rfl, h⟩
  | succ n ih =>
    have := ih (i := i + 1) (ws := aesNextWord i ws :: ws)
      (fun w hw => (List.mem_cons.1 hw).elim (fun e => e ▸ aesNextWord_length h h8) (h w)) (by simp; omega)
    exact ⟨by rw [aesExpand, this.1, List.length_cons]; omega, this.2⟩

/-- A round key has 16 bytes. -/
theorem aesRoundKeys_length (k : List Byte) {r : Nat} (hr : r < 15) : ((aesRoundKeys k).getD r []).length = 16 := by
  have hk : ∀ w ∈ (aesKeyWords k).reverse, w.length = 4 := by
    intro w hw
    simp only [aesKeyWords, List.mem_reverse, List.mem_map] at hw
    obtain ⟨i, -, rfl⟩ := hw
    simp [bytesAt_length]
  have hw := aesExpand_length 52 (i := 8) hk (by simp [aesKeyWords])
  have hl : (aesExpand 52 8 (aesKeyWords k).reverse).reverse.length = 60 := by
    rw [List.length_reverse, hw.1]
    simp [aesKeyWords]
  have hm : ∀ w ∈ (aesExpand 52 8 (aesKeyWords k).reverse).reverse, w.length = 4 := fun w h => hw.2 w (List.mem_reverse.1 h)
  simp only [aesRoundKeys]
  generalize (aesExpand 52 8 (aesKeyWords k).reverse).reverse = W at hl hm
  have flat (l : List (List Nat)) (h : ∀ w ∈ l, w.length = 4) : l.flatten.length = 4 * l.length := by
    induction l with
    | nil => rfl
    | cons a l ih =>
      rw [List.flatten_cons, List.length_append, ih (fun w hw => h w (List.mem_cons_of_mem _ hw)), h a (List.mem_cons_self ..), List.length_cons]
      omega
  have g : ((List.range 15).map (fun r => ((W.drop (4 * r)).take 4).flatten)).getD r [] = ((W.drop (4 * r)).take 4).flatten := by
    rw [List.getD_eq_getElem?_getD, List.getElem?_map, List.getElem?_range hr]
    rfl
  rw [g, flat _ (fun w h => hm w (List.mem_of_mem_drop (List.mem_of_mem_take h))), List.length_take, List.length_drop, hl]
  omega

/-- A block of cipher text has 16 bytes. -/
@[simp] theorem aes256_length (k blk : List Byte) : (aes256 k blk).length = 16 := by
  simp only [aes256, List.length_map, List.length_zipWith, aesRoundKeys_length k (r := 14) (by omega), aesShift, List.length_range]
  rfl

@[simp] theorem gcmStream_length (k iv : List Byte) (n c : Nat) : (gcmStream k iv n c).length = 16 * n := by
  induction n generalizing c with
  | zero => rfl
  | succ n ih => rw [gcmStream, List.length_append, ih, aes256_length]; omega

@[simp] theorem gcmCrypt_length (k iv t : List Byte) : (gcmCrypt k iv t).length = t.length := by
  rw [gcmCrypt, List.length_zipWith, gcmStream_length]
  omega

@[simp] theorem gcmTag_length (k iv aad ct : List Byte) : (gcmTag k iv aad ct).length = 16 := by
  simp [gcmTag]

theorem zipWith_xor_twice (a b : List Byte) (h : a.length ≤ b.length) : List.zipWith (· ^^^ ·) (List.zipWith (· ^^^ ·) a b) b = a := by
  induction a generalizing b with
  | nil => simp
  | cons x a ih =>
    cases b with
    | nil => simp at h
    | cons y b =>
      simp only [List.zipWith_cons_cons, ih b (by simpa using h), BitVec.xor_assoc, BitVec.xor_self, BitVec.xor_zero]

/-- Counter mode twice gives the text back. -/
@[simp] theorem gcmCrypt_gcmCrypt (k iv t : List Byte) : gcmCrypt k iv (gcmCrypt k iv t) = t := by
  have h : (gcmCrypt k iv t).length = t.length := gcmCrypt_length k iv t
  rw [gcmCrypt, h, gcmCrypt]
  exact zipWith_xor_twice _ _ (by rw [gcmStream_length]; omega)

/-- What GCM seals it opens again. -/
theorem gcmOpen_sealed (k iv aad t : List Byte) : gcmOpen k iv aad (gcmCrypt k iv t) (gcmTag k iv aad (gcmCrypt k iv t)) = some t := by
  rw [gcmOpen, if_pos rfl, gcmCrypt_gcmCrypt]

/-! ### Parts of records -/

theorem leNat_zeros (n : Nat) : leNat (List.replicate n 0) = 0 := by
  induction n with
  | zero => rfl
  | succ n ih => rw [List.replicate_succ, leNat, ih]; rfl

theorem fieldAt_zeros (n o k : Nat) : fieldAt (List.replicate n 0) o k = 0 := by
  rw [fieldAt, List.drop_replicate, List.take_replicate, leNat_zeros]

/-- A part of a record byte by byte; bytes that are not there read as zero. -/
theorem bytesAt_eq_map (b : List Byte) (o n : Nat) : bytesAt b o n = (List.range n).map (fun i => b.getD (o + i) 0) := by
  apply List.ext_getElem
  · simp [bytesAt_length]
  · intro i h1 h2
    have hi : i < n := by simpa using h2
    simp only [bytesAt, List.getElem_append, List.getElem_map, List.getElem_range, List.getD_eq_getElem?_getD]
    split
    · next h =>
      have : o + i < b.length := by simp only [List.length_take, List.length_drop] at h; omega
      rw [List.getElem_take, List.getElem_drop, List.getElem?_eq_getElem this]
      rfl
    · next h =>
      have : b.length ≤ o + i := by simp only [List.length_take, List.length_drop] at h; omega
      rw [List.getElem_replicate, List.getElem?_eq_none this]
      rfl

/-- A part of a record that stands between others. -/
theorem bytesAt_mid {o n : Nat} (a b c : List Byte) (ho : a.length = o) (hn : b.length = n) : bytesAt (a ++ (b ++ c)) o n = b := by
  subst ho hn
  simp [bytesAt]

/-- A part of a record that stands first. -/
theorem bytesAt_first {n : Nat} (b c : List Byte) (hn : b.length = n) : bytesAt (b ++ c) 0 n = b := bytesAt_mid [] b c rfl hn

/-- A field of a record that stands first. -/
theorem fieldAt_first {n : Nat} (b c : List Byte) (hn : b.length = n) : fieldAt (b ++ c) 0 n = leNat b := by
  subst hn
  simp [fieldAt]

/-- A field of a record that stands between others. -/
theorem fieldAt_mid {o n : Nat} (a b c : List Byte) (ho : a.length = o) (hn : b.length = n) : fieldAt (a ++ (b ++ c)) o n = leNat b := by
  subst ho hn
  simp [fieldAt]

end Sys2Proof.Machine
end

