-- ==== Sys2Proof/Laws/State.lean ====
section
/-!
SUPPORT. One lemma per field and basic update of the state: what the update leaves as it was, and what it puts into the field it changes.
-/
namespace Sys2Proof.Machine

@[simp] theorem State.emit_pins (s : State) (o : Out) : (s.emit o).pins = s.pins := rfl
@[simp] theorem State.emit_mod (s : State) (o : Out) : (s.emit o).mod = s.mod := rfl
@[simp] theorem State.emit_dict (s : State) (o : Out) : (s.emit o).dict = s.dict := rfl
@[simp] theorem State.emit_host (s : State) (o : Out) : (s.emit o).host = s.host := rfl
@[simp] theorem State.emit_adm (s : State) (o : Out) : (s.emit o).adm = s.adm := rfl
@[simp] theorem State.emit_launches (s : State) (o : Out) : (s.emit o).launches = s.launches := rfl
@[simp] theorem State.emit_keys (s : State) (o : Out) : (s.emit o).keys = s.keys := rfl
@[simp] theorem State.emit_nor (s : State) (o : Out) : (s.emit o).nor = s.nor := rfl
@[simp] theorem State.emit_firm (s : State) (o : Out) : (s.emit o).firm = s.firm := rfl
@[simp] theorem State.emit_pow (s : State) (o : Out) : (s.emit o).pow = s.pow := rfl
@[simp] theorem State.emit_rcd (s : State) (o : Out) : (s.emit o).rcd = s.rcd := rfl
@[simp] theorem State.emit_mem (s : State) (o : Out) : (s.emit o).mem = s.mem := rfl
@[simp] theorem State.emit_poison (s : State) (o : Out) : (s.emit o).poison = s.poison := rfl
@[simp] theorem State.emit_mis (s : State) (o : Out) : (s.emit o).mis = s.mis := rfl
@[simp] theorem State.emit_kv (s : State) (o : Out) : (s.emit o).kv = s.kv := rfl
@[simp] theorem State.emit_flash (s : State) (o : Out) : (s.emit o).flash = s.flash := rfl
@[simp] theorem State.emit_ports (s : State) (o : Out) : (s.emit o).ports = s.ports := rfl
@[simp] theorem State.emit_net (s : State) (o : Out) : (s.emit o).net = s.net := rfl
@[simp] theorem State.emit_groups (s : State) (o : Out) : (s.emit o).groups = s.groups := rfl
@[simp] theorem State.emit_routes (s : State) (o : Out) : (s.emit o).routes = s.routes := rfl
@[simp] theorem State.emit_attends (s : State) (o : Out) : (s.emit o).attends = s.attends := rfl
@[simp] theorem State.emit_opt (s : State) (o : Out) : (s.emit o).opt = s.opt := rfl
@[simp] theorem State.emit_ckpt (s : State) (o : Out) : (s.emit o).ckpt = s.ckpt := rfl
@[simp] theorem State.emit_routeCache (s : State) (o : Out) : (s.emit o).routeCache = s.routeCache := rfl
@[simp] theorem State.emit_spBad (s : State) (o : Out) : (s.emit o).spBad = s.spBad := rfl
@[simp] theorem State.emit_seqs (s : State) (o : Out) : (s.emit o).seqs = s.seqs := rfl
@[simp] theorem State.emit_share (s : State) (o : Out) : (s.emit o).share = s.share := rfl
@[simp] theorem State.emit_mgiHold (s : State) (o : Out) : (s.emit o).mgiHold = s.mgiHold := rfl
@[simp] theorem State.emit_fresh (s : State) (o : Out) : (s.emit o).fresh = s.fresh := rfl
@[simp] theorem State.emit_pending (s : State) (o : Out) : (s.emit o).pending = s.pending := rfl
@[simp] theorem State.tick1_pins (s : State) : (s.tick1 ).pins = s.pins := rfl
@[simp] theorem State.tick1_mod (s : State) : (s.tick1 ).mod = s.mod := rfl
@[simp] theorem State.tick1_dict (s : State) : (s.tick1 ).dict = s.dict := rfl
@[simp] theorem State.tick1_host (s : State) : (s.tick1 ).host = s.host := rfl
@[simp] theorem State.tick1_adm (s : State) : (s.tick1 ).adm = s.adm := rfl
@[simp] theorem State.tick1_launches (s : State) : (s.tick1 ).launches = s.launches := rfl
@[simp] theorem State.tick1_keys (s : State) : (s.tick1 ).keys = s.keys := rfl
@[simp] theorem State.tick1_nor (s : State) : (s.tick1 ).nor = s.nor := rfl
@[simp] theorem State.tick1_firm (s : State) : (s.tick1 ).firm = s.firm := rfl
@[simp] theorem State.tick1_pow (s : State) : (s.tick1 ).pow = s.pow := rfl
@[simp] theorem State.tick1_rcd (s : State) : (s.tick1 ).rcd = s.rcd := rfl
@[simp] theorem State.tick1_mem (s : State) : (s.tick1 ).mem = s.mem := rfl
@[simp] theorem State.tick1_poison (s : State) : (s.tick1 ).poison = s.poison := rfl
@[simp] theorem State.tick1_mis (s : State) : (s.tick1 ).mis = s.mis := rfl
@[simp] theorem State.tick1_kv (s : State) : (s.tick1 ).kv = s.kv := rfl
@[simp] theorem State.tick1_flash (s : State) : (s.tick1 ).flash = s.flash := rfl
@[simp] theorem State.tick1_ports (s : State) : (s.tick1 ).ports = s.ports := rfl
@[simp] theorem State.tick1_net (s : State) : (s.tick1 ).net = s.net := rfl
@[simp] theorem State.tick1_groups (s : State) : (s.tick1 ).groups = s.groups := rfl
@[simp] theorem State.tick1_routes (s : State) : (s.tick1 ).routes = s.routes := rfl
@[simp] theorem State.tick1_attends (s : State) : (s.tick1 ).attends = s.attends := rfl
@[simp] theorem State.tick1_opt (s : State) : (s.tick1 ).opt = s.opt := rfl
@[simp] theorem State.tick1_ckpt (s : State) : (s.tick1 ).ckpt = s.ckpt := rfl
@[simp] theorem State.tick1_routeCache (s : State) : (s.tick1 ).routeCache = s.routeCache := rfl
@[simp] theorem State.tick1_spBad (s : State) : (s.tick1 ).spBad = s.spBad := rfl
@[simp] theorem State.tick1_seqs (s : State) : (s.tick1 ).seqs = s.seqs := rfl
@[simp] theorem State.tick1_share (s : State) : (s.tick1 ).share = s.share := rfl
@[simp] theorem State.tick1_mgiHold (s : State) : (s.tick1 ).mgiHold = s.mgiHold := rfl
@[simp] theorem State.tick1_sent (s : State) : (s.tick1 ).sent = s.sent := rfl
@[simp] theorem State.tick1_pending (s : State) : (s.tick1 ).pending = s.pending := rfl
@[simp] theorem State.setObj_pins (s : State) (idx sub v : Nat) : (s.setObj idx sub v).pins = s.pins := rfl
@[simp] theorem State.setObj_mod (s : State) (idx sub v : Nat) : (s.setObj idx sub v).mod = s.mod := rfl
@[simp] theorem State.setObj_host (s : State) (idx sub v : Nat) : (s.setObj idx sub v).host = s.host := rfl
@[simp] theorem State.setObj_adm (s : State) (idx sub v : Nat) : (s.setObj idx sub v).adm = s.adm := rfl
@[simp] theorem State.setObj_launches (s : State) (idx sub v : Nat) : (s.setObj idx sub v).launches = s.launches := rfl
@[simp] theorem State.setObj_keys (s : State) (idx sub v : Nat) : (s.setObj idx sub v).keys = s.keys := rfl
@[simp] theorem State.setObj_nor (s : State) (idx sub v : Nat) : (s.setObj idx sub v).nor = s.nor := rfl
@[simp] theorem State.setObj_firm (s : State) (idx sub v : Nat) : (s.setObj idx sub v).firm = s.firm := rfl
@[simp] theorem State.setObj_pow (s : State) (idx sub v : Nat) : (s.setObj idx sub v).pow = s.pow := rfl
@[simp] theorem State.setObj_rcd (s : State) (idx sub v : Nat) : (s.setObj idx sub v).rcd = s.rcd := rfl
@[simp] theorem State.setObj_mem (s : State) (idx sub v : Nat) : (s.setObj idx sub v).mem = s.mem := rfl
@[simp] theorem State.setObj_poison (s : State) (idx sub v : Nat) : (s.setObj idx sub v).poison = s.poison := rfl
@[simp] theorem State.setObj_mis (s : State) (idx sub v : Nat) : (s.setObj idx sub v).mis = s.mis := rfl
@[simp] theorem State.setObj_kv (s : State) (idx sub v : Nat) : (s.setObj idx sub v).kv = s.kv := rfl
@[simp] theorem State.setObj_flash (s : State) (idx sub v : Nat) : (s.setObj idx sub v).flash = s.flash := rfl
@[simp] theorem State.setObj_ports (s : State) (idx sub v : Nat) : (s.setObj idx sub v).ports = s.ports := rfl
@[simp] theorem State.setObj_net (s : State) (idx sub v : Nat) : (s.setObj idx sub v).net = s.net := rfl
@[simp] theorem State.setObj_groups (s : State) (idx sub v : Nat) : (s.setObj idx sub v).groups = s.groups := rfl
@[simp] theorem State.setObj_routes (s : State) (idx sub v : Nat) : (s.setObj idx sub v).routes = s.routes := rfl
@[simp] theorem State.setObj_attends (s : State) (idx sub v : Nat) : (s.setObj idx sub v).attends = s.attends := rfl
@[simp] theorem State.setObj_opt (s : State) (idx sub v : Nat) : (s.setObj idx sub v).opt = s.opt := rfl
@[simp] theorem State.setObj_ckpt (s : State) (idx sub v : Nat) : (s.setObj idx sub v).ckpt = s.ckpt := rfl
@[simp] theorem State.setObj_routeCache (s : State) (idx sub v : Nat) :
    (s.setObj idx sub v).routeCache = s.routeCache := rfl
@[simp] theorem State.setObj_spBad (s : State) (idx sub v : Nat) : (s.setObj idx sub v).spBad = s.spBad := rfl
@[simp] theorem State.setObj_seqs (s : State) (idx sub v : Nat) : (s.setObj idx sub v).seqs = s.seqs := rfl
@[simp] theorem State.setObj_share (s : State) (idx sub v : Nat) : (s.setObj idx sub v).share = s.share := rfl
@[simp] theorem State.setObj_mgiHold (s : State) (idx sub v : Nat) : (s.setObj idx sub v).mgiHold = s.mgiHold := rfl
@[simp] theorem State.setObj_sent (s : State) (idx sub v : Nat) : (s.setObj idx sub v).sent = s.sent := rfl
@[simp] theorem State.setObj_fresh (s : State) (idx sub v : Nat) : (s.setObj idx sub v).fresh = s.fresh := rfl
@[simp] theorem State.setObj_pending (s : State) (idx sub v : Nat) : (s.setObj idx sub v).pending = s.pending := rfl
@[simp] theorem State.count_pins (s : State) (idx sub n : Nat) : (s.count idx sub n).pins = s.pins := rfl
@[simp] theorem State.count_mod (s : State) (idx sub n : Nat) : (s.count idx sub n).mod = s.mod := rfl
@[simp] theorem State.count_host (s : State) (idx sub n : Nat) : (s.count idx sub n).host = s.host := rfl
@[simp] theorem State.count_adm (s : State) (idx sub n : Nat) : (s.count idx sub n).adm = s.adm := rfl
@[simp] theorem State.count_launches (s : State) (idx sub n : Nat) : (s.count idx sub n).launches = s.launches := rfl
@[simp] theorem State.count_keys (s : State) (idx sub n : Nat) : (s.count idx sub n).keys = s.keys := rfl
@[simp] theorem State.count_nor (s : State) (idx sub n : Nat) : (s.count idx sub n).nor = s.nor := rfl
@[simp] theorem State.count_firm (s : State) (idx sub n : Nat) : (s.count idx sub n).firm = s.firm := rfl
@[simp] theorem State.count_pow (s : State) (idx sub n : Nat) : (s.count idx sub n).pow = s.pow := rfl
@[simp] theorem State.count_rcd (s : State) (idx sub n : Nat) : (s.count idx sub n).rcd = s.rcd := rfl
@[simp] theorem State.count_mem (s : State) (idx sub n : Nat) : (s.count idx sub n).mem = s.mem := rfl
@[simp] theorem State.count_poison (s : State) (idx sub n : Nat) : (s.count idx sub n).poison = s.poison := rfl
@[simp] theorem State.count_mis (s : State) (idx sub n : Nat) : (s.count idx sub n).mis = s.mis := rfl
@[simp] theorem State.count_kv (s : State) (idx sub n : Nat) : (s.count idx sub n).kv = s.kv := rfl
@[simp] theorem State.count_flash (s : State) (idx sub n : Nat) : (s.count idx sub n).flash = s.flash := rfl
@[simp] theorem State.count_ports (s : State) (idx sub n : Nat) : (s.count idx sub n).ports = s.ports := rfl
@[simp] theorem State.count_net (s : State) (idx sub n : Nat) : (s.count idx sub n).net = s.net := rfl
@[simp] theorem State.count_groups (s : State) (idx sub n : Nat) : (s.count idx sub n).groups = s.groups := rfl
@[simp] theorem State.count_routes (s : State) (idx sub n : Nat) : (s.count idx sub n).routes = s.routes := rfl
@[simp] theorem State.count_attends (s : State) (idx sub n : Nat) : (s.count idx sub n).attends = s.attends := rfl
@[simp] theorem State.count_opt (s : State) (idx sub n : Nat) : (s.count idx sub n).opt = s.opt := rfl
@[simp] theorem State.count_ckpt (s : State) (idx sub n : Nat) : (s.count idx sub n).ckpt = s.ckpt := rfl
@[simp] theorem State.count_routeCache (s : State) (idx sub n : Nat) :
    (s.count idx sub n).routeCache = s.routeCache := rfl
@[simp] theorem State.count_spBad (s : State) (idx sub n : Nat) : (s.count idx sub n).spBad = s.spBad := rfl
@[simp] theorem State.count_seqs (s : State) (idx sub n : Nat) : (s.count idx sub n).seqs = s.seqs := rfl
@[simp] theorem State.count_share (s : State) (idx sub n : Nat) : (s.count idx sub n).share = s.share := rfl
@[simp] theorem State.count_mgiHold (s : State) (idx sub n : Nat) : (s.count idx sub n).mgiHold = s.mgiHold := rfl
@[simp] theorem State.count_sent (s : State) (idx sub n : Nat) : (s.count idx sub n).sent = s.sent := rfl
@[simp] theorem State.count_fresh (s : State) (idx sub n : Nat) : (s.count idx sub n).fresh = s.fresh := rfl
@[simp] theorem State.count_pending (s : State) (idx sub n : Nat) : (s.count idx sub n).pending = s.pending := rfl
@[simp] theorem State.countSat_pins (s : State) (idx sub m n : Nat) : (s.countSat idx sub m n).pins = s.pins := rfl
@[simp] theorem State.countSat_mod (s : State) (idx sub m n : Nat) : (s.countSat idx sub m n).mod = s.mod := rfl
@[simp] theorem State.countSat_host (s : State) (idx sub m n : Nat) : (s.countSat idx sub m n).host = s.host := rfl
@[simp] theorem State.countSat_adm (s : State) (idx sub m n : Nat) : (s.countSat idx sub m n).adm = s.adm := rfl
@[simp] theorem State.countSat_launches (s : State) (idx sub m n : Nat) :
    (s.countSat idx sub m n).launches = s.launches := rfl
@[simp] theorem State.countSat_keys (s : State) (idx sub m n : Nat) : (s.countSat idx sub m n).keys = s.keys := rfl
@[simp] theorem State.countSat_nor (s : State) (idx sub m n : Nat) : (s.countSat idx sub m n).nor = s.nor := rfl
@[simp] theorem State.countSat_firm (s : State) (idx sub m n : Nat) : (s.countSat idx sub m n).firm = s.firm := rfl
@[simp] theorem State.countSat_pow (s : State) (idx sub m n : Nat) : (s.countSat idx sub m n).pow = s.pow := rfl
@[simp] theorem State.countSat_rcd (s : State) (idx sub m n : Nat) : (s.countSat idx sub m n).rcd = s.rcd := rfl
@[simp] theorem State.countSat_mem (s : State) (idx sub m n : Nat) : (s.countSat idx sub m n).mem = s.mem := rfl
@[simp] theorem State.countSat_poison (s : State) (idx sub m n : Nat) :
    (s.countSat idx sub m n).poison = s.poison := rfl
@[simp] theorem State.countSat_mis (s : State) (idx sub m n : Nat) : (s.countSat idx sub m n).mis = s.mis := rfl
@[simp] theorem State.countSat_kv (s : State) (idx sub m n : Nat) : (s.countSat idx sub m n).kv = s.kv := rfl
@[simp] theorem State.countSat_flash (s : State) (idx sub m n : Nat) : (s.countSat idx sub m n).flash = s.flash := rfl
@[simp] theorem State.countSat_ports (s : State) (idx sub m n : Nat) : (s.countSat idx sub m n).ports = s.ports := rfl
@[simp] theorem State.countSat_net (s : State) (idx sub m n : Nat) : (s.countSat idx sub m n).net = s.net := rfl
@[simp] theorem State.countSat_groups (s : State) (idx sub m n : Nat) :
    (s.countSat idx sub m n).groups = s.groups := rfl
@[simp] theorem State.countSat_routes (s : State) (idx sub m n : Nat) :
    (s.countSat idx sub m n).routes = s.routes := rfl
@[simp] theorem State.countSat_attends (s : State) (idx sub m n : Nat) :
    (s.countSat idx sub m n).attends = s.attends := rfl
@[simp] theorem State.countSat_opt (s : State) (idx sub m n : Nat) : (s.countSat idx sub m n).opt = s.opt := rfl
@[simp] theorem State.countSat_ckpt (s : State) (idx sub m n : Nat) : (s.countSat idx sub m n).ckpt = s.ckpt := rfl
@[simp] theorem State.countSat_routeCache (s : State) (idx sub m n : Nat) :
    (s.countSat idx sub m n).routeCache = s.routeCache := rfl
@[simp] theorem State.countSat_spBad (s : State) (idx sub m n : Nat) : (s.countSat idx sub m n).spBad = s.spBad := rfl
@[simp] theorem State.countSat_seqs (s : State) (idx sub m n : Nat) : (s.countSat idx sub m n).seqs = s.seqs := rfl
@[simp] theorem State.countSat_share (s : State) (idx sub m n : Nat) : (s.countSat idx sub m n).share = s.share := rfl
@[simp] theorem State.countSat_mgiHold (s : State) (idx sub m n : Nat) :
    (s.countSat idx sub m n).mgiHold = s.mgiHold := rfl
@[simp] theorem State.countSat_sent (s : State) (idx sub m n : Nat) : (s.countSat idx sub m n).sent = s.sent := rfl
@[simp] theorem State.countSat_fresh (s : State) (idx sub m n : Nat) : (s.countSat idx sub m n).fresh = s.fresh := rfl
@[simp] theorem State.countSat_pending (s : State) (idx sub m n : Nat) :
    (s.countSat idx sub m n).pending = s.pending := rfl
@[simp] theorem State.setIsland_pins (s : State) (n : Nat) (f : Island → Island) :
    (s.setIsland n f).pins = s.pins := rfl
@[simp] theorem State.setIsland_dict (s : State) (n : Nat) (f : Island → Island) :
    (s.setIsland n f).dict = s.dict := rfl
@[simp] theorem State.setIsland_host (s : State) (n : Nat) (f : Island → Island) :
    (s.setIsland n f).host = s.host := rfl
@[simp] theorem State.setIsland_adm (s : State) (n : Nat) (f : Island → Island) : (s.setIsland n f).adm = s.adm := rfl
@[simp] theorem State.setIsland_launches (s : State) (n : Nat) (f : Island → Island) :
    (s.setIsland n f).launches = s.launches := rfl
@[simp] theorem State.setIsland_keys (s : State) (n : Nat) (f : Island → Island) :
    (s.setIsland n f).keys = s.keys := rfl
@[simp] theorem State.setIsland_nor (s : State) (n : Nat) (f : Island → Island) : (s.setIsland n f).nor = s.nor := rfl
@[simp] theorem State.setIsland_firm (s : State) (n : Nat) (f : Island → Island) :
    (s.setIsland n f).firm = s.firm := rfl
@[simp] theorem State.setIsland_pow (s : State) (n : Nat) (f : Island → Island) : (s.setIsland n f).pow = s.pow := rfl
@[simp] theorem State.setIsland_rcd (s : State) (n : Nat) (f : Island → Island) : (s.setIsland n f).rcd = s.rcd := rfl
@[simp] theorem State.setIsland_mem (s : State) (n : Nat) (f : Island → Island) : (s.setIsland n f).mem = s.mem := rfl
@[simp] theorem State.setIsland_poison (s : State) (n : Nat) (f : Island → Island) :
    (s.setIsland n f).poison = s.poison := rfl
@[simp] theorem State.setIsland_mis (s : State) (n : Nat) (f : Island → Island) : (s.setIsland n f).mis = s.mis := rfl
@[simp] theorem State.setIsland_kv (s : State) (n : Nat) (f : Island → Island) : (s.setIsland n f).kv = s.kv := rfl
@[simp] theorem State.setIsland_flash (s : State) (n : Nat) (f : Island → Island) :
    (s.setIsland n f).flash = s.flash := rfl
@[simp] theorem State.setIsland_ports (s : State) (n : Nat) (f : Island → Island) :
    (s.setIsland n f).ports = s.ports := rfl
@[simp] theorem State.setIsland_net (s : State) (n : Nat) (f : Island → Island) : (s.setIsland n f).net = s.net := rfl
@[simp] theorem State.setIsland_groups (s : State) (n : Nat) (f : Island → Island) :
    (s.setIsland n f).groups = s.groups := rfl
@[simp] theorem State.setIsland_routes (s : State) (n : Nat) (f : Island → Island) :
    (s.setIsland n f).routes = s.routes := rfl
@[simp] theorem State.setIsland_attends (s : State) (n : Nat) (f : Island → Island) :
    (s.setIsland n f).attends = s.attends := rfl
@[simp] theorem State.setIsland_opt (s : State) (n : Nat) (f : Island → Island) : (s.setIsland n f).opt = s.opt := rfl
@[simp] theorem State.setIsland_ckpt (s : State) (n : Nat) (f : Island → Island) :
    (s.setIsland n f).ckpt = s.ckpt := rfl
@[simp] theorem State.setIsland_routeCache (s : State) (n : Nat) (f : Island → Island) :
    (s.setIsland n f).routeCache = s.routeCache := rfl
@[simp] theorem State.setIsland_spBad (s : State) (n : Nat) (f : Island → Island) :
    (s.setIsland n f).spBad = s.spBad := rfl
@[simp] theorem State.setIsland_seqs (s : State) (n : Nat) (f : Island → Island) :
    (s.setIsland n f).seqs = s.seqs := rfl
@[simp] theorem State.setIsland_share (s : State) (n : Nat) (f : Island → Island) :
    (s.setIsland n f).share = s.share := rfl
@[simp] theorem State.setIsland_mgiHold (s : State) (n : Nat) (f : Island → Island) :
    (s.setIsland n f).mgiHold = s.mgiHold := rfl
@[simp] theorem State.setIsland_sent (s : State) (n : Nat) (f : Island → Island) :
    (s.setIsland n f).sent = s.sent := rfl
@[simp] theorem State.setIsland_fresh (s : State) (n : Nat) (f : Island → Island) :
    (s.setIsland n f).fresh = s.fresh := rfl
@[simp] theorem State.setIsland_pending (s : State) (n : Nat) (f : Island → Island) :
    (s.setIsland n f).pending = s.pending := rfl
@[simp] theorem State.setSlice_pins (s : State) (n : Nat) (f : Slice → Slice) : (s.setSlice n f).pins = s.pins := rfl
@[simp] theorem State.setSlice_mod (s : State) (n : Nat) (f : Slice → Slice) : (s.setSlice n f).mod = s.mod := rfl
@[simp] theorem State.setSlice_dict (s : State) (n : Nat) (f : Slice → Slice) : (s.setSlice n f).dict = s.dict := rfl
@[simp] theorem State.setSlice_adm (s : State) (n : Nat) (f : Slice → Slice) : (s.setSlice n f).adm = s.adm := rfl
@[simp] theorem State.setSlice_launches (s : State) (n : Nat) (f : Slice → Slice) :
    (s.setSlice n f).launches = s.launches := rfl
@[simp] theorem State.setSlice_keys (s : State) (n : Nat) (f : Slice → Slice) : (s.setSlice n f).keys = s.keys := rfl
@[simp] theorem State.setSlice_nor (s : State) (n : Nat) (f : Slice → Slice) : (s.setSlice n f).nor = s.nor := rfl
@[simp] theorem State.setSlice_firm (s : State) (n : Nat) (f : Slice → Slice) : (s.setSlice n f).firm = s.firm := rfl
@[simp] theorem State.setSlice_pow (s : State) (n : Nat) (f : Slice → Slice) : (s.setSlice n f).pow = s.pow := rfl
@[simp] theorem State.setSlice_rcd (s : State) (n : Nat) (f : Slice → Slice) : (s.setSlice n f).rcd = s.rcd := rfl
@[simp] theorem State.setSlice_mem (s : State) (n : Nat) (f : Slice → Slice) : (s.setSlice n f).mem = s.mem := rfl
@[simp] theorem State.setSlice_poison (s : State) (n : Nat) (f : Slice → Slice) :
    (s.setSlice n f).poison = s.poison := rfl
@[simp] theorem State.setSlice_mis (s : State) (n : Nat) (f : Slice → Slice) : (s.setSlice n f).mis = s.mis := rfl
@[simp] theorem State.setSlice_kv (s : State) (n : Nat) (f : Slice → Slice) : (s.setSlice n f).kv = s.kv := rfl
@[simp] theorem State.setSlice_flash (s : State) (n : Nat) (f : Slice → Slice) : (s.setSlice n f).flash = s.flash := rfl
@[simp] theorem State.setSlice_ports (s : State) (n : Nat) (f : Slice → Slice) : (s.setSlice n f).ports = s.ports := rfl
@[simp] theorem State.setSlice_net (s : State) (n : Nat) (f : Slice → Slice) : (s.setSlice n f).net = s.net := rfl
@[simp] theorem State.setSlice_groups (s : State) (n : Nat) (f : Slice → Slice) :
    (s.setSlice n f).groups = s.groups := rfl
@[simp] theorem State.setSlice_routes (s : State) (n : Nat) (f : Slice → Slice) :
    (s.setSlice n f).routes = s.routes := rfl
@[simp] theorem State.setSlice_attends (s : State) (n : Nat) (f : Slice → Slice) :
    (s.setSlice n f).attends = s.attends := rfl
@[simp] theorem State.setSlice_opt (s : State) (n : Nat) (f : Slice → Slice) : (s.setSlice n f).opt = s.opt := rfl
@[simp] theorem State.setSlice_ckpt (s : State) (n : Nat) (f : Slice → Slice) : (s.setSlice n f).ckpt = s.ckpt := rfl
@[simp] theorem State.setSlice_routeCache (s : State) (n : Nat) (f : Slice → Slice) :
    (s.setSlice n f).routeCache = s.routeCache := rfl
@[simp] theorem State.setSlice_spBad (s : State) (n : Nat) (f : Slice → Slice) : (s.setSlice n f).spBad = s.spBad := rfl
@[simp] theorem State.setSlice_seqs (s : State) (n : Nat) (f : Slice → Slice) : (s.setSlice n f).seqs = s.seqs := rfl
@[simp] theorem State.setSlice_share (s : State) (n : Nat) (f : Slice → Slice) : (s.setSlice n f).share = s.share := rfl
@[simp] theorem State.setSlice_mgiHold (s : State) (n : Nat) (f : Slice → Slice) :
    (s.setSlice n f).mgiHold = s.mgiHold := rfl
@[simp] theorem State.setSlice_sent (s : State) (n : Nat) (f : Slice → Slice) : (s.setSlice n f).sent = s.sent := rfl
@[simp] theorem State.setSlice_fresh (s : State) (n : Nat) (f : Slice → Slice) : (s.setSlice n f).fresh = s.fresh := rfl
@[simp] theorem State.setSlice_pending (s : State) (n : Nat) (f : Slice → Slice) :
    (s.setSlice n f).pending = s.pending := rfl
@[simp] theorem State.setQueue_pins (s : State) (sl slot : Nat) (f : Queue → Queue) :
    (s.setQueue sl slot f).pins = s.pins := rfl
@[simp] theorem State.setQueue_mod (s : State) (sl slot : Nat) (f : Queue → Queue) :
    (s.setQueue sl slot f).mod = s.mod := rfl
@[simp] theorem State.setQueue_dict (s : State) (sl slot : Nat) (f : Queue → Queue) :
    (s.setQueue sl slot f).dict = s.dict := rfl
@[simp] theorem State.setQueue_adm (s : State) (sl slot : Nat) (f : Queue → Queue) :
    (s.setQueue sl slot f).adm = s.adm := rfl
@[simp] theorem State.setQueue_launches (s : State) (sl slot : Nat) (f : Queue → Queue) :
    (s.setQueue sl slot f).launches = s.launches := rfl
@[simp] theorem State.setQueue_keys (s : State) (sl slot : Nat) (f : Queue → Queue) :
    (s.setQueue sl slot f).keys = s.keys := rfl
@[simp] theorem State.setQueue_nor (s : State) (sl slot : Nat) (f : Queue → Queue) :
    (s.setQueue sl slot f).nor = s.nor := rfl
@[simp] theorem State.setQueue_firm (s : State) (sl slot : Nat) (f : Queue → Queue) :
    (s.setQueue sl slot f).firm = s.firm := rfl
@[simp] theorem State.setQueue_pow (s : State) (sl slot : Nat) (f : Queue → Queue) :
    (s.setQueue sl slot f).pow = s.pow := rfl
@[simp] theorem State.setQueue_rcd (s : State) (sl slot : Nat) (f : Queue → Queue) :
    (s.setQueue sl slot f).rcd = s.rcd := rfl
@[simp] theorem State.setQueue_mem (s : State) (sl slot : Nat) (f : Queue → Queue) :
    (s.setQueue sl slot f).mem = s.mem := rfl
@[simp] theorem State.setQueue_poison (s : State) (sl slot : Nat) (f : Queue → Queue) :
    (s.setQueue sl slot f).poison = s.poison := rfl
@[simp] theorem State.setQueue_mis (s : State) (sl slot : Nat) (f : Queue → Queue) :
    (s.setQueue sl slot f).mis = s.mis := rfl
@[simp] theorem State.setQueue_kv (s : State) (sl slot : Nat) (f : Queue → Queue) :
    (s.setQueue sl slot f).kv = s.kv := rfl
@[simp] theorem State.setQueue_flash (s : State) (sl slot : Nat) (f : Queue → Queue) :
    (s.setQueue sl slot f).flash = s.flash := rfl
@[simp] theorem State.setQueue_ports (s : State) (sl slot : Nat) (f : Queue → Queue) :
    (s.setQueue sl slot f).ports = s.ports := rfl
@[simp] theorem State.setQueue_net (s : State) (sl slot : Nat) (f : Queue → Queue) :
    (s.setQueue sl slot f).net = s.net := rfl
@[simp] theorem State.setQueue_groups (s : State) (sl slot : Nat) (f : Queue → Queue) :
    (s.setQueue sl slot f).groups = s.groups := rfl
@[simp] theorem State.setQueue_routes (s : State) (sl slot : Nat) (f : Queue → Queue) :
    (s.setQueue sl slot f).routes = s.routes := rfl
@[simp] theorem State.setQueue_attends (s : State) (sl slot : Nat) (f : Queue → Queue) :
    (s.setQueue sl slot f).attends = s.attends := rfl
@[simp] theorem State.setQueue_opt (s : State) (sl slot : Nat) (f : Queue → Queue) :
    (s.setQueue sl slot f).opt = s.opt := rfl
@[simp] theorem State.setQueue_ckpt (s : State) (sl slot : Nat) (f : Queue → Queue) :
    (s.setQueue sl slot f).ckpt = s.ckpt := rfl
@[simp] theorem State.setQueue_routeCache (s : State) (sl slot : Nat) (f : Queue → Queue) :
    (s.setQueue sl slot f).routeCache = s.routeCache := rfl
@[simp] theorem State.setQueue_spBad (s : State) (sl slot : Nat) (f : Queue → Queue) :
    (s.setQueue sl slot f).spBad = s.spBad := rfl
@[simp] theorem State.setQueue_seqs (s : State) (sl slot : Nat) (f : Queue → Queue) :
    (s.setQueue sl slot f).seqs = s.seqs := rfl
@[simp] theorem State.setQueue_share (s : State) (sl slot : Nat) (f : Queue → Queue) :
    (s.setQueue sl slot f).share = s.share := rfl
@[simp] theorem State.setQueue_mgiHold (s : State) (sl slot : Nat) (f : Queue → Queue) :
    (s.setQueue sl slot f).mgiHold = s.mgiHold := rfl
@[simp] theorem State.setQueue_sent (s : State) (sl slot : Nat) (f : Queue → Queue) :
    (s.setQueue sl slot f).sent = s.sent := rfl
@[simp] theorem State.setQueue_fresh (s : State) (sl slot : Nat) (f : Queue → Queue) :
    (s.setQueue sl slot f).fresh = s.fresh := rfl
@[simp] theorem State.setQueue_pending (s : State) (sl slot : Nat) (f : Queue → Queue) :
    (s.setQueue sl slot f).pending = s.pending := rfl
@[simp] theorem State.use_pins (s : State) (sl i n : Nat) : (s.use sl i n).pins = s.pins := rfl
@[simp] theorem State.use_mod (s : State) (sl i n : Nat) : (s.use sl i n).mod = s.mod := rfl
@[simp] theorem State.use_dict (s : State) (sl i n : Nat) : (s.use sl i n).dict = s.dict := rfl
@[simp] theorem State.use_adm (s : State) (sl i n : Nat) : (s.use sl i n).adm = s.adm := rfl
@[simp] theorem State.use_launches (s : State) (sl i n : Nat) : (s.use sl i n).launches = s.launches := rfl
@[simp] theorem State.use_keys (s : State) (sl i n : Nat) : (s.use sl i n).keys = s.keys := rfl
@[simp] theorem State.use_nor (s : State) (sl i n : Nat) : (s.use sl i n).nor = s.nor := rfl
@[simp] theorem State.use_firm (s : State) (sl i n : Nat) : (s.use sl i n).firm = s.firm := rfl
@[simp] theorem State.use_pow (s : State) (sl i n : Nat) : (s.use sl i n).pow = s.pow := rfl
@[simp] theorem State.use_rcd (s : State) (sl i n : Nat) : (s.use sl i n).rcd = s.rcd := rfl
@[simp] theorem State.use_mem (s : State) (sl i n : Nat) : (s.use sl i n).mem = s.mem := rfl
@[simp] theorem State.use_poison (s : State) (sl i n : Nat) : (s.use sl i n).poison = s.poison := rfl
@[simp] theorem State.use_mis (s : State) (sl i n : Nat) : (s.use sl i n).mis = s.mis := rfl
@[simp] theorem State.use_kv (s : State) (sl i n : Nat) : (s.use sl i n).kv = s.kv := rfl
@[simp] theorem State.use_flash (s : State) (sl i n : Nat) : (s.use sl i n).flash = s.flash := rfl
@[simp] theorem State.use_ports (s : State) (sl i n : Nat) : (s.use sl i n).ports = s.ports := rfl
@[simp] theorem State.use_net (s : State) (sl i n : Nat) : (s.use sl i n).net = s.net := rfl
@[simp] theorem State.use_groups (s : State) (sl i n : Nat) : (s.use sl i n).groups = s.groups := rfl
@[simp] theorem State.use_routes (s : State) (sl i n : Nat) : (s.use sl i n).routes = s.routes := rfl
@[simp] theorem State.use_attends (s : State) (sl i n : Nat) : (s.use sl i n).attends = s.attends := rfl
@[simp] theorem State.use_opt (s : State) (sl i n : Nat) : (s.use sl i n).opt = s.opt := rfl
@[simp] theorem State.use_ckpt (s : State) (sl i n : Nat) : (s.use sl i n).ckpt = s.ckpt := rfl
@[simp] theorem State.use_routeCache (s : State) (sl i n : Nat) : (s.use sl i n).routeCache = s.routeCache := rfl
@[simp] theorem State.use_spBad (s : State) (sl i n : Nat) : (s.use sl i n).spBad = s.spBad := rfl
@[simp] theorem State.use_seqs (s : State) (sl i n : Nat) : (s.use sl i n).seqs = s.seqs := rfl
@[simp] theorem State.use_share (s : State) (sl i n : Nat) : (s.use sl i n).share = s.share := rfl
@[simp] theorem State.use_mgiHold (s : State) (sl i n : Nat) : (s.use sl i n).mgiHold = s.mgiHold := rfl
@[simp] theorem State.use_sent (s : State) (sl i n : Nat) : (s.use sl i n).sent = s.sent := rfl
@[simp] theorem State.use_fresh (s : State) (sl i n : Nat) : (s.use sl i n).fresh = s.fresh := rfl
@[simp] theorem State.use_pending (s : State) (sl i n : Nat) : (s.use sl i n).pending = s.pending := rfl
@[simp] theorem State.setSteer_pins (s : State) (sl e : Nat) (f : Steer → Steer) :
    (s.setSteer sl e f).pins = s.pins := rfl
@[simp] theorem State.setSteer_mod (s : State) (sl e : Nat) (f : Steer → Steer) : (s.setSteer sl e f).mod = s.mod := rfl
@[simp] theorem State.setSteer_dict (s : State) (sl e : Nat) (f : Steer → Steer) :
    (s.setSteer sl e f).dict = s.dict := rfl
@[simp] theorem State.setSteer_adm (s : State) (sl e : Nat) (f : Steer → Steer) : (s.setSteer sl e f).adm = s.adm := rfl
@[simp] theorem State.setSteer_launches (s : State) (sl e : Nat) (f : Steer → Steer) :
    (s.setSteer sl e f).launches = s.launches := rfl
@[simp] theorem State.setSteer_keys (s : State) (sl e : Nat) (f : Steer → Steer) :
    (s.setSteer sl e f).keys = s.keys := rfl
@[simp] theorem State.setSteer_nor (s : State) (sl e : Nat) (f : Steer → Steer) : (s.setSteer sl e f).nor = s.nor := rfl
@[simp] theorem State.setSteer_firm (s : State) (sl e : Nat) (f : Steer → Steer) :
    (s.setSteer sl e f).firm = s.firm := rfl
@[simp] theorem State.setSteer_pow (s : State) (sl e : Nat) (f : Steer → Steer) : (s.setSteer sl e f).pow = s.pow := rfl
@[simp] theorem State.setSteer_rcd (s : State) (sl e : Nat) (f : Steer → Steer) : (s.setSteer sl e f).rcd = s.rcd := rfl
@[simp] theorem State.setSteer_mem (s : State) (sl e : Nat) (f : Steer → Steer) : (s.setSteer sl e f).mem = s.mem := rfl
@[simp] theorem State.setSteer_poison (s : State) (sl e : Nat) (f : Steer → Steer) :
    (s.setSteer sl e f).poison = s.poison := rfl
@[simp] theorem State.setSteer_mis (s : State) (sl e : Nat) (f : Steer → Steer) : (s.setSteer sl e f).mis = s.mis := rfl
@[simp] theorem State.setSteer_kv (s : State) (sl e : Nat) (f : Steer → Steer) : (s.setSteer sl e f).kv = s.kv := rfl
@[simp] theorem State.setSteer_flash (s : State) (sl e : Nat) (f : Steer → Steer) :
    (s.setSteer sl e f).flash = s.flash := rfl
@[simp] theorem State.setSteer_ports (s : State) (sl e : Nat) (f : Steer → Steer) :
    (s.setSteer sl e f).ports = s.ports := rfl
@[simp] theorem State.setSteer_net (s : State) (sl e : Nat) (f : Steer → Steer) : (s.setSteer sl e f).net = s.net := rfl
@[simp] theorem State.setSteer_groups (s : State) (sl e : Nat) (f : Steer → Steer) :
    (s.setSteer sl e f).groups = s.groups := rfl
@[simp] theorem State.setSteer_routes (s : State) (sl e : Nat) (f : Steer → Steer) :
    (s.setSteer sl e f).routes = s.routes := rfl
@[simp] theorem State.setSteer_attends (s : State) (sl e : Nat) (f : Steer → Steer) :
    (s.setSteer sl e f).attends = s.attends := rfl
@[simp] theorem State.setSteer_opt (s : State) (sl e : Nat) (f : Steer → Steer) : (s.setSteer sl e f).opt = s.opt := rfl
@[simp] theorem State.setSteer_ckpt (s : State) (sl e : Nat) (f : Steer → Steer) :
    (s.setSteer sl e f).ckpt = s.ckpt := rfl
@[simp] theorem State.setSteer_routeCache (s : State) (sl e : Nat) (f : Steer → Steer) :
    (s.setSteer sl e f).routeCache = s.routeCache := rfl
@[simp] theorem State.setSteer_spBad (s : State) (sl e : Nat) (f : Steer → Steer) :
    (s.setSteer sl e f).spBad = s.spBad := rfl
@[simp] theorem State.setSteer_seqs (s : State) (sl e : Nat) (f : Steer → Steer) :
    (s.setSteer sl e f).seqs = s.seqs := rfl
@[simp] theorem State.setSteer_share (s : State) (sl e : Nat) (f : Steer → Steer) :
    (s.setSteer sl e f).share = s.share := rfl
@[simp] theorem State.setSteer_mgiHold (s : State) (sl e : Nat) (f : Steer → Steer) :
    (s.setSteer sl e f).mgiHold = s.mgiHold := rfl
@[simp] theorem State.setSteer_sent (s : State) (sl e : Nat) (f : Steer → Steer) :
    (s.setSteer sl e f).sent = s.sent := rfl
@[simp] theorem State.setSteer_fresh (s : State) (sl e : Nat) (f : Steer → Steer) :
    (s.setSteer sl e f).fresh = s.fresh := rfl
@[simp] theorem State.setSteer_pending (s : State) (sl e : Nat) (f : Steer → Steer) :
    (s.setSteer sl e f).pending = s.pending := rfl
@[simp] theorem State.setKeys_pins (s : State) (f : Keys → Keys) : (s.setKeys f).pins = s.pins := rfl
@[simp] theorem State.setKeys_mod (s : State) (f : Keys → Keys) : (s.setKeys f).mod = s.mod := rfl
@[simp] theorem State.setKeys_dict (s : State) (f : Keys → Keys) : (s.setKeys f).dict = s.dict := rfl
@[simp] theorem State.setKeys_host (s : State) (f : Keys → Keys) : (s.setKeys f).host = s.host := rfl
@[simp] theorem State.setKeys_adm (s : State) (f : Keys → Keys) : (s.setKeys f).adm = s.adm := rfl
@[simp] theorem State.setKeys_launches (s : State) (f : Keys → Keys) : (s.setKeys f).launches = s.launches := rfl
@[simp] theorem State.setKeys_nor (s : State) (f : Keys → Keys) : (s.setKeys f).nor = s.nor := rfl
@[simp] theorem State.setKeys_firm (s : State) (f : Keys → Keys) : (s.setKeys f).firm = s.firm := rfl
@[simp] theorem State.setKeys_pow (s : State) (f : Keys → Keys) : (s.setKeys f).pow = s.pow := rfl
@[simp] theorem State.setKeys_rcd (s : State) (f : Keys → Keys) : (s.setKeys f).rcd = s.rcd := rfl
@[simp] theorem State.setKeys_mem (s : State) (f : Keys → Keys) : (s.setKeys f).mem = s.mem := rfl
@[simp] theorem State.setKeys_poison (s : State) (f : Keys → Keys) : (s.setKeys f).poison = s.poison := rfl
@[simp] theorem State.setKeys_mis (s : State) (f : Keys → Keys) : (s.setKeys f).mis = s.mis := rfl
@[simp] theorem State.setKeys_kv (s : State) (f : Keys → Keys) : (s.setKeys f).kv = s.kv := rfl
@[simp] theorem State.setKeys_flash (s : State) (f : Keys → Keys) : (s.setKeys f).flash = s.flash := rfl
@[simp] theorem State.setKeys_ports (s : State) (f : Keys → Keys) : (s.setKeys f).ports = s.ports := rfl
@[simp] theorem State.setKeys_net (s : State) (f : Keys → Keys) : (s.setKeys f).net = s.net := rfl
@[simp] theorem State.setKeys_groups (s : State) (f : Keys → Keys) : (s.setKeys f).groups = s.groups := rfl
@[simp] theorem State.setKeys_routes (s : State) (f : Keys → Keys) : (s.setKeys f).routes = s.routes := rfl
@[simp] theorem State.setKeys_attends (s : State) (f : Keys → Keys) : (s.setKeys f).attends = s.attends := rfl
@[simp] theorem State.setKeys_opt (s : State) (f : Keys → Keys) : (s.setKeys f).opt = s.opt := rfl
@[simp] theorem State.setKeys_ckpt (s : State) (f : Keys → Keys) : (s.setKeys f).ckpt = s.ckpt := rfl
@[simp] theorem State.setKeys_routeCache (s : State) (f : Keys → Keys) : (s.setKeys f).routeCache = s.routeCache := rfl
@[simp] theorem State.setKeys_spBad (s : State) (f : Keys → Keys) : (s.setKeys f).spBad = s.spBad := rfl
@[simp] theorem State.setKeys_seqs (s : State) (f : Keys → Keys) : (s.setKeys f).seqs = s.seqs := rfl
@[simp] theorem State.setKeys_share (s : State) (f : Keys → Keys) : (s.setKeys f).share = s.share := rfl
@[simp] theorem State.setKeys_mgiHold (s : State) (f : Keys → Keys) : (s.setKeys f).mgiHold = s.mgiHold := rfl
@[simp] theorem State.setKeys_sent (s : State) (f : Keys → Keys) : (s.setKeys f).sent = s.sent := rfl
@[simp] theorem State.setKeys_fresh (s : State) (f : Keys → Keys) : (s.setKeys f).fresh = s.fresh := rfl
@[simp] theorem State.setKeys_pending (s : State) (f : Keys → Keys) : (s.setKeys f).pending = s.pending := rfl
@[simp] theorem State.setFirm_pins (s : State) (f : Firm → Firm) : (s.setFirm f).pins = s.pins := rfl
@[simp] theorem State.setFirm_mod (s : State) (f : Firm → Firm) : (s.setFirm f).mod = s.mod := rfl
@[simp] theorem State.setFirm_dict (s : State) (f : Firm → Firm) : (s.setFirm f).dict = s.dict := rfl
@[simp] theorem State.setFirm_host (s : State) (f : Firm → Firm) : (s.setFirm f).host = s.host := rfl
@[simp] theorem State.setFirm_adm (s : State) (f : Firm → Firm) : (s.setFirm f).adm = s.adm := rfl
@[simp] theorem State.setFirm_launches (s : State) (f : Firm → Firm) : (s.setFirm f).launches = s.launches := rfl
@[simp] theorem State.setFirm_keys (s : State) (f : Firm → Firm) : (s.setFirm f).keys = s.keys := rfl
@[simp] theorem State.setFirm_nor (s : State) (f : Firm → Firm) : (s.setFirm f).nor = s.nor := rfl
@[simp] theorem State.setFirm_pow (s : State) (f : Firm → Firm) : (s.setFirm f).pow = s.pow := rfl
@[simp] theorem State.setFirm_rcd (s : State) (f : Firm → Firm) : (s.setFirm f).rcd = s.rcd := rfl
@[simp] theorem State.setFirm_mem (s : State) (f : Firm → Firm) : (s.setFirm f).mem = s.mem := rfl
@[simp] theorem State.setFirm_poison (s : State) (f : Firm → Firm) : (s.setFirm f).poison = s.poison := rfl
@[simp] theorem State.setFirm_mis (s : State) (f : Firm → Firm) : (s.setFirm f).mis = s.mis := rfl
@[simp] theorem State.setFirm_kv (s : State) (f : Firm → Firm) : (s.setFirm f).kv = s.kv := rfl
@[simp] theorem State.setFirm_flash (s : State) (f : Firm → Firm) : (s.setFirm f).flash = s.flash := rfl
@[simp] theorem State.setFirm_ports (s : State) (f : Firm → Firm) : (s.setFirm f).ports = s.ports := rfl
@[simp] theorem State.setFirm_net (s : State) (f : Firm → Firm) : (s.setFirm f).net = s.net := rfl
@[simp] theorem State.setFirm_groups (s : State) (f : Firm → Firm) : (s.setFirm f).groups = s.groups := rfl
@[simp] theorem State.setFirm_routes (s : State) (f : Firm → Firm) : (s.setFirm f).routes = s.routes := rfl
@[simp] theorem State.setFirm_attends (s : State) (f : Firm → Firm) : (s.setFirm f).attends = s.attends := rfl
@[simp] theorem State.setFirm_opt (s : State) (f : Firm → Firm) : (s.setFirm f).opt = s.opt := rfl
@[simp] theorem State.setFirm_ckpt (s : State) (f : Firm → Firm) : (s.setFirm f).ckpt = s.ckpt := rfl
@[simp] theorem State.setFirm_routeCache (s : State) (f : Firm → Firm) : (s.setFirm f).routeCache = s.routeCache := rfl
@[simp] theorem State.setFirm_spBad (s : State) (f : Firm → Firm) : (s.setFirm f).spBad = s.spBad := rfl
@[simp] theorem State.setFirm_seqs (s : State) (f : Firm → Firm) : (s.setFirm f).seqs = s.seqs := rfl
@[simp] theorem State.setFirm_share (s : State) (f : Firm → Firm) : (s.setFirm f).share = s.share := rfl
@[simp] theorem State.setFirm_mgiHold (s : State) (f : Firm → Firm) : (s.setFirm f).mgiHold = s.mgiHold := rfl
@[simp] theorem State.setFirm_sent (s : State) (f : Firm → Firm) : (s.setFirm f).sent = s.sent := rfl
@[simp] theorem State.setFirm_fresh (s : State) (f : Firm → Firm) : (s.setFirm f).fresh = s.fresh := rfl
@[simp] theorem State.setFirm_pending (s : State) (f : Firm → Firm) : (s.setFirm f).pending = s.pending := rfl
@[simp] theorem State.setGroup_pins (s : State) (k : Nat) (f : Group → Group) : (s.setGroup k f).pins = s.pins := rfl
@[simp] theorem State.setGroup_mod (s : State) (k : Nat) (f : Group → Group) : (s.setGroup k f).mod = s.mod := rfl
@[simp] theorem State.setGroup_dict (s : State) (k : Nat) (f : Group → Group) : (s.setGroup k f).dict = s.dict := rfl
@[simp] theorem State.setGroup_host (s : State) (k : Nat) (f : Group → Group) : (s.setGroup k f).host = s.host := rfl
@[simp] theorem State.setGroup_adm (s : State) (k : Nat) (f : Group → Group) : (s.setGroup k f).adm = s.adm := rfl
@[simp] theorem State.setGroup_launches (s : State) (k : Nat) (f : Group → Group) :
    (s.setGroup k f).launches = s.launches := rfl
@[simp] theorem State.setGroup_keys (s : State) (k : Nat) (f : Group → Group) : (s.setGroup k f).keys = s.keys := rfl
@[simp] theorem State.setGroup_nor (s : State) (k : Nat) (f : Group → Group) : (s.setGroup k f).nor = s.nor := rfl
@[simp] theorem State.setGroup_firm (s : State) (k : Nat) (f : Group → Group) : (s.setGroup k f).firm = s.firm := rfl
@[simp] theorem State.setGroup_pow (s : State) (k : Nat) (f : Group → Group) : (s.setGroup k f).pow = s.pow := rfl
@[simp] theorem State.setGroup_rcd (s : State) (k : Nat) (f : Group → Group) : (s.setGroup k f).rcd = s.rcd := rfl
@[simp] theorem State.setGroup_mem (s : State) (k : Nat) (f : Group → Group) : (s.setGroup k f).mem = s.mem := rfl
@[simp] theorem State.setGroup_poison (s : State) (k : Nat) (f : Group → Group) :
    (s.setGroup k f).poison = s.poison := rfl
@[simp] theorem State.setGroup_mis (s : State) (k : Nat) (f : Group → Group) : (s.setGroup k f).mis = s.mis := rfl
@[simp] theorem State.setGroup_kv (s : State) (k : Nat) (f : Group → Group) : (s.setGroup k f).kv = s.kv := rfl
@[simp] theorem State.setGroup_flash (s : State) (k : Nat) (f : Group → Group) : (s.setGroup k f).flash = s.flash := rfl
@[simp] theorem State.setGroup_ports (s : State) (k : Nat) (f : Group → Group) : (s.setGroup k f).ports = s.ports := rfl
@[simp] theorem State.setGroup_net (s : State) (k : Nat) (f : Group → Group) : (s.setGroup k f).net = s.net := rfl
@[simp] theorem State.setGroup_routes (s : State) (k : Nat) (f : Group → Group) :
    (s.setGroup k f).routes = s.routes := rfl
@[simp] theorem State.setGroup_attends (s : State) (k : Nat) (f : Group → Group) :
    (s.setGroup k f).attends = s.attends := rfl
@[simp] theorem State.setGroup_opt (s : State) (k : Nat) (f : Group → Group) : (s.setGroup k f).opt = s.opt := rfl
@[simp] theorem State.setGroup_ckpt (s : State) (k : Nat) (f : Group → Group) : (s.setGroup k f).ckpt = s.ckpt := rfl
@[simp] theorem State.setGroup_routeCache (s : State) (k : Nat) (f : Group → Group) :
    (s.setGroup k f).routeCache = s.routeCache := rfl
@[simp] theorem State.setGroup_spBad (s : State) (k : Nat) (f : Group → Group) : (s.setGroup k f).spBad = s.spBad := rfl
@[simp] theorem State.setGroup_seqs (s : State) (k : Nat) (f : Group → Group) : (s.setGroup k f).seqs = s.seqs := rfl
@[simp] theorem State.setGroup_share (s : State) (k : Nat) (f : Group → Group) : (s.setGroup k f).share = s.share := rfl
@[simp] theorem State.setGroup_mgiHold (s : State) (k : Nat) (f : Group → Group) :
    (s.setGroup k f).mgiHold = s.mgiHold := rfl
@[simp] theorem State.setGroup_sent (s : State) (k : Nat) (f : Group → Group) : (s.setGroup k f).sent = s.sent := rfl
@[simp] theorem State.setGroup_fresh (s : State) (k : Nat) (f : Group → Group) : (s.setGroup k f).fresh = s.fresh := rfl
@[simp] theorem State.setGroup_pending (s : State) (k : Nat) (f : Group → Group) :
    (s.setGroup k f).pending = s.pending := rfl
@[simp] theorem State.setCall_pins (s : State) (k c : Nat) (f : Call → Call) : (s.setCall k c f).pins = s.pins := rfl
@[simp] theorem State.setCall_mod (s : State) (k c : Nat) (f : Call → Call) : (s.setCall k c f).mod = s.mod := rfl
@[simp] theorem State.setCall_dict (s : State) (k c : Nat) (f : Call → Call) : (s.setCall k c f).dict = s.dict := rfl
@[simp] theorem State.setCall_host (s : State) (k c : Nat) (f : Call → Call) : (s.setCall k c f).host = s.host := rfl
@[simp] theorem State.setCall_adm (s : State) (k c : Nat) (f : Call → Call) : (s.setCall k c f).adm = s.adm := rfl
@[simp] theorem State.setCall_launches (s : State) (k c : Nat) (f : Call → Call) :
    (s.setCall k c f).launches = s.launches := rfl
@[simp] theorem State.setCall_keys (s : State) (k c : Nat) (f : Call → Call) : (s.setCall k c f).keys = s.keys := rfl
@[simp] theorem State.setCall_nor (s : State) (k c : Nat) (f : Call → Call) : (s.setCall k c f).nor = s.nor := rfl
@[simp] theorem State.setCall_firm (s : State) (k c : Nat) (f : Call → Call) : (s.setCall k c f).firm = s.firm := rfl
@[simp] theorem State.setCall_pow (s : State) (k c : Nat) (f : Call → Call) : (s.setCall k c f).pow = s.pow := rfl
@[simp] theorem State.setCall_rcd (s : State) (k c : Nat) (f : Call → Call) : (s.setCall k c f).rcd = s.rcd := rfl
@[simp] theorem State.setCall_mem (s : State) (k c : Nat) (f : Call → Call) : (s.setCall k c f).mem = s.mem := rfl
@[simp] theorem State.setCall_poison (s : State) (k c : Nat) (f : Call → Call) :
    (s.setCall k c f).poison = s.poison := rfl
@[simp] theorem State.setCall_mis (s : State) (k c : Nat) (f : Call → Call) : (s.setCall k c f).mis = s.mis := rfl
@[simp] theorem State.setCall_kv (s : State) (k c : Nat) (f : Call → Call) : (s.setCall k c f).kv = s.kv := rfl
@[simp] theorem State.setCall_flash (s : State) (k c : Nat) (f : Call → Call) : (s.setCall k c f).flash = s.flash := rfl
@[simp] theorem State.setCall_ports (s : State) (k c : Nat) (f : Call → Call) : (s.setCall k c f).ports = s.ports := rfl
@[simp] theorem State.setCall_net (s : State) (k c : Nat) (f : Call → Call) : (s.setCall k c f).net = s.net := rfl
@[simp] theorem State.setCall_routes (s : State) (k c : Nat) (f : Call → Call) :
    (s.setCall k c f).routes = s.routes := rfl
@[simp] theorem State.setCall_attends (s : State) (k c : Nat) (f : Call → Call) :
    (s.setCall k c f).attends = s.attends := rfl
@[simp] theorem State.setCall_opt (s : State) (k c : Nat) (f : Call → Call) : (s.setCall k c f).opt = s.opt := rfl
@[simp] theorem State.setCall_ckpt (s : State) (k c : Nat) (f : Call → Call) : (s.setCall k c f).ckpt = s.ckpt := rfl
@[simp] theorem State.setCall_routeCache (s : State) (k c : Nat) (f : Call → Call) :
    (s.setCall k c f).routeCache = s.routeCache := rfl
@[simp] theorem State.setCall_spBad (s : State) (k c : Nat) (f : Call → Call) : (s.setCall k c f).spBad = s.spBad := rfl
@[simp] theorem State.setCall_seqs (s : State) (k c : Nat) (f : Call → Call) : (s.setCall k c f).seqs = s.seqs := rfl
@[simp] theorem State.setCall_share (s : State) (k c : Nat) (f : Call → Call) : (s.setCall k c f).share = s.share := rfl
@[simp] theorem State.setCall_mgiHold (s : State) (k c : Nat) (f : Call → Call) :
    (s.setCall k c f).mgiHold = s.mgiHold := rfl
@[simp] theorem State.setCall_sent (s : State) (k c : Nat) (f : Call → Call) : (s.setCall k c f).sent = s.sent := rfl
@[simp] theorem State.setCall_fresh (s : State) (k c : Nat) (f : Call → Call) : (s.setCall k c f).fresh = s.fresh := rfl
@[simp] theorem State.setCall_pending (s : State) (k c : Nat) (f : Call → Call) :
    (s.setCall k c f).pending = s.pending := rfl
@[simp] theorem State.setStrait_pins (s : State) (x : Nat) (f : Strait → Strait) :
    (s.setStrait x f).pins = s.pins := rfl
@[simp] theorem State.setStrait_dict (s : State) (x : Nat) (f : Strait → Strait) :
    (s.setStrait x f).dict = s.dict := rfl
@[simp] theorem State.setStrait_host (s : State) (x : Nat) (f : Strait → Strait) :
    (s.setStrait x f).host = s.host := rfl
@[simp] theorem State.setStrait_adm (s : State) (x : Nat) (f : Strait → Strait) : (s.setStrait x f).adm = s.adm := rfl
@[simp] theorem State.setStrait_launches (s : State) (x : Nat) (f : Strait → Strait) :
    (s.setStrait x f).launches = s.launches := rfl
@[simp] theorem State.setStrait_keys (s : State) (x : Nat) (f : Strait → Strait) :
    (s.setStrait x f).keys = s.keys := rfl
@[simp] theorem State.setStrait_nor (s : State) (x : Nat) (f : Strait → Strait) : (s.setStrait x f).nor = s.nor := rfl
@[simp] theorem State.setStrait_firm (s : State) (x : Nat) (f : Strait → Strait) :
    (s.setStrait x f).firm = s.firm := rfl
@[simp] theorem State.setStrait_pow (s : State) (x : Nat) (f : Strait → Strait) : (s.setStrait x f).pow = s.pow := rfl
@[simp] theorem State.setStrait_rcd (s : State) (x : Nat) (f : Strait → Strait) : (s.setStrait x f).rcd = s.rcd := rfl
@[simp] theorem State.setStrait_mem (s : State) (x : Nat) (f : Strait → Strait) : (s.setStrait x f).mem = s.mem := rfl
@[simp] theorem State.setStrait_poison (s : State) (x : Nat) (f : Strait → Strait) :
    (s.setStrait x f).poison = s.poison := rfl
@[simp] theorem State.setStrait_mis (s : State) (x : Nat) (f : Strait → Strait) : (s.setStrait x f).mis = s.mis := rfl
@[simp] theorem State.setStrait_kv (s : State) (x : Nat) (f : Strait → Strait) : (s.setStrait x f).kv = s.kv := rfl
@[simp] theorem State.setStrait_flash (s : State) (x : Nat) (f : Strait → Strait) :
    (s.setStrait x f).flash = s.flash := rfl
@[simp] theorem State.setStrait_ports (s : State) (x : Nat) (f : Strait → Strait) :
    (s.setStrait x f).ports = s.ports := rfl
@[simp] theorem State.setStrait_net (s : State) (x : Nat) (f : Strait → Strait) : (s.setStrait x f).net = s.net := rfl
@[simp] theorem State.setStrait_groups (s : State) (x : Nat) (f : Strait → Strait) :
    (s.setStrait x f).groups = s.groups := rfl
@[simp] theorem State.setStrait_routes (s : State) (x : Nat) (f : Strait → Strait) :
    (s.setStrait x f).routes = s.routes := rfl
@[simp] theorem State.setStrait_attends (s : State) (x : Nat) (f : Strait → Strait) :
    (s.setStrait x f).attends = s.attends := rfl
@[simp] theorem State.setStrait_opt (s : State) (x : Nat) (f : Strait → Strait) : (s.setStrait x f).opt = s.opt := rfl
@[simp] theorem State.setStrait_ckpt (s : State) (x : Nat) (f : Strait → Strait) :
    (s.setStrait x f).ckpt = s.ckpt := rfl
@[simp] theorem State.setStrait_routeCache (s : State) (x : Nat) (f : Strait → Strait) :
    (s.setStrait x f).routeCache = s.routeCache := rfl
@[simp] theorem State.setStrait_spBad (s : State) (x : Nat) (f : Strait → Strait) :
    (s.setStrait x f).spBad = s.spBad := rfl
@[simp] theorem State.setStrait_seqs (s : State) (x : Nat) (f : Strait → Strait) :
    (s.setStrait x f).seqs = s.seqs := rfl
@[simp] theorem State.setStrait_share (s : State) (x : Nat) (f : Strait → Strait) :
    (s.setStrait x f).share = s.share := rfl
@[simp] theorem State.setStrait_mgiHold (s : State) (x : Nat) (f : Strait → Strait) :
    (s.setStrait x f).mgiHold = s.mgiHold := rfl
@[simp] theorem State.setStrait_sent (s : State) (x : Nat) (f : Strait → Strait) :
    (s.setStrait x f).sent = s.sent := rfl
@[simp] theorem State.setStrait_fresh (s : State) (x : Nat) (f : Strait → Strait) :
    (s.setStrait x f).fresh = s.fresh := rfl
@[simp] theorem State.setStrait_pending (s : State) (x : Nat) (f : Strait → Strait) :
    (s.setStrait x f).pending = s.pending := rfl
@[simp] theorem State.setPow_pins (s : State) (f : PowerCtl → PowerCtl) : (s.setPow f).pins = s.pins := rfl
@[simp] theorem State.setPow_mod (s : State) (f : PowerCtl → PowerCtl) : (s.setPow f).mod = s.mod := rfl
@[simp] theorem State.setPow_dict (s : State) (f : PowerCtl → PowerCtl) : (s.setPow f).dict = s.dict := rfl
@[simp] theorem State.setPow_host (s : State) (f : PowerCtl → PowerCtl) : (s.setPow f).host = s.host := rfl
@[simp] theorem State.setPow_adm (s : State) (f : PowerCtl → PowerCtl) : (s.setPow f).adm = s.adm := rfl
@[simp] theorem State.setPow_launches (s : State) (f : PowerCtl → PowerCtl) : (s.setPow f).launches = s.launches := rfl
@[simp] theorem State.setPow_keys (s : State) (f : PowerCtl → PowerCtl) : (s.setPow f).keys = s.keys := rfl
@[simp] theorem State.setPow_nor (s : State) (f : PowerCtl → PowerCtl) : (s.setPow f).nor = s.nor := rfl
@[simp] theorem State.setPow_firm (s : State) (f : PowerCtl → PowerCtl) : (s.setPow f).firm = s.firm := rfl
@[simp] theorem State.setPow_rcd (s : State) (f : PowerCtl → PowerCtl) : (s.setPow f).rcd = s.rcd := rfl
@[simp] theorem State.setPow_mem (s : State) (f : PowerCtl → PowerCtl) : (s.setPow f).mem = s.mem := rfl
@[simp] theorem State.setPow_poison (s : State) (f : PowerCtl → PowerCtl) : (s.setPow f).poison = s.poison := rfl
@[simp] theorem State.setPow_mis (s : State) (f : PowerCtl → PowerCtl) : (s.setPow f).mis = s.mis := rfl
@[simp] theorem State.setPow_kv (s : State) (f : PowerCtl → PowerCtl) : (s.setPow f).kv = s.kv := rfl
@[simp] theorem State.setPow_flash (s : State) (f : PowerCtl → PowerCtl) : (s.setPow f).flash = s.flash := rfl
@[simp] theorem State.setPow_ports (s : State) (f : PowerCtl → PowerCtl) : (s.setPow f).ports = s.ports := rfl
@[simp] theorem State.setPow_net (s : State) (f : PowerCtl → PowerCtl) : (s.setPow f).net = s.net := rfl
@[simp] theorem State.setPow_groups (s : State) (f : PowerCtl → PowerCtl) : (s.setPow f).groups = s.groups := rfl
@[simp] theorem State.setPow_routes (s : State) (f : PowerCtl → PowerCtl) : (s.setPow f).routes = s.routes := rfl
@[simp] theorem State.setPow_attends (s : State) (f : PowerCtl → PowerCtl) : (s.setPow f).attends = s.attends := rfl
@[simp] theorem State.setPow_opt (s : State) (f : PowerCtl → PowerCtl) : (s.setPow f).opt = s.opt := rfl
@[simp] theorem State.setPow_ckpt (s : State) (f : PowerCtl → PowerCtl) : (s.setPow f).ckpt = s.ckpt := rfl
@[simp] theorem State.setPow_routeCache (s : State) (f : PowerCtl → PowerCtl) :
    (s.setPow f).routeCache = s.routeCache := rfl
@[simp] theorem State.setPow_spBad (s : State) (f : PowerCtl → PowerCtl) : (s.setPow f).spBad = s.spBad := rfl
@[simp] theorem State.setPow_seqs (s : State) (f : PowerCtl → PowerCtl) : (s.setPow f).seqs = s.seqs := rfl
@[simp] theorem State.setPow_share (s : State) (f : PowerCtl → PowerCtl) : (s.setPow f).share = s.share := rfl
@[simp] theorem State.setPow_mgiHold (s : State) (f : PowerCtl → PowerCtl) : (s.setPow f).mgiHold = s.mgiHold := rfl
@[simp] theorem State.setPow_sent (s : State) (f : PowerCtl → PowerCtl) : (s.setPow f).sent = s.sent := rfl
@[simp] theorem State.setPow_fresh (s : State) (f : PowerCtl → PowerCtl) : (s.setPow f).fresh = s.fresh := rfl
@[simp] theorem State.setPow_pending (s : State) (f : PowerCtl → PowerCtl) : (s.setPow f).pending = s.pending := rfl
@[simp] theorem State.setConn_pins (s : State) (k : Nat) (f : Conn → Conn) : (s.setConn k f).pins = s.pins := rfl
@[simp] theorem State.setConn_mod (s : State) (k : Nat) (f : Conn → Conn) : (s.setConn k f).mod = s.mod := rfl
@[simp] theorem State.setConn_dict (s : State) (k : Nat) (f : Conn → Conn) : (s.setConn k f).dict = s.dict := rfl
@[simp] theorem State.setConn_host (s : State) (k : Nat) (f : Conn → Conn) : (s.setConn k f).host = s.host := rfl
@[simp] theorem State.setConn_adm (s : State) (k : Nat) (f : Conn → Conn) : (s.setConn k f).adm = s.adm := rfl
@[simp] theorem State.setConn_launches (s : State) (k : Nat) (f : Conn → Conn) :
    (s.setConn k f).launches = s.launches := rfl
@[simp] theorem State.setConn_keys (s : State) (k : Nat) (f : Conn → Conn) : (s.setConn k f).keys = s.keys := rfl
@[simp] theorem State.setConn_nor (s : State) (k : Nat) (f : Conn → Conn) : (s.setConn k f).nor = s.nor := rfl
@[simp] theorem State.setConn_firm (s : State) (k : Nat) (f : Conn → Conn) : (s.setConn k f).firm = s.firm := rfl
@[simp] theorem State.setConn_pow (s : State) (k : Nat) (f : Conn → Conn) : (s.setConn k f).pow = s.pow := rfl
@[simp] theorem State.setConn_rcd (s : State) (k : Nat) (f : Conn → Conn) : (s.setConn k f).rcd = s.rcd := rfl
@[simp] theorem State.setConn_mem (s : State) (k : Nat) (f : Conn → Conn) : (s.setConn k f).mem = s.mem := rfl
@[simp] theorem State.setConn_poison (s : State) (k : Nat) (f : Conn → Conn) : (s.setConn k f).poison = s.poison := rfl
@[simp] theorem State.setConn_mis (s : State) (k : Nat) (f : Conn → Conn) : (s.setConn k f).mis = s.mis := rfl
@[simp] theorem State.setConn_kv (s : State) (k : Nat) (f : Conn → Conn) : (s.setConn k f).kv = s.kv := rfl
@[simp] theorem State.setConn_flash (s : State) (k : Nat) (f : Conn → Conn) : (s.setConn k f).flash = s.flash := rfl
@[simp] theorem State.setConn_ports (s : State) (k : Nat) (f : Conn → Conn) : (s.setConn k f).ports = s.ports := rfl
@[simp] theorem State.setConn_groups (s : State) (k : Nat) (f : Conn → Conn) : (s.setConn k f).groups = s.groups := rfl
@[simp] theorem State.setConn_routes (s : State) (k : Nat) (f : Conn → Conn) : (s.setConn k f).routes = s.routes := rfl
@[simp] theorem State.setConn_attends (s : State) (k : Nat) (f : Conn → Conn) :
    (s.setConn k f).attends = s.attends := rfl
@[simp] theorem State.setConn_opt (s : State) (k : Nat) (f : Conn → Conn) : (s.setConn k f).opt = s.opt := rfl
@[simp] theorem State.setConn_ckpt (s : State) (k : Nat) (f : Conn → Conn) : (s.setConn k f).ckpt = s.ckpt := rfl
@[simp] theorem State.setConn_routeCache (s : State) (k : Nat) (f : Conn → Conn) :
    (s.setConn k f).routeCache = s.routeCache := rfl
@[simp] theorem State.setConn_spBad (s : State) (k : Nat) (f : Conn → Conn) : (s.setConn k f).spBad = s.spBad := rfl
@[simp] theorem State.setConn_seqs (s : State) (k : Nat) (f : Conn → Conn) : (s.setConn k f).seqs = s.seqs := rfl
@[simp] theorem State.setConn_share (s : State) (k : Nat) (f : Conn → Conn) : (s.setConn k f).share = s.share := rfl
@[simp] theorem State.setConn_mgiHold (s : State) (k : Nat) (f : Conn → Conn) :
    (s.setConn k f).mgiHold = s.mgiHold := rfl
@[simp] theorem State.setConn_sent (s : State) (k : Nat) (f : Conn → Conn) : (s.setConn k f).sent = s.sent := rfl
@[simp] theorem State.setConn_fresh (s : State) (k : Nat) (f : Conn → Conn) : (s.setConn k f).fresh = s.fresh := rfl
@[simp] theorem State.setConn_pending (s : State) (k : Nat) (f : Conn → Conn) :
    (s.setConn k f).pending = s.pending := rfl
@[simp] theorem State.setPins_mod (s : State) (f : Pins → Pins) : (s.setPins f).mod = s.mod := rfl
@[simp] theorem State.setPins_dict (s : State) (f : Pins → Pins) : (s.setPins f).dict = s.dict := rfl
@[simp] theorem State.setPins_host (s : State) (f : Pins → Pins) : (s.setPins f).host = s.host := rfl
@[simp] theorem State.setPins_adm (s : State) (f : Pins → Pins) : (s.setPins f).adm = s.adm := rfl
@[simp] theorem State.setPins_launches (s : State) (f : Pins → Pins) : (s.setPins f).launches = s.launches := rfl
@[simp] theorem State.setPins_keys (s : State) (f : Pins → Pins) : (s.setPins f).keys = s.keys := rfl
@[simp] theorem State.setPins_nor (s : State) (f : Pins → Pins) : (s.setPins f).nor = s.nor := rfl
@[simp] theorem State.setPins_firm (s : State) (f : Pins → Pins) : (s.setPins f).firm = s.firm := rfl
@[simp] theorem State.setPins_pow (s : State) (f : Pins → Pins) : (s.setPins f).pow = s.pow := rfl
@[simp] theorem State.setPins_rcd (s : State) (f : Pins → Pins) : (s.setPins f).rcd = s.rcd := rfl
@[simp] theorem State.setPins_mem (s : State) (f : Pins → Pins) : (s.setPins f).mem = s.mem := rfl
@[simp] theorem State.setPins_poison (s : State) (f : Pins → Pins) : (s.setPins f).poison = s.poison := rfl
@[simp] theorem State.setPins_mis (s : State) (f : Pins → Pins) : (s.setPins f).mis = s.mis := rfl
@[simp] theorem State.setPins_kv (s : State) (f : Pins → Pins) : (s.setPins f).kv = s.kv := rfl
@[simp] theorem State.setPins_flash (s : State) (f : Pins → Pins) : (s.setPins f).flash = s.flash := rfl
@[simp] theorem State.setPins_ports (s : State) (f : Pins → Pins) : (s.setPins f).ports = s.ports := rfl
@[simp] theorem State.setPins_net (s : State) (f : Pins → Pins) : (s.setPins f).net = s.net := rfl
@[simp] theorem State.setPins_groups (s : State) (f : Pins → Pins) : (s.setPins f).groups = s.groups := rfl
@[simp] theorem State.setPins_routes (s : State) (f : Pins → Pins) : (s.setPins f).routes = s.routes := rfl
@[simp] theorem State.setPins_attends (s : State) (f : Pins → Pins) : (s.setPins f).attends = s.attends := rfl
@[simp] theorem State.setPins_opt (s : State) (f : Pins → Pins) : (s.setPins f).opt = s.opt := rfl
@[simp] theorem State.setPins_ckpt (s : State) (f : Pins → Pins) : (s.setPins f).ckpt = s.ckpt := rfl
@[simp] theorem State.setPins_routeCache (s : State) (f : Pins → Pins) : (s.setPins f).routeCache = s.routeCache := rfl
@[simp] theorem State.setPins_spBad (s : State) (f : Pins → Pins) : (s.setPins f).spBad = s.spBad := rfl
@[simp] theorem State.setPins_seqs (s : State) (f : Pins → Pins) : (s.setPins f).seqs = s.seqs := rfl
@[simp] theorem State.setPins_share (s : State) (f : Pins → Pins) : (s.setPins f).share = s.share := rfl
@[simp] theorem State.setPins_mgiHold (s : State) (f : Pins → Pins) : (s.setPins f).mgiHold = s.mgiHold := rfl
@[simp] theorem State.setPins_sent (s : State) (f : Pins → Pins) : (s.setPins f).sent = s.sent := rfl
@[simp] theorem State.setPins_fresh (s : State) (f : Pins → Pins) : (s.setPins f).fresh = s.fresh := rfl
@[simp] theorem State.setPins_pending (s : State) (f : Pins → Pins) : (s.setPins f).pending = s.pending := rfl
@[simp] theorem State.setPins_pins (s : State) (f : Pins → Pins) : (s.setPins f).pins = f s.pins := rfl
@[simp] theorem State.setSeqr_pins (s : State) (q : Nat) (f : Seqr → Seqr) : (s.setSeqr q f).pins = s.pins := rfl
@[simp] theorem State.setSeqr_mod (s : State) (q : Nat) (f : Seqr → Seqr) : (s.setSeqr q f).mod = s.mod := rfl
@[simp] theorem State.setSeqr_dict (s : State) (q : Nat) (f : Seqr → Seqr) : (s.setSeqr q f).dict = s.dict := rfl
@[simp] theorem State.setSeqr_host (s : State) (q : Nat) (f : Seqr → Seqr) : (s.setSeqr q f).host = s.host := rfl
@[simp] theorem State.setSeqr_adm (s : State) (q : Nat) (f : Seqr → Seqr) : (s.setSeqr q f).adm = s.adm := rfl
@[simp] theorem State.setSeqr_launches (s : State) (q : Nat) (f : Seqr → Seqr) :
    (s.setSeqr q f).launches = s.launches := rfl
@[simp] theorem State.setSeqr_keys (s : State) (q : Nat) (f : Seqr → Seqr) : (s.setSeqr q f).keys = s.keys := rfl
@[simp] theorem State.setSeqr_nor (s : State) (q : Nat) (f : Seqr → Seqr) : (s.setSeqr q f).nor = s.nor := rfl
@[simp] theorem State.setSeqr_firm (s : State) (q : Nat) (f : Seqr → Seqr) : (s.setSeqr q f).firm = s.firm := rfl
@[simp] theorem State.setSeqr_pow (s : State) (q : Nat) (f : Seqr → Seqr) : (s.setSeqr q f).pow = s.pow := rfl
@[simp] theorem State.setSeqr_rcd (s : State) (q : Nat) (f : Seqr → Seqr) : (s.setSeqr q f).rcd = s.rcd := rfl
@[simp] theorem State.setSeqr_mem (s : State) (q : Nat) (f : Seqr → Seqr) : (s.setSeqr q f).mem = s.mem := rfl
@[simp] theorem State.setSeqr_poison (s : State) (q : Nat) (f : Seqr → Seqr) : (s.setSeqr q f).poison = s.poison := rfl
@[simp] theorem State.setSeqr_mis (s : State) (q : Nat) (f : Seqr → Seqr) : (s.setSeqr q f).mis = s.mis := rfl
@[simp] theorem State.setSeqr_kv (s : State) (q : Nat) (f : Seqr → Seqr) : (s.setSeqr q f).kv = s.kv := rfl
@[simp] theorem State.setSeqr_flash (s : State) (q : Nat) (f : Seqr → Seqr) : (s.setSeqr q f).flash = s.flash := rfl
@[simp] theorem State.setSeqr_ports (s : State) (q : Nat) (f : Seqr → Seqr) : (s.setSeqr q f).ports = s.ports := rfl
@[simp] theorem State.setSeqr_net (s : State) (q : Nat) (f : Seqr → Seqr) : (s.setSeqr q f).net = s.net := rfl
@[simp] theorem State.setSeqr_groups (s : State) (q : Nat) (f : Seqr → Seqr) : (s.setSeqr q f).groups = s.groups := rfl
@[simp] theorem State.setSeqr_routes (s : State) (q : Nat) (f : Seqr → Seqr) : (s.setSeqr q f).routes = s.routes := rfl
@[simp] theorem State.setSeqr_attends (s : State) (q : Nat) (f : Seqr → Seqr) :
    (s.setSeqr q f).attends = s.attends := rfl
@[simp] theorem State.setSeqr_opt (s : State) (q : Nat) (f : Seqr → Seqr) : (s.setSeqr q f).opt = s.opt := rfl
@[simp] theorem State.setSeqr_ckpt (s : State) (q : Nat) (f : Seqr → Seqr) : (s.setSeqr q f).ckpt = s.ckpt := rfl
@[simp] theorem State.setSeqr_routeCache (s : State) (q : Nat) (f : Seqr → Seqr) :
    (s.setSeqr q f).routeCache = s.routeCache := rfl
@[simp] theorem State.setSeqr_spBad (s : State) (q : Nat) (f : Seqr → Seqr) : (s.setSeqr q f).spBad = s.spBad := rfl
@[simp] theorem State.setSeqr_share (s : State) (q : Nat) (f : Seqr → Seqr) : (s.setSeqr q f).share = s.share := rfl
@[simp] theorem State.setSeqr_mgiHold (s : State) (q : Nat) (f : Seqr → Seqr) :
    (s.setSeqr q f).mgiHold = s.mgiHold := rfl
@[simp] theorem State.setSeqr_sent (s : State) (q : Nat) (f : Seqr → Seqr) : (s.setSeqr q f).sent = s.sent := rfl
@[simp] theorem State.setSeqr_fresh (s : State) (q : Nat) (f : Seqr → Seqr) : (s.setSeqr q f).fresh = s.fresh := rfl
@[simp] theorem State.setSeqr_pending (s : State) (q : Nat) (f : Seqr → Seqr) :
    (s.setSeqr q f).pending = s.pending := rfl
@[simp] theorem State.setSeq_pins (s : State) (i : Nat) (f : Seq → Seq) : (s.setSeq i f).pins = s.pins := rfl
@[simp] theorem State.setSeq_mod (s : State) (i : Nat) (f : Seq → Seq) : (s.setSeq i f).mod = s.mod := rfl
@[simp] theorem State.setSeq_dict (s : State) (i : Nat) (f : Seq → Seq) : (s.setSeq i f).dict = s.dict := rfl
@[simp] theorem State.setSeq_host (s : State) (i : Nat) (f : Seq → Seq) : (s.setSeq i f).host = s.host := rfl
@[simp] theorem State.setSeq_adm (s : State) (i : Nat) (f : Seq → Seq) : (s.setSeq i f).adm = s.adm := rfl
@[simp] theorem State.setSeq_launches (s : State) (i : Nat) (f : Seq → Seq) :
    (s.setSeq i f).launches = s.launches := rfl
@[simp] theorem State.setSeq_keys (s : State) (i : Nat) (f : Seq → Seq) : (s.setSeq i f).keys = s.keys := rfl
@[simp] theorem State.setSeq_nor (s : State) (i : Nat) (f : Seq → Seq) : (s.setSeq i f).nor = s.nor := rfl
@[simp] theorem State.setSeq_firm (s : State) (i : Nat) (f : Seq → Seq) : (s.setSeq i f).firm = s.firm := rfl
@[simp] theorem State.setSeq_pow (s : State) (i : Nat) (f : Seq → Seq) : (s.setSeq i f).pow = s.pow := rfl
@[simp] theorem State.setSeq_rcd (s : State) (i : Nat) (f : Seq → Seq) : (s.setSeq i f).rcd = s.rcd := rfl
@[simp] theorem State.setSeq_mem (s : State) (i : Nat) (f : Seq → Seq) : (s.setSeq i f).mem = s.mem := rfl
@[simp] theorem State.setSeq_poison (s : State) (i : Nat) (f : Seq → Seq) : (s.setSeq i f).poison = s.poison := rfl
@[simp] theorem State.setSeq_mis (s : State) (i : Nat) (f : Seq → Seq) : (s.setSeq i f).mis = s.mis := rfl
@[simp] theorem State.setSeq_flash (s : State) (i : Nat) (f : Seq → Seq) : (s.setSeq i f).flash = s.flash := rfl
@[simp] theorem State.setSeq_ports (s : State) (i : Nat) (f : Seq → Seq) : (s.setSeq i f).ports = s.ports := rfl
@[simp] theorem State.setSeq_net (s : State) (i : Nat) (f : Seq → Seq) : (s.setSeq i f).net = s.net := rfl
@[simp] theorem State.setSeq_groups (s : State) (i : Nat) (f : Seq → Seq) : (s.setSeq i f).groups = s.groups := rfl
@[simp] theorem State.setSeq_routes (s : State) (i : Nat) (f : Seq → Seq) : (s.setSeq i f).routes = s.routes := rfl
@[simp] theorem State.setSeq_attends (s : State) (i : Nat) (f : Seq → Seq) : (s.setSeq i f).attends = s.attends := rfl
@[simp] theorem State.setSeq_opt (s : State) (i : Nat) (f : Seq → Seq) : (s.setSeq i f).opt = s.opt := rfl
@[simp] theorem State.setSeq_ckpt (s : State) (i : Nat) (f : Seq → Seq) : (s.setSeq i f).ckpt = s.ckpt := rfl
@[simp] theorem State.setSeq_routeCache (s : State) (i : Nat) (f : Seq → Seq) :
    (s.setSeq i f).routeCache = s.routeCache := rfl
@[simp] theorem State.setSeq_spBad (s : State) (i : Nat) (f : Seq → Seq) : (s.setSeq i f).spBad = s.spBad := rfl
@[simp] theorem State.setSeq_seqs (s : State) (i : Nat) (f : Seq → Seq) : (s.setSeq i f).seqs = s.seqs := rfl
@[simp] theorem State.setSeq_share (s : State) (i : Nat) (f : Seq → Seq) : (s.setSeq i f).share = s.share := rfl
@[simp] theorem State.setSeq_mgiHold (s : State) (i : Nat) (f : Seq → Seq) : (s.setSeq i f).mgiHold = s.mgiHold := rfl
@[simp] theorem State.setSeq_sent (s : State) (i : Nat) (f : Seq → Seq) : (s.setSeq i f).sent = s.sent := rfl
@[simp] theorem State.setSeq_fresh (s : State) (i : Nat) (f : Seq → Seq) : (s.setSeq i f).fresh = s.fresh := rfl
@[simp] theorem State.setSeq_pending (s : State) (i : Nat) (f : Seq → Seq) : (s.setSeq i f).pending = s.pending := rfl
@[simp] theorem State.setKvb_pins (s : State) (b : Nat) (f : KvBlock → KvBlock) : (s.setKvb b f).pins = s.pins := rfl
@[simp] theorem State.setKvb_mod (s : State) (b : Nat) (f : KvBlock → KvBlock) : (s.setKvb b f).mod = s.mod := rfl
@[simp] theorem State.setKvb_dict (s : State) (b : Nat) (f : KvBlock → KvBlock) : (s.setKvb b f).dict = s.dict := rfl
@[simp] theorem State.setKvb_host (s : State) (b : Nat) (f : KvBlock → KvBlock) : (s.setKvb b f).host = s.host := rfl
@[simp] theorem State.setKvb_adm (s : State) (b : Nat) (f : KvBlock → KvBlock) : (s.setKvb b f).adm = s.adm := rfl
@[simp] theorem State.setKvb_launches (s : State) (b : Nat) (f : KvBlock → KvBlock) :
    (s.setKvb b f).launches = s.launches := rfl
@[simp] theorem State.setKvb_keys (s : State) (b : Nat) (f : KvBlock → KvBlock) : (s.setKvb b f).keys = s.keys := rfl
@[simp] theorem State.setKvb_nor (s : State) (b : Nat) (f : KvBlock → KvBlock) : (s.setKvb b f).nor = s.nor := rfl
@[simp] theorem State.setKvb_firm (s : State) (b : Nat) (f : KvBlock → KvBlock) : (s.setKvb b f).firm = s.firm := rfl
@[simp] theorem State.setKvb_pow (s : State) (b : Nat) (f : KvBlock → KvBlock) : (s.setKvb b f).pow = s.pow := rfl
@[simp] theorem State.setKvb_rcd (s : State) (b : Nat) (f : KvBlock → KvBlock) : (s.setKvb b f).rcd = s.rcd := rfl
@[simp] theorem State.setKvb_mem (s : State) (b : Nat) (f : KvBlock → KvBlock) : (s.setKvb b f).mem = s.mem := rfl
@[simp] theorem State.setKvb_poison (s : State) (b : Nat) (f : KvBlock → KvBlock) :
    (s.setKvb b f).poison = s.poison := rfl
@[simp] theorem State.setKvb_mis (s : State) (b : Nat) (f : KvBlock → KvBlock) : (s.setKvb b f).mis = s.mis := rfl
@[simp] theorem State.setKvb_flash (s : State) (b : Nat) (f : KvBlock → KvBlock) : (s.setKvb b f).flash = s.flash := rfl
@[simp] theorem State.setKvb_ports (s : State) (b : Nat) (f : KvBlock → KvBlock) : (s.setKvb b f).ports = s.ports := rfl
@[simp] theorem State.setKvb_net (s : State) (b : Nat) (f : KvBlock → KvBlock) : (s.setKvb b f).net = s.net := rfl
@[simp] theorem State.setKvb_groups (s : State) (b : Nat) (f : KvBlock → KvBlock) :
    (s.setKvb b f).groups = s.groups := rfl
@[simp] theorem State.setKvb_routes (s : State) (b : Nat) (f : KvBlock → KvBlock) :
    (s.setKvb b f).routes = s.routes := rfl
@[simp] theorem State.setKvb_attends (s : State) (b : Nat) (f : KvBlock → KvBlock) :
    (s.setKvb b f).attends = s.attends := rfl
@[simp] theorem State.setKvb_opt (s : State) (b : Nat) (f : KvBlock → KvBlock) : (s.setKvb b f).opt = s.opt := rfl
@[simp] theorem State.setKvb_ckpt (s : State) (b : Nat) (f : KvBlock → KvBlock) : (s.setKvb b f).ckpt = s.ckpt := rfl
@[simp] theorem State.setKvb_routeCache (s : State) (b : Nat) (f : KvBlock → KvBlock) :
    (s.setKvb b f).routeCache = s.routeCache := rfl
@[simp] theorem State.setKvb_spBad (s : State) (b : Nat) (f : KvBlock → KvBlock) : (s.setKvb b f).spBad = s.spBad := rfl
@[simp] theorem State.setKvb_seqs (s : State) (b : Nat) (f : KvBlock → KvBlock) : (s.setKvb b f).seqs = s.seqs := rfl
@[simp] theorem State.setKvb_share (s : State) (b : Nat) (f : KvBlock → KvBlock) : (s.setKvb b f).share = s.share := rfl
@[simp] theorem State.setKvb_mgiHold (s : State) (b : Nat) (f : KvBlock → KvBlock) :
    (s.setKvb b f).mgiHold = s.mgiHold := rfl
@[simp] theorem State.setKvb_sent (s : State) (b : Nat) (f : KvBlock → KvBlock) : (s.setKvb b f).sent = s.sent := rfl
@[simp] theorem State.setKvb_fresh (s : State) (b : Nat) (f : KvBlock → KvBlock) : (s.setKvb b f).fresh = s.fresh := rfl
@[simp] theorem State.setKvb_pending (s : State) (b : Nat) (f : KvBlock → KvBlock) :
    (s.setKvb b f).pending = s.pending := rfl
@[simp] theorem State.setOpt_pins (s : State) (f : Opt → Opt) : (s.setOpt f).pins = s.pins := rfl
@[simp] theorem State.setOpt_mod (s : State) (f : Opt → Opt) : (s.setOpt f).mod = s.mod := rfl
@[simp] theorem State.setOpt_dict (s : State) (f : Opt → Opt) : (s.setOpt f).dict = s.dict := rfl
@[simp] theorem State.setOpt_host (s : State) (f : Opt → Opt) : (s.setOpt f).host = s.host := rfl
@[simp] theorem State.setOpt_adm (s : State) (f : Opt → Opt) : (s.setOpt f).adm = s.adm := rfl
@[simp] theorem State.setOpt_launches (s : State) (f : Opt → Opt) : (s.setOpt f).launches = s.launches := rfl
@[simp] theorem State.setOpt_keys (s : State) (f : Opt → Opt) : (s.setOpt f).keys = s.keys := rfl
@[simp] theorem State.setOpt_nor (s : State) (f : Opt → Opt) : (s.setOpt f).nor = s.nor := rfl
@[simp] theorem State.setOpt_firm (s : State) (f : Opt → Opt) : (s.setOpt f).firm = s.firm := rfl
@[simp] theorem State.setOpt_pow (s : State) (f : Opt → Opt) : (s.setOpt f).pow = s.pow := rfl
@[simp] theorem State.setOpt_rcd (s : State) (f : Opt → Opt) : (s.setOpt f).rcd = s.rcd := rfl
@[simp] theorem State.setOpt_mem (s : State) (f : Opt → Opt) : (s.setOpt f).mem = s.mem := rfl
@[simp] theorem State.setOpt_poison (s : State) (f : Opt → Opt) : (s.setOpt f).poison = s.poison := rfl
@[simp] theorem State.setOpt_mis (s : State) (f : Opt → Opt) : (s.setOpt f).mis = s.mis := rfl
@[simp] theorem State.setOpt_kv (s : State) (f : Opt → Opt) : (s.setOpt f).kv = s.kv := rfl
@[simp] theorem State.setOpt_flash (s : State) (f : Opt → Opt) : (s.setOpt f).flash = s.flash := rfl
@[simp] theorem State.setOpt_ports (s : State) (f : Opt → Opt) : (s.setOpt f).ports = s.ports := rfl
@[simp] theorem State.setOpt_net (s : State) (f : Opt → Opt) : (s.setOpt f).net = s.net := rfl
@[simp] theorem State.setOpt_groups (s : State) (f : Opt → Opt) : (s.setOpt f).groups = s.groups := rfl
@[simp] theorem State.setOpt_routes (s : State) (f : Opt → Opt) : (s.setOpt f).routes = s.routes := rfl
@[simp] theorem State.setOpt_attends (s : State) (f : Opt → Opt) : (s.setOpt f).attends = s.attends := rfl
@[simp] theorem State.setOpt_ckpt (s : State) (f : Opt → Opt) : (s.setOpt f).ckpt = s.ckpt := rfl
@[simp] theorem State.setOpt_routeCache (s : State) (f : Opt → Opt) : (s.setOpt f).routeCache = s.routeCache := rfl
@[simp] theorem State.setOpt_spBad (s : State) (f : Opt → Opt) : (s.setOpt f).spBad = s.spBad := rfl
@[simp] theorem State.setOpt_seqs (s : State) (f : Opt → Opt) : (s.setOpt f).seqs = s.seqs := rfl
@[simp] theorem State.setOpt_share (s : State) (f : Opt → Opt) : (s.setOpt f).share = s.share := rfl
@[simp] theorem State.setOpt_mgiHold (s : State) (f : Opt → Opt) : (s.setOpt f).mgiHold = s.mgiHold := rfl
@[simp] theorem State.setOpt_sent (s : State) (f : Opt → Opt) : (s.setOpt f).sent = s.sent := rfl
@[simp] theorem State.setOpt_fresh (s : State) (f : Opt → Opt) : (s.setOpt f).fresh = s.fresh := rfl
@[simp] theorem State.setOpt_pending (s : State) (f : Opt → Opt) : (s.setOpt f).pending = s.pending := rfl
@[simp] theorem State.setNor_pins (s : State) (f : Nor → Nor) : (s.setNor f).pins = s.pins := rfl
@[simp] theorem State.setNor_mod (s : State) (f : Nor → Nor) : (s.setNor f).mod = s.mod := rfl
@[simp] theorem State.setNor_dict (s : State) (f : Nor → Nor) : (s.setNor f).dict = s.dict := rfl
@[simp] theorem State.setNor_host (s : State) (f : Nor → Nor) : (s.setNor f).host = s.host := rfl
@[simp] theorem State.setNor_adm (s : State) (f : Nor → Nor) : (s.setNor f).adm = s.adm := rfl
@[simp] theorem State.setNor_launches (s : State) (f : Nor → Nor) : (s.setNor f).launches = s.launches := rfl
@[simp] theorem State.setNor_keys (s : State) (f : Nor → Nor) : (s.setNor f).keys = s.keys := rfl
@[simp] theorem State.setNor_firm (s : State) (f : Nor → Nor) : (s.setNor f).firm = s.firm := rfl
@[simp] theorem State.setNor_pow (s : State) (f : Nor → Nor) : (s.setNor f).pow = s.pow := rfl
@[simp] theorem State.setNor_rcd (s : State) (f : Nor → Nor) : (s.setNor f).rcd = s.rcd := rfl
@[simp] theorem State.setNor_mem (s : State) (f : Nor → Nor) : (s.setNor f).mem = s.mem := rfl
@[simp] theorem State.setNor_poison (s : State) (f : Nor → Nor) : (s.setNor f).poison = s.poison := rfl
@[simp] theorem State.setNor_mis (s : State) (f : Nor → Nor) : (s.setNor f).mis = s.mis := rfl
@[simp] theorem State.setNor_kv (s : State) (f : Nor → Nor) : (s.setNor f).kv = s.kv := rfl
@[simp] theorem State.setNor_flash (s : State) (f : Nor → Nor) : (s.setNor f).flash = s.flash := rfl
@[simp] theorem State.setNor_ports (s : State) (f : Nor → Nor) : (s.setNor f).ports = s.ports := rfl
@[simp] theorem State.setNor_net (s : State) (f : Nor → Nor) : (s.setNor f).net = s.net := rfl
@[simp] theorem State.setNor_groups (s : State) (f : Nor → Nor) : (s.setNor f).groups = s.groups := rfl
@[simp] theorem State.setNor_routes (s : State) (f : Nor → Nor) : (s.setNor f).routes = s.routes := rfl
@[simp] theorem State.setNor_attends (s : State) (f : Nor → Nor) : (s.setNor f).attends = s.attends := rfl
@[simp] theorem State.setNor_opt (s : State) (f : Nor → Nor) : (s.setNor f).opt = s.opt := rfl
@[simp] theorem State.setNor_ckpt (s : State) (f : Nor → Nor) : (s.setNor f).ckpt = s.ckpt := rfl
@[simp] theorem State.setNor_routeCache (s : State) (f : Nor → Nor) : (s.setNor f).routeCache = s.routeCache := rfl
@[simp] theorem State.setNor_spBad (s : State) (f : Nor → Nor) : (s.setNor f).spBad = s.spBad := rfl
@[simp] theorem State.setNor_seqs (s : State) (f : Nor → Nor) : (s.setNor f).seqs = s.seqs := rfl
@[simp] theorem State.setNor_share (s : State) (f : Nor → Nor) : (s.setNor f).share = s.share := rfl
@[simp] theorem State.setNor_mgiHold (s : State) (f : Nor → Nor) : (s.setNor f).mgiHold = s.mgiHold := rfl
@[simp] theorem State.setNor_sent (s : State) (f : Nor → Nor) : (s.setNor f).sent = s.sent := rfl
@[simp] theorem State.setNor_fresh (s : State) (f : Nor → Nor) : (s.setNor f).fresh = s.fresh := rfl
@[simp] theorem State.setNor_pending (s : State) (f : Nor → Nor) : (s.setNor f).pending = s.pending := rfl
@[simp] theorem State.setAdm_pins (s : State) (f : Admin → Admin) : (s.setAdm f).pins = s.pins := rfl
@[simp] theorem State.setAdm_mod (s : State) (f : Admin → Admin) : (s.setAdm f).mod = s.mod := rfl
@[simp] theorem State.setAdm_dict (s : State) (f : Admin → Admin) : (s.setAdm f).dict = s.dict := rfl
@[simp] theorem State.setAdm_host (s : State) (f : Admin → Admin) : (s.setAdm f).host = s.host := rfl
@[simp] theorem State.setAdm_launches (s : State) (f : Admin → Admin) : (s.setAdm f).launches = s.launches := rfl
@[simp] theorem State.setAdm_keys (s : State) (f : Admin → Admin) : (s.setAdm f).keys = s.keys := rfl
@[simp] theorem State.setAdm_nor (s : State) (f : Admin → Admin) : (s.setAdm f).nor = s.nor := rfl
@[simp] theorem State.setAdm_firm (s : State) (f : Admin → Admin) : (s.setAdm f).firm = s.firm := rfl
@[simp] theorem State.setAdm_pow (s : State) (f : Admin → Admin) : (s.setAdm f).pow = s.pow := rfl
@[simp] theorem State.setAdm_rcd (s : State) (f : Admin → Admin) : (s.setAdm f).rcd = s.rcd := rfl
@[simp] theorem State.setAdm_mem (s : State) (f : Admin → Admin) : (s.setAdm f).mem = s.mem := rfl
@[simp] theorem State.setAdm_poison (s : State) (f : Admin → Admin) : (s.setAdm f).poison = s.poison := rfl
@[simp] theorem State.setAdm_mis (s : State) (f : Admin → Admin) : (s.setAdm f).mis = s.mis := rfl
@[simp] theorem State.setAdm_kv (s : State) (f : Admin → Admin) : (s.setAdm f).kv = s.kv := rfl
@[simp] theorem State.setAdm_flash (s : State) (f : Admin → Admin) : (s.setAdm f).flash = s.flash := rfl
@[simp] theorem State.setAdm_ports (s : State) (f : Admin → Admin) : (s.setAdm f).ports = s.ports := rfl
@[simp] theorem State.setAdm_net (s : State) (f : Admin → Admin) : (s.setAdm f).net = s.net := rfl
@[simp] theorem State.setAdm_groups (s : State) (f : Admin → Admin) : (s.setAdm f).groups = s.groups := rfl
@[simp] theorem State.setAdm_routes (s : State) (f : Admin → Admin) : (s.setAdm f).routes = s.routes := rfl
@[simp] theorem State.setAdm_attends (s : State) (f : Admin → Admin) : (s.setAdm f).attends = s.attends := rfl
@[simp] theorem State.setAdm_opt (s : State) (f : Admin → Admin) : (s.setAdm f).opt = s.opt := rfl
@[simp] theorem State.setAdm_ckpt (s : State) (f : Admin → Admin) : (s.setAdm f).ckpt = s.ckpt := rfl
@[simp] theorem State.setAdm_routeCache (s : State) (f : Admin → Admin) : (s.setAdm f).routeCache = s.routeCache := rfl
@[simp] theorem State.setAdm_spBad (s : State) (f : Admin → Admin) : (s.setAdm f).spBad = s.spBad := rfl
@[simp] theorem State.setAdm_seqs (s : State) (f : Admin → Admin) : (s.setAdm f).seqs = s.seqs := rfl
@[simp] theorem State.setAdm_share (s : State) (f : Admin → Admin) : (s.setAdm f).share = s.share := rfl
@[simp] theorem State.setAdm_mgiHold (s : State) (f : Admin → Admin) : (s.setAdm f).mgiHold = s.mgiHold := rfl
@[simp] theorem State.setAdm_sent (s : State) (f : Admin → Admin) : (s.setAdm f).sent = s.sent := rfl
@[simp] theorem State.setAdm_fresh (s : State) (f : Admin → Admin) : (s.setAdm f).fresh = s.fresh := rfl
@[simp] theorem State.setAdm_pending (s : State) (f : Admin → Admin) : (s.setAdm f).pending = s.pending := rfl
@[simp] theorem State.setDict_pins (s : State) (f : Dict → Dict) : (s.setDict f).pins = s.pins := rfl
@[simp] theorem State.setDict_mod (s : State) (f : Dict → Dict) : (s.setDict f).mod = s.mod := rfl
@[simp] theorem State.setDict_host (s : State) (f : Dict → Dict) : (s.setDict f).host = s.host := rfl
@[simp] theorem State.setDict_adm (s : State) (f : Dict → Dict) : (s.setDict f).adm = s.adm := rfl
@[simp] theorem State.setDict_launches (s : State) (f : Dict → Dict) : (s.setDict f).launches = s.launches := rfl
@[simp] theorem State.setDict_keys (s : State) (f : Dict → Dict) : (s.setDict f).keys = s.keys := rfl
@[simp] theorem State.setDict_nor (s : State) (f : Dict → Dict) : (s.setDict f).nor = s.nor := rfl
@[simp] theorem State.setDict_firm (s : State) (f : Dict → Dict) : (s.setDict f).firm = s.firm := rfl
@[simp] theorem State.setDict_pow (s : State) (f : Dict → Dict) : (s.setDict f).pow = s.pow := rfl
@[simp] theorem State.setDict_rcd (s : State) (f : Dict → Dict) : (s.setDict f).rcd = s.rcd := rfl
@[simp] theorem State.setDict_mem (s : State) (f : Dict → Dict) : (s.setDict f).mem = s.mem := rfl
@[simp] theorem State.setDict_poison (s : State) (f : Dict → Dict) : (s.setDict f).poison = s.poison := rfl
@[simp] theorem State.setDict_mis (s : State) (f : Dict → Dict) : (s.setDict f).mis = s.mis := rfl
@[simp] theorem State.setDict_kv (s : State) (f : Dict → Dict) : (s.setDict f).kv = s.kv := rfl
@[simp] theorem State.setDict_flash (s : State) (f : Dict → Dict) : (s.setDict f).flash = s.flash := rfl
@[simp] theorem State.setDict_ports (s : State) (f : Dict → Dict) : (s.setDict f).ports = s.ports := rfl
@[simp] theorem State.setDict_net (s : State) (f : Dict → Dict) : (s.setDict f).net = s.net := rfl
@[simp] theorem State.setDict_groups (s : State) (f : Dict → Dict) : (s.setDict f).groups = s.groups := rfl
@[simp] theorem State.setDict_routes (s : State) (f : Dict → Dict) : (s.setDict f).routes = s.routes := rfl
@[simp] theorem State.setDict_attends (s : State) (f : Dict → Dict) : (s.setDict f).attends = s.attends := rfl
@[simp] theorem State.setDict_opt (s : State) (f : Dict → Dict) : (s.setDict f).opt = s.opt := rfl
@[simp] theorem State.setDict_ckpt (s : State) (f : Dict → Dict) : (s.setDict f).ckpt = s.ckpt := rfl
@[simp] theorem State.setDict_routeCache (s : State) (f : Dict → Dict) : (s.setDict f).routeCache = s.routeCache := rfl
@[simp] theorem State.setDict_spBad (s : State) (f : Dict → Dict) : (s.setDict f).spBad = s.spBad := rfl
@[simp] theorem State.setDict_seqs (s : State) (f : Dict → Dict) : (s.setDict f).seqs = s.seqs := rfl
@[simp] theorem State.setDict_share (s : State) (f : Dict → Dict) : (s.setDict f).share = s.share := rfl
@[simp] theorem State.setDict_mgiHold (s : State) (f : Dict → Dict) : (s.setDict f).mgiHold = s.mgiHold := rfl
@[simp] theorem State.setDict_sent (s : State) (f : Dict → Dict) : (s.setDict f).sent = s.sent := rfl
@[simp] theorem State.setDict_fresh (s : State) (f : Dict → Dict) : (s.setDict f).fresh = s.fresh := rfl
@[simp] theorem State.setDict_pending (s : State) (f : Dict → Dict) : (s.setDict f).pending = s.pending := rfl
@[simp] theorem State.setAtt_pins (s : State) (i : Nat) (f : Attend → Attend) : (s.setAtt i f).pins = s.pins := rfl
@[simp] theorem State.setAtt_mod (s : State) (i : Nat) (f : Attend → Attend) : (s.setAtt i f).mod = s.mod := rfl
@[simp] theorem State.setAtt_dict (s : State) (i : Nat) (f : Attend → Attend) : (s.setAtt i f).dict = s.dict := rfl
@[simp] theorem State.setAtt_host (s : State) (i : Nat) (f : Attend → Attend) : (s.setAtt i f).host = s.host := rfl
@[simp] theorem State.setAtt_adm (s : State) (i : Nat) (f : Attend → Attend) : (s.setAtt i f).adm = s.adm := rfl
@[simp] theorem State.setAtt_launches (s : State) (i : Nat) (f : Attend → Attend) :
    (s.setAtt i f).launches = s.launches := rfl
@[simp] theorem State.setAtt_keys (s : State) (i : Nat) (f : Attend → Attend) : (s.setAtt i f).keys = s.keys := rfl
@[simp] theorem State.setAtt_nor (s : State) (i : Nat) (f : Attend → Attend) : (s.setAtt i f).nor = s.nor := rfl
@[simp] theorem State.setAtt_firm (s : State) (i : Nat) (f : Attend → Attend) : (s.setAtt i f).firm = s.firm := rfl
@[simp] theorem State.setAtt_pow (s : State) (i : Nat) (f : Attend → Attend) : (s.setAtt i f).pow = s.pow := rfl
@[simp] theorem State.setAtt_rcd (s : State) (i : Nat) (f : Attend → Attend) : (s.setAtt i f).rcd = s.rcd := rfl
@[simp] theorem State.setAtt_mem (s : State) (i : Nat) (f : Attend → Attend) : (s.setAtt i f).mem = s.mem := rfl
@[simp] theorem State.setAtt_poison (s : State) (i : Nat) (f : Attend → Attend) :
    (s.setAtt i f).poison = s.poison := rfl
@[simp] theorem State.setAtt_mis (s : State) (i : Nat) (f : Attend → Attend) : (s.setAtt i f).mis = s.mis := rfl
@[simp] theorem State.setAtt_kv (s : State) (i : Nat) (f : Attend → Attend) : (s.setAtt i f).kv = s.kv := rfl
@[simp] theorem State.setAtt_flash (s : State) (i : Nat) (f : Attend → Attend) : (s.setAtt i f).flash = s.flash := rfl
@[simp] theorem State.setAtt_ports (s : State) (i : Nat) (f : Attend → Attend) : (s.setAtt i f).ports = s.ports := rfl
@[simp] theorem State.setAtt_net (s : State) (i : Nat) (f : Attend → Attend) : (s.setAtt i f).net = s.net := rfl
@[simp] theorem State.setAtt_groups (s : State) (i : Nat) (f : Attend → Attend) :
    (s.setAtt i f).groups = s.groups := rfl
@[simp] theorem State.setAtt_routes (s : State) (i : Nat) (f : Attend → Attend) :
    (s.setAtt i f).routes = s.routes := rfl
@[simp] theorem State.setAtt_opt (s : State) (i : Nat) (f : Attend → Attend) : (s.setAtt i f).opt = s.opt := rfl
@[simp] theorem State.setAtt_ckpt (s : State) (i : Nat) (f : Attend → Attend) : (s.setAtt i f).ckpt = s.ckpt := rfl
@[simp] theorem State.setAtt_routeCache (s : State) (i : Nat) (f : Attend → Attend) :
    (s.setAtt i f).routeCache = s.routeCache := rfl
@[simp] theorem State.setAtt_spBad (s : State) (i : Nat) (f : Attend → Attend) : (s.setAtt i f).spBad = s.spBad := rfl
@[simp] theorem State.setAtt_seqs (s : State) (i : Nat) (f : Attend → Attend) : (s.setAtt i f).seqs = s.seqs := rfl
@[simp] theorem State.setAtt_share (s : State) (i : Nat) (f : Attend → Attend) : (s.setAtt i f).share = s.share := rfl
@[simp] theorem State.setAtt_mgiHold (s : State) (i : Nat) (f : Attend → Attend) :
    (s.setAtt i f).mgiHold = s.mgiHold := rfl
@[simp] theorem State.setAtt_sent (s : State) (i : Nat) (f : Attend → Attend) : (s.setAtt i f).sent = s.sent := rfl
@[simp] theorem State.setAtt_fresh (s : State) (i : Nat) (f : Attend → Attend) : (s.setAtt i f).fresh = s.fresh := rfl
@[simp] theorem State.setAtt_pending (s : State) (i : Nat) (f : Attend → Attend) :
    (s.setAtt i f).pending = s.pending := rfl
@[simp] theorem State.setPort_pins (s : State) (p : Nat) (f : Port → Port) : (s.setPort p f).pins = s.pins := rfl
@[simp] theorem State.setPort_mod (s : State) (p : Nat) (f : Port → Port) : (s.setPort p f).mod = s.mod := rfl
@[simp] theorem State.setPort_dict (s : State) (p : Nat) (f : Port → Port) : (s.setPort p f).dict = s.dict := rfl
@[simp] theorem State.setPort_host (s : State) (p : Nat) (f : Port → Port) : (s.setPort p f).host = s.host := rfl
@[simp] theorem State.setPort_adm (s : State) (p : Nat) (f : Port → Port) : (s.setPort p f).adm = s.adm := rfl
@[simp] theorem State.setPort_launches (s : State) (p : Nat) (f : Port → Port) :
    (s.setPort p f).launches = s.launches := rfl
@[simp] theorem State.setPort_keys (s : State) (p : Nat) (f : Port → Port) : (s.setPort p f).keys = s.keys := rfl
@[simp] theorem State.setPort_nor (s : State) (p : Nat) (f : Port → Port) : (s.setPort p f).nor = s.nor := rfl
@[simp] theorem State.setPort_firm (s : State) (p : Nat) (f : Port → Port) : (s.setPort p f).firm = s.firm := rfl
@[simp] theorem State.setPort_pow (s : State) (p : Nat) (f : Port → Port) : (s.setPort p f).pow = s.pow := rfl
@[simp] theorem State.setPort_rcd (s : State) (p : Nat) (f : Port → Port) : (s.setPort p f).rcd = s.rcd := rfl
@[simp] theorem State.setPort_mem (s : State) (p : Nat) (f : Port → Port) : (s.setPort p f).mem = s.mem := rfl
@[simp] theorem State.setPort_poison (s : State) (p : Nat) (f : Port → Port) : (s.setPort p f).poison = s.poison := rfl
@[simp] theorem State.setPort_mis (s : State) (p : Nat) (f : Port → Port) : (s.setPort p f).mis = s.mis := rfl
@[simp] theorem State.setPort_kv (s : State) (p : Nat) (f : Port → Port) : (s.setPort p f).kv = s.kv := rfl
@[simp] theorem State.setPort_flash (s : State) (p : Nat) (f : Port → Port) : (s.setPort p f).flash = s.flash := rfl
@[simp] theorem State.setPort_net (s : State) (p : Nat) (f : Port → Port) : (s.setPort p f).net = s.net := rfl
@[simp] theorem State.setPort_groups (s : State) (p : Nat) (f : Port → Port) : (s.setPort p f).groups = s.groups := rfl
@[simp] theorem State.setPort_routes (s : State) (p : Nat) (f : Port → Port) : (s.setPort p f).routes = s.routes := rfl
@[simp] theorem State.setPort_attends (s : State) (p : Nat) (f : Port → Port) :
    (s.setPort p f).attends = s.attends := rfl
@[simp] theorem State.setPort_opt (s : State) (p : Nat) (f : Port → Port) : (s.setPort p f).opt = s.opt := rfl
@[simp] theorem State.setPort_ckpt (s : State) (p : Nat) (f : Port → Port) : (s.setPort p f).ckpt = s.ckpt := rfl
@[simp] theorem State.setPort_routeCache (s : State) (p : Nat) (f : Port → Port) :
    (s.setPort p f).routeCache = s.routeCache := rfl
@[simp] theorem State.setPort_spBad (s : State) (p : Nat) (f : Port → Port) : (s.setPort p f).spBad = s.spBad := rfl
@[simp] theorem State.setPort_seqs (s : State) (p : Nat) (f : Port → Port) : (s.setPort p f).seqs = s.seqs := rfl
@[simp] theorem State.setPort_share (s : State) (p : Nat) (f : Port → Port) : (s.setPort p f).share = s.share := rfl
@[simp] theorem State.setPort_mgiHold (s : State) (p : Nat) (f : Port → Port) :
    (s.setPort p f).mgiHold = s.mgiHold := rfl
@[simp] theorem State.setPort_sent (s : State) (p : Nat) (f : Port → Port) : (s.setPort p f).sent = s.sent := rfl
@[simp] theorem State.setPort_fresh (s : State) (p : Nat) (f : Port → Port) : (s.setPort p f).fresh = s.fresh := rfl
@[simp] theorem State.setPort_pending (s : State) (p : Nat) (f : Port → Port) :
    (s.setPort p f).pending = s.pending := rfl
@[simp] theorem State.setNet_pins (s : State) (f : Net → Net) : (s.setNet f).pins = s.pins := rfl
@[simp] theorem State.setNet_mod (s : State) (f : Net → Net) : (s.setNet f).mod = s.mod := rfl
@[simp] theorem State.setNet_dict (s : State) (f : Net → Net) : (s.setNet f).dict = s.dict := rfl
@[simp] theorem State.setNet_host (s : State) (f : Net → Net) : (s.setNet f).host = s.host := rfl
@[simp] theorem State.setNet_adm (s : State) (f : Net → Net) : (s.setNet f).adm = s.adm := rfl
@[simp] theorem State.setNet_launches (s : State) (f : Net → Net) : (s.setNet f).launches = s.launches := rfl
@[simp] theorem State.setNet_keys (s : State) (f : Net → Net) : (s.setNet f).keys = s.keys := rfl
@[simp] theorem State.setNet_nor (s : State) (f : Net → Net) : (s.setNet f).nor = s.nor := rfl
@[simp] theorem State.setNet_firm (s : State) (f : Net → Net) : (s.setNet f).firm = s.firm := rfl
@[simp] theorem State.setNet_pow (s : State) (f : Net → Net) : (s.setNet f).pow = s.pow := rfl
@[simp] theorem State.setNet_rcd (s : State) (f : Net → Net) : (s.setNet f).rcd = s.rcd := rfl
@[simp] theorem State.setNet_mem (s : State) (f : Net → Net) : (s.setNet f).mem = s.mem := rfl
@[simp] theorem State.setNet_poison (s : State) (f : Net → Net) : (s.setNet f).poison = s.poison := rfl
@[simp] theorem State.setNet_mis (s : State) (f : Net → Net) : (s.setNet f).mis = s.mis := rfl
@[simp] theorem State.setNet_kv (s : State) (f : Net → Net) : (s.setNet f).kv = s.kv := rfl
@[simp] theorem State.setNet_flash (s : State) (f : Net → Net) : (s.setNet f).flash = s.flash := rfl
@[simp] theorem State.setNet_ports (s : State) (f : Net → Net) : (s.setNet f).ports = s.ports := rfl
@[simp] theorem State.setNet_groups (s : State) (f : Net → Net) : (s.setNet f).groups = s.groups := rfl
@[simp] theorem State.setNet_routes (s : State) (f : Net → Net) : (s.setNet f).routes = s.routes := rfl
@[simp] theorem State.setNet_attends (s : State) (f : Net → Net) : (s.setNet f).attends = s.attends := rfl
@[simp] theorem State.setNet_opt (s : State) (f : Net → Net) : (s.setNet f).opt = s.opt := rfl
@[simp] theorem State.setNet_ckpt (s : State) (f : Net → Net) : (s.setNet f).ckpt = s.ckpt := rfl
@[simp] theorem State.setNet_routeCache (s : State) (f : Net → Net) : (s.setNet f).routeCache = s.routeCache := rfl
@[simp] theorem State.setNet_spBad (s : State) (f : Net → Net) : (s.setNet f).spBad = s.spBad := rfl
@[simp] theorem State.setNet_seqs (s : State) (f : Net → Net) : (s.setNet f).seqs = s.seqs := rfl
@[simp] theorem State.setNet_share (s : State) (f : Net → Net) : (s.setNet f).share = s.share := rfl
@[simp] theorem State.setNet_mgiHold (s : State) (f : Net → Net) : (s.setNet f).mgiHold = s.mgiHold := rfl
@[simp] theorem State.setNet_sent (s : State) (f : Net → Net) : (s.setNet f).sent = s.sent := rfl
@[simp] theorem State.setNet_fresh (s : State) (f : Net → Net) : (s.setNet f).fresh = s.fresh := rfl
@[simp] theorem State.setNet_pending (s : State) (f : Net → Net) : (s.setNet f).pending = s.pending := rfl
@[simp] theorem State.setTxq_pins (s : State) (l q : Nat) (f : TxQueue → TxQueue) :
    (s.setTxq l q f).pins = s.pins := rfl
@[simp] theorem State.setTxq_mod (s : State) (l q : Nat) (f : TxQueue → TxQueue) : (s.setTxq l q f).mod = s.mod := rfl
@[simp] theorem State.setTxq_dict (s : State) (l q : Nat) (f : TxQueue → TxQueue) :
    (s.setTxq l q f).dict = s.dict := rfl
@[simp] theorem State.setTxq_host (s : State) (l q : Nat) (f : TxQueue → TxQueue) :
    (s.setTxq l q f).host = s.host := rfl
@[simp] theorem State.setTxq_adm (s : State) (l q : Nat) (f : TxQueue → TxQueue) : (s.setTxq l q f).adm = s.adm := rfl
@[simp] theorem State.setTxq_launches (s : State) (l q : Nat) (f : TxQueue → TxQueue) :
    (s.setTxq l q f).launches = s.launches := rfl
@[simp] theorem State.setTxq_keys (s : State) (l q : Nat) (f : TxQueue → TxQueue) :
    (s.setTxq l q f).keys = s.keys := rfl
@[simp] theorem State.setTxq_nor (s : State) (l q : Nat) (f : TxQueue → TxQueue) : (s.setTxq l q f).nor = s.nor := rfl
@[simp] theorem State.setTxq_firm (s : State) (l q : Nat) (f : TxQueue → TxQueue) :
    (s.setTxq l q f).firm = s.firm := rfl
@[simp] theorem State.setTxq_pow (s : State) (l q : Nat) (f : TxQueue → TxQueue) : (s.setTxq l q f).pow = s.pow := rfl
@[simp] theorem State.setTxq_rcd (s : State) (l q : Nat) (f : TxQueue → TxQueue) : (s.setTxq l q f).rcd = s.rcd := rfl
@[simp] theorem State.setTxq_mem (s : State) (l q : Nat) (f : TxQueue → TxQueue) : (s.setTxq l q f).mem = s.mem := rfl
@[simp] theorem State.setTxq_poison (s : State) (l q : Nat) (f : TxQueue → TxQueue) :
    (s.setTxq l q f).poison = s.poison := rfl
@[simp] theorem State.setTxq_mis (s : State) (l q : Nat) (f : TxQueue → TxQueue) : (s.setTxq l q f).mis = s.mis := rfl
@[simp] theorem State.setTxq_kv (s : State) (l q : Nat) (f : TxQueue → TxQueue) : (s.setTxq l q f).kv = s.kv := rfl
@[simp] theorem State.setTxq_flash (s : State) (l q : Nat) (f : TxQueue → TxQueue) :
    (s.setTxq l q f).flash = s.flash := rfl
@[simp] theorem State.setTxq_ports (s : State) (l q : Nat) (f : TxQueue → TxQueue) :
    (s.setTxq l q f).ports = s.ports := rfl
@[simp] theorem State.setTxq_groups (s : State) (l q : Nat) (f : TxQueue → TxQueue) :
    (s.setTxq l q f).groups = s.groups := rfl
@[simp] theorem State.setTxq_routes (s : State) (l q : Nat) (f : TxQueue → TxQueue) :
    (s.setTxq l q f).routes = s.routes := rfl
@[simp] theorem State.setTxq_attends (s : State) (l q : Nat) (f : TxQueue → TxQueue) :
    (s.setTxq l q f).attends = s.attends := rfl
@[simp] theorem State.setTxq_opt (s : State) (l q : Nat) (f : TxQueue → TxQueue) : (s.setTxq l q f).opt = s.opt := rfl
@[simp] theorem State.setTxq_ckpt (s : State) (l q : Nat) (f : TxQueue → TxQueue) :
    (s.setTxq l q f).ckpt = s.ckpt := rfl
@[simp] theorem State.setTxq_routeCache (s : State) (l q : Nat) (f : TxQueue → TxQueue) :
    (s.setTxq l q f).routeCache = s.routeCache := rfl
@[simp] theorem State.setTxq_spBad (s : State) (l q : Nat) (f : TxQueue → TxQueue) :
    (s.setTxq l q f).spBad = s.spBad := rfl
@[simp] theorem State.setTxq_seqs (s : State) (l q : Nat) (f : TxQueue → TxQueue) :
    (s.setTxq l q f).seqs = s.seqs := rfl
@[simp] theorem State.setTxq_share (s : State) (l q : Nat) (f : TxQueue → TxQueue) :
    (s.setTxq l q f).share = s.share := rfl
@[simp] theorem State.setTxq_mgiHold (s : State) (l q : Nat) (f : TxQueue → TxQueue) :
    (s.setTxq l q f).mgiHold = s.mgiHold := rfl
@[simp] theorem State.setTxq_sent (s : State) (l q : Nat) (f : TxQueue → TxQueue) :
    (s.setTxq l q f).sent = s.sent := rfl
@[simp] theorem State.setTxq_fresh (s : State) (l q : Nat) (f : TxQueue → TxQueue) :
    (s.setTxq l q f).fresh = s.fresh := rfl
@[simp] theorem State.setTxq_pending (s : State) (l q : Nat) (f : TxQueue → TxQueue) :
    (s.setTxq l q f).pending = s.pending := rfl
@[simp] theorem State.setFlash_pins (s : State) (f : Flash → Flash) : (s.setFlash f).pins = s.pins := rfl
@[simp] theorem State.setFlash_mod (s : State) (f : Flash → Flash) : (s.setFlash f).mod = s.mod := rfl
@[simp] theorem State.setFlash_dict (s : State) (f : Flash → Flash) : (s.setFlash f).dict = s.dict := rfl
@[simp] theorem State.setFlash_host (s : State) (f : Flash → Flash) : (s.setFlash f).host = s.host := rfl
@[simp] theorem State.setFlash_adm (s : State) (f : Flash → Flash) : (s.setFlash f).adm = s.adm := rfl
@[simp] theorem State.setFlash_launches (s : State) (f : Flash → Flash) : (s.setFlash f).launches = s.launches := rfl
@[simp] theorem State.setFlash_keys (s : State) (f : Flash → Flash) : (s.setFlash f).keys = s.keys := rfl
@[simp] theorem State.setFlash_nor (s : State) (f : Flash → Flash) : (s.setFlash f).nor = s.nor := rfl
@[simp] theorem State.setFlash_firm (s : State) (f : Flash → Flash) : (s.setFlash f).firm = s.firm := rfl
@[simp] theorem State.setFlash_pow (s : State) (f : Flash → Flash) : (s.setFlash f).pow = s.pow := rfl
@[simp] theorem State.setFlash_rcd (s : State) (f : Flash → Flash) : (s.setFlash f).rcd = s.rcd := rfl
@[simp] theorem State.setFlash_mem (s : State) (f : Flash → Flash) : (s.setFlash f).mem = s.mem := rfl
@[simp] theorem State.setFlash_poison (s : State) (f : Flash → Flash) : (s.setFlash f).poison = s.poison := rfl
@[simp] theorem State.setFlash_mis (s : State) (f : Flash → Flash) : (s.setFlash f).mis = s.mis := rfl
@[simp] theorem State.setFlash_kv (s : State) (f : Flash → Flash) : (s.setFlash f).kv = s.kv := rfl
@[simp] theorem State.setFlash_ports (s : State) (f : Flash → Flash) : (s.setFlash f).ports = s.ports := rfl
@[simp] theorem State.setFlash_net (s : State) (f : Flash → Flash) : (s.setFlash f).net = s.net := rfl
@[simp] theorem State.setFlash_groups (s : State) (f : Flash → Flash) : (s.setFlash f).groups = s.groups := rfl
@[simp] theorem State.setFlash_routes (s : State) (f : Flash → Flash) : (s.setFlash f).routes = s.routes := rfl
@[simp] theorem State.setFlash_attends (s : State) (f : Flash → Flash) : (s.setFlash f).attends = s.attends := rfl
@[simp] theorem State.setFlash_opt (s : State) (f : Flash → Flash) : (s.setFlash f).opt = s.opt := rfl
@[simp] theorem State.setFlash_ckpt (s : State) (f : Flash → Flash) : (s.setFlash f).ckpt = s.ckpt := rfl
@[simp] theorem State.setFlash_routeCache (s : State) (f : Flash → Flash) :
    (s.setFlash f).routeCache = s.routeCache := rfl
@[simp] theorem State.setFlash_spBad (s : State) (f : Flash → Flash) : (s.setFlash f).spBad = s.spBad := rfl
@[simp] theorem State.setFlash_seqs (s : State) (f : Flash → Flash) : (s.setFlash f).seqs = s.seqs := rfl
@[simp] theorem State.setFlash_share (s : State) (f : Flash → Flash) : (s.setFlash f).share = s.share := rfl
@[simp] theorem State.setFlash_mgiHold (s : State) (f : Flash → Flash) : (s.setFlash f).mgiHold = s.mgiHold := rfl
@[simp] theorem State.setFlash_sent (s : State) (f : Flash → Flash) : (s.setFlash f).sent = s.sent := rfl
@[simp] theorem State.setFlash_fresh (s : State) (f : Flash → Flash) : (s.setFlash f).fresh = s.fresh := rfl
@[simp] theorem State.setFlash_pending (s : State) (f : Flash → Flash) : (s.setFlash f).pending = s.pending := rfl
@[simp] theorem State.setVol_pins (s : State) (v : Nat) (f : Volume → Volume) : (s.setVol v f).pins = s.pins := rfl
@[simp] theorem State.setVol_mod (s : State) (v : Nat) (f : Volume → Volume) : (s.setVol v f).mod = s.mod := rfl
@[simp] theorem State.setVol_dict (s : State) (v : Nat) (f : Volume → Volume) : (s.setVol v f).dict = s.dict := rfl
@[simp] theorem State.setVol_host (s : State) (v : Nat) (f : Volume → Volume) : (s.setVol v f).host = s.host := rfl
@[simp] theorem State.setVol_adm (s : State) (v : Nat) (f : Volume → Volume) : (s.setVol v f).adm = s.adm := rfl
@[simp] theorem State.setVol_launches (s : State) (v : Nat) (f : Volume → Volume) :
    (s.setVol v f).launches = s.launches := rfl
@[simp] theorem State.setVol_keys (s : State) (v : Nat) (f : Volume → Volume) : (s.setVol v f).keys = s.keys := rfl
@[simp] theorem State.setVol_nor (s : State) (v : Nat) (f : Volume → Volume) : (s.setVol v f).nor = s.nor := rfl
@[simp] theorem State.setVol_firm (s : State) (v : Nat) (f : Volume → Volume) : (s.setVol v f).firm = s.firm := rfl
@[simp] theorem State.setVol_pow (s : State) (v : Nat) (f : Volume → Volume) : (s.setVol v f).pow = s.pow := rfl
@[simp] theorem State.setVol_rcd (s : State) (v : Nat) (f : Volume → Volume) : (s.setVol v f).rcd = s.rcd := rfl
@[simp] theorem State.setVol_mem (s : State) (v : Nat) (f : Volume → Volume) : (s.setVol v f).mem = s.mem := rfl
@[simp] theorem State.setVol_poison (s : State) (v : Nat) (f : Volume → Volume) :
    (s.setVol v f).poison = s.poison := rfl
@[simp] theorem State.setVol_mis (s : State) (v : Nat) (f : Volume → Volume) : (s.setVol v f).mis = s.mis := rfl
@[simp] theorem State.setVol_kv (s : State) (v : Nat) (f : Volume → Volume) : (s.setVol v f).kv = s.kv := rfl
@[simp] theorem State.setVol_ports (s : State) (v : Nat) (f : Volume → Volume) : (s.setVol v f).ports = s.ports := rfl
@[simp] theorem State.setVol_net (s : State) (v : Nat) (f : Volume → Volume) : (s.setVol v f).net = s.net := rfl
@[simp] theorem State.setVol_groups (s : State) (v : Nat) (f : Volume → Volume) :
    (s.setVol v f).groups = s.groups := rfl
@[simp] theorem State.setVol_routes (s : State) (v : Nat) (f : Volume → Volume) :
    (s.setVol v f).routes = s.routes := rfl
@[simp] theorem State.setVol_attends (s : State) (v : Nat) (f : Volume → Volume) :
    (s.setVol v f).attends = s.attends := rfl
@[simp] theorem State.setVol_opt (s : State) (v : Nat) (f : Volume → Volume) : (s.setVol v f).opt = s.opt := rfl
@[simp] theorem State.setVol_ckpt (s : State) (v : Nat) (f : Volume → Volume) : (s.setVol v f).ckpt = s.ckpt := rfl
@[simp] theorem State.setVol_routeCache (s : State) (v : Nat) (f : Volume → Volume) :
    (s.setVol v f).routeCache = s.routeCache := rfl
@[simp] theorem State.setVol_spBad (s : State) (v : Nat) (f : Volume → Volume) : (s.setVol v f).spBad = s.spBad := rfl
@[simp] theorem State.setVol_seqs (s : State) (v : Nat) (f : Volume → Volume) : (s.setVol v f).seqs = s.seqs := rfl
@[simp] theorem State.setVol_share (s : State) (v : Nat) (f : Volume → Volume) : (s.setVol v f).share = s.share := rfl
@[simp] theorem State.setVol_mgiHold (s : State) (v : Nat) (f : Volume → Volume) :
    (s.setVol v f).mgiHold = s.mgiHold := rfl
@[simp] theorem State.setVol_sent (s : State) (v : Nat) (f : Volume → Volume) : (s.setVol v f).sent = s.sent := rfl
@[simp] theorem State.setVol_fresh (s : State) (v : Nat) (f : Volume → Volume) : (s.setVol v f).fresh = s.fresh := rfl
@[simp] theorem State.setVol_pending (s : State) (v : Nat) (f : Volume → Volume) :
    (s.setVol v f).pending = s.pending := rfl
@[simp] theorem State.setCmd_pins (s : State) (id : Nat) (f : StorCmd → StorCmd) : (s.setCmd id f).pins = s.pins := rfl
@[simp] theorem State.setCmd_mod (s : State) (id : Nat) (f : StorCmd → StorCmd) : (s.setCmd id f).mod = s.mod := rfl
@[simp] theorem State.setCmd_dict (s : State) (id : Nat) (f : StorCmd → StorCmd) : (s.setCmd id f).dict = s.dict := rfl
@[simp] theorem State.setCmd_host (s : State) (id : Nat) (f : StorCmd → StorCmd) : (s.setCmd id f).host = s.host := rfl
@[simp] theorem State.setCmd_adm (s : State) (id : Nat) (f : StorCmd → StorCmd) : (s.setCmd id f).adm = s.adm := rfl
@[simp] theorem State.setCmd_launches (s : State) (id : Nat) (f : StorCmd → StorCmd) :
    (s.setCmd id f).launches = s.launches := rfl
@[simp] theorem State.setCmd_keys (s : State) (id : Nat) (f : StorCmd → StorCmd) : (s.setCmd id f).keys = s.keys := rfl
@[simp] theorem State.setCmd_nor (s : State) (id : Nat) (f : StorCmd → StorCmd) : (s.setCmd id f).nor = s.nor := rfl
@[simp] theorem State.setCmd_firm (s : State) (id : Nat) (f : StorCmd → StorCmd) : (s.setCmd id f).firm = s.firm := rfl
@[simp] theorem State.setCmd_pow (s : State) (id : Nat) (f : StorCmd → StorCmd) : (s.setCmd id f).pow = s.pow := rfl
@[simp] theorem State.setCmd_rcd (s : State) (id : Nat) (f : StorCmd → StorCmd) : (s.setCmd id f).rcd = s.rcd := rfl
@[simp] theorem State.setCmd_mem (s : State) (id : Nat) (f : StorCmd → StorCmd) : (s.setCmd id f).mem = s.mem := rfl
@[simp] theorem State.setCmd_poison (s : State) (id : Nat) (f : StorCmd → StorCmd) :
    (s.setCmd id f).poison = s.poison := rfl
@[simp] theorem State.setCmd_mis (s : State) (id : Nat) (f : StorCmd → StorCmd) : (s.setCmd id f).mis = s.mis := rfl
@[simp] theorem State.setCmd_kv (s : State) (id : Nat) (f : StorCmd → StorCmd) : (s.setCmd id f).kv = s.kv := rfl
@[simp] theorem State.setCmd_ports (s : State) (id : Nat) (f : StorCmd → StorCmd) :
    (s.setCmd id f).ports = s.ports := rfl
@[simp] theorem State.setCmd_net (s : State) (id : Nat) (f : StorCmd → StorCmd) : (s.setCmd id f).net = s.net := rfl
@[simp] theorem State.setCmd_groups (s : State) (id : Nat) (f : StorCmd → StorCmd) :
    (s.setCmd id f).groups = s.groups := rfl
@[simp] theorem State.setCmd_routes (s : State) (id : Nat) (f : StorCmd → StorCmd) :
    (s.setCmd id f).routes = s.routes := rfl
@[simp] theorem State.setCmd_attends (s : State) (id : Nat) (f : StorCmd → StorCmd) :
    (s.setCmd id f).attends = s.attends := rfl
@[simp] theorem State.setCmd_opt (s : State) (id : Nat) (f : StorCmd → StorCmd) : (s.setCmd id f).opt = s.opt := rfl
@[simp] theorem State.setCmd_ckpt (s : State) (id : Nat) (f : StorCmd → StorCmd) : (s.setCmd id f).ckpt = s.ckpt := rfl
@[simp] theorem State.setCmd_routeCache (s : State) (id : Nat) (f : StorCmd → StorCmd) :
    (s.setCmd id f).routeCache = s.routeCache := rfl
@[simp] theorem State.setCmd_spBad (s : State) (id : Nat) (f : StorCmd → StorCmd) :
    (s.setCmd id f).spBad = s.spBad := rfl
@[simp] theorem State.setCmd_seqs (s : State) (id : Nat) (f : StorCmd → StorCmd) : (s.setCmd id f).seqs = s.seqs := rfl
@[simp] theorem State.setCmd_share (s : State) (id : Nat) (f : StorCmd → StorCmd) :
    (s.setCmd id f).share = s.share := rfl
@[simp] theorem State.setCmd_mgiHold (s : State) (id : Nat) (f : StorCmd → StorCmd) :
    (s.setCmd id f).mgiHold = s.mgiHold := rfl
@[simp] theorem State.setCmd_sent (s : State) (id : Nat) (f : StorCmd → StorCmd) : (s.setCmd id f).sent = s.sent := rfl
@[simp] theorem State.setCmd_fresh (s : State) (id : Nat) (f : StorCmd → StorCmd) :
    (s.setCmd id f).fresh = s.fresh := rfl
@[simp] theorem State.setCmd_pending (s : State) (id : Nat) (f : StorCmd → StorCmd) :
    (s.setCmd id f).pending = s.pending := rfl
@[simp] theorem State.setPblk_pins (s : State) (b : Nat) (f : PBlk → PBlk) : (s.setPblk b f).pins = s.pins := rfl
@[simp] theorem State.setPblk_mod (s : State) (b : Nat) (f : PBlk → PBlk) : (s.setPblk b f).mod = s.mod := rfl
@[simp] theorem State.setPblk_dict (s : State) (b : Nat) (f : PBlk → PBlk) : (s.setPblk b f).dict = s.dict := rfl
@[simp] theorem State.setPblk_host (s : State) (b : Nat) (f : PBlk → PBlk) : (s.setPblk b f).host = s.host := rfl
@[simp] theorem State.setPblk_adm (s : State) (b : Nat) (f : PBlk → PBlk) : (s.setPblk b f).adm = s.adm := rfl
@[simp] theorem State.setPblk_launches (s : State) (b : Nat) (f : PBlk → PBlk) :
    (s.setPblk b f).launches = s.launches := rfl
@[simp] theorem State.setPblk_keys (s : State) (b : Nat) (f : PBlk → PBlk) : (s.setPblk b f).keys = s.keys := rfl
@[simp] theorem State.setPblk_nor (s : State) (b : Nat) (f : PBlk → PBlk) : (s.setPblk b f).nor = s.nor := rfl
@[simp] theorem State.setPblk_firm (s : State) (b : Nat) (f : PBlk → PBlk) : (s.setPblk b f).firm = s.firm := rfl
@[simp] theorem State.setPblk_pow (s : State) (b : Nat) (f : PBlk → PBlk) : (s.setPblk b f).pow = s.pow := rfl
@[simp] theorem State.setPblk_rcd (s : State) (b : Nat) (f : PBlk → PBlk) : (s.setPblk b f).rcd = s.rcd := rfl
@[simp] theorem State.setPblk_mem (s : State) (b : Nat) (f : PBlk → PBlk) : (s.setPblk b f).mem = s.mem := rfl
@[simp] theorem State.setPblk_poison (s : State) (b : Nat) (f : PBlk → PBlk) : (s.setPblk b f).poison = s.poison := rfl
@[simp] theorem State.setPblk_mis (s : State) (b : Nat) (f : PBlk → PBlk) : (s.setPblk b f).mis = s.mis := rfl
@[simp] theorem State.setPblk_kv (s : State) (b : Nat) (f : PBlk → PBlk) : (s.setPblk b f).kv = s.kv := rfl
@[simp] theorem State.setPblk_ports (s : State) (b : Nat) (f : PBlk → PBlk) : (s.setPblk b f).ports = s.ports := rfl
@[simp] theorem State.setPblk_net (s : State) (b : Nat) (f : PBlk → PBlk) : (s.setPblk b f).net = s.net := rfl
@[simp] theorem State.setPblk_groups (s : State) (b : Nat) (f : PBlk → PBlk) : (s.setPblk b f).groups = s.groups := rfl
@[simp] theorem State.setPblk_routes (s : State) (b : Nat) (f : PBlk → PBlk) : (s.setPblk b f).routes = s.routes := rfl
@[simp] theorem State.setPblk_attends (s : State) (b : Nat) (f : PBlk → PBlk) :
    (s.setPblk b f).attends = s.attends := rfl
@[simp] theorem State.setPblk_opt (s : State) (b : Nat) (f : PBlk → PBlk) : (s.setPblk b f).opt = s.opt := rfl
@[simp] theorem State.setPblk_ckpt (s : State) (b : Nat) (f : PBlk → PBlk) : (s.setPblk b f).ckpt = s.ckpt := rfl
@[simp] theorem State.setPblk_routeCache (s : State) (b : Nat) (f : PBlk → PBlk) :
    (s.setPblk b f).routeCache = s.routeCache := rfl
@[simp] theorem State.setPblk_spBad (s : State) (b : Nat) (f : PBlk → PBlk) : (s.setPblk b f).spBad = s.spBad := rfl
@[simp] theorem State.setPblk_seqs (s : State) (b : Nat) (f : PBlk → PBlk) : (s.setPblk b f).seqs = s.seqs := rfl
@[simp] theorem State.setPblk_share (s : State) (b : Nat) (f : PBlk → PBlk) : (s.setPblk b f).share = s.share := rfl
@[simp] theorem State.setPblk_mgiHold (s : State) (b : Nat) (f : PBlk → PBlk) :
    (s.setPblk b f).mgiHold = s.mgiHold := rfl
@[simp] theorem State.setPblk_sent (s : State) (b : Nat) (f : PBlk → PBlk) : (s.setPblk b f).sent = s.sent := rfl
@[simp] theorem State.setPblk_fresh (s : State) (b : Nat) (f : PBlk → PBlk) : (s.setPblk b f).fresh = s.fresh := rfl
@[simp] theorem State.setPblk_pending (s : State) (b : Nat) (f : PBlk → PBlk) :
    (s.setPblk b f).pending = s.pending := rfl
@[simp] theorem State.setHost_pins (s : State) (f : HostSide → HostSide) : (s.setHost f).pins = s.pins := rfl
@[simp] theorem State.setHost_mod (s : State) (f : HostSide → HostSide) : (s.setHost f).mod = s.mod := rfl
@[simp] theorem State.setHost_dict (s : State) (f : HostSide → HostSide) : (s.setHost f).dict = s.dict := rfl
@[simp] theorem State.setHost_adm (s : State) (f : HostSide → HostSide) : (s.setHost f).adm = s.adm := rfl
@[simp] theorem State.setHost_launches (s : State) (f : HostSide → HostSide) :
    (s.setHost f).launches = s.launches := rfl
@[simp] theorem State.setHost_keys (s : State) (f : HostSide → HostSide) : (s.setHost f).keys = s.keys := rfl
@[simp] theorem State.setHost_nor (s : State) (f : HostSide → HostSide) : (s.setHost f).nor = s.nor := rfl
@[simp] theorem State.setHost_firm (s : State) (f : HostSide → HostSide) : (s.setHost f).firm = s.firm := rfl
@[simp] theorem State.setHost_pow (s : State) (f : HostSide → HostSide) : (s.setHost f).pow = s.pow := rfl
@[simp] theorem State.setHost_rcd (s : State) (f : HostSide → HostSide) : (s.setHost f).rcd = s.rcd := rfl
@[simp] theorem State.setHost_mem (s : State) (f : HostSide → HostSide) : (s.setHost f).mem = s.mem := rfl
@[simp] theorem State.setHost_poison (s : State) (f : HostSide → HostSide) : (s.setHost f).poison = s.poison := rfl
@[simp] theorem State.setHost_mis (s : State) (f : HostSide → HostSide) : (s.setHost f).mis = s.mis := rfl
@[simp] theorem State.setHost_kv (s : State) (f : HostSide → HostSide) : (s.setHost f).kv = s.kv := rfl
@[simp] theorem State.setHost_flash (s : State) (f : HostSide → HostSide) : (s.setHost f).flash = s.flash := rfl
@[simp] theorem State.setHost_ports (s : State) (f : HostSide → HostSide) : (s.setHost f).ports = s.ports := rfl
@[simp] theorem State.setHost_net (s : State) (f : HostSide → HostSide) : (s.setHost f).net = s.net := rfl
@[simp] theorem State.setHost_groups (s : State) (f : HostSide → HostSide) : (s.setHost f).groups = s.groups := rfl
@[simp] theorem State.setHost_routes (s : State) (f : HostSide → HostSide) : (s.setHost f).routes = s.routes := rfl
@[simp] theorem State.setHost_attends (s : State) (f : HostSide → HostSide) : (s.setHost f).attends = s.attends := rfl
@[simp] theorem State.setHost_opt (s : State) (f : HostSide → HostSide) : (s.setHost f).opt = s.opt := rfl
@[simp] theorem State.setHost_ckpt (s : State) (f : HostSide → HostSide) : (s.setHost f).ckpt = s.ckpt := rfl
@[simp] theorem State.setHost_routeCache (s : State) (f : HostSide → HostSide) :
    (s.setHost f).routeCache = s.routeCache := rfl
@[simp] theorem State.setHost_spBad (s : State) (f : HostSide → HostSide) : (s.setHost f).spBad = s.spBad := rfl
@[simp] theorem State.setHost_seqs (s : State) (f : HostSide → HostSide) : (s.setHost f).seqs = s.seqs := rfl
@[simp] theorem State.setHost_share (s : State) (f : HostSide → HostSide) : (s.setHost f).share = s.share := rfl
@[simp] theorem State.setHost_mgiHold (s : State) (f : HostSide → HostSide) : (s.setHost f).mgiHold = s.mgiHold := rfl
@[simp] theorem State.setHost_sent (s : State) (f : HostSide → HostSide) : (s.setHost f).sent = s.sent := rfl
@[simp] theorem State.setHost_fresh (s : State) (f : HostSide → HostSide) : (s.setHost f).fresh = s.fresh := rfl
@[simp] theorem State.setHost_pending (s : State) (f : HostSide → HostSide) : (s.setHost f).pending = s.pending := rfl
@[simp] theorem State.store_pins (s : State) (a : Nat) (bs : List Byte) : (s.store a bs).pins = s.pins := rfl
@[simp] theorem State.store_mod (s : State) (a : Nat) (bs : List Byte) : (s.store a bs).mod = s.mod := rfl
@[simp] theorem State.store_dict (s : State) (a : Nat) (bs : List Byte) : (s.store a bs).dict = s.dict := rfl
@[simp] theorem State.store_host (s : State) (a : Nat) (bs : List Byte) : (s.store a bs).host = s.host := rfl
@[simp] theorem State.store_adm (s : State) (a : Nat) (bs : List Byte) : (s.store a bs).adm = s.adm := rfl
@[simp] theorem State.store_launches (s : State) (a : Nat) (bs : List Byte) :
    (s.store a bs).launches = s.launches := rfl
@[simp] theorem State.store_keys (s : State) (a : Nat) (bs : List Byte) : (s.store a bs).keys = s.keys := rfl
@[simp] theorem State.store_nor (s : State) (a : Nat) (bs : List Byte) : (s.store a bs).nor = s.nor := rfl
@[simp] theorem State.store_firm (s : State) (a : Nat) (bs : List Byte) : (s.store a bs).firm = s.firm := rfl
@[simp] theorem State.store_pow (s : State) (a : Nat) (bs : List Byte) : (s.store a bs).pow = s.pow := rfl
@[simp] theorem State.store_rcd (s : State) (a : Nat) (bs : List Byte) : (s.store a bs).rcd = s.rcd := rfl
@[simp] theorem State.store_poison (s : State) (a : Nat) (bs : List Byte) : (s.store a bs).poison = s.poison := rfl
@[simp] theorem State.store_mis (s : State) (a : Nat) (bs : List Byte) : (s.store a bs).mis = s.mis := rfl
@[simp] theorem State.store_kv (s : State) (a : Nat) (bs : List Byte) : (s.store a bs).kv = s.kv := rfl
@[simp] theorem State.store_flash (s : State) (a : Nat) (bs : List Byte) : (s.store a bs).flash = s.flash := rfl
@[simp] theorem State.store_ports (s : State) (a : Nat) (bs : List Byte) : (s.store a bs).ports = s.ports := rfl
@[simp] theorem State.store_net (s : State) (a : Nat) (bs : List Byte) : (s.store a bs).net = s.net := rfl
@[simp] theorem State.store_groups (s : State) (a : Nat) (bs : List Byte) : (s.store a bs).groups = s.groups := rfl
@[simp] theorem State.store_routes (s : State) (a : Nat) (bs : List Byte) : (s.store a bs).routes = s.routes := rfl
@[simp] theorem State.store_attends (s : State) (a : Nat) (bs : List Byte) : (s.store a bs).attends = s.attends := rfl
@[simp] theorem State.store_opt (s : State) (a : Nat) (bs : List Byte) : (s.store a bs).opt = s.opt := rfl
@[simp] theorem State.store_ckpt (s : State) (a : Nat) (bs : List Byte) : (s.store a bs).ckpt = s.ckpt := rfl
@[simp] theorem State.store_routeCache (s : State) (a : Nat) (bs : List Byte) :
    (s.store a bs).routeCache = s.routeCache := rfl
@[simp] theorem State.store_spBad (s : State) (a : Nat) (bs : List Byte) : (s.store a bs).spBad = s.spBad := rfl
@[simp] theorem State.store_seqs (s : State) (a : Nat) (bs : List Byte) : (s.store a bs).seqs = s.seqs := rfl
@[simp] theorem State.store_share (s : State) (a : Nat) (bs : List Byte) : (s.store a bs).share = s.share := rfl
@[simp] theorem State.store_mgiHold (s : State) (a : Nat) (bs : List Byte) : (s.store a bs).mgiHold = s.mgiHold := rfl
@[simp] theorem State.store_sent (s : State) (a : Nat) (bs : List Byte) : (s.store a bs).sent = s.sent := rfl
@[simp] theorem State.store_fresh (s : State) (a : Nat) (bs : List Byte) : (s.store a bs).fresh = s.fresh := rfl
@[simp] theorem State.store_pending (s : State) (a : Nat) (bs : List Byte) : (s.store a bs).pending = s.pending := rfl
@[simp] theorem State.setMi_pins (s : State) (m : Nat) (f : MemIsland → MemIsland) : (s.setMi m f).pins = s.pins := rfl
@[simp] theorem State.setMi_mod (s : State) (m : Nat) (f : MemIsland → MemIsland) : (s.setMi m f).mod = s.mod := rfl
@[simp] theorem State.setMi_dict (s : State) (m : Nat) (f : MemIsland → MemIsland) : (s.setMi m f).dict = s.dict := rfl
@[simp] theorem State.setMi_host (s : State) (m : Nat) (f : MemIsland → MemIsland) : (s.setMi m f).host = s.host := rfl
@[simp] theorem State.setMi_adm (s : State) (m : Nat) (f : MemIsland → MemIsland) : (s.setMi m f).adm = s.adm := rfl
@[simp] theorem State.setMi_launches (s : State) (m : Nat) (f : MemIsland → MemIsland) :
    (s.setMi m f).launches = s.launches := rfl
@[simp] theorem State.setMi_keys (s : State) (m : Nat) (f : MemIsland → MemIsland) : (s.setMi m f).keys = s.keys := rfl
@[simp] theorem State.setMi_nor (s : State) (m : Nat) (f : MemIsland → MemIsland) : (s.setMi m f).nor = s.nor := rfl
@[simp] theorem State.setMi_firm (s : State) (m : Nat) (f : MemIsland → MemIsland) : (s.setMi m f).firm = s.firm := rfl
@[simp] theorem State.setMi_pow (s : State) (m : Nat) (f : MemIsland → MemIsland) : (s.setMi m f).pow = s.pow := rfl
@[simp] theorem State.setMi_rcd (s : State) (m : Nat) (f : MemIsland → MemIsland) : (s.setMi m f).rcd = s.rcd := rfl
@[simp] theorem State.setMi_mem (s : State) (m : Nat) (f : MemIsland → MemIsland) : (s.setMi m f).mem = s.mem := rfl
@[simp] theorem State.setMi_poison (s : State) (m : Nat) (f : MemIsland → MemIsland) :
    (s.setMi m f).poison = s.poison := rfl
@[simp] theorem State.setMi_kv (s : State) (m : Nat) (f : MemIsland → MemIsland) : (s.setMi m f).kv = s.kv := rfl
@[simp] theorem State.setMi_flash (s : State) (m : Nat) (f : MemIsland → MemIsland) :
    (s.setMi m f).flash = s.flash := rfl
@[simp] theorem State.setMi_ports (s : State) (m : Nat) (f : MemIsland → MemIsland) :
    (s.setMi m f).ports = s.ports := rfl
@[simp] theorem State.setMi_net (s : State) (m : Nat) (f : MemIsland → MemIsland) : (s.setMi m f).net = s.net := rfl
@[simp] theorem State.setMi_groups (s : State) (m : Nat) (f : MemIsland → MemIsland) :
    (s.setMi m f).groups = s.groups := rfl
@[simp] theorem State.setMi_routes (s : State) (m : Nat) (f : MemIsland → MemIsland) :
    (s.setMi m f).routes = s.routes := rfl
@[simp] theorem State.setMi_attends (s : State) (m : Nat) (f : MemIsland → MemIsland) :
    (s.setMi m f).attends = s.attends := rfl
@[simp] theorem State.setMi_opt (s : State) (m : Nat) (f : MemIsland → MemIsland) : (s.setMi m f).opt = s.opt := rfl
@[simp] theorem State.setMi_ckpt (s : State) (m : Nat) (f : MemIsland → MemIsland) : (s.setMi m f).ckpt = s.ckpt := rfl
@[simp] theorem State.setMi_routeCache (s : State) (m : Nat) (f : MemIsland → MemIsland) :
    (s.setMi m f).routeCache = s.routeCache := rfl
@[simp] theorem State.setMi_spBad (s : State) (m : Nat) (f : MemIsland → MemIsland) :
    (s.setMi m f).spBad = s.spBad := rfl
@[simp] theorem State.setMi_seqs (s : State) (m : Nat) (f : MemIsland → MemIsland) : (s.setMi m f).seqs = s.seqs := rfl
@[simp] theorem State.setMi_share (s : State) (m : Nat) (f : MemIsland → MemIsland) :
    (s.setMi m f).share = s.share := rfl
@[simp] theorem State.setMi_mgiHold (s : State) (m : Nat) (f : MemIsland → MemIsland) :
    (s.setMi m f).mgiHold = s.mgiHold := rfl
@[simp] theorem State.setMi_sent (s : State) (m : Nat) (f : MemIsland → MemIsland) : (s.setMi m f).sent = s.sent := rfl
@[simp] theorem State.setMi_fresh (s : State) (m : Nat) (f : MemIsland → MemIsland) :
    (s.setMi m f).fresh = s.fresh := rfl
@[simp] theorem State.setMi_pending (s : State) (m : Nat) (f : MemIsland → MemIsland) :
    (s.setMi m f).pending = s.pending := rfl
@[simp] theorem State.setJob_pins (s : State) (sl : Nat) (f : Job → Job) : (s.setJob sl f).pins = s.pins := rfl
@[simp] theorem State.setJob_mod (s : State) (sl : Nat) (f : Job → Job) : (s.setJob sl f).mod = s.mod := rfl
@[simp] theorem State.setJob_dict (s : State) (sl : Nat) (f : Job → Job) : (s.setJob sl f).dict = s.dict := rfl
@[simp] theorem State.setJob_host (s : State) (sl : Nat) (f : Job → Job) : (s.setJob sl f).host = s.host := rfl
@[simp] theorem State.setJob_adm (s : State) (sl : Nat) (f : Job → Job) : (s.setJob sl f).adm = s.adm := rfl
@[simp] theorem State.setJob_launches (s : State) (sl : Nat) (f : Job → Job) :
    (s.setJob sl f).launches = s.launches := rfl
@[simp] theorem State.setJob_keys (s : State) (sl : Nat) (f : Job → Job) : (s.setJob sl f).keys = s.keys := rfl
@[simp] theorem State.setJob_nor (s : State) (sl : Nat) (f : Job → Job) : (s.setJob sl f).nor = s.nor := rfl
@[simp] theorem State.setJob_firm (s : State) (sl : Nat) (f : Job → Job) : (s.setJob sl f).firm = s.firm := rfl
@[simp] theorem State.setJob_pow (s : State) (sl : Nat) (f : Job → Job) : (s.setJob sl f).pow = s.pow := rfl
@[simp] theorem State.setJob_rcd (s : State) (sl : Nat) (f : Job → Job) : (s.setJob sl f).rcd = s.rcd := rfl
@[simp] theorem State.setJob_mem (s : State) (sl : Nat) (f : Job → Job) : (s.setJob sl f).mem = s.mem := rfl
@[simp] theorem State.setJob_poison (s : State) (sl : Nat) (f : Job → Job) : (s.setJob sl f).poison = s.poison := rfl
@[simp] theorem State.setJob_mis (s : State) (sl : Nat) (f : Job → Job) : (s.setJob sl f).mis = s.mis := rfl
@[simp] theorem State.setJob_kv (s : State) (sl : Nat) (f : Job → Job) : (s.setJob sl f).kv = s.kv := rfl
@[simp] theorem State.setJob_flash (s : State) (sl : Nat) (f : Job → Job) : (s.setJob sl f).flash = s.flash := rfl
@[simp] theorem State.setJob_ports (s : State) (sl : Nat) (f : Job → Job) : (s.setJob sl f).ports = s.ports := rfl
@[simp] theorem State.setJob_net (s : State) (sl : Nat) (f : Job → Job) : (s.setJob sl f).net = s.net := rfl
@[simp] theorem State.setJob_groups (s : State) (sl : Nat) (f : Job → Job) : (s.setJob sl f).groups = s.groups := rfl
@[simp] theorem State.setJob_routes (s : State) (sl : Nat) (f : Job → Job) : (s.setJob sl f).routes = s.routes := rfl
@[simp] theorem State.setJob_attends (s : State) (sl : Nat) (f : Job → Job) : (s.setJob sl f).attends = s.attends := rfl
@[simp] theorem State.setJob_opt (s : State) (sl : Nat) (f : Job → Job) : (s.setJob sl f).opt = s.opt := rfl
@[simp] theorem State.setJob_routeCache (s : State) (sl : Nat) (f : Job → Job) :
    (s.setJob sl f).routeCache = s.routeCache := rfl
@[simp] theorem State.setJob_spBad (s : State) (sl : Nat) (f : Job → Job) : (s.setJob sl f).spBad = s.spBad := rfl
@[simp] theorem State.setJob_seqs (s : State) (sl : Nat) (f : Job → Job) : (s.setJob sl f).seqs = s.seqs := rfl
@[simp] theorem State.setJob_share (s : State) (sl : Nat) (f : Job → Job) : (s.setJob sl f).share = s.share := rfl
@[simp] theorem State.setJob_mgiHold (s : State) (sl : Nat) (f : Job → Job) : (s.setJob sl f).mgiHold = s.mgiHold := rfl
@[simp] theorem State.setJob_sent (s : State) (sl : Nat) (f : Job → Job) : (s.setJob sl f).sent = s.sent := rfl
@[simp] theorem State.setJob_fresh (s : State) (sl : Nat) (f : Job → Job) : (s.setJob sl f).fresh = s.fresh := rfl
@[simp] theorem State.setJob_pending (s : State) (sl : Nat) (f : Job → Job) : (s.setJob sl f).pending = s.pending := rfl
@[simp] theorem State.buffer_pins (s : State) (b : Boundary) (key sel v : Nat) :
    (s.buffer b key sel v).pins = s.pins := rfl
@[simp] theorem State.buffer_mod (s : State) (b : Boundary) (key sel v : Nat) :
    (s.buffer b key sel v).mod = s.mod := rfl
@[simp] theorem State.buffer_host (s : State) (b : Boundary) (key sel v : Nat) :
    (s.buffer b key sel v).host = s.host := rfl
@[simp] theorem State.buffer_adm (s : State) (b : Boundary) (key sel v : Nat) :
    (s.buffer b key sel v).adm = s.adm := rfl
@[simp] theorem State.buffer_launches (s : State) (b : Boundary) (key sel v : Nat) :
    (s.buffer b key sel v).launches = s.launches := rfl
@[simp] theorem State.buffer_keys (s : State) (b : Boundary) (key sel v : Nat) :
    (s.buffer b key sel v).keys = s.keys := rfl
@[simp] theorem State.buffer_nor (s : State) (b : Boundary) (key sel v : Nat) :
    (s.buffer b key sel v).nor = s.nor := rfl
@[simp] theorem State.buffer_firm (s : State) (b : Boundary) (key sel v : Nat) :
    (s.buffer b key sel v).firm = s.firm := rfl
@[simp] theorem State.buffer_pow (s : State) (b : Boundary) (key sel v : Nat) :
    (s.buffer b key sel v).pow = s.pow := rfl
@[simp] theorem State.buffer_rcd (s : State) (b : Boundary) (key sel v : Nat) :
    (s.buffer b key sel v).rcd = s.rcd := rfl
@[simp] theorem State.buffer_mem (s : State) (b : Boundary) (key sel v : Nat) :
    (s.buffer b key sel v).mem = s.mem := rfl
@[simp] theorem State.buffer_poison (s : State) (b : Boundary) (key sel v : Nat) :
    (s.buffer b key sel v).poison = s.poison := rfl
@[simp] theorem State.buffer_mis (s : State) (b : Boundary) (key sel v : Nat) :
    (s.buffer b key sel v).mis = s.mis := rfl
@[simp] theorem State.buffer_kv (s : State) (b : Boundary) (key sel v : Nat) : (s.buffer b key sel v).kv = s.kv := rfl
@[simp] theorem State.buffer_flash (s : State) (b : Boundary) (key sel v : Nat) :
    (s.buffer b key sel v).flash = s.flash := rfl
@[simp] theorem State.buffer_ports (s : State) (b : Boundary) (key sel v : Nat) :
    (s.buffer b key sel v).ports = s.ports := rfl
@[simp] theorem State.buffer_net (s : State) (b : Boundary) (key sel v : Nat) :
    (s.buffer b key sel v).net = s.net := rfl
@[simp] theorem State.buffer_groups (s : State) (b : Boundary) (key sel v : Nat) :
    (s.buffer b key sel v).groups = s.groups := rfl
@[simp] theorem State.buffer_routes (s : State) (b : Boundary) (key sel v : Nat) :
    (s.buffer b key sel v).routes = s.routes := rfl
@[simp] theorem State.buffer_attends (s : State) (b : Boundary) (key sel v : Nat) :
    (s.buffer b key sel v).attends = s.attends := rfl
@[simp] theorem State.buffer_opt (s : State) (b : Boundary) (key sel v : Nat) :
    (s.buffer b key sel v).opt = s.opt := rfl
@[simp] theorem State.buffer_ckpt (s : State) (b : Boundary) (key sel v : Nat) :
    (s.buffer b key sel v).ckpt = s.ckpt := rfl
@[simp] theorem State.buffer_routeCache (s : State) (b : Boundary) (key sel v : Nat) :
    (s.buffer b key sel v).routeCache = s.routeCache := rfl
@[simp] theorem State.buffer_spBad (s : State) (b : Boundary) (key sel v : Nat) :
    (s.buffer b key sel v).spBad = s.spBad := rfl
@[simp] theorem State.buffer_seqs (s : State) (b : Boundary) (key sel v : Nat) :
    (s.buffer b key sel v).seqs = s.seqs := rfl
@[simp] theorem State.buffer_share (s : State) (b : Boundary) (key sel v : Nat) :
    (s.buffer b key sel v).share = s.share := rfl
@[simp] theorem State.buffer_mgiHold (s : State) (b : Boundary) (key sel v : Nat) :
    (s.buffer b key sel v).mgiHold = s.mgiHold := rfl
@[simp] theorem State.buffer_sent (s : State) (b : Boundary) (key sel v : Nat) :
    (s.buffer b key sel v).sent = s.sent := rfl
@[simp] theorem State.buffer_fresh (s : State) (b : Boundary) (key sel v : Nat) :
    (s.buffer b key sel v).fresh = s.fresh := rfl
@[simp] theorem State.buffer_pending (s : State) (b : Boundary) (key sel v : Nat) :
    (s.buffer b key sel v).pending = s.pending := rfl
@[simp] theorem State.acc_pins (s : State) (f : Rec → Rec) : (s.acc f).pins = s.pins := rfl
@[simp] theorem State.acc_mod (s : State) (f : Rec → Rec) : (s.acc f).mod = s.mod := rfl
@[simp] theorem State.acc_dict (s : State) (f : Rec → Rec) : (s.acc f).dict = s.dict := rfl
@[simp] theorem State.acc_host (s : State) (f : Rec → Rec) : (s.acc f).host = s.host := rfl
@[simp] theorem State.acc_adm (s : State) (f : Rec → Rec) : (s.acc f).adm = s.adm := rfl
@[simp] theorem State.acc_launches (s : State) (f : Rec → Rec) : (s.acc f).launches = s.launches := rfl
@[simp] theorem State.acc_keys (s : State) (f : Rec → Rec) : (s.acc f).keys = s.keys := rfl
@[simp] theorem State.acc_nor (s : State) (f : Rec → Rec) : (s.acc f).nor = s.nor := rfl
@[simp] theorem State.acc_firm (s : State) (f : Rec → Rec) : (s.acc f).firm = s.firm := rfl
@[simp] theorem State.acc_pow (s : State) (f : Rec → Rec) : (s.acc f).pow = s.pow := rfl
@[simp] theorem State.acc_mem (s : State) (f : Rec → Rec) : (s.acc f).mem = s.mem := rfl
@[simp] theorem State.acc_poison (s : State) (f : Rec → Rec) : (s.acc f).poison = s.poison := rfl
@[simp] theorem State.acc_mis (s : State) (f : Rec → Rec) : (s.acc f).mis = s.mis := rfl
@[simp] theorem State.acc_kv (s : State) (f : Rec → Rec) : (s.acc f).kv = s.kv := rfl
@[simp] theorem State.acc_flash (s : State) (f : Rec → Rec) : (s.acc f).flash = s.flash := rfl
@[simp] theorem State.acc_ports (s : State) (f : Rec → Rec) : (s.acc f).ports = s.ports := rfl
@[simp] theorem State.acc_net (s : State) (f : Rec → Rec) : (s.acc f).net = s.net := rfl
@[simp] theorem State.acc_groups (s : State) (f : Rec → Rec) : (s.acc f).groups = s.groups := rfl
@[simp] theorem State.acc_routes (s : State) (f : Rec → Rec) : (s.acc f).routes = s.routes := rfl
@[simp] theorem State.acc_attends (s : State) (f : Rec → Rec) : (s.acc f).attends = s.attends := rfl
@[simp] theorem State.acc_opt (s : State) (f : Rec → Rec) : (s.acc f).opt = s.opt := rfl
@[simp] theorem State.acc_ckpt (s : State) (f : Rec → Rec) : (s.acc f).ckpt = s.ckpt := rfl
@[simp] theorem State.acc_routeCache (s : State) (f : Rec → Rec) : (s.acc f).routeCache = s.routeCache := rfl
@[simp] theorem State.acc_spBad (s : State) (f : Rec → Rec) : (s.acc f).spBad = s.spBad := rfl
@[simp] theorem State.acc_seqs (s : State) (f : Rec → Rec) : (s.acc f).seqs = s.seqs := rfl
@[simp] theorem State.acc_share (s : State) (f : Rec → Rec) : (s.acc f).share = s.share := rfl
@[simp] theorem State.acc_mgiHold (s : State) (f : Rec → Rec) : (s.acc f).mgiHold = s.mgiHold := rfl
@[simp] theorem State.acc_sent (s : State) (f : Rec → Rec) : (s.acc f).sent = s.sent := rfl
@[simp] theorem State.acc_fresh (s : State) (f : Rec → Rec) : (s.acc f).fresh = s.fresh := rfl
@[simp] theorem State.acc_pending (s : State) (f : Rec → Rec) : (s.acc f).pending = s.pending := rfl
@[simp] theorem State.bin_pins (s : State) (h b n : Nat) : (s.bin h b n).pins = s.pins := rfl
@[simp] theorem State.bin_mod (s : State) (h b n : Nat) : (s.bin h b n).mod = s.mod := rfl
@[simp] theorem State.bin_dict (s : State) (h b n : Nat) : (s.bin h b n).dict = s.dict := rfl
@[simp] theorem State.bin_host (s : State) (h b n : Nat) : (s.bin h b n).host = s.host := rfl
@[simp] theorem State.bin_adm (s : State) (h b n : Nat) : (s.bin h b n).adm = s.adm := rfl
@[simp] theorem State.bin_launches (s : State) (h b n : Nat) : (s.bin h b n).launches = s.launches := rfl
@[simp] theorem State.bin_keys (s : State) (h b n : Nat) : (s.bin h b n).keys = s.keys := rfl
@[simp] theorem State.bin_nor (s : State) (h b n : Nat) : (s.bin h b n).nor = s.nor := rfl
@[simp] theorem State.bin_firm (s : State) (h b n : Nat) : (s.bin h b n).firm = s.firm := rfl
@[simp] theorem State.bin_pow (s : State) (h b n : Nat) : (s.bin h b n).pow = s.pow := rfl
@[simp] theorem State.bin_mem (s : State) (h b n : Nat) : (s.bin h b n).mem = s.mem := rfl
@[simp] theorem State.bin_poison (s : State) (h b n : Nat) : (s.bin h b n).poison = s.poison := rfl
@[simp] theorem State.bin_mis (s : State) (h b n : Nat) : (s.bin h b n).mis = s.mis := rfl
@[simp] theorem State.bin_kv (s : State) (h b n : Nat) : (s.bin h b n).kv = s.kv := rfl
@[simp] theorem State.bin_flash (s : State) (h b n : Nat) : (s.bin h b n).flash = s.flash := rfl
@[simp] theorem State.bin_ports (s : State) (h b n : Nat) : (s.bin h b n).ports = s.ports := rfl
@[simp] theorem State.bin_net (s : State) (h b n : Nat) : (s.bin h b n).net = s.net := rfl
@[simp] theorem State.bin_groups (s : State) (h b n : Nat) : (s.bin h b n).groups = s.groups := rfl
@[simp] theorem State.bin_routes (s : State) (h b n : Nat) : (s.bin h b n).routes = s.routes := rfl
@[simp] theorem State.bin_attends (s : State) (h b n : Nat) : (s.bin h b n).attends = s.attends := rfl
@[simp] theorem State.bin_opt (s : State) (h b n : Nat) : (s.bin h b n).opt = s.opt := rfl
@[simp] theorem State.bin_ckpt (s : State) (h b n : Nat) : (s.bin h b n).ckpt = s.ckpt := rfl
@[simp] theorem State.bin_routeCache (s : State) (h b n : Nat) : (s.bin h b n).routeCache = s.routeCache := rfl
@[simp] theorem State.bin_spBad (s : State) (h b n : Nat) : (s.bin h b n).spBad = s.spBad := rfl
@[simp] theorem State.bin_seqs (s : State) (h b n : Nat) : (s.bin h b n).seqs = s.seqs := rfl
@[simp] theorem State.bin_share (s : State) (h b n : Nat) : (s.bin h b n).share = s.share := rfl
@[simp] theorem State.bin_mgiHold (s : State) (h b n : Nat) : (s.bin h b n).mgiHold = s.mgiHold := rfl
@[simp] theorem State.bin_sent (s : State) (h b n : Nat) : (s.bin h b n).sent = s.sent := rfl
@[simp] theorem State.bin_fresh (s : State) (h b n : Nat) : (s.bin h b n).fresh = s.fresh := rfl
@[simp] theorem State.bin_pending (s : State) (h b n : Nat) : (s.bin h b n).pending = s.pending := rfl
@[simp] theorem State.total_pins (s : State) (i n : Nat) : (s.total i n).pins = s.pins := rfl
@[simp] theorem State.total_mod (s : State) (i n : Nat) : (s.total i n).mod = s.mod := rfl
@[simp] theorem State.total_dict (s : State) (i n : Nat) : (s.total i n).dict = s.dict := rfl
@[simp] theorem State.total_host (s : State) (i n : Nat) : (s.total i n).host = s.host := rfl
@[simp] theorem State.total_adm (s : State) (i n : Nat) : (s.total i n).adm = s.adm := rfl
@[simp] theorem State.total_launches (s : State) (i n : Nat) : (s.total i n).launches = s.launches := rfl
@[simp] theorem State.total_keys (s : State) (i n : Nat) : (s.total i n).keys = s.keys := rfl
@[simp] theorem State.total_nor (s : State) (i n : Nat) : (s.total i n).nor = s.nor := rfl
@[simp] theorem State.total_firm (s : State) (i n : Nat) : (s.total i n).firm = s.firm := rfl
@[simp] theorem State.total_pow (s : State) (i n : Nat) : (s.total i n).pow = s.pow := rfl
@[simp] theorem State.total_mem (s : State) (i n : Nat) : (s.total i n).mem = s.mem := rfl
@[simp] theorem State.total_poison (s : State) (i n : Nat) : (s.total i n).poison = s.poison := rfl
@[simp] theorem State.total_mis (s : State) (i n : Nat) : (s.total i n).mis = s.mis := rfl
@[simp] theorem State.total_kv (s : State) (i n : Nat) : (s.total i n).kv = s.kv := rfl
@[simp] theorem State.total_flash (s : State) (i n : Nat) : (s.total i n).flash = s.flash := rfl
@[simp] theorem State.total_ports (s : State) (i n : Nat) : (s.total i n).ports = s.ports := rfl
@[simp] theorem State.total_net (s : State) (i n : Nat) : (s.total i n).net = s.net := rfl
@[simp] theorem State.total_groups (s : State) (i n : Nat) : (s.total i n).groups = s.groups := rfl
@[simp] theorem State.total_routes (s : State) (i n : Nat) : (s.total i n).routes = s.routes := rfl
@[simp] theorem State.total_attends (s : State) (i n : Nat) : (s.total i n).attends = s.attends := rfl
@[simp] theorem State.total_opt (s : State) (i n : Nat) : (s.total i n).opt = s.opt := rfl
@[simp] theorem State.total_ckpt (s : State) (i n : Nat) : (s.total i n).ckpt = s.ckpt := rfl
@[simp] theorem State.total_routeCache (s : State) (i n : Nat) : (s.total i n).routeCache = s.routeCache := rfl
@[simp] theorem State.total_spBad (s : State) (i n : Nat) : (s.total i n).spBad = s.spBad := rfl
@[simp] theorem State.total_seqs (s : State) (i n : Nat) : (s.total i n).seqs = s.seqs := rfl
@[simp] theorem State.total_share (s : State) (i n : Nat) : (s.total i n).share = s.share := rfl
@[simp] theorem State.total_mgiHold (s : State) (i n : Nat) : (s.total i n).mgiHold = s.mgiHold := rfl
@[simp] theorem State.total_sent (s : State) (i n : Nat) : (s.total i n).sent = s.sent := rfl
@[simp] theorem State.total_fresh (s : State) (i n : Nat) : (s.total i n).fresh = s.fresh := rfl
@[simp] theorem State.total_pending (s : State) (i n : Nat) : (s.total i n).pending = s.pending := rfl

end Sys2Proof.Machine
end

