-- ==== Sys2Proof/Laws/Ops.lean ====
section
/-!
SUPPORT. What the accessors read after the basic updates, and what the shared operations (interrupts, events, function bits) leave as it was.
-/
namespace Sys2Proof.Machine

/-! ### Accessors after updates -/

/-- An object reads as it was set; subindices are below 256. -/
theorem State.obj_setObj (s : State) (i j v k l : Nat) :
    (s.setObj i j v).obj k l = if k * 256 + l = i * 256 + j then v else s.obj k l := by
  have key (d : Nat → Nat) (m : Store Nat) (a b : Nat) :
      look (d a) (put (d b) m b v) a = if a = b then v else look (d a) m a := by
    by_cases h : a = b
    · subst h; simp
    · simp only [put]; split <;> simp [look_drop1, look_ins, h]
  exact key objDflt s.dict.obj (k * 256 + l) (i * 256 + j)

@[simp] theorem State.obj_setObj_same (s : State) (i j v : Nat) : (s.setObj i j v).obj i j = v := by
  simp [State.obj_setObj]

/-- A counter reads one step further, modulo 2^48 (R72). -/
@[simp] theorem State.obj_count_same (s : State) (i j n : Nat) : (s.count i j n).obj i j = wrap48 (s.obj i j + n) := by
  simp [State.count]

theorem State.obj_count (s : State) (i j n k l : Nat) :
    (s.count i j n).obj k l = if k * 256 + l = i * 256 + j then wrap48 (s.obj i j + n) else s.obj k l := by
  simp [State.count, State.obj_setObj]

@[simp] theorem State.obj_countSat_same (s : State) (i j m n : Nat) : (s.countSat i j m n).obj i j = satAdd m (s.obj i j) n := by
  simp [State.countSat]

/-- Values of objects depend on the dictionary alone. -/
theorem State.obj_congr {s t : State} (h : t.dict.obj = s.dict.obj) (i j : Nat) : t.obj i j = s.obj i j := by
  simp [State.obj, h]

theorem State.byte_congr {s t : State} (h : t.mem = s.mem) (a : Nat) : t.byte a = s.byte a := by
  simp [State.byte, h]

theorem State.slice_setSlice (s : State) (n k : Nat) (f : Slice → Slice) :
    (s.setSlice n f).slice k = if k = n then f (s.slice n) else s.slice k := by
  simp [State.slice, State.setSlice, sget_smod]

@[simp] theorem State.slice_setSlice_same (s : State) (n : Nat) (f : Slice → Slice) : (s.setSlice n f).slice n = f (s.slice n) := by
  simp [State.slice_setSlice]

theorem State.queue_setQueue (s : State) (sl slot k : Nat) (f : Queue → Queue) :
    (s.setQueue sl slot f).queue sl k = if k = slot then f (s.queue sl slot) else s.queue sl k := by
  simp [State.queue, State.setQueue, sget_smod]

theorem State.mi_setMi (s : State) (m : Nat) (f : MemIsland → MemIsland) (h : m < s.mis.length) :
    (s.setMi m f).mi m = f (s.mi m) := by
  simp [State.mi, State.setMi, List.getD_eq_getElem?_getD, h]

theorem State.mi_setMi_ne (s : State) {m k : Nat} (f : MemIsland → MemIsland) (h : k ≠ m) : (s.setMi m f).mi k = s.mi k := by
  have h' : m ≠ k := fun e => h e.symm
  simp [State.mi, State.setMi, List.getD_eq_getElem?_getD, h']

@[simp] theorem State.mis_setMi_length (s : State) (m : Nat) (f : MemIsland → MemIsland) :
    (s.setMi m f).mis.length = s.mis.length := by simp [State.setMi]

theorem State.island_setIsland (s : State) (n : Nat) (f : Island → Island) (h : n < s.mod.islands.length) :
    (s.setIsland n f).island n = f (s.island n) := by
  simp [State.island, State.setIsland, List.getD_eq_getElem?_getD, h]

theorem State.island_setIsland_ne (s : State) {n k : Nat} (f : Island → Island) (h : k ≠ n) :
    (s.setIsland n f).island k = s.island k := by
  have h' : n ≠ k := fun e => h e.symm
  simp [State.island, State.setIsland, List.getD_eq_getElem?_getD, h']

/-! ### Interrupts and events -/

/-- The level of PF0's INTx changes only that level and the outputs. -/
theorem State.syncPf0_frame (s : State) : s.syncPf0 = { s with host := s.syncPf0.host, sent := s.syncPf0.sent } := by
  simp only [State.syncPf0]; split <;> rfl

theorem State.syncPf1_frame (s : State) : s.syncPf1 = { s with host := s.syncPf1.host, sent := s.syncPf1.sent } := by
  simp only [State.syncPf1]; split <;> rfl

/-- An MSI-X vector is sent, or its pending bit is set (R424). -/
theorem State.msixSend_frame (s : State) (pf1 : Bool) (v : Nat) :
    s.msixSend pf1 v = { s with host := (s.msixSend pf1 v).host, sent := (s.msixSend pf1 v).sent } := by
  unfold State.msixSend; dsimp only; split <;> (try split) <;> rfl

theorem State.signalPf0_frame (s : State) (v : Nat) :
    s.signalPf0 v = { s with host := (s.signalPf0 v).host, sent := (s.signalPf0 v).sent } := by
  simp only [State.signalPf0]
  split
  · generalize h : s.msixSend false v = t
    have ht := State.msixSend_frame s false v
    rw [h] at ht
    rw [State.syncPf0_frame, ht]
  · exact State.syncPf0_frame s

/-- An entry of the admin completion ring. -/
theorem State.admPush_frame (s : State) (e : Nat) :
    s.admPush e = { s with adm := (s.admPush e).adm, host := (s.admPush e).host, sent := (s.admPush e).sent } := by
  simp only [State.admPush]
  split
  · rfl
  · rw [State.signalPf0_frame]

theorem State.steerFire_frame (s : State) (sl e : Nat) :
    s.steerFire sl e = { s with host := (s.steerFire sl e).host, sent := (s.steerFire sl e).sent } := by
  simp only [State.steerFire]
  split
  · split
    · generalize h : State.msixSend _ true _ = t
      have ht := State.msixSend_frame (s.setSteer sl e (fun y => { y with pending := false, quiet := decide (y.modUs ≠ 0) })) true
        ((s.slice sl).msixBase + (sget (s.slice sl).steer e).vector)
      rw [h] at ht
      rw [State.syncPf1_frame, ht]; rfl
    · rw [State.syncPf1_frame]; rfl
  · exact State.syncPf1_frame s

theorem State.steerSignal_frame (s : State) (sl e : Nat) :
    s.steerSignal sl e = { s with host := (s.steerSignal sl e).host, sent := (s.steerSignal sl e).sent } := by
  simp only [State.steerSignal]; rw [State.steerFire_frame]; rfl

/-- An EVENT on a port of the partners: its queue and the slice's usage counter. -/
theorem State.sendEvent_frame (s : State) (p sl c a b d : Nat) (hp : p ≠ tunnelPort) :
    ∃ x y, s.sendEvent p sl c a b d = { s with host := x, ports := y } := by
  simp only [State.sendEvent, State.sendOn, State.queueOn, if_neg hp]
  split <;> exact ⟨_, _, rfl⟩

theorem State.portEvents_frame (s : State) (sl c a b d : Nat) :
    s.portEvents sl c a b d = { s with host := (s.portEvents sl c a b d).host, ports := (s.portEvents sl c a b d).ports } := by
  have : ∀ (l : List Nat) (u : State), (∀ p ∈ l, p < 8) → (∃ x y, u = { s with host := x, ports := y }) →
      ∃ x y, l.foldl (fun t p => if bit (sget (s.slice sl).steer 0).ports p then t.sendEvent p sl c a b d else t) u =
        { s with host := x, ports := y } := by
    intro l
    induction l with
    | nil => exact fun u _ h => h
    | cons p l ih =>
      rintro u hl ⟨x, y, rfl⟩
      refine ih _ (fun q hq => hl q (List.mem_cons_of_mem _ hq)) ?_
      have hp : p ≠ tunnelPort := by have := hl p List.mem_cons_self; simp only [tunnelPort]; omega
      dsimp only
      split
      · obtain ⟨x', y', h⟩ := State.sendEvent_frame _ p sl c a b d hp
        exact ⟨_, _, h⟩
      · exact ⟨_, _, rfl⟩
  obtain ⟨x, y, h⟩ := this (List.range 8) s (fun p hp => List.mem_range.mp hp) ⟨_, _, rfl⟩
  have h' : s.portEvents sl c a b d = { s with host := x, ports := y } := h
  rw [h']

theorem State.ringEvent_frame (s : State) (sl c a b d : Nat) :
    s.ringEvent sl c a b d = { s with
      host := (s.ringEvent sl c a b d).host, ports := (s.ringEvent sl c a b d).ports, sent := (s.ringEvent sl c a b d).sent } := by
  simp only [State.ringEvent]
  split
  · rfl
  · rw [State.portEvents_frame]
    split
    · rfl
    · rw [State.steerSignal_frame]; rfl

/-- An event changes the admin ring, the host endpoint, the ports' queues, the outputs and what waits at MGI's port, and nothing
else. -/
theorem State.event_frame (s : State) (r : Recipient) (c a b d : Nat) : s.event r c a b d =
    { s with adm := (s.event r c a b d).adm, host := (s.event r c a b d).host, ports := (s.event r c a b d).ports
             mgiHold := (s.event r c a b d).mgiHold, sent := (s.event r c a b d).sent } := by
  have hm (o : Out) (e : Nat) : ∃ x y w v z, (s.emit o).admPush e =
      { s with adm := x, host := y, ports := w, mgiHold := v, sent := z } := ⟨_, _, _, _, _, State.admPush_frame (s.emit o) e⟩
  have hr (o : Out) (n : Nat) : ∃ x y w v z, (s.emit o).ringEvent n c a b d =
      { s with adm := x, host := y, ports := w, mgiHold := v, sent := z } := ⟨_, _, _, _, _, State.ringEvent_frame (s.emit o) n c a b d⟩
  have : ∃ x y w v z, s.event r c a b d = { s with adm := x, host := y, ports := w, mgiHold := v, sent := z } := by
    unfold State.event
    split
    · exact ⟨_, _, _, _, _, rfl⟩
    · cases r with
      | operator => exact ⟨_, _, _, _, _, rfl⟩
      | manager =>
        dsimp only
        split
        · exact hm _ _
        · exact ⟨_, _, _, _, _, rfl⟩
      | slice n => exact hr _ _
  obtain ⟨x, y, w, v, z, h⟩ := this
  rw [h]

/-- What lies in the outputs stays there. -/
theorem State.sent_syncPf0 (s : State) (o : Out) (h : o ∈ s.sent) : o ∈ s.syncPf0.sent := by
  simp only [State.syncPf0]; split
  · exact h
  · exact List.mem_cons_of_mem _ h

theorem State.sent_syncPf1 (s : State) (o : Out) (h : o ∈ s.sent) : o ∈ s.syncPf1.sent := by
  simp only [State.syncPf1]; split
  · exact h
  · exact List.mem_cons_of_mem _ h

theorem State.sent_msixSend (s : State) (pf1 : Bool) (v : Nat) (o : Out) (h : o ∈ s.sent) : o ∈ (s.msixSend pf1 v).sent := by
  cases pf1 <;> simp only [State.msixSend, if_true, Bool.false_eq_true, if_false] <;> split <;>
    first | exact h | exact List.mem_cons_of_mem _ h

theorem State.sent_steerFire (s : State) (sl e : Nat) (o : Out) (h : o ∈ s.sent) : o ∈ (s.steerFire sl e).sent := by
  simp only [State.steerFire]
  split
  · refine State.sent_syncPf1 _ _ ?_
    split
    · exact State.sent_msixSend _ _ _ _ h
    · exact h
  · exact State.sent_syncPf1 _ _ h

theorem State.sent_portEvents (s : State) (sl c a b d : Nat) : (s.portEvents sl c a b d).sent = s.sent := by
  rw [State.portEvents_frame]

theorem State.sent_ringEvent (s : State) (sl c a b d : Nat) (o : Out) (h : o ∈ s.sent) : o ∈ (s.ringEvent sl c a b d).sent := by
  simp only [State.ringEvent]
  split
  · exact h
  · rw [State.sent_portEvents]
    split
    · exact h
    · exact State.sent_steerFire _ _ _ _ h

theorem State.sent_admPush (s : State) (e : Nat) (o : Out) (h : o ∈ s.sent) : o ∈ (s.admPush e).sent := by
  simp only [State.admPush]
  split
  · exact h
  · simp only [State.signalPf0]
    refine State.sent_syncPf0 _ _ ?_
    split
    · exact State.sent_msixSend _ _ _ _ h
    · exact h

theorem State.sent_event (s : State) (r : Recipient) (c a b d : Nat) (o : Out) (h : o ∈ s.sent) : o ∈ (s.event r c a b d).sent := by
  have h' : o ∈ (s.emit (.event r c a b d)).sent := List.mem_cons_of_mem _ h
  unfold State.event
  split
  · exact h
  · cases r with
    | operator => exact h'
    | manager =>
      dsimp only; split
      · exact State.sent_admPush _ _ _ h'
      · exact h'
    | slice n => exact State.sent_ringEvent _ _ _ _ _ _ _ h'

/-- An event that is raised while MGI's port holds nothing is among the outputs. -/
theorem State.event_mem_sent (s : State) (r : Recipient) (c a b d : Nat) (hh : s.mod.holding = false) :
    .event r c a b d ∈ (s.event r c a b d).sent := by
  have h' : Out.event r c a b d ∈ (s.emit (.event r c a b d)).sent := List.mem_cons_self
  unfold State.event
  rw [if_neg (by simp [hh])]
  cases r with
  | operator => exact h'
  | manager =>
    dsimp only; split
    · exact State.sent_admPush _ _ _ h'
    · exact h'
  | slice n => exact State.sent_ringEvent _ _ _ _ _ _ _ h'

/-- While MGI's port holds messages, an event waits there and changes nothing else (R28). -/
theorem State.event_held (s : State) (r : Recipient) (c a b d : Nat) (hh : s.mod.holding = true) :
    s.event r c a b d = { s with mgiHold := s.mgiHold ++ [.notice r c a b d] } := by
  unfold State.event; rw [if_pos hh]

/-- A function bit changes the bits of `1010:02` and what its two events change (R52). -/
theorem State.setFn_frame (s : State) (b : Nat) (v : Bool) : s.setFn b v =
    { s with mod := (s.setFn b v).mod, adm := (s.setFn b v).adm, host := (s.setFn b v).host, ports := (s.setFn b v).ports
             mgiHold := (s.setFn b v).mgiHold, sent := (s.setFn b v).sent } := by
  simp only [State.setFn]
  split
  · rfl
  · rw [State.event_frame, State.event_frame]

end Sys2Proof.Machine
end

