-- ==== Sys2Proof/Laws/Dict.lean ====
section
/-!
SUPPORT. The object dictionary: a server with nothing waiting, a write by a row of its own, and its code where the object
has a plain row of the tables.
-/
namespace Sys2Proof.Machine

/-- A server with an empty queue has nothing to do. -/
theorem State.serveAll_nil {s : State} (h : s.dict.queue = []) : s.serveAll = s := by
  simp [State.serveAll, State.serve, h]

/-- A write by a row of its own, where nothing waits: it is applied and answered 0, or only answered with its code. -/
theorem State.ownWrite_eq {s : State} (p : Path) (e : DictEntry) (hu : s.serverUp = true) (h : s.dict.queue = [])
    (hk : p = .odp → s.opk.isSome = true) :
    s.ownWrite p e = if s.writeCode p e = 0 then (s.applyEntry e).emit (.dictDone p 0 0xFFFF)
      else s.emit (.dictDone p (s.writeCode p e) 0) := by
  have hk' : ¬(p = .odp ∧ s.opk.isNone = true) := by
    rintro ⟨e, f⟩; have := hk e; simp_all
  simp only [State.ownWrite, hu, if_true, if_neg hk', State.serveAll_nil h, State.writeRequest, State.writeAll]
  by_cases hc : s.writeCode p e = 0 <;> simp [hc]

theorem ownEntry_idx (i b : Nat) (bs : List Byte) (hi : i < 65536) : (ownEntry i b bs).idx.toNat = i := by
  simp [ownEntry, Nat.mod_eq_of_lt hi]
theorem ownEntry_sub (i b : Nat) (bs : List Byte) (hb : b < 256) : (ownEntry i b bs).sub.toNat = b := by
  simp [ownEntry, Nat.mod_eq_of_lt hb]

/-- The code of a write of a plain row by its own type. -/
theorem State.writeCode_own {s : State} (p : Path) (i b : Nat) (bs : List Byte) (r : ObjRow) (hi : i < 0xF000) (hb : b < 256)
    (hx : objExists i = true) (h30 : i ≠ 0xB030) (hr : reach p i true = true) (hrow : s.rowAt i b = some r)
    (hf : findRow i b = some r) (hsz : r.typ.size = bs.length) (hstr : ∀ n, r.typ ≠ .str n) :
    s.writeCode p (ownEntry i b bs) = 
      let v := maskReserved i b (leNat bs)
      firstCause [r.acc.writeCode, 0, if wrongRange r bs v then 4 else 0, 
       if r.acc.writeCode = 3 then 0 else s.ownCheck (p == .odp) i b v] := by
  have hc : r.typ.code < 256 := by cases r.typ <;> simp [OType.code]; split <;> (try split) <;> (try split) <;> omega
  have h1 : wrongType p r (ownEntry i b bs).typ.toNat bs.length = false := by
    simp only [wrongType, ownEntry, hf, Option.map_some, Option.getD_some, BitVec.toNat_ofNat, Nat.mod_eq_of_lt hc]
    cases ht : r.typ <;> simp_all [OType.size]
  have hv : (ownEntry i b bs).value = bs := rfl
  have hp : s.preCode p i b true = none := by
    simp [State.preCode, hx, h30, hr, hrow]; omega
  simp only [State.writeCode, ownEntry_idx i b bs (by omega), ownEntry_sub i b bs hb, hp, hrow, hv, h1]
  simp

/-- Away from the objects of variable shape, the row is that of the tables. -/
theorem State.rowAt_eq {s : State} {i b : Nat} (hb : b ≠ 0) (h1 : i ≠ 0x2019) (h2 : i < 0xA100 ∨ 0xA300 ≤ i) (h3 : i ≠ 0x9000) :
    s.rowAt i b = findRow i b := by
  simp only [State.rowAt]
  rw [if_neg (by simp [hb]), if_neg (by simp [h1]), if_neg (by simp; omega), if_neg (by simp [h3])]

end Sys2Proof.Machine
end

