-- ==== Sys2Proof/Laws/Exec.lean ====
section
/-!
SUPPORT. One equation per command: `exec` of it is its meaning. Proofs rewrite with these and never unfold `exec`.
-/
namespace Sys2Proof.Machine

variable (s : State)

@[simp] theorem exec_vinRise : exec .vinRise s = execVinRise s := rfl
@[simp] theorem exec_vinFall : exec .vinFall s = execVinFall s := rfl
@[simp] theorem exec_perstNAssert : exec .perstNAssert s = execPerstNAssert s := rfl
@[simp] theorem exec_perstNRelease (pins : BitVec 4) : exec (.perstNRelease pins) s = execPerstNRelease pins s := rfl
@[simp] theorem exec_refclk100Loss : exec .refclk100Loss s = execRefclk100Loss s := rfl
@[simp] theorem exec_refclk100Return : exec .refclk100Return s = execRefclk100Return s := rfl
@[simp] theorem exec_refclk156Loss : exec .refclk156Loss s = execRefclk156Loss s := rfl
@[simp] theorem exec_refclk156Return : exec .refclk156Return s = execRefclk156Return s := rfl
@[simp] theorem exec_cableMate (k : Fin 12) : exec (.cableMate k) s = execCableMate k s := rfl
@[simp] theorem exec_cableUnmate (k : Fin 12) : exec (.cableUnmate k) s = execCableUnmate k s := rfl
@[simp] theorem exec_bankVerifyComplete (ra rb : BankCheck) (us : BitVec 32) :
    exec (.bankVerifyComplete ra rb us) s = execBankVerifyComplete ra rb us s := rfl
@[simp] theorem exec_provisionTimeout : exec .provisionTimeout s = execProvisionTimeout s := rfl
@[simp] theorem exec_firstOpkLoWrite (v : BitVec 256) : exec (.firstOpkLoWrite v) s = execFirstOpkLoWrite v s := rfl
@[simp] theorem exec_firstOpkHiWrite (v : BitVec 128) : exec (.firstOpkHiWrite v) s = execFirstOpkHiWrite v s := rfl
@[simp] theorem exec_firstOpkCommitWrite (v : BitVec 64) : exec (.firstOpkCommitWrite v) s = execFirstOpkCommitWrite v s := rfl
@[simp] theorem exec_selftestDone (n : Fin 26) (code : BitVec 32) :
    exec (.selftestDone n code) s = execSelftestDone n code s := rfl
@[simp] theorem exec_bringupComplete : exec .bringupComplete s = execBringupComplete s := rfl
@[simp] theorem exec_recoveryExit : exec .recoveryExit s = execRecoveryExit s := rfl
@[simp] theorem exec_resetCmdWrite (p : Path) (n : Fin 26) (v : BitVec 8) :
    exec (.resetCmdWrite p n v) s = execResetCmdWrite p n v s := rfl
@[simp] theorem exec_islandReset (n : Fin 26) : exec (.islandReset n) s = execIslandReset n s := rfl
@[simp] theorem exec_straitUnitReceive (x : Fin 104) (toMi : Bool) (u : StraitUnit) (corrected : Fin 9) (bad : Bool) :
    exec (.straitUnitReceive x toMi u corrected bad) s = execStraitUnitReceive x toMi u corrected bad s := rfl
@[simp] theorem exec_straitRetransmit (x : Fin 104) (toMi : Bool) :
    exec (.straitRetransmit x toMi) s = execStraitRetransmit x toMi s := rfl
@[simp] theorem exec_straitCreditReturn (x : Fin 104) (toMi : Bool) :
    exec (.straitCreditReturn x toMi) s = execStraitCreditReturn x toMi s := rfl
@[simp] theorem exec_csReady (src : Fin 26) (dest : BitVec 5) (pl : BitVec 50) (err : CsErr) :
    exec (.csReady src dest pl err) s = execCsReady src dest pl err s := rfl
@[simp] theorem exec_csError (src : Fin 26) (dest : BitVec 5) (pl : BitVec 50) (err : CsErr) :
    exec (.csError src dest pl err) s = execCsError src dest pl err s := rfl
@[simp] theorem exec_csBarrier (src : Fin 26) (dest : BitVec 5) (pl : BitVec 50) (err : CsErr) :
    exec (.csBarrier src dest pl err) s = execCsBarrier src dest pl err s := rfl
@[simp] theorem exec_csStep (src : Fin 26) (dest : BitVec 5) (pl : BitVec 50) (err : CsErr) :
    exec (.csStep src dest pl err) s = execCsStep src dest pl err s := rfl
@[simp] theorem exec_csDoorbell (src : Fin 26) (dest : BitVec 5) (pl : BitVec 50) (err : CsErr) :
    exec (.csDoorbell src dest pl err) s = execCsDoorbell src dest pl err s := rfl
@[simp] theorem exec_csCredit (src : Fin 26) (dest : BitVec 5) (pl : BitVec 50) (err : CsErr) :
    exec (.csCredit src dest pl err) s = execCsCredit src dest pl err s := rfl
@[simp] theorem exec_managementTick (w : TickWork) : exec (.managementTick w) s = execManagementTick w s := rfl
@[simp] theorem exec_testEnter : exec .testEnter s = execTestEnter s := rfl
@[simp] theorem exec_stateRequestEnterTest (p : Path) : exec (.stateRequestEnterTest p) s = execStateRequestEnterTest p s := rfl
@[simp] theorem exec_stateRequestEndTest (p : Path) : exec (.stateRequestEndTest p) s = execStateRequestEndTest p s := rfl
@[simp] theorem exec_genericWrite (w : GWrite) : exec (.genericWrite w) s = execGenericWrite w s := rfl
@[simp] theorem exec_odpRequest (src : Nat) (bytes : List Byte) (serve : Bool) :
    exec (.odpRequest src bytes serve) s = execOdpRequest src bytes serve s := rfl
@[simp] theorem exec_mbxGo (length : BitVec 16) (count : BitVec 8) (write serve : Bool) :
    exec (.mbxGo length count write serve) s = execMbxGo length count write serve s := rfl
@[simp] theorem exec_mbxDoneClear : exec .mbxDoneClear s = execMbxDoneClear s := rfl
@[simp] theorem exec_mbxOverrunClear : exec .mbxOverrunClear s = execMbxOverrunClear s := rfl
@[simp] theorem exec_i3cPrivateWrite (addr : BitVec 7) (bytes : List Byte) (serve : Bool) :
    exec (.i3cPrivateWrite addr bytes serve) s = execI3cPrivateWrite addr bytes serve s := rfl
@[simp] theorem exec_i3cPrivateRead (addr : BitVec 7) : exec (.i3cPrivateRead addr) s = execI3cPrivateRead addr s := rfl
@[simp] theorem exec_wmbSelWrite (page : Option (Fin 512)) (v : BitVec 32) :
    exec (.wmbSelWrite page v) s = execWmbSelWrite page v s := rfl
@[simp] theorem exec_wmbCapture (page : Option (Fin 512)) : exec (.wmbCapture page) s = execWmbCapture page s := rfl
@[simp] theorem exec_wideHiWrite (page : Option (Fin 512)) (off : BitVec 16) (hi : BitVec 32) :
    exec (.wideHiWrite page off hi) s = execWideHiWrite page off hi s := rfl
@[simp] theorem exec_barBadAccess (write : Bool) : exec (.barBadAccess write) s = execBarBadAccess write s := rfl
@[simp] theorem exec_bar4Read (sl : Fin 512) (off : BitVec 31) (len : BitVec 13) (ue : List (BitVec 34)) :
    exec (.bar4Read sl off len ue) s = execBar4Read sl off len ue s := rfl
@[simp] theorem exec_bar4Write (sl : Fin 512) (off : BitVec 31) (bytes : List Byte) (ue : List (BitVec 34)) :
    exec (.bar4Write sl off bytes ue) s = execBar4Write sl off bytes ue s := rfl
@[simp] theorem exec_add (h : Hdr) (rd ra rb : BitVec 5) : exec (.add h rd ra rb) s = execAdd h rd ra rb s := rfl
@[simp] theorem exec_sub (h : Hdr) (rd ra rb : BitVec 5) : exec (.sub h rd ra rb) s = execSub h rd ra rb s := rfl
@[simp] theorem exec_and (h : Hdr) (rd ra rb : BitVec 5) : exec (.and h rd ra rb) s = execAnd h rd ra rb s := rfl
@[simp] theorem exec_or (h : Hdr) (rd ra rb : BitVec 5) : exec (.or h rd ra rb) s = execOr h rd ra rb s := rfl
@[simp] theorem exec_xor (h : Hdr) (rd ra rb : BitVec 5) : exec (.xor h rd ra rb) s = execXor h rd ra rb s := rfl
@[simp] theorem exec_andn (h : Hdr) (rd ra rb : BitVec 5) : exec (.andn h rd ra rb) s = execAndn h rd ra rb s := rfl
@[simp] theorem exec_shl (h : Hdr) (rd ra rb : BitVec 5) : exec (.shl h rd ra rb) s = execShl h rd ra rb s := rfl
@[simp] theorem exec_shr (h : Hdr) (rd ra rb : BitVec 5) : exec (.shr h rd ra rb) s = execShr h rd ra rb s := rfl
@[simp] theorem exec_sra (h : Hdr) (rd ra rb : BitVec 5) : exec (.sra h rd ra rb) s = execSra h rd ra rb s := rfl
@[simp] theorem exec_min (h : Hdr) (rd ra rb : BitVec 5) : exec (.min h rd ra rb) s = execMin h rd ra rb s := rfl
@[simp] theorem exec_max (h : Hdr) (rd ra rb : BitVec 5) : exec (.max h rd ra rb) s = execMax h rd ra rb s := rfl
@[simp] theorem exec_minu (h : Hdr) (rd ra rb : BitVec 5) : exec (.minu h rd ra rb) s = execMinu h rd ra rb s := rfl
@[simp] theorem exec_maxu (h : Hdr) (rd ra rb : BitVec 5) : exec (.maxu h rd ra rb) s = execMaxu h rd ra rb s := rfl
@[simp] theorem exec_clz (h : Hdr) (rd ra rb : BitVec 5) : exec (.clz h rd ra rb) s = execClz h rd ra rb s := rfl
@[simp] theorem exec_ctz (h : Hdr) (rd ra rb : BitVec 5) : exec (.ctz h rd ra rb) s = execCtz h rd ra rb s := rfl
@[simp] theorem exec_popc (h : Hdr) (rd ra rb : BitVec 5) : exec (.popc h rd ra rb) s = execPopc h rd ra rb s := rfl
@[simp] theorem exec_mul (h : Hdr) (rd ra rb : BitVec 5) : exec (.mul h rd ra rb) s = execMul h rd ra rb s := rfl
@[simp] theorem exec_mulh (h : Hdr) (rd ra rb : BitVec 5) : exec (.mulh h rd ra rb) s = execMulh h rd ra rb s := rfl
@[simp] theorem exec_mulhu (h : Hdr) (rd ra rb : BitVec 5) : exec (.mulhu h rd ra rb) s = execMulhu h rd ra rb s := rfl
@[simp] theorem exec_div (h : Hdr) (rd ra rb : BitVec 5) : exec (.div h rd ra rb) s = execDiv h rd ra rb s := rfl
@[simp] theorem exec_divu (h : Hdr) (rd ra rb : BitVec 5) : exec (.divu h rd ra rb) s = execDivu h rd ra rb s := rfl
@[simp] theorem exec_rem (h : Hdr) (rd ra rb : BitVec 5) : exec (.rem h rd ra rb) s = execRem h rd ra rb s := rfl
@[simp] theorem exec_remu (h : Hdr) (rd ra rb : BitVec 5) : exec (.remu h rd ra rb) s = execRemu h rd ra rb s := rfl
@[simp] theorem exec_addi (h : Hdr) (rd ra : BitVec 5) (imm : BitVec 11) :
    exec (.addi h rd ra imm) s = execAddi h rd ra imm s := rfl
@[simp] theorem exec_andi (h : Hdr) (rd ra : BitVec 5) (imm : BitVec 11) :
    exec (.andi h rd ra imm) s = execAndi h rd ra imm s := rfl
@[simp] theorem exec_ori (h : Hdr) (rd ra : BitVec 5) (imm : BitVec 11) : exec (.ori h rd ra imm) s = execOri h rd ra imm s := rfl
@[simp] theorem exec_xori (h : Hdr) (rd ra : BitVec 5) (imm : BitVec 11) :
    exec (.xori h rd ra imm) s = execXori h rd ra imm s := rfl
@[simp] theorem exec_shli (h : Hdr) (rd ra : BitVec 5) (imm : BitVec 11) :
    exec (.shli h rd ra imm) s = execShli h rd ra imm s := rfl
@[simp] theorem exec_shri (h : Hdr) (rd ra : BitVec 5) (imm : BitVec 11) :
    exec (.shri h rd ra imm) s = execShri h rd ra imm s := rfl
@[simp] theorem exec_srai (h : Hdr) (rd ra : BitVec 5) (imm : BitVec 11) :
    exec (.srai h rd ra imm) s = execSrai h rd ra imm s := rfl
@[simp] theorem exec_muli (h : Hdr) (rd ra : BitVec 5) (imm : BitVec 11) :
    exec (.muli h rd ra imm) s = execMuli h rd ra imm s := rfl
@[simp] theorem exec_li (h : Hdr) (rd : BitVec 5) (imm : BitVec 16) : exec (.li h rd imm) s = execLi h rd imm s := rfl
@[simp] theorem exec_lit (h : Hdr) (rd : BitVec 5) (imm : BitVec 16) : exec (.lit h rd imm) s = execLit h rd imm s := rfl
@[simp] theorem exec_cmpEq (h : Hdr) (pt pf : BitVec 3) (ra rb : BitVec 5) :
    exec (.cmpEq h pt pf ra rb) s = execCmpEq h pt pf ra rb s := rfl
@[simp] theorem exec_cmpLt (h : Hdr) (pt pf : BitVec 3) (ra rb : BitVec 5) :
    exec (.cmpLt h pt pf ra rb) s = execCmpLt h pt pf ra rb s := rfl
@[simp] theorem exec_cmpLtu (h : Hdr) (pt pf : BitVec 3) (ra rb : BitVec 5) :
    exec (.cmpLtu h pt pf ra rb) s = execCmpLtu h pt pf ra rb s := rfl
@[simp] theorem exec_cmpGt (h : Hdr) (pt pf : BitVec 3) (ra rb : BitVec 5) :
    exec (.cmpGt h pt pf ra rb) s = execCmpGt h pt pf ra rb s := rfl
@[simp] theorem exec_cmpGtu (h : Hdr) (pt pf : BitVec 3) (ra rb : BitVec 5) :
    exec (.cmpGtu h pt pf ra rb) s = execCmpGtu h pt pf ra rb s := rfl
@[simp] theorem exec_cmpTst (h : Hdr) (pt pf : BitVec 3) (ra rb : BitVec 5) :
    exec (.cmpTst h pt pf ra rb) s = execCmpTst h pt pf ra rb s := rfl
@[simp] theorem exec_cmpiEq (h : Hdr) (pt pf : BitVec 3) (ra : BitVec 5) (imm : BitVec 10) :
    exec (.cmpiEq h pt pf ra imm) s = execCmpiEq h pt pf ra imm s := rfl
@[simp] theorem exec_cmpiLt (h : Hdr) (pt pf : BitVec 3) (ra : BitVec 5) (imm : BitVec 10) :
    exec (.cmpiLt h pt pf ra imm) s = execCmpiLt h pt pf ra imm s := rfl
@[simp] theorem exec_cmpiLtu (h : Hdr) (pt pf : BitVec 3) (ra : BitVec 5) (imm : BitVec 10) :
    exec (.cmpiLtu h pt pf ra imm) s = execCmpiLtu h pt pf ra imm s := rfl
@[simp] theorem exec_cmpiGt (h : Hdr) (pt pf : BitVec 3) (ra : BitVec 5) (imm : BitVec 10) :
    exec (.cmpiGt h pt pf ra imm) s = execCmpiGt h pt pf ra imm s := rfl
@[simp] theorem exec_cmpiGtu (h : Hdr) (pt pf : BitVec 3) (ra : BitVec 5) (imm : BitVec 10) :
    exec (.cmpiGtu h pt pf ra imm) s = execCmpiGtu h pt pf ra imm s := rfl
@[simp] theorem exec_pand (h : Hdr) (pd pa pb : BitVec 3) (un : BitVec 9) :
    exec (.pand h pd pa pb un) s = execPand h pd pa pb un s := rfl
@[simp] theorem exec_por (h : Hdr) (pd pa pb : BitVec 3) (un : BitVec 9) :
    exec (.por h pd pa pb un) s = execPor h pd pa pb un s := rfl
@[simp] theorem exec_pxor (h : Hdr) (pd pa pb : BitVec 3) (un : BitVec 9) :
    exec (.pxor h pd pa pb un) s = execPxor h pd pa pb un s := rfl
@[simp] theorem exec_pandn (h : Hdr) (pd pa pb : BitVec 3) (un : BitVec 9) :
    exec (.pandn h pd pa pb un) s = execPandn h pd pa pb un s := rfl
@[simp] theorem exec_porn (h : Hdr) (pd pa pb : BitVec 3) (un : BitVec 9) :
    exec (.porn h pd pa pb un) s = execPorn h pd pa pb un s := rfl
@[simp] theorem exec_mfp (h : Hdr) (rd ra rb : BitVec 5) : exec (.mfp h rd ra rb) s = execMfp h rd ra rb s := rfl
@[simp] theorem exec_mtp (h : Hdr) (rd ra rb : BitVec 5) : exec (.mtp h rd ra rb) s = execMtp h rd ra rb s := rfl
@[simp] theorem exec_br (h : Hdr) (off : BitVec 21) : exec (.br h off) s = execBr h off s := rfl
@[simp] theorem exec_call (h : Hdr) (off : BitVec 21) : exec (.call h off) s = execCall h off s := rfl
@[simp] theorem exec_jr (h : Hdr) (rd ra rb : BitVec 5) : exec (.jr h rd ra rb) s = execJr h rd ra rb s := rfl
@[simp] theorem exec_callr (h : Hdr) (rd ra rb : BitVec 5) : exec (.callr h rd ra rb) s = execCallr h rd ra rb s := rfl
@[simp] theorem exec_ret (h : Hdr) (rd ra rb : BitVec 5) : exec (.ret h rd ra rb) s = execRet h rd ra rb s := rfl
@[simp] theorem exec_ldb (h : Hdr) (rt : BitVec 5) (bs : BitVec 3) (off : BitVec 13) :
    exec (.ldb h rt bs off) s = execLdb h rt bs off s := rfl
@[simp] theorem exec_ldh (h : Hdr) (rt : BitVec 5) (bs : BitVec 3) (off : BitVec 13) :
    exec (.ldh h rt bs off) s = execLdh h rt bs off s := rfl
@[simp] theorem exec_ldw (h : Hdr) (rt : BitVec 5) (bs : BitVec 3) (off : BitVec 13) :
    exec (.ldw h rt bs off) s = execLdw h rt bs off s := rfl
@[simp] theorem exec_ldd (h : Hdr) (rt : BitVec 5) (bs : BitVec 3) (off : BitVec 13) :
    exec (.ldd h rt bs off) s = execLdd h rt bs off s := rfl
@[simp] theorem exec_ldbs (h : Hdr) (rt : BitVec 5) (bs : BitVec 3) (off : BitVec 13) :
    exec (.ldbs h rt bs off) s = execLdbs h rt bs off s := rfl
@[simp] theorem exec_ldhs (h : Hdr) (rt : BitVec 5) (bs : BitVec 3) (off : BitVec 13) :
    exec (.ldhs h rt bs off) s = execLdhs h rt bs off s := rfl
@[simp] theorem exec_ldws (h : Hdr) (rt : BitVec 5) (bs : BitVec 3) (off : BitVec 13) :
    exec (.ldws h rt bs off) s = execLdws h rt bs off s := rfl
@[simp] theorem exec_stb (h : Hdr) (rt : BitVec 5) (bs : BitVec 3) (off : BitVec 13) :
    exec (.stb h rt bs off) s = execStb h rt bs off s := rfl
@[simp] theorem exec_sth (h : Hdr) (rt : BitVec 5) (bs : BitVec 3) (off : BitVec 13) :
    exec (.sth h rt bs off) s = execSth h rt bs off s := rfl
@[simp] theorem exec_stw (h : Hdr) (rt : BitVec 5) (bs : BitVec 3) (off : BitVec 13) :
    exec (.stw h rt bs off) s = execStw h rt bs off s := rfl
@[simp] theorem exec_std (h : Hdr) (rt : BitVec 5) (bs : BitVec 3) (off : BitVec 13) :
    exec (.std h rt bs off) s = execStd h rt bs off s := rfl
@[simp] theorem exec_ldbx (h : Hdr) (rd ra : BitVec 5) (imm : BitVec 11) :
    exec (.ldbx h rd ra imm) s = execLdbx h rd ra imm s := rfl
@[simp] theorem exec_ldhx (h : Hdr) (rd ra : BitVec 5) (imm : BitVec 11) :
    exec (.ldhx h rd ra imm) s = execLdhx h rd ra imm s := rfl
@[simp] theorem exec_ldwx (h : Hdr) (rd ra : BitVec 5) (imm : BitVec 11) :
    exec (.ldwx h rd ra imm) s = execLdwx h rd ra imm s := rfl
@[simp] theorem exec_lddx (h : Hdr) (rd ra : BitVec 5) (imm : BitVec 11) :
    exec (.lddx h rd ra imm) s = execLddx h rd ra imm s := rfl
@[simp] theorem exec_ldbsx (h : Hdr) (rd ra : BitVec 5) (imm : BitVec 11) :
    exec (.ldbsx h rd ra imm) s = execLdbsx h rd ra imm s := rfl
@[simp] theorem exec_ldhsx (h : Hdr) (rd ra : BitVec 5) (imm : BitVec 11) :
    exec (.ldhsx h rd ra imm) s = execLdhsx h rd ra imm s := rfl
@[simp] theorem exec_ldwsx (h : Hdr) (rd ra : BitVec 5) (imm : BitVec 11) :
    exec (.ldwsx h rd ra imm) s = execLdwsx h rd ra imm s := rfl
@[simp] theorem exec_stbx (h : Hdr) (rd ra : BitVec 5) (imm : BitVec 11) :
    exec (.stbx h rd ra imm) s = execStbx h rd ra imm s := rfl
@[simp] theorem exec_sthx (h : Hdr) (rd ra : BitVec 5) (imm : BitVec 11) :
    exec (.sthx h rd ra imm) s = execSthx h rd ra imm s := rfl
@[simp] theorem exec_stwx (h : Hdr) (rd ra : BitVec 5) (imm : BitVec 11) :
    exec (.stwx h rd ra imm) s = execStwx h rd ra imm s := rfl
@[simp] theorem exec_stdx (h : Hdr) (rd ra : BitVec 5) (imm : BitVec 11) :
    exec (.stdx h rd ra imm) s = execStdx h rd ra imm s := rfl
@[simp] theorem exec_push (h : Hdr) (rd ra rb : BitVec 5) : exec (.push h rd ra rb) s = execPush h rd ra rb s := rfl
@[simp] theorem exec_pop (h : Hdr) (rd ra rb : BitVec 5) : exec (.pop h rd ra rb) s = execPop h rd ra rb s := rfl
@[simp] theorem exec_amoadd (h : Hdr) (rd ra rb : BitVec 5) : exec (.amoadd h rd ra rb) s = execAmoadd h rd ra rb s := rfl
@[simp] theorem exec_amocas (h : Hdr) (rd ra rb : BitVec 5) : exec (.amocas h rd ra rb) s = execAmocas h rd ra rb s := rfl
@[simp] theorem exec_nop (h : Hdr) (rd ra rb : BitVec 5) (other : Option (BitVec 32)) :
    exec (.nop h rd ra rb other) s = execNop h rd ra rb other s := rfl
@[simp] theorem exec_halt (h : Hdr) (rd ra rb : BitVec 5) : exec (.halt h rd ra rb) s = execHalt h rd ra rb s := rfl
@[simp] theorem exec_trap (h : Hdr) (rd : BitVec 5) (code : BitVec 10) : exec (.trap h rd code) s = execTrap h rd code s := rfl
@[simp] theorem exec_rft (h : Hdr) (rd ra rb : BitVec 5) : exec (.rft h rd ra rb) s = execRft h rd ra rb s := rfl
@[simp] theorem exec_fence (h : Hdr) (rd ra rb : BitVec 5) : exec (.fence h rd ra rb) s = execFence h rd ra rb s := rfl
@[simp] theorem exec_waitev (h : Hdr) (rd ra rb : BitVec 5) : exec (.waitev h rd ra rb) s = execWaitev h rd ra rb s := rfl
@[simp] theorem exec_mfs (h : Hdr) (rd : BitVec 5) (sr : BitVec 10) : exec (.mfs h rd sr) s = execMfs h rd sr s := rfl
@[simp] theorem exec_mts (h : Hdr) (rd : BitVec 5) (sr : BitVec 10) : exec (.mts h rd sr) s = execMts h rd sr s := rfl
@[simp] theorem exec_mtb (h : Hdr) (rd ra rb : BitVec 5) : exec (.mtb h rd ra rb) s = execMtb h rd ra rb s := rfl
@[simp] theorem exec_mfb (h : Hdr) (rd ra rb : BitVec 5) : exec (.mfb h rd ra rb) s = execMfb h rd ra rb s := rfl
@[simp] theorem exec_setb (h : Hdr) (bn : BitVec 3) (sp : BitVec 2) (imm : BitVec 16) :
    exec (.setb h bn sp imm) s = execSetb h bn sp imm s := rfl
@[simp] theorem exec_pfx (h : Hdr) (x : BitVec 21) : exec (.pfx h x) s = execPfx h x s := rfl
@[simp] theorem exec_mma (h : Hdr) (core : BitVec 4) (ta tb : BitVec 6) (plane clr : Bool) (fold : BitVec 3) :
    exec (.mma h core ta tb plane clr fold) s = execMma h core ta tb plane clr fold s := rfl
@[simp] theorem exec_mdrain (h : Hdr) (core : BitVec 4) (tc : BitVec 6) (plane : Bool) (ra un : BitVec 5) :
    exec (.mdrain h core tc plane ra un) s = execMdrain h core tc plane ra un s := rfl
@[simp] theorem exec_mzero (h : Hdr) (core : BitVec 4) (plane : Bool) (un : BitVec 16) :
    exec (.mzero h core plane un) s = execMzero h core plane un s := rfl
@[simp] theorem exec_tdset (h : Hdr) (td : BitVec 6) (ra rb un : BitVec 5) :
    exec (.tdset h td ra rb un) s = execTdset h td ra rb un s := rfl
@[simp] theorem exec_vopFadd (h : Hdr) (ve : BitVec 2) (vd va vb : BitVec 5) :
    exec (.vopFadd h ve vd va vb) s = execVopFadd h ve vd va vb s := rfl
@[simp] theorem exec_vopFsub (h : Hdr) (ve : BitVec 2) (vd va vb : BitVec 5) :
    exec (.vopFsub h ve vd va vb) s = execVopFsub h ve vd va vb s := rfl
@[simp] theorem exec_vopFmul (h : Hdr) (ve : BitVec 2) (vd va vb : BitVec 5) :
    exec (.vopFmul h ve vd va vb) s = execVopFmul h ve vd va vb s := rfl
@[simp] theorem exec_vopFmin (h : Hdr) (ve : BitVec 2) (vd va vb : BitVec 5) :
    exec (.vopFmin h ve vd va vb) s = execVopFmin h ve vd va vb s := rfl
@[simp] theorem exec_vopFmax (h : Hdr) (ve : BitVec 2) (vd va vb : BitVec 5) :
    exec (.vopFmax h ve vd va vb) s = execVopFmax h ve vd va vb s := rfl
@[simp] theorem exec_vopIadd (h : Hdr) (ve : BitVec 2) (vd va vb : BitVec 5) :
    exec (.vopIadd h ve vd va vb) s = execVopIadd h ve vd va vb s := rfl
@[simp] theorem exec_vopIsub (h : Hdr) (ve : BitVec 2) (vd va vb : BitVec 5) :
    exec (.vopIsub h ve vd va vb) s = execVopIsub h ve vd va vb s := rfl
@[simp] theorem exec_vopImul (h : Hdr) (ve : BitVec 2) (vd va vb : BitVec 5) :
    exec (.vopImul h ve vd va vb) s = execVopImul h ve vd va vb s := rfl
@[simp] theorem exec_vopAnd (h : Hdr) (ve : BitVec 2) (vd va vb : BitVec 5) :
    exec (.vopAnd h ve vd va vb) s = execVopAnd h ve vd va vb s := rfl
@[simp] theorem exec_vopOr (h : Hdr) (ve : BitVec 2) (vd va vb : BitVec 5) :
    exec (.vopOr h ve vd va vb) s = execVopOr h ve vd va vb s := rfl
@[simp] theorem exec_vopXor (h : Hdr) (ve : BitVec 2) (vd va vb : BitVec 5) :
    exec (.vopXor h ve vd va vb) s = execVopXor h ve vd va vb s := rfl
@[simp] theorem exec_vopShl (h : Hdr) (ve : BitVec 2) (vd va vb : BitVec 5) :
    exec (.vopShl h ve vd va vb) s = execVopShl h ve vd va vb s := rfl
@[simp] theorem exec_vopShr (h : Hdr) (ve : BitVec 2) (vd va vb : BitVec 5) :
    exec (.vopShr h ve vd va vb) s = execVopShr h ve vd va vb s := rfl
@[simp] theorem exec_vopFrsum (h : Hdr) (ve : BitVec 2) (vd va vb : BitVec 5) :
    exec (.vopFrsum h ve vd va vb) s = execVopFrsum h ve vd va vb s := rfl
@[simp] theorem exec_vopFrmax (h : Hdr) (ve : BitVec 2) (vd va vb : BitVec 5) :
    exec (.vopFrmax h ve vd va vb) s = execVopFrmax h ve vd va vb s := rfl
@[simp] theorem exec_vopFcmplt (h : Hdr) (ve : BitVec 2) (vd va vb : BitVec 5) :
    exec (.vopFcmplt h ve vd va vb) s = execVopFcmplt h ve vd va vb s := rfl
@[simp] theorem exec_vfma (h : Hdr) (ve : BitVec 2) (vd va vb : BitVec 5) (un : BitVec 4) :
    exec (.vfma h ve vd va vb un) s = execVfma h ve vd va vb un s := rfl
@[simp] theorem exec_vld (h : Hdr) (ve : BitVec 2) (vd ga : BitVec 5) (rm : BitVec 2) (un : BitVec 3) :
    exec (.vld h ve vd ga rm un) s = execVld h ve vd ga rm un s := rfl
@[simp] theorem exec_vst (h : Hdr) (ve : BitVec 2) (vd ga : BitVec 5) (rm : BitVec 2) (un : BitVec 3) :
    exec (.vst h ve vd ga rm un) s = execVst h ve vd ga rm un s := rfl
@[simp] theorem exec_vldc (h : Hdr) (ve : BitVec 2) (vd ga : BitVec 5) (rm : BitVec 2) (un : BitVec 3) :
    exec (.vldc h ve vd ga rm un) s = execVldc h ve vd ga rm un s := rfl
@[simp] theorem exec_vstc (h : Hdr) (ve : BitVec 2) (vd ga : BitVec 5) (rm : BitVec 2) (un : BitVec 3) :
    exec (.vstc h ve vd ga rm un) s = execVstc h ve vd ga rm un s := rfl
@[simp] theorem exec_vbcast (h : Hdr) (ve : BitVec 2) (vd ga : BitVec 5) (rm : BitVec 2) (un : BitVec 3) :
    exec (.vbcast h ve vd ga rm un) s = execVbcast h ve vd ga rm un s := rfl
@[simp] theorem exec_vmovg (h : Hdr) (ve : BitVec 2) (vd ga : BitVec 5) (rm : BitVec 2) (un : BitVec 3) :
    exec (.vmovg h ve vd ga rm un) s = execVmovg h ve vd ga rm un s := rfl
@[simp] theorem exec_vsfuExp2 (h : Hdr) (ve : BitVec 2) (vd va : BitVec 5) (un : BitVec 6) :
    exec (.vsfuExp2 h ve vd va un) s = execVsfuExp2 h ve vd va un s := rfl
@[simp] theorem exec_vsfuExp (h : Hdr) (ve : BitVec 2) (vd va : BitVec 5) (un : BitVec 6) :
    exec (.vsfuExp h ve vd va un) s = execVsfuExp h ve vd va un s := rfl
@[simp] theorem exec_vsfuLog2 (h : Hdr) (ve : BitVec 2) (vd va : BitVec 5) (un : BitVec 6) :
    exec (.vsfuLog2 h ve vd va un) s = execVsfuLog2 h ve vd va un s := rfl
@[simp] theorem exec_vsfuRcp (h : Hdr) (ve : BitVec 2) (vd va : BitVec 5) (un : BitVec 6) :
    exec (.vsfuRcp h ve vd va un) s = execVsfuRcp h ve vd va un s := rfl
@[simp] theorem exec_vsfuRsqrt (h : Hdr) (ve : BitVec 2) (vd va : BitVec 5) (un : BitVec 6) :
    exec (.vsfuRsqrt h ve vd va un) s = execVsfuRsqrt h ve vd va un s := rfl
@[simp] theorem exec_vsfuTanh (h : Hdr) (ve : BitVec 2) (vd va : BitVec 5) (un : BitVec 6) :
    exec (.vsfuTanh h ve vd va un) s = execVsfuTanh h ve vd va un s := rfl
@[simp] theorem exec_vsfuSigmoid (h : Hdr) (ve : BitVec 2) (vd va : BitVec 5) (un : BitVec 6) :
    exec (.vsfuSigmoid h ve vd va un) s = execVsfuSigmoid h ve vd va un s := rfl
@[simp] theorem exec_cipherGcmEncrypt (h : Hdr) (ra : BitVec 5) (kslot : BitVec 12) :
    exec (.cipherGcmEncrypt h ra kslot) s = execCipherGcmEncrypt h ra kslot s := rfl
@[simp] theorem exec_cipherGcmDecrypt (h : Hdr) (ra : BitVec 5) (kslot : BitVec 12) :
    exec (.cipherGcmDecrypt h ra kslot) s = execCipherGcmDecrypt h ra kslot s := rfl
@[simp] theorem exec_digestSha384 (h : Hdr) (ra : BitVec 5) (kslot : BitVec 12) :
    exec (.digestSha384 h ra kslot) s = execDigestSha384 h ra kslot s := rfl
@[simp] theorem exec_digestHmacSha384 (h : Hdr) (ra : BitVec 5) (kslot : BitVec 12) :
    exec (.digestHmacSha384 h ra kslot) s = execDigestHmacSha384 h ra kslot s := rfl
@[simp] theorem exec_collDoorbell (h : Hdr) (ra : BitVec 5) (queue : BitVec 14) :
    exec (.collDoorbell h ra queue) s = execCollDoorbell h ra queue s := rfl
@[simp] theorem exec_collArrive (h : Hdr) (ra : BitVec 5) (queue : BitVec 14) :
    exec (.collArrive h ra queue) s = execCollArrive h ra queue s := rfl
@[simp] theorem exec_collBarrier (h : Hdr) (ra : BitVec 5) (queue : BitVec 14) :
    exec (.collBarrier h ra queue) s = execCollBarrier h ra queue s := rfl
@[simp] theorem exec_stream (h : Hdr) (ra : BitVec 5) (un : BitVec 16) : exec (.stream h ra un) s = execStream h ra un s := rfl
@[simp] theorem exec_copOpStart (q : Fin 49) (num : Nat) : exec (.copOpStart q num) s = execCopOpStart q num s := rfl
@[simp] theorem exec_matrixOpComplete (q : Fin 49) (num : Nat) (met : Met) :
    exec (.matrixOpComplete q num met) s = execMatrixOpComplete q num met s := rfl
@[simp] theorem exec_vectorOpComplete (q : Fin 49) (num : Nat) (met : Met) :
    exec (.vectorOpComplete q num met) s = execVectorOpComplete q num met s := rfl
@[simp] theorem exec_sfuResult (q : Fin 49) (num : Nat) : exec (.sfuResult q num) s = execSfuResult q num s := rfl
@[simp] theorem exec_streamDescComplete (q : Fin 49) (num : Nat) (met : Met) (dma : List DmaWrite) (status : BitVec 8) :
    exec (.streamDescComplete q num met dma status) s = execStreamDescComplete q num met dma status s := rfl
@[simp] theorem exec_cipherOpComplete (q : Fin 49) (num : Nat) (met : Met) :
    exec (.cipherOpComplete q num met) s = execCipherOpComplete q num met s := rfl
@[simp] theorem exec_watchdog (q : Fin 49) (stalled : BitVec 32) : exec (.watchdog q stalled) s = execWatchdog q stalled s := rfl
@[simp] theorem exec_watchdogEnd (q : Fin 49) (stalled : BitVec 32) :
    exec (.watchdogEnd q stalled) s = execWatchdogEnd q stalled s := rfl
@[simp] theorem exec_kernelEnd (n : Fin 16) : exec (.kernelEnd n) s = execKernelEnd n s := rfl
@[simp] theorem exec_tiBoundarySignal (q : Fin 49) : exec (.tiBoundarySignal q) s = execTiBoundarySignal q s := rfl
@[simp] theorem exec_timeshareSliceSwitch (n : Fin 16) (next : Option (Fin 512)) (us : BitVec 32) :
    exec (.timeshareSliceSwitch n next us) s = execTimeshareSliceSwitch n next us s := rfl
@[simp] theorem exec_memSectorAccess (a : BitVec 48) (w : Option (List Byte)) (ecc : Ecc) (ch : Fin 16) :
    exec (.memSectorAccess a w ecc ch) s = execMemSectorAccess a w ecc ch s := rfl
@[simp] theorem exec_stackRefresh (st : Fin 16) : exec (.stackRefresh st) s = execStackRefresh st s := rfl
@[simp] theorem exec_scrubRead (m : Fin 4) (ecc : List Ecc) (ch : Fin 16) :
    exec (.scrubRead m ecc ch) s = execScrubRead m ecc ch s := rfl
@[simp] theorem exec_scrubRateLoop : exec .scrubRateLoop s = execScrubRateLoop s := rfl
@[simp] theorem exec_stackRetrainWindow (st : Fin 16) (ok : Option Bool) :
    exec (.stackRetrainWindow st ok) s = execStackRetrainWindow st ok s := rfl
@[simp] theorem exec_frameRetire (frame : Fin 376832) : exec (.frameRetire frame) s = execFrameRetire frame s := rfl
@[simp] theorem exec_kvCreate (q : QCtx) (d : List Byte) : exec (.kvCreate q d) s = execKvCreate q d s := rfl
@[simp] theorem exec_kvFork (q : QCtx) (d : List Byte) : exec (.kvFork q d) s = execKvFork q d s := rfl
@[simp] theorem exec_kvAppend (q : QCtx) (d : List Byte) : exec (.kvAppend q d) s = execKvAppend q d s := rfl
@[simp] theorem exec_kvTruncate (q : QCtx) (d : List Byte) : exec (.kvTruncate q d) s = execKvTruncate q d s := rfl
@[simp] theorem exec_kvPin (q : QCtx) (d : List Byte) : exec (.kvPin q d) s = execKvPin q d s := rfl
@[simp] theorem exec_kvUnpin (q : QCtx) (d : List Byte) : exec (.kvUnpin q d) s = execKvUnpin q d s := rfl
@[simp] theorem exec_kvRelease (q : QCtx) (d : List Byte) : exec (.kvRelease q d) s = execKvRelease q d s := rfl
@[simp] theorem exec_kvQuery (q : QCtx) (d : List Byte) : exec (.kvQuery q d) s = execKvQuery q d s := rfl
@[simp] theorem exec_kvSetceil (q : QCtx) (d : List Byte) : exec (.kvSetceil q d) s = execKvSetceil q d s := rfl
@[simp] theorem exec_tierPeriod (late : Bool) : exec (.tierPeriod late) s = execTierPeriod late s := rfl
@[simp] theorem exec_kvDemoteWritten (b : Nat) : exec (.kvDemoteWritten b) s = execKvDemoteWritten b s := rfl
@[simp] theorem exec_kvBlockFetched (b : Nat) (ok : Bool) : exec (.kvBlockFetched b ok) s = execKvBlockFetched b ok s := rfl
@[simp] theorem exec_epjorAttend (p : Fin 9) (t : Txn) : exec (.epjorAttend p t) s = execEpjorAttend p t s := rfl
@[simp] theorem exec_attendChunkStart (i : Fin 2048) (c : Nat) :
    exec (.attendChunkStart i c) s = execAttendChunkStart i c s := rfl
@[simp] theorem exec_attendChunkComplete (i : Fin 2048) (c : Nat) :
    exec (.attendChunkComplete i c) s = execAttendChunkComplete i c s := rfl
@[simp] theorem exec_attendDeadline (i : Fin 2048) (ready : BitVec 32) :
    exec (.attendDeadline i ready) s = execAttendDeadline i ready s := rfl
@[simp] theorem exec_attendComplete (i : Fin 2048) : exec (.attendComplete i) s = execAttendComplete i s := rfl
@[simp] theorem exec_deferHoldExpire (b : Nat) : exec (.deferHoldExpire b) s = execDeferHoldExpire b s := rfl
@[simp] theorem exec_optRegister (q : QCtx) (d : List Byte) : exec (.optRegister q d) s = execOptRegister q d s := rfl
@[simp] theorem exec_optSethyper (q : QCtx) (d : List Byte) : exec (.optSethyper q d) s = execOptSethyper q d s := rfl
@[simp] theorem exec_optSkip (q : QCtx) (d : List Byte) : exec (.optSkip q d) s = execOptSkip q d s := rfl
@[simp] theorem exec_optQuery (q : QCtx) (d : List Byte) : exec (.optQuery q d) s = execOptQuery q d s := rfl
@[simp] theorem exec_optRelease (q : QCtx) (d : List Byte) : exec (.optRelease q d) s = execOptRelease q d s := rfl
@[simp] theorem exec_optLoad (q : QCtx) (d : List Byte) : exec (.optLoad q d) s = execOptLoad q d s := rfl
@[simp] theorem exec_optUnload (q : QCtx) (d : List Byte) : exec (.optUnload q d) s = execOptUnload q d s := rfl
@[simp] theorem exec_epjorGrad (p : Fin 9) (t : Txn) : exec (.epjorGrad p t) s = execEpjorGrad p t s := rfl
@[simp] theorem exec_optUnitDispatch (q : Fin 32) : exec (.optUnitDispatch q) s = execOptUnitDispatch q s := rfl
@[simp] theorem exec_optUnitHalt (q : Fin 32) : exec (.optUnitHalt q) s = execOptUnitHalt q s := rfl
@[simp] theorem exec_lambRatioReady (i : Fin 4096) (others : List (BitVec 64 × BitVec 32 × BitVec 32)) :
    exec (.lambRatioReady i others) s = execLambRatioReady i others s := rfl
@[simp] theorem exec_portDetectPoll (p : Fin 8) (signal : BitVec 8) :
    exec (.portDetectPoll p signal) s = execPortDetectPoll p signal s := rfl
@[simp] theorem exec_equaliseComplete (p : Fin 8) (failed : BitVec 8) :
    exec (.equaliseComplete p failed) s = execEqualiseComplete p failed s := rfl
@[simp] theorem exec_alignComplete (p : Fin 8) : exec (.alignComplete p) s = execAlignComplete p s := rfl
@[simp] theorem exec_alignTimeout (p : Fin 8) : exec (.alignTimeout p) s = execAlignTimeout p s := rfl
@[simp] theorem exec_configFlitSend (p : Fin 8) : exec (.configFlitSend p) s = execConfigFlitSend p s := rfl
@[simp] theorem exec_configFlitReceive (p : Fin 8) (block : List Byte) :
    exec (.configFlitReceive p block) s = execConfigFlitReceive p block s := rfl
@[simp] theorem exec_configTimeout (p : Fin 8) : exec (.configTimeout p) s = execConfigTimeout p s := rfl
@[simp] theorem exec_retrainComplete (p : Fin 8) (ok : Bool) (failed : BitVec 8) :
    exec (.retrainComplete p ok failed) s = execRetrainComplete p ok failed s := rfl
@[simp] theorem exec_downHoldExpire (p : Fin 8) : exec (.downHoldExpire p) s = execDownHoldExpire p s := rfl
@[simp] theorem exec_laneLockLoss (p : Fin 8) (lane : Fin 8) : exec (.laneLockLoss p lane) s = execLaneLockLoss p lane s := rfl
@[simp] theorem exec_laneSymbolLimit (p : Fin 8) (lane : Fin 8) :
    exec (.laneSymbolLimit p lane) s = execLaneSymbolLimit p lane s := rfl
@[simp] theorem exec_reqRetrainRetrain (path : Path) (p : Fin 8) :
    exec (.reqRetrainRetrain path p) s = execReqRetrainRetrain path p s := rfl
@[simp] theorem exec_reqRetrainLinkReset (path : Path) (p : Fin 8) :
    exec (.reqRetrainLinkReset path p) s = execReqRetrainLinkReset path p s := rfl
@[simp] theorem exec_numberedFlitReceive (p : Fin 8) (block : List Byte) :
    exec (.numberedFlitReceive p block) s = execNumberedFlitReceive p block s := rfl
@[simp] theorem exec_lctlFlitReceive (p : Fin 8) (block : List Byte) :
    exec (.lctlFlitReceive p block) s = execLctlFlitReceive p block s := rfl
@[simp] theorem exec_idleFlitReceive (p : Fin 8) (block : List Byte) :
    exec (.idleFlitReceive p block) s = execIdleFlitReceive p block s := rfl
@[simp] theorem exec_lctlSend (p : Fin 8) : exec (.lctlSend p) s = execLctlSend p s := rfl
@[simp] theorem exec_flitSlotTransmit (p : Fin 8) : exec (.flitSlotTransmit p) s = execFlitSlotTransmit p s := rfl
@[simp] theorem exec_replayTimeout (p : Fin 8) : exec (.replayTimeout p) s = execReplayTimeout p s := rfl
@[simp] theorem exec_epjorRead (p : Fin 9) (t : Txn) : exec (.epjorRead p t) s = execEpjorRead p t s := rfl
@[simp] theorem exec_epjorWrite (p : Fin 9) (t : Txn) : exec (.epjorWrite p t) s = execEpjorWrite p t s := rfl
@[simp] theorem exec_epjorWriteFinal (p : Fin 9) (t : Txn) : exec (.epjorWriteFinal p t) s = execEpjorWriteFinal p t s := rfl
@[simp] theorem exec_epjorAtomicFadd (p : Fin 9) (t : Txn) : exec (.epjorAtomicFadd p t) s = execEpjorAtomicFadd p t s := rfl
@[simp] theorem exec_epjorAtomicCas (p : Fin 9) (t : Txn) : exec (.epjorAtomicCas p t) s = execEpjorAtomicCas p t s := rfl
@[simp] theorem exec_epjorSyncBarrier (p : Fin 9) (t : Txn) : exec (.epjorSyncBarrier p t) s = execEpjorSyncBarrier p t s := rfl
@[simp] theorem exec_epjorSyncStepArrive (p : Fin 9) (t : Txn) :
    exec (.epjorSyncStepArrive p t) s = execEpjorSyncStepArrive p t s := rfl
@[simp] theorem exec_epjorDoorbell (p : Fin 9) (t : Txn) : exec (.epjorDoorbell p t) s = execEpjorDoorbell p t s := rfl
@[simp] theorem exec_epjorEvent (p : Fin 9) (t : Txn) : exec (.epjorEvent p t) s = execEpjorEvent p t s := rfl
@[simp] theorem exec_epjorAnswerReceive (p : Fin 8) (t : Txn) :
    exec (.epjorAnswerReceive p t) s = execEpjorAnswerReceive p t s := rfl
@[simp] theorem exec_epjorRspTimeout (p : Fin 8) (tag : BitVec 12) :
    exec (.epjorRspTimeout p tag) s = execEpjorRspTimeout p tag s := rfl
@[simp] theorem exec_tagQuarantineEnd (p : Fin 8) (tag : BitVec 12) :
    exec (.tagQuarantineEnd p tag) s = execTagQuarantineEnd p tag s := rfl
@[simp] theorem exec_epjorForward (p : Fin 9) (t : Txn) : exec (.epjorForward p t) s = execEpjorForward p t s := rfl
@[simp] theorem exec_bindWrite (path : Path) (p : Fin 8) (i : Fin 16) (v : BitVec 32) :
    exec (.bindWrite path p i v) s = execBindWrite path p i v s := rfl
@[simp] theorem exec_routeBlockWrite (p : Path) (bytes : List Byte) :
    exec (.routeBlockWrite p bytes) s = execRouteBlockWrite p bytes s := rfl
@[simp] theorem exec_groupCreate (q : QCtx) (d : List Byte) : exec (.groupCreate q d) s = execGroupCreate q d s := rfl
@[simp] theorem exec_groupDestroy (q : QCtx) (d : List Byte) : exec (.groupDestroy q d) s = execGroupDestroy q d s := rfl
@[simp] theorem exec_groupRegistered (k : Fin 4096) : exec (.groupRegistered k) s = execGroupRegistered k s := rfl
@[simp] theorem exec_groupCreateTimeout (k : Fin 4096) : exec (.groupCreateTimeout k) s = execGroupCreateTimeout k s := rfl
@[simp] theorem exec_allReduce (q : QCtx) (d : List Byte) : exec (.allReduce q d) s = execAllReduce q d s := rfl
@[simp] theorem exec_reduceScatter (q : QCtx) (d : List Byte) : exec (.reduceScatter q d) s = execReduceScatter q d s := rfl
@[simp] theorem exec_allGather (q : QCtx) (d : List Byte) : exec (.allGather q d) s = execAllGather q d s := rfl
@[simp] theorem exec_broadcast (q : QCtx) (d : List Byte) : exec (.broadcast q d) s = execBroadcast q d s := rfl
@[simp] theorem exec_allToAll (q : QCtx) (d : List Byte) : exec (.allToAll q d) s = execAllToAll q d s := rfl
@[simp] theorem exec_callBarrier (q : QCtx) (d : List Byte) : exec (.callBarrier q d) s = execCallBarrier q d s := rfl
@[simp] theorem exec_callArrive (q : QCtx) (d : List Byte) : exec (.callArrive q d) s = execCallArrive q d s := rfl
@[simp] theorem exec_collCallStart (k : Fin 4096) (c : BitVec 32) : exec (.collCallStart k c) s = execCollCallStart k c s := rfl
@[simp] theorem exec_collCallComplete (k : Fin 4096) (c : BitVec 32) :
    exec (.collCallComplete k c) s = execCollCallComplete k c s := rfl
@[simp] theorem exec_collCallTimeout (k : Fin 4096) (c : BitVec 32) :
    exec (.collCallTimeout k c) s = execCollCallTimeout k c s := rfl
@[simp] theorem exec_collPktArrive (p : CollPkt) : exec (.collPktArrive p) s = execCollPktArrive p s := rfl
@[simp] theorem exec_collPktRelease (p : CollPkt) : exec (.collPktRelease p) s = execCollPktRelease p s := rfl
@[simp] theorem exec_collPktFail (p : CollPkt) : exec (.collPktFail p) s = execCollPktFail p s := rfl
@[simp] theorem exec_collPktExpbytes (p : CollPkt) : exec (.collPktExpbytes p) s = execCollPktExpbytes p s := rfl
@[simp] theorem exec_collPktPartial (p : CollPkt) : exec (.collPktPartial p) s = execCollPktPartial p s := rfl
@[simp] theorem exec_collPktLanes (p : CollPkt) : exec (.collPktLanes p) s = execCollPktLanes p s := rfl
@[simp] theorem exec_collPktResult (p : CollPkt) : exec (.collPktResult p) s = execCollPktResult p s := rfl
@[simp] theorem exec_collPktIncomplete (p : CollPkt) : exec (.collPktIncomplete p) s = execCollPktIncomplete p s := rfl
@[simp] theorem exec_collPktFailmark (p : CollPkt) : exec (.collPktFailmark p) s = execCollPktFailmark p s := rfl
@[simp] theorem exec_barrierEpochComplete (k : Fin 4096) : exec (.barrierEpochComplete k) s = execBarrierEpochComplete k s := rfl
@[simp] theorem exec_barrierEpochTimeout (k : Fin 4096) : exec (.barrierEpochTimeout k) s = execBarrierEpochTimeout k s := rfl
@[simp] theorem exec_stepArrivalRaise (k : Fin 4096) : exec (.stepArrivalRaise k) s = execStepArrivalRaise k s := rfl
@[simp] theorem exec_stepRelease (k : Fin 4096) : exec (.stepRelease k) s = execStepRelease k s := rfl
@[simp] theorem exec_ethFrameReceive (l : Fin 32) (frame : List Byte) (corrected uncorrected now : Nat) :
    exec (.ethFrameReceive l frame corrected uncorrected now) s = execEthFrameReceive l frame corrected uncorrected now s := rfl
@[simp] theorem exec_exceptionPacketServe (now : Nat) : exec (.exceptionPacketServe now) s = execExceptionPacketServe now s := rfl
@[simp] theorem exec_ethLinkUp (l : Fin 32) : exec (.ethLinkUp l) s = execEthLinkUp l s := rfl
@[simp] theorem exec_ethLinkDown (l : Fin 32) : exec (.ethLinkDown l) s = execEthLinkDown l s := rfl
@[simp] theorem exec_clsWrite (p : Path) (bytes : List Byte) : exec (.clsWrite p bytes) s = execClsWrite p bytes s := rfl
@[simp] theorem exec_clsValid (p : Path) (v : BitVec 32) : exec (.clsValid p v) s = execClsValid p v s := rfl
@[simp] theorem exec_spread (sl : Fin 512) (d : List Byte) : exec (.spread sl d) s = execSpread sl d s := rfl
@[simp] theorem exec_connOpen (q : QCtx) (d : List Byte) (now : Nat) : exec (.connOpen q d now) s = execConnOpen q d now s := rfl
@[simp] theorem exec_connListen (q : QCtx) (d : List Byte) (now : Nat) :
    exec (.connListen q d now) s = execConnListen q d now s := rfl
@[simp] theorem exec_connClose (q : QCtx) (d : List Byte) (now : Nat) :
    exec (.connClose q d now) s = execConnClose q d now s := rfl
@[simp] theorem exec_connReset (q : QCtx) (d : List Byte) (now : Nat) :
    exec (.connReset q d now) s = execConnReset q d now s := rfl
@[simp] theorem exec_connQuery (q : QCtx) (d : List Byte) : exec (.connQuery q d) s = execConnQuery q d s := rfl
@[simp] theorem exec_connModify (q : QCtx) (d : List Byte) : exec (.connModify q d) s = execConnModify q d s := rfl
@[simp] theorem exec_connectRetry (k : Fin 131072) (now : Nat) : exec (.connectRetry k now) s = execConnectRetry k now s := rfl
@[simp] theorem exec_closingTimeout (k : Fin 131072) : exec (.closingTimeout k) s = execClosingTimeout k s := rfl
@[simp] theorem exec_xpConnect (p : XpPkt) (now : Nat) : exec (.xpConnect p now) s = execXpConnect p now s := rfl
@[simp] theorem exec_xpAccept (p : XpPkt) : exec (.xpAccept p) s = execXpAccept p s := rfl
@[simp] theorem exec_xpRefuse (p : XpPkt) (now : Nat) : exec (.xpRefuse p now) s = execXpRefuse p now s := rfl
@[simp] theorem exec_xpResetPacket (p : XpPkt) (now : Nat) : exec (.xpResetPacket p now) s = execXpResetPacket p now s := rfl
@[simp] theorem exec_xpClose (p : XpPkt) (now : Nat) : exec (.xpClose p now) s = execXpClose p now s := rfl
@[simp] theorem exec_xpWrite (p : XpPkt) (now : Nat) : exec (.xpWrite p now) s = execXpWrite p now s := rfl
@[simp] theorem exec_xpReadReq (p : XpPkt) (now : Nat) : exec (.xpReadReq p now) s = execXpReadReq p now s := rfl
@[simp] theorem exec_xpReadRsp (p : XpPkt) (now : Nat) : exec (.xpReadRsp p now) s = execXpReadRsp p now s := rfl
@[simp] theorem exec_xpAtomic (p : XpPkt) (now : Nat) : exec (.xpAtomic p now) s = execXpAtomic p now s := rfl
@[simp] theorem exec_xpAtomicRsp (p : XpPkt) (now : Nat) : exec (.xpAtomicRsp p now) s = execXpAtomicRsp p now s := rfl
@[simp] theorem exec_xpSend (p : XpPkt) (now : Nat) : exec (.xpSend p now) s = execXpSend p now s := rfl
@[simp] theorem exec_xpEpjor (p : XpPkt) (now : Nat) : exec (.xpEpjor p now) s = execXpEpjor p now s := rfl
@[simp] theorem exec_xpAck (p : XpPkt) (now : Nat) : exec (.xpAck p now) s = execXpAck p now s := rfl
@[simp] theorem exec_xpErrRsp (p : XpPkt) (now : Nat) : exec (.xpErrRsp p now) s = execXpErrRsp p now s := rfl
@[simp] theorem exec_ackDelayExpire (k : Fin 131072) (now : Nat) :
    exec (.ackDelayExpire k now) s = execAckDelayExpire k now s := rfl
@[simp] theorem exec_reorderExpire (k : Fin 131072) (now : Nat) : exec (.reorderExpire k now) s = execReorderExpire k now s := rfl
@[simp] theorem exec_rtoExpire (k : Fin 131072) (now : Nat) : exec (.rtoExpire k now) s = execRtoExpire k now s := rfl
@[simp] theorem exec_aiIntervalExpire (k : Fin 131072) : exec (.aiIntervalExpire k) s = execAiIntervalExpire k s := rfl
@[simp] theorem exec_tunnelIdleExpire (k : Fin 131072) (now : Nat) :
    exec (.tunnelIdleExpire k now) s = execTunnelIdleExpire k now s := rfl
@[simp] theorem exec_wrWrite (q : QCtx) (d : List Byte) : exec (.wrWrite q d) s = execWrWrite q d s := rfl
@[simp] theorem exec_wrRead (q : QCtx) (d : List Byte) : exec (.wrRead q d) s = execWrRead q d s := rfl
@[simp] theorem exec_wrAtomicFadd (q : QCtx) (d : List Byte) : exec (.wrAtomicFadd q d) s = execWrAtomicFadd q d s := rfl
@[simp] theorem exec_wrAtomicCas (q : QCtx) (d : List Byte) : exec (.wrAtomicCas q d) s = execWrAtomicCas q d s := rfl
@[simp] theorem exec_wrSend (q : QCtx) (d : List Byte) : exec (.wrSend q d) s = execWrSend q d s := rfl
@[simp] theorem exec_recvPost (q : QCtx) (addr : BitVec 64) (len : BitVec 32) :
    exec (.recvPost q addr len) s = execRecvPost q addr len s := rfl
@[simp] theorem exec_wrComplete (k : Fin 131072) (now : Nat) : exec (.wrComplete k now) s = execWrComplete k now s := rfl
@[simp] theorem exec_xpPacketEnqueue (k : Fin 131072) (now : Nat) :
    exec (.xpPacketEnqueue k now) s = execXpPacketEnqueue k now s := rfl
@[simp] theorem exec_txOpportunity (l : Fin 32) (now : Nat) : exec (.txOpportunity l now) s = execTxOpportunity l now s := rfl
@[simp] theorem exec_qConfigWrite (p : Path) (bytes : List Byte) :
    exec (.qConfigWrite p bytes) s = execQConfigWrite p bytes s := rfl
@[simp] theorem exec_ssConfigWrite (p : Path) (bytes : List Byte) :
    exec (.ssConfigWrite p bytes) s = execSsConfigWrite p bytes s := rfl
@[simp] theorem exec_polConfigWrite (p : Path) (bytes : List Byte) :
    exec (.polConfigWrite p bytes) s = execPolConfigWrite p bytes s := rfl
@[simp] theorem exec_queueSample (now : Nat) : exec (.queueSample now) s = execQueueSample now s := rfl
@[simp] theorem exec_sampleWindowEnd : exec .sampleWindowEnd s = execSampleWindowEnd s := rfl
@[simp] theorem exec_ckJob (q : QCtx) (d : List Byte) : exec (.ckJob q d) s = execCkJob q d s := rfl
@[simp] theorem exec_ckRegion (q : QCtx) (d : List Byte) : exec (.ckRegion q d) s = execCkRegion q d s := rfl
@[simp] theorem exec_ckUnregion (q : QCtx) (d : List Byte) : exec (.ckUnregion q d) s = execCkUnregion q d s := rfl
@[simp] theorem exec_ckRestore (q : QCtx) (d : List Byte) : exec (.ckRestore q d) s = execCkRestore q d s := rfl
@[simp] theorem exec_ckRestoreComplete (sl : Fin 512) (answers : List HolderCopy) :
    exec (.ckRestoreComplete sl answers) s = execCkRestoreComplete sl answers s := rfl
@[simp] theorem exec_ckExport (q : QCtx) (d : List Byte) (host : Bool) (answers : List HolderCopy) :
    exec (.ckExport q d host answers) s = execCkExport q d host answers s := rfl
@[simp] theorem exec_ckResume (q : QCtx) (d : List Byte) : exec (.ckResume q d) s = execCkResume q d s := rfl
@[simp] theorem exec_ckLeave (q : QCtx) (d : List Byte) : exec (.ckLeave q d) s = execCkLeave q d s := rfl
@[simp] theorem exec_ckQuery (q : QCtx) (d : List Byte) (host : Bool) : exec (.ckQuery q d host) s = execCkQuery q d host s := rfl
@[simp] theorem exec_noticeWrite (p : Path) (bytes : List Byte) : exec (.noticeWrite p bytes) s = execNoticeWrite p bytes s := rfl
@[simp] theorem exec_adminNotice (d : List Byte) (b : Option (List Byte)) :
    exec (.adminNotice d b) s = execAdminNotice d b s := rfl
@[simp] theorem exec_cohortHeartbeat (b : List Byte) : exec (.cohortHeartbeat b) s = execCohortHeartbeat b s := rfl
@[simp] theorem exec_cohortNotice (b : List Byte) : exec (.cohortNotice b) s = execCohortNotice b s := rfl
@[simp] theorem exec_cohortNoticeAck (b : List Byte) : exec (.cohortNoticeAck b) s = execCohortNoticeAck b s := rfl
@[simp] theorem exec_cohortMark (b : List Byte) : exec (.cohortMark b) s = execCohortMark b s := rfl
@[simp] theorem exec_cohortMarkAck (b : List Byte) : exec (.cohortMarkAck b) s = execCohortMarkAck b s := rfl
@[simp] theorem exec_cohortCopied (b : List Byte) : exec (.cohortCopied b) s = execCohortCopied b s := rfl
@[simp] theorem exec_cohortCommit (b : List Byte) : exec (.cohortCommit b) s = execCohortCommit b s := rfl
@[simp] theorem exec_cohortSecured (b : List Byte) : exec (.cohortSecured b) s = execCohortSecured b s := rfl
@[simp] theorem exec_cohortSecuredAll (b : List Byte) : exec (.cohortSecuredAll b) s = execCohortSecuredAll b s := rfl
@[simp] theorem exec_cohortCensus (b : List Byte) : exec (.cohortCensus b) s = execCohortCensus b s := rfl
@[simp] theorem exec_cohortFail (b : List Byte) : exec (.cohortFail b) s = execCohortFail b s := rfl
@[simp] theorem exec_heartbeatSend (sl : Fin 512) : exec (.heartbeatSend sl) s = execHeartbeatSend sl s := rfl
@[simp] theorem exec_neighbourSilent (sl : Fin 512) (node : Nat) :
    exec (.neighbourSilent sl node) s = execNeighbourSilent sl node s := rfl
@[simp] theorem exec_censusQuietExpire (sl : Fin 512) : exec (.censusQuietExpire sl) s = execCensusQuietExpire sl s := rfl
@[simp] theorem exec_buddyCopyStart (sl : Fin 512) : exec (.buddyCopyStart sl) s = execBuddyCopyStart sl s := rfl
@[simp] theorem exec_buddyCopyReceived (sl : Fin 512) : exec (.buddyCopyReceived sl) s = execBuddyCopyReceived sl s := rfl
@[simp] theorem exec_flashDrainFlushed (sl : Fin 512) : exec (.flashDrainFlushed sl) s = execFlashDrainFlushed sl s := rfl
@[simp] theorem exec_unfenceWrite (p : Path) (v : BitVec 16) : exec (.unfenceWrite p v) s = execUnfenceWrite p v s := rfl
@[simp] theorem exec_releaseJobWrite (p : Path) (bytes : List Byte) :
    exec (.releaseJobWrite p bytes) s = execReleaseJobWrite p bytes s := rfl
@[simp] theorem exec_storWrite (q : QCtx) (d : List Byte) (host : Option (List Byte)) :
    exec (.storWrite q d host) s = execStorWrite q d host s := rfl
@[simp] theorem exec_storWriteComplete (id : Nat) : exec (.storWriteComplete id) s = execStorWriteComplete id s := rfl
@[simp] theorem exec_storRead (q : QCtx) (d : List Byte) (host : Bool) :
    exec (.storRead q d host) s = execStorRead q d host s := rfl
@[simp] theorem exec_storReadComplete (id : Nat) (bad : List Nat) (corrected : List (Fin 64 × Nat)) (retries : List (Fin 16 × Nat)) :
    exec (.storReadComplete id bad corrected retries) s = execStorReadComplete id bad corrected retries s := rfl
@[simp] theorem exec_storFlush (q : QCtx) (d : List Byte) : exec (.storFlush q d) s = execStorFlush q d s := rfl
@[simp] theorem exec_storTrim (q : QCtx) (d : List Byte) : exec (.storTrim q d) s = execStorTrim q d s := rfl
@[simp] theorem exec_storQuery (q : QCtx) (d : List Byte) (host : Bool) :
    exec (.storQuery q d host) s = execStorQuery q d host s := rfl
@[simp] theorem exec_bufferUnitProgrammed (unit page : Nat) (ok : Bool) (verify : Option Bool) :
    exec (.bufferUnitProgrammed unit page ok verify) s = execBufferUnitProgrammed unit page ok verify s := rfl
@[simp] theorem exec_journalTimer : exec .journalTimer s = execJournalTimer s := rfl
@[simp] theorem exec_journalPersisted (ok : Bool) : exec (.journalPersisted ok) s = execJournalPersisted ok s := rfl
@[simp] theorem exec_mapSnapshot : exec .mapSnapshot s = execMapSnapshot s := rfl
@[simp] theorem exec_gcUnitRelocate (unit page : Nat) (ok : Bool) :
    exec (.gcUnitRelocate unit page ok) s = execGcUnitRelocate unit page ok s := rfl
@[simp] theorem exec_eraseComplete (blk : Nat) (ok : Bool) : exec (.eraseComplete blk ok) s = execEraseComplete blk ok s := rfl
@[simp] theorem exec_flashMount : exec .flashMount s = execFlashMount s := rfl
@[simp] theorem exec_flashMountComplete (ok : Bool) (ms : Nat) (replayed : Bool) (torn : List Nat) (mix : List (Nat × List Byte)) :
    exec (.flashMountComplete ok ms replayed torn mix) s = execFlashMountComplete ok ms replayed torn mix s := rfl
@[simp] theorem exec_columnScan (col : Nat) (stuck : List Nat) (opposite : Bool) (dest : List Nat) :
    exec (.columnScan col stuck opposite dest) s = execColumnScan col stuck opposite dest s := rfl
@[simp] theorem exec_readDisturbScan (blk : Nat) (weak : Bool) (dest : List Nat) :
    exec (.readDisturbScan blk weak dest) s = execReadDisturbScan blk weak dest s := rfl
@[simp] theorem exec_wearLevel (units dest : List Nat) : exec (.wearLevel units dest) s = execWearLevel units dest s := rfl
@[simp] theorem exec_mapRebuild (seg : Option Nat) (lost : List Nat) :
    exec (.mapRebuild seg lost) s = execMapRebuild seg lost s := rfl
@[simp] theorem exec_volConfigWrite (p : Path) (bytes : List Byte) :
    exec (.volConfigWrite p bytes) s = execVolConfigWrite p bytes s := rfl
@[simp] theorem exec_kvSpaceWrite (p : Path) (v : BitVec 64) : exec (.kvSpaceWrite p v) s = execKvSpaceWrite p v s := rfl
@[simp] theorem exec_ckptSpaceWrite (p : Path) (v : BitVec 64) : exec (.ckptSpaceWrite p v) s = execCkptSpaceWrite p v s := rfl
@[simp] theorem exec_pcieLinkTrained (rate : BitVec 8) (width : BitVec 5) (flit : Bool) :
    exec (.pcieLinkTrained rate width flit) s = execPcieLinkTrained rate width flit s := rfl
@[simp] theorem exec_pcieHotReset : exec .pcieHotReset s = execPcieHotReset s := rfl
@[simp] theorem exec_pcieLinkDown : exec .pcieLinkDown s = execPcieLinkDown s := rfl
@[simp] theorem exec_flrPf0 : exec .flrPf0 s = execFlrPf0 s := rfl
@[simp] theorem exec_flrPf1 : exec .flrPf1 s = execFlrPf1 s := rfl
@[simp] theorem exec_atsInvalidation (pasid : BitVec 20) (vpage : BitVec 52) :
    exec (.atsInvalidation pasid vpage) s = execAtsInvalidation pasid vpage s := rfl
@[simp] theorem exec_aspmL1Entry (sub : Fin 3) : exec (.aspmL1Entry sub) s = execAspmL1Entry sub s := rfl
@[simp] theorem exec_l0pNarrow : exec .l0pNarrow s = execL0pNarrow s := rfl
@[simp] theorem exec_l0pWiden : exec .l0pWiden s = execL0pWiden s := rfl
@[simp] theorem exec_msixModeChange (pf1 msix intxDisable fnMask : Bool) (masked : List Nat) :
    exec (.msixModeChange pf1 msix intxDisable fnMask masked) s = execMsixModeChange pf1 msix intxDisable fnMask masked s := rfl
@[simp] theorem exec_steerPendingClear (sl : Fin 512) (i : Fin 256) :
    exec (.steerPendingClear sl i) s = execSteerPendingClear sl i s := rfl
@[simp] theorem exec_steerModExpire (sl : Fin 512) (i : Fin 256) :
    exec (.steerModExpire sl i) s = execSteerModExpire sl i s := rfl
@[simp] theorem exec_sliceCreate (d : List Byte) (q : Option (List Byte)) :
    exec (.sliceCreate d q) s = execSliceCreate d q s := rfl
@[simp] theorem exec_sliceDestroy (d : List Byte) : exec (.sliceDestroy d) s = execSliceDestroy d s := rfl
@[simp] theorem exec_map (d : List Byte) : exec (.map d) s = execMap d s := rfl
@[simp] theorem exec_unmap (d : List Byte) : exec (.unmap d) s = execUnmap d s := rfl
@[simp] theorem exec_pasidBind (d : List Byte) : exec (.pasidBind d) s = execPasidBind d s := rfl
@[simp] theorem exec_pasidUnbind (d : List Byte) : exec (.pasidUnbind d) s = execPasidUnbind d s := rfl
@[simp] theorem exec_freeze (d : List Byte) : exec (.freeze d) s = execFreeze d s := rfl
@[simp] theorem exec_sliceFrozen (sl : Fin 512) : exec (.sliceFrozen sl) s = execSliceFrozen sl s := rfl
@[simp] theorem exec_thaw (d : List Byte) : exec (.thaw d) s = execThaw d s := rfl
@[simp] theorem exec_save (d : List Byte) (blobId : BitVec 64) (reach : Bool) :
    exec (.save d blobId reach) s = execSave d blobId reach s := rfl
@[simp] theorem exec_restore (d : List Byte) (bytes : Option (List Byte)) :
    exec (.restore d bytes) s = execRestore d bytes s := rfl
@[simp] theorem exec_chanNotify (d : List Byte) : exec (.chanNotify d) s = execChanNotify d s := rfl
@[simp] theorem exec_sliceQuery (d : List Byte) (reach : Bool) : exec (.sliceQuery d reach) s = execSliceQuery d reach s := rfl
@[simp] theorem exec_chanDbWrite (sl : Fin 512) (v : BitVec 32) : exec (.chanDbWrite sl v) s = execChanDbWrite sl v s := rfl
@[simp] theorem exec_hello (sl : Fin 512) (d : List Byte) : exec (.hello sl d) s = execHello sl d s := rfl
@[simp] theorem exec_queueCreate (sl : Fin 512) (d : List Byte) : exec (.queueCreate sl d) s = execQueueCreate sl d s := rfl
@[simp] theorem exec_queueDestroy (sl : Fin 512) (d : List Byte) : exec (.queueDestroy sl d) s = execQueueDestroy sl d s := rfl
@[simp] theorem exec_queueReset (sl : Fin 512) (d : List Byte) : exec (.queueReset sl d) s = execQueueReset sl d s := rfl
@[simp] theorem exec_keyQuery (sl : Fin 512) (d : List Byte) : exec (.keyQuery sl d) s = execKeyQuery sl d s := rfl
@[simp] theorem exec_klaunch (sl : Fin 512) (d : List Byte) (reach : Bool) :
    exec (.klaunch sl d reach) s = execKlaunch sl d reach s := rfl
@[simp] theorem exec_klaunchStart (n : Fin 16) (image : List Byte) :
    exec (.klaunchStart n image) s = execKlaunchStart n image s := rfl
@[simp] theorem exec_queueDoorbell (sl : Fin 512) (slot : Fin 1024) (v : BitVec 32) :
    exec (.queueDoorbell sl slot v) s = execQueueDoorbell sl slot v s := rfl
@[simp] theorem exec_switchRequestWrite (p : Path) (v : BitVec 8) :
    exec (.switchRequestWrite p v) s = execSwitchRequestWrite p v s := rfl
@[simp] theorem exec_nextSecretWrite (p : Path) (bytes : List Byte) :
    exec (.nextSecretWrite p bytes) s = execNextSecretWrite p bytes s := rfl
@[simp] theorem exec_nextOpkWrite (p : Path) (bytes : List Byte) :
    exec (.nextOpkWrite p bytes) s = execNextOpkWrite p bytes s := rfl
@[simp] theorem exec_drainStageEnd (us : BitVec 32) : exec (.drainStageEnd us) s = execDrainStageEnd us s := rfl
@[simp] theorem exec_clearStageEnd (us : BitVec 32) : exec (.clearStageEnd us) s = execClearStageEnd us s := rfl
@[simp] theorem exec_zeroStageEnd (us : BitVec 32) : exec (.zeroStageEnd us) s = execZeroStageEnd us s := rfl
@[simp] theorem exec_mediaKeyCommit (us : BitVec 32) (mk : BitVec 512) :
    exec (.mediaKeyCommit us mk) s = execMediaKeyCommit us mk s := rfl
@[simp] theorem exec_firmwareReverifyEnd (us : BitVec 32) : exec (.firmwareReverifyEnd us) s = execFirmwareReverifyEnd us s := rfl
@[simp] theorem exec_keySlotInstall (sl : Fin 512) (j : Fin 256) :
    exec (.keySlotInstall sl j) s = execKeySlotInstall sl j s := rfl
@[simp] theorem exec_keySlotErase (sl : Fin 512) (j : Fin 256) : exec (.keySlotErase sl j) s = execKeySlotErase sl j s := rfl
@[simp] theorem exec_rngHealthFail : exec .rngHealthFail s = execRngHealthFail s := rfl
@[simp] theorem exec_admEnable : exec .admEnable s = execAdmEnable s := rfl
@[simp] theorem exec_admReset : exec .admReset s = execAdmReset s := rfl
@[simp] theorem exec_adminSqDoorbell (tail : BitVec 32) : exec (.adminSqDoorbell tail) s = execAdminSqDoorbell tail s := rfl
@[simp] theorem exec_adminCqHeadWrite (head : BitVec 32) : exec (.adminCqHeadWrite head) s = execAdminCqHeadWrite head s := rfl
@[simp] theorem exec_identify (d : List Byte) (reach : Bool) : exec (.identify d reach) s = execIdentify d reach s := rfl
@[simp] theorem exec_ctrlRing (d : List Byte) (q : Option (List Byte)) : exec (.ctrlRing d q) s = execCtrlRing d q s := rfl
@[simp] theorem exec_stageBegin (p : Path) : exec (.stageBegin p) s = execStageBegin p s := rfl
@[simp] theorem exec_stageCommit (p : Path) : exec (.stageCommit p) s = execStageCommit p s := rfl
@[simp] theorem exec_stageAbort (p : Path) : exec (.stageAbort p) s = execStageAbort p s := rfl
@[simp] theorem exec_stageActivateReset (p : Path) : exec (.stageActivateReset p) s = execStageActivateReset p s := rfl
@[simp] theorem exec_stageActivateAny (p : Path) : exec (.stageActivateAny p) s = execStageActivateAny p s := rfl
@[simp] theorem exec_stageCancel (p : Path) : exec (.stageCancel p) s = execStageCancel p s := rfl
@[simp] theorem exec_stageDataWrite (p : Path) (bytes : List Byte) :
    exec (.stageDataWrite p bytes) s = execStageDataWrite p bytes s := rfl
@[simp] theorem exec_stageEraseDone : exec .stageEraseDone s = execStageEraseDone s := rfl
@[simp] theorem exec_stageVerifyDone (chk : BankCheck) : exec (.stageVerifyDone chk) s = execStageVerifyDone chk s := rfl
@[simp] theorem exec_svnAdvanceWrite (p : Path) (v : BitVec 8) : exec (.svnAdvanceWrite p v) s = execSvnAdvanceWrite p v s := rfl
@[simp] theorem exec_mgmtCoreStop : exec .mgmtCoreStop s = execMgmtCoreStop s := rfl
@[simp] theorem exec_capWrite (p : Path) (v : BitVec 16) : exec (.capWrite p v) s = execCapWrite p v s := rfl
@[simp] theorem exec_capPeriod (pr : Predict) : exec (.capPeriod pr) s = execCapPeriod pr s := rfl
@[simp] theorem exec_railReading (r : List (Option (BitVec 16 × BitVec 16))) :
    exec (.railReading r) s = execRailReading r s := rfl
@[simp] theorem exec_dutyWindowStart : exec .dutyWindowStart s = execDutyWindowStart s := rfl
@[simp] theorem exec_thermalSample (n : Fin 26) (t : Int) : exec (.thermalSample n t) s = execThermalSample n t s := rfl
@[simp] theorem exec_eventTally (src : Fin 26) (pl : BitVec 50) (err : CsErr) :
    exec (.eventTally src pl err) s = execEventTally src pl err s := rfl
@[simp] theorem exec_eventNotice (src : Fin 26) (pl : BitVec 50) (err : CsErr) (a : NoticeData) :
    exec (.eventNotice src pl err a) s = execEventNotice src pl err a s := rfl
@[simp] theorem exec_histSample : exec .histSample s = execHistSample s := rfl
@[simp] theorem exec_intervalEnd : exec .intervalEnd s = execIntervalEnd s := rfl
@[simp] theorem exec_recordWrite : exec .recordWrite s = execRecordWrite s := rfl
@[simp] theorem exec_recorderFreezeWrite (p : Path) (v : BitVec 8) :
    exec (.recorderFreezeWrite p v) s = execRecorderFreezeWrite p v s := rfl
@[simp] theorem exec_freezeMaxExpire : exec .freezeMaxExpire s = execFreezeMaxExpire s := rfl
@[simp] theorem exec_logClearWrite (p : Path) (v : BitVec 8) : exec (.logClearWrite p v) s = execLogClearWrite p v s := rfl
@[simp] theorem exec_logClearDone : exec .logClearDone s = execLogClearDone s := rfl
@[simp] theorem exec_recSelectWrite (p : Path) (v : BitVec 32) : exec (.recSelectWrite p v) s = execRecSelectWrite p v s := rfl
@[simp] theorem exec_sliceCounterLatch : exec .sliceCounterLatch s = execSliceCounterLatch s := rfl
@[simp] theorem exec_gloveCounterWrite (sl : Fin 512) (i : Fin 512) (v : BitVec 64) :
    exec (.gloveCounterWrite sl i v) s = execGloveCounterWrite sl i v s := rfl
@[simp] theorem exec_pwrOkRise : exec .pwrOkRise s = execPwrOkRise s := rfl
@[simp] theorem exec_perstNDeemedRelease (pins : BitVec 4) :
    exec (.perstNDeemedRelease pins) s = execPerstNDeemedRelease pins s := rfl
@[simp] theorem exec_railToleranceLoss : exec .railToleranceLoss s = execRailToleranceLoss s := rfl
@[simp] theorem exec_sidebandBiasLoss : exec .sidebandBiasLoss s = execSidebandBiasLoss s := rfl
@[simp] theorem exec_aspmL1Exit : exec .aspmL1Exit s = execAspmL1Exit s := rfl
@[simp] theorem exec_hostCompletionReceive (id : Nat) (ok : Bool) (head : BitVec 32) :
    exec (.hostCompletionReceive id ok head) s = execHostCompletionReceive id ok head s := rfl
@[simp] theorem exec_hostCompletionTimeout (id : Nat) : exec (.hostCompletionTimeout id) s = execHostCompletionTimeout id s := rfl
@[simp] theorem exec_sliceDestroyComplete (sl : Fin 512) :
    exec (.sliceDestroyComplete sl) s = execSliceDestroyComplete sl s := rfl

end Sys2Proof.Machine
end

