-- ==== Sys2Proof/Laws/Itette.lean ====
section
/-!
SUPPORT. Sequencers: what one instruction leaves elsewhere, the state in which an instruction that issues runs, and what
general registers read as.
-/
namespace Sys2Proof.Machine

/-- A sequencer reads as it was set, and every other one as before. -/
theorem State.seqr_setSeqr (s : State) (q : Nat) (f : Seqr → Seqr) (k : Nat) :
    (s.setSeqr q f).seqr k = if k = q then f (s.seqr q) else s.seqr k := by
  simp [State.seqr, State.setSeqr, sget_smod]

@[simp] theorem State.seqr_setSeqr_same (s : State) (q : Nat) (f : Seqr → Seqr) : (s.setSeqr q f).seqr q = f (s.seqr q) := by
  simp [State.seqr_setSeqr]

/-- An instruction that issues (`State.issues`) runs its body in the state in which the program counter and `CYCLE` have
advanced, and closes what the body answers. -/
theorem State.instr_issues {s : State} {h : Hdr} {gs ps} (hi : s.issues h gs ps) (w : Nat) (ext : Bool) (cost : Nat) (body : Ctx → State → Fin1) :
    s.instr h w ext false gs ps cost body =
      let t := s.setSeqr h.seq.val (fun _ => (s.seqr h.seq.val).advance h cost)
      (body ⟨h.seq.val, (s.seqr h.seq.val).pc, (s.seqr h.seq.val).pc + 4, none⟩ t).close s t h.seq.val (s.seqr h.seq.val).pc := by
  have hz : (s.setSeqr h.seq.val (fun y => { y with cycle := y.cycle + h.stall.toNat + cost, pc := (s.seqr h.seq.val).pc + 4, pfx := none }))
     = s.setSeqr h.seq.val (fun _ => (s.seqr h.seq.val).advance h cost) := by
    have := hi.noPrefix
    simp only [State.setSeqr, smod, State.seqr] at *
    congr 2
    simp [Seqr.advance]; exact this.symm
  obtain ⟨h1, h2, h3, h4, h5⟩ := hi
  have hb : (isS h.seq.val && (gs.any (fun r => decide (16 ≤ r.toNat)) ||
    ps.any (fun p => decide (4 ≤ p.toNat)) || decide (4 ≤ h.guard.toNat % 8))) = false := by
    cases hs : isS h.seq.val
    · rfl
    · obtain ⟨a, b, c⟩ := h5 hs
      simp only [Bool.true_and, Bool.or_eq_false_iff, List.any_eq_false, decide_eq_true_eq, decide_eq_false_iff_not]
      exact ⟨⟨fun g hg => by have := b g hg; omega, fun g hg => by have := c g hg; omega⟩, by omega⟩
  have h4' : (gs.any fun r => (s.seqr h.seq.val).awaited.contains r.toNat) = false := by
    simp only [List.any_eq_false, List.contains_iff_mem]
    exact fun g hg => h4 g hg
  simp only [State.instr, h1, h2, hb, h4', Option.isSome_none, Bool.not_true, Bool.false_or, Bool.false_and, if_false, h3, Bool.false_eq_true]
  rw [hz]

/-- Setting a sequencer leaves everything else. -/
theorem State.onlySeqr_setSeqr (s : State) (q : Nat) (f : Seqr → Seqr) : OnlySeqr q s (s.setSeqr q f) :=
  ⟨rfl, fun k hk => by simp [State.seqr_setSeqr, hk]⟩
theorem OnlySeqr.trans {q s t u} (h1 : OnlySeqr q s t) (h2 : OnlySeqr q t u) : OnlySeqr q s u :=
  ⟨by rw [h2.rest, h1.rest], fun k hk => (h2.others k hk).trans (h1.others k hk)⟩

/-- Register arithmetic with two sources: the result in `RD`, and nothing else but the advance. -/
theorem State.alu_issues {s : State} {h : Hdr} {rd ra rb} (hi : s.issues h [rd, ra, rb] []) (m fn cost : Nat) (f : Word → Word → Word) :
   OnlySeqr h.seq.val s (s.alu h m fn rd ra rb false cost f) ∧ (s.alu h m fn rd ra rb false cost f).seqr h.seq.val =
     ((s.seqr h.seq.val).advance h cost).setGpr rd.toNat (f ((s.seqr h.seq.val).gpr ra.toNat) ((s.seqr h.seq.val).gpr rb.toNat)) := by
  rw [State.alu, State.instr_issues hi]
  refine ⟨(State.onlySeqr_setSeqr _ _ _).trans (State.onlySeqr_setSeqr _ _ _), ?_⟩
  simp only [Ctx.wr, Fin1.close, State.seqr_setSeqr_same]
  rfl

/-- A general register reads as it was set; g0 stays zero. -/
theorem Seqr.gpr_setGpr (z : Seqr) (r k : Nat) (v : Word) : (z.setGpr r v).gpr k = if k = r ∧ r ≠ 0 then v else z.gpr k := by
  unfold Seqr.setGpr Seqr.gpr
  by_cases h : r = 0
  · simp [h]
  · by_cases hk : k = 0
    · simp [hk]; grind
    · simp only [h, hk, if_false, look_put]; grind

end Sys2Proof.Machine
end

