-- ==== Sys2Proof/Laws/OpsFrame.lean ====
section
/-!
SUPPORT. What the shared operations leave as it was, field by field; and the frames of the operations over lists.
-/
namespace Sys2Proof.Machine

/-- Events to several slices. -/
theorem State.eventSlices_frame (s : State) (l : List Nat) (c a b d : Nat) : s.eventSlices l c a b d =
    { s with adm := (s.eventSlices l c a b d).adm, host := (s.eventSlices l c a b d).host, ports := (s.eventSlices l c a b d).ports
             mgiHold := (s.eventSlices l c a b d).mgiHold, sent := (s.eventSlices l c a b d).sent } := by
  have : ∀ (l : List Nat) (u : State), ∃ x y w v z, u.eventSlices l c a b d =
      { u with adm := x, host := y, ports := w, mgiHold := v, sent := z } := by
    intro l
    induction l with
    | nil => exact fun u => ⟨_, _, _, _, _, rfl⟩
    | cons n l ih =>
      intro u
      obtain ⟨x, y, w, v, z, h⟩ := ih (u.event (.slice n) c a b d)
      refine ⟨x, y, w, v, z, ?_⟩
      change (u.event (.slice n) c a b d).eventSlices l c a b d = _
      rw [h, State.event_frame]
  obtain ⟨x, y, w, v, z, h⟩ := this l s
  rw [h]

/-- Several function bits. -/
theorem State.setFns_frame (s : State) (bs : List Nat) (v : Bool) : s.setFns bs v =
    { s with mod := (s.setFns bs v).mod, adm := (s.setFns bs v).adm, host := (s.setFns bs v).host
             ports := (s.setFns bs v).ports, mgiHold := (s.setFns bs v).mgiHold, sent := (s.setFns bs v).sent } := by
  have : ∀ (l : List Nat) (u : State), ∃ w x y p q z, u.setFns l v =
      { u with mod := w, adm := x, host := y, ports := p, mgiHold := q, sent := z } := by
    intro l
    induction l with
    | nil => exact fun u => ⟨_, _, _, _, _, _, rfl⟩
    | cons n l ih =>
      intro u
      obtain ⟨w, x, y, p, q, z, h⟩ := ih (u.setFn n v)
      refine ⟨w, x, y, p, q, z, ?_⟩
      change (u.setFn n v).setFns l v = _
      rw [h, State.setFn_frame]
  obtain ⟨w, x, y, p, q, z, h⟩ := this bs s
  rw [h]

/-- An uncorrectable read counts in the dictionary and the slice's glove, and in the recorder's totals. -/
theorem State.countUe_frame (s : State) (a : Nat) :
    s.countUe a = { s with dict := (s.countUe a).dict, host := (s.countUe a).host, rcd := (s.countUe a).rcd } := by
  simp only [State.countUe]; split <;> rfl

/-- MEM_UE is an event to the operator and to the slice that maps the frame (R171). -/
theorem State.ueEvent_frame (s : State) (a : Nat) :
    s.ueEvent a = { s with adm := (s.ueEvent a).adm, host := (s.ueEvent a).host, ports := (s.ueEvent a).ports
                           mgiHold := (s.ueEvent a).mgiHold, sent := (s.ueEvent a).sent } := by
  simp only [State.ueEvent]
  split
  · rw [State.event_frame, State.event_frame]
  · rw [State.event_frame]

@[simp] theorem State.syncPf0_pins (s : State) : (s.syncPf0).pins = s.pins := by rw [State.syncPf0_frame]
@[simp] theorem State.syncPf0_mod (s : State) : (s.syncPf0).mod = s.mod := by rw [State.syncPf0_frame]
@[simp] theorem State.syncPf0_dict (s : State) : (s.syncPf0).dict = s.dict := by rw [State.syncPf0_frame]
@[simp] theorem State.syncPf0_adm (s : State) : (s.syncPf0).adm = s.adm := by rw [State.syncPf0_frame]
@[simp] theorem State.syncPf0_launches (s : State) : (s.syncPf0).launches = s.launches := by rw [State.syncPf0_frame]
@[simp] theorem State.syncPf0_keys (s : State) : (s.syncPf0).keys = s.keys := by rw [State.syncPf0_frame]
@[simp] theorem State.syncPf0_nor (s : State) : (s.syncPf0).nor = s.nor := by rw [State.syncPf0_frame]
@[simp] theorem State.syncPf0_firm (s : State) : (s.syncPf0).firm = s.firm := by rw [State.syncPf0_frame]
@[simp] theorem State.syncPf0_pow (s : State) : (s.syncPf0).pow = s.pow := by rw [State.syncPf0_frame]
@[simp] theorem State.syncPf0_rcd (s : State) : (s.syncPf0).rcd = s.rcd := by rw [State.syncPf0_frame]
@[simp] theorem State.syncPf0_mem (s : State) : (s.syncPf0).mem = s.mem := by rw [State.syncPf0_frame]
@[simp] theorem State.syncPf0_poison (s : State) : (s.syncPf0).poison = s.poison := by rw [State.syncPf0_frame]
@[simp] theorem State.syncPf0_mis (s : State) : (s.syncPf0).mis = s.mis := by rw [State.syncPf0_frame]
@[simp] theorem State.syncPf0_kv (s : State) : (s.syncPf0).kv = s.kv := by rw [State.syncPf0_frame]
@[simp] theorem State.syncPf0_flash (s : State) : (s.syncPf0).flash = s.flash := by rw [State.syncPf0_frame]
@[simp] theorem State.syncPf0_ports (s : State) : (s.syncPf0).ports = s.ports := by rw [State.syncPf0_frame]
@[simp] theorem State.syncPf0_net (s : State) : (s.syncPf0).net = s.net := by rw [State.syncPf0_frame]
@[simp] theorem State.syncPf0_groups (s : State) : (s.syncPf0).groups = s.groups := by rw [State.syncPf0_frame]
@[simp] theorem State.syncPf0_routes (s : State) : (s.syncPf0).routes = s.routes := by rw [State.syncPf0_frame]
@[simp] theorem State.syncPf0_attends (s : State) : (s.syncPf0).attends = s.attends := by rw [State.syncPf0_frame]
@[simp] theorem State.syncPf0_opt (s : State) : (s.syncPf0).opt = s.opt := by rw [State.syncPf0_frame]
@[simp] theorem State.syncPf0_ckpt (s : State) : (s.syncPf0).ckpt = s.ckpt := by rw [State.syncPf0_frame]
@[simp] theorem State.syncPf0_routeCache (s : State) :
    (s.syncPf0).routeCache = s.routeCache := by rw [State.syncPf0_frame]
@[simp] theorem State.syncPf0_spBad (s : State) : (s.syncPf0).spBad = s.spBad := by rw [State.syncPf0_frame]
@[simp] theorem State.syncPf0_seqs (s : State) : (s.syncPf0).seqs = s.seqs := by rw [State.syncPf0_frame]
@[simp] theorem State.syncPf0_share (s : State) : (s.syncPf0).share = s.share := by rw [State.syncPf0_frame]
@[simp] theorem State.syncPf0_mgiHold (s : State) : (s.syncPf0).mgiHold = s.mgiHold := by rw [State.syncPf0_frame]
@[simp] theorem State.syncPf0_fresh (s : State) : (s.syncPf0).fresh = s.fresh := by rw [State.syncPf0_frame]
@[simp] theorem State.syncPf0_pending (s : State) : (s.syncPf0).pending = s.pending := by rw [State.syncPf0_frame]
@[simp] theorem State.syncPf1_pins (s : State) : (s.syncPf1).pins = s.pins := by rw [State.syncPf1_frame]
@[simp] theorem State.syncPf1_mod (s : State) : (s.syncPf1).mod = s.mod := by rw [State.syncPf1_frame]
@[simp] theorem State.syncPf1_dict (s : State) : (s.syncPf1).dict = s.dict := by rw [State.syncPf1_frame]
@[simp] theorem State.syncPf1_adm (s : State) : (s.syncPf1).adm = s.adm := by rw [State.syncPf1_frame]
@[simp] theorem State.syncPf1_launches (s : State) : (s.syncPf1).launches = s.launches := by rw [State.syncPf1_frame]
@[simp] theorem State.syncPf1_keys (s : State) : (s.syncPf1).keys = s.keys := by rw [State.syncPf1_frame]
@[simp] theorem State.syncPf1_nor (s : State) : (s.syncPf1).nor = s.nor := by rw [State.syncPf1_frame]
@[simp] theorem State.syncPf1_firm (s : State) : (s.syncPf1).firm = s.firm := by rw [State.syncPf1_frame]
@[simp] theorem State.syncPf1_pow (s : State) : (s.syncPf1).pow = s.pow := by rw [State.syncPf1_frame]
@[simp] theorem State.syncPf1_rcd (s : State) : (s.syncPf1).rcd = s.rcd := by rw [State.syncPf1_frame]
@[simp] theorem State.syncPf1_mem (s : State) : (s.syncPf1).mem = s.mem := by rw [State.syncPf1_frame]
@[simp] theorem State.syncPf1_poison (s : State) : (s.syncPf1).poison = s.poison := by rw [State.syncPf1_frame]
@[simp] theorem State.syncPf1_mis (s : State) : (s.syncPf1).mis = s.mis := by rw [State.syncPf1_frame]
@[simp] theorem State.syncPf1_kv (s : State) : (s.syncPf1).kv = s.kv := by rw [State.syncPf1_frame]
@[simp] theorem State.syncPf1_flash (s : State) : (s.syncPf1).flash = s.flash := by rw [State.syncPf1_frame]
@[simp] theorem State.syncPf1_ports (s : State) : (s.syncPf1).ports = s.ports := by rw [State.syncPf1_frame]
@[simp] theorem State.syncPf1_net (s : State) : (s.syncPf1).net = s.net := by rw [State.syncPf1_frame]
@[simp] theorem State.syncPf1_groups (s : State) : (s.syncPf1).groups = s.groups := by rw [State.syncPf1_frame]
@[simp] theorem State.syncPf1_routes (s : State) : (s.syncPf1).routes = s.routes := by rw [State.syncPf1_frame]
@[simp] theorem State.syncPf1_attends (s : State) : (s.syncPf1).attends = s.attends := by rw [State.syncPf1_frame]
@[simp] theorem State.syncPf1_opt (s : State) : (s.syncPf1).opt = s.opt := by rw [State.syncPf1_frame]
@[simp] theorem State.syncPf1_ckpt (s : State) : (s.syncPf1).ckpt = s.ckpt := by rw [State.syncPf1_frame]
@[simp] theorem State.syncPf1_routeCache (s : State) :
    (s.syncPf1).routeCache = s.routeCache := by rw [State.syncPf1_frame]
@[simp] theorem State.syncPf1_spBad (s : State) : (s.syncPf1).spBad = s.spBad := by rw [State.syncPf1_frame]
@[simp] theorem State.syncPf1_seqs (s : State) : (s.syncPf1).seqs = s.seqs := by rw [State.syncPf1_frame]
@[simp] theorem State.syncPf1_share (s : State) : (s.syncPf1).share = s.share := by rw [State.syncPf1_frame]
@[simp] theorem State.syncPf1_mgiHold (s : State) : (s.syncPf1).mgiHold = s.mgiHold := by rw [State.syncPf1_frame]
@[simp] theorem State.syncPf1_fresh (s : State) : (s.syncPf1).fresh = s.fresh := by rw [State.syncPf1_frame]
@[simp] theorem State.syncPf1_pending (s : State) : (s.syncPf1).pending = s.pending := by rw [State.syncPf1_frame]
@[simp] theorem State.signalPf0_pins (s : State) (v : Nat) :
    (s.signalPf0 v).pins = s.pins := by rw [State.signalPf0_frame]
@[simp] theorem State.signalPf0_mod (s : State) (v : Nat) : (s.signalPf0 v).mod = s.mod := by rw [State.signalPf0_frame]
@[simp] theorem State.signalPf0_dict (s : State) (v : Nat) :
    (s.signalPf0 v).dict = s.dict := by rw [State.signalPf0_frame]
@[simp] theorem State.signalPf0_adm (s : State) (v : Nat) : (s.signalPf0 v).adm = s.adm := by rw [State.signalPf0_frame]
@[simp] theorem State.signalPf0_launches (s : State) (v : Nat) :
    (s.signalPf0 v).launches = s.launches := by rw [State.signalPf0_frame]
@[simp] theorem State.signalPf0_keys (s : State) (v : Nat) :
    (s.signalPf0 v).keys = s.keys := by rw [State.signalPf0_frame]
@[simp] theorem State.signalPf0_nor (s : State) (v : Nat) : (s.signalPf0 v).nor = s.nor := by rw [State.signalPf0_frame]
@[simp] theorem State.signalPf0_firm (s : State) (v : Nat) :
    (s.signalPf0 v).firm = s.firm := by rw [State.signalPf0_frame]
@[simp] theorem State.signalPf0_pow (s : State) (v : Nat) : (s.signalPf0 v).pow = s.pow := by rw [State.signalPf0_frame]
@[simp] theorem State.signalPf0_rcd (s : State) (v : Nat) : (s.signalPf0 v).rcd = s.rcd := by rw [State.signalPf0_frame]
@[simp] theorem State.signalPf0_mem (s : State) (v : Nat) : (s.signalPf0 v).mem = s.mem := by rw [State.signalPf0_frame]
@[simp] theorem State.signalPf0_poison (s : State) (v : Nat) :
    (s.signalPf0 v).poison = s.poison := by rw [State.signalPf0_frame]
@[simp] theorem State.signalPf0_mis (s : State) (v : Nat) : (s.signalPf0 v).mis = s.mis := by rw [State.signalPf0_frame]
@[simp] theorem State.signalPf0_kv (s : State) (v : Nat) : (s.signalPf0 v).kv = s.kv := by rw [State.signalPf0_frame]
@[simp] theorem State.signalPf0_flash (s : State) (v : Nat) :
    (s.signalPf0 v).flash = s.flash := by rw [State.signalPf0_frame]
@[simp] theorem State.signalPf0_ports (s : State) (v : Nat) :
    (s.signalPf0 v).ports = s.ports := by rw [State.signalPf0_frame]
@[simp] theorem State.signalPf0_net (s : State) (v : Nat) : (s.signalPf0 v).net = s.net := by rw [State.signalPf0_frame]
@[simp] theorem State.signalPf0_groups (s : State) (v : Nat) :
    (s.signalPf0 v).groups = s.groups := by rw [State.signalPf0_frame]
@[simp] theorem State.signalPf0_routes (s : State) (v : Nat) :
    (s.signalPf0 v).routes = s.routes := by rw [State.signalPf0_frame]
@[simp] theorem State.signalPf0_attends (s : State) (v : Nat) :
    (s.signalPf0 v).attends = s.attends := by rw [State.signalPf0_frame]
@[simp] theorem State.signalPf0_opt (s : State) (v : Nat) : (s.signalPf0 v).opt = s.opt := by rw [State.signalPf0_frame]
@[simp] theorem State.signalPf0_ckpt (s : State) (v : Nat) :
    (s.signalPf0 v).ckpt = s.ckpt := by rw [State.signalPf0_frame]
@[simp] theorem State.signalPf0_routeCache (s : State) (v : Nat) :
    (s.signalPf0 v).routeCache = s.routeCache := by rw [State.signalPf0_frame]
@[simp] theorem State.signalPf0_spBad (s : State) (v : Nat) :
    (s.signalPf0 v).spBad = s.spBad := by rw [State.signalPf0_frame]
@[simp] theorem State.signalPf0_seqs (s : State) (v : Nat) :
    (s.signalPf0 v).seqs = s.seqs := by rw [State.signalPf0_frame]
@[simp] theorem State.signalPf0_share (s : State) (v : Nat) :
    (s.signalPf0 v).share = s.share := by rw [State.signalPf0_frame]
@[simp] theorem State.signalPf0_mgiHold (s : State) (v : Nat) :
    (s.signalPf0 v).mgiHold = s.mgiHold := by rw [State.signalPf0_frame]
@[simp] theorem State.signalPf0_fresh (s : State) (v : Nat) :
    (s.signalPf0 v).fresh = s.fresh := by rw [State.signalPf0_frame]
@[simp] theorem State.signalPf0_pending (s : State) (v : Nat) :
    (s.signalPf0 v).pending = s.pending := by rw [State.signalPf0_frame]
@[simp] theorem State.admPush_pins (s : State) (e : Nat) : (s.admPush e).pins = s.pins := by rw [State.admPush_frame]
@[simp] theorem State.admPush_mod (s : State) (e : Nat) : (s.admPush e).mod = s.mod := by rw [State.admPush_frame]
@[simp] theorem State.admPush_dict (s : State) (e : Nat) : (s.admPush e).dict = s.dict := by rw [State.admPush_frame]
@[simp] theorem State.admPush_launches (s : State) (e : Nat) :
    (s.admPush e).launches = s.launches := by rw [State.admPush_frame]
@[simp] theorem State.admPush_keys (s : State) (e : Nat) : (s.admPush e).keys = s.keys := by rw [State.admPush_frame]
@[simp] theorem State.admPush_nor (s : State) (e : Nat) : (s.admPush e).nor = s.nor := by rw [State.admPush_frame]
@[simp] theorem State.admPush_firm (s : State) (e : Nat) : (s.admPush e).firm = s.firm := by rw [State.admPush_frame]
@[simp] theorem State.admPush_pow (s : State) (e : Nat) : (s.admPush e).pow = s.pow := by rw [State.admPush_frame]
@[simp] theorem State.admPush_rcd (s : State) (e : Nat) : (s.admPush e).rcd = s.rcd := by rw [State.admPush_frame]
@[simp] theorem State.admPush_mem (s : State) (e : Nat) : (s.admPush e).mem = s.mem := by rw [State.admPush_frame]
@[simp] theorem State.admPush_poison (s : State) (e : Nat) :
    (s.admPush e).poison = s.poison := by rw [State.admPush_frame]
@[simp] theorem State.admPush_mis (s : State) (e : Nat) : (s.admPush e).mis = s.mis := by rw [State.admPush_frame]
@[simp] theorem State.admPush_kv (s : State) (e : Nat) : (s.admPush e).kv = s.kv := by rw [State.admPush_frame]
@[simp] theorem State.admPush_flash (s : State) (e : Nat) : (s.admPush e).flash = s.flash := by rw [State.admPush_frame]
@[simp] theorem State.admPush_ports (s : State) (e : Nat) : (s.admPush e).ports = s.ports := by rw [State.admPush_frame]
@[simp] theorem State.admPush_net (s : State) (e : Nat) : (s.admPush e).net = s.net := by rw [State.admPush_frame]
@[simp] theorem State.admPush_groups (s : State) (e : Nat) :
    (s.admPush e).groups = s.groups := by rw [State.admPush_frame]
@[simp] theorem State.admPush_routes (s : State) (e : Nat) :
    (s.admPush e).routes = s.routes := by rw [State.admPush_frame]
@[simp] theorem State.admPush_attends (s : State) (e : Nat) :
    (s.admPush e).attends = s.attends := by rw [State.admPush_frame]
@[simp] theorem State.admPush_opt (s : State) (e : Nat) : (s.admPush e).opt = s.opt := by rw [State.admPush_frame]
@[simp] theorem State.admPush_ckpt (s : State) (e : Nat) : (s.admPush e).ckpt = s.ckpt := by rw [State.admPush_frame]
@[simp] theorem State.admPush_routeCache (s : State) (e : Nat) :
    (s.admPush e).routeCache = s.routeCache := by rw [State.admPush_frame]
@[simp] theorem State.admPush_spBad (s : State) (e : Nat) : (s.admPush e).spBad = s.spBad := by rw [State.admPush_frame]
@[simp] theorem State.admPush_seqs (s : State) (e : Nat) : (s.admPush e).seqs = s.seqs := by rw [State.admPush_frame]
@[simp] theorem State.admPush_share (s : State) (e : Nat) : (s.admPush e).share = s.share := by rw [State.admPush_frame]
@[simp] theorem State.admPush_mgiHold (s : State) (e : Nat) :
    (s.admPush e).mgiHold = s.mgiHold := by rw [State.admPush_frame]
@[simp] theorem State.admPush_fresh (s : State) (e : Nat) : (s.admPush e).fresh = s.fresh := by rw [State.admPush_frame]
@[simp] theorem State.admPush_pending (s : State) (e : Nat) :
    (s.admPush e).pending = s.pending := by rw [State.admPush_frame]
@[simp] theorem State.steerFire_pins (s : State) (sl e : Nat) :
    (s.steerFire sl e).pins = s.pins := by rw [State.steerFire_frame]
@[simp] theorem State.steerFire_mod (s : State) (sl e : Nat) :
    (s.steerFire sl e).mod = s.mod := by rw [State.steerFire_frame]
@[simp] theorem State.steerFire_dict (s : State) (sl e : Nat) :
    (s.steerFire sl e).dict = s.dict := by rw [State.steerFire_frame]
@[simp] theorem State.steerFire_adm (s : State) (sl e : Nat) :
    (s.steerFire sl e).adm = s.adm := by rw [State.steerFire_frame]
@[simp] theorem State.steerFire_launches (s : State) (sl e : Nat) :
    (s.steerFire sl e).launches = s.launches := by rw [State.steerFire_frame]
@[simp] theorem State.steerFire_keys (s : State) (sl e : Nat) :
    (s.steerFire sl e).keys = s.keys := by rw [State.steerFire_frame]
@[simp] theorem State.steerFire_nor (s : State) (sl e : Nat) :
    (s.steerFire sl e).nor = s.nor := by rw [State.steerFire_frame]
@[simp] theorem State.steerFire_firm (s : State) (sl e : Nat) :
    (s.steerFire sl e).firm = s.firm := by rw [State.steerFire_frame]
@[simp] theorem State.steerFire_pow (s : State) (sl e : Nat) :
    (s.steerFire sl e).pow = s.pow := by rw [State.steerFire_frame]
@[simp] theorem State.steerFire_rcd (s : State) (sl e : Nat) :
    (s.steerFire sl e).rcd = s.rcd := by rw [State.steerFire_frame]
@[simp] theorem State.steerFire_mem (s : State) (sl e : Nat) :
    (s.steerFire sl e).mem = s.mem := by rw [State.steerFire_frame]
@[simp] theorem State.steerFire_poison (s : State) (sl e : Nat) :
    (s.steerFire sl e).poison = s.poison := by rw [State.steerFire_frame]
@[simp] theorem State.steerFire_mis (s : State) (sl e : Nat) :
    (s.steerFire sl e).mis = s.mis := by rw [State.steerFire_frame]
@[simp] theorem State.steerFire_kv (s : State) (sl e : Nat) :
    (s.steerFire sl e).kv = s.kv := by rw [State.steerFire_frame]
@[simp] theorem State.steerFire_flash (s : State) (sl e : Nat) :
    (s.steerFire sl e).flash = s.flash := by rw [State.steerFire_frame]
@[simp] theorem State.steerFire_ports (s : State) (sl e : Nat) :
    (s.steerFire sl e).ports = s.ports := by rw [State.steerFire_frame]
@[simp] theorem State.steerFire_net (s : State) (sl e : Nat) :
    (s.steerFire sl e).net = s.net := by rw [State.steerFire_frame]
@[simp] theorem State.steerFire_groups (s : State) (sl e : Nat) :
    (s.steerFire sl e).groups = s.groups := by rw [State.steerFire_frame]
@[simp] theorem State.steerFire_routes (s : State) (sl e : Nat) :
    (s.steerFire sl e).routes = s.routes := by rw [State.steerFire_frame]
@[simp] theorem State.steerFire_attends (s : State) (sl e : Nat) :
    (s.steerFire sl e).attends = s.attends := by rw [State.steerFire_frame]
@[simp] theorem State.steerFire_opt (s : State) (sl e : Nat) :
    (s.steerFire sl e).opt = s.opt := by rw [State.steerFire_frame]
@[simp] theorem State.steerFire_ckpt (s : State) (sl e : Nat) :
    (s.steerFire sl e).ckpt = s.ckpt := by rw [State.steerFire_frame]
@[simp] theorem State.steerFire_routeCache (s : State) (sl e : Nat) :
    (s.steerFire sl e).routeCache = s.routeCache := by rw [State.steerFire_frame]
@[simp] theorem State.steerFire_spBad (s : State) (sl e : Nat) :
    (s.steerFire sl e).spBad = s.spBad := by rw [State.steerFire_frame]
@[simp] theorem State.steerFire_seqs (s : State) (sl e : Nat) :
    (s.steerFire sl e).seqs = s.seqs := by rw [State.steerFire_frame]
@[simp] theorem State.steerFire_share (s : State) (sl e : Nat) :
    (s.steerFire sl e).share = s.share := by rw [State.steerFire_frame]
@[simp] theorem State.steerFire_mgiHold (s : State) (sl e : Nat) :
    (s.steerFire sl e).mgiHold = s.mgiHold := by rw [State.steerFire_frame]
@[simp] theorem State.steerFire_fresh (s : State) (sl e : Nat) :
    (s.steerFire sl e).fresh = s.fresh := by rw [State.steerFire_frame]
@[simp] theorem State.steerFire_pending (s : State) (sl e : Nat) :
    (s.steerFire sl e).pending = s.pending := by rw [State.steerFire_frame]
@[simp] theorem State.steerSignal_pins (s : State) (sl e : Nat) :
    (s.steerSignal sl e).pins = s.pins := by rw [State.steerSignal_frame]
@[simp] theorem State.steerSignal_mod (s : State) (sl e : Nat) :
    (s.steerSignal sl e).mod = s.mod := by rw [State.steerSignal_frame]
@[simp] theorem State.steerSignal_dict (s : State) (sl e : Nat) :
    (s.steerSignal sl e).dict = s.dict := by rw [State.steerSignal_frame]
@[simp] theorem State.steerSignal_adm (s : State) (sl e : Nat) :
    (s.steerSignal sl e).adm = s.adm := by rw [State.steerSignal_frame]
@[simp] theorem State.steerSignal_launches (s : State) (sl e : Nat) :
    (s.steerSignal sl e).launches = s.launches := by rw [State.steerSignal_frame]
@[simp] theorem State.steerSignal_keys (s : State) (sl e : Nat) :
    (s.steerSignal sl e).keys = s.keys := by rw [State.steerSignal_frame]
@[simp] theorem State.steerSignal_nor (s : State) (sl e : Nat) :
    (s.steerSignal sl e).nor = s.nor := by rw [State.steerSignal_frame]
@[simp] theorem State.steerSignal_firm (s : State) (sl e : Nat) :
    (s.steerSignal sl e).firm = s.firm := by rw [State.steerSignal_frame]
@[simp] theorem State.steerSignal_pow (s : State) (sl e : Nat) :
    (s.steerSignal sl e).pow = s.pow := by rw [State.steerSignal_frame]
@[simp] theorem State.steerSignal_rcd (s : State) (sl e : Nat) :
    (s.steerSignal sl e).rcd = s.rcd := by rw [State.steerSignal_frame]
@[simp] theorem State.steerSignal_mem (s : State) (sl e : Nat) :
    (s.steerSignal sl e).mem = s.mem := by rw [State.steerSignal_frame]
@[simp] theorem State.steerSignal_poison (s : State) (sl e : Nat) :
    (s.steerSignal sl e).poison = s.poison := by rw [State.steerSignal_frame]
@[simp] theorem State.steerSignal_mis (s : State) (sl e : Nat) :
    (s.steerSignal sl e).mis = s.mis := by rw [State.steerSignal_frame]
@[simp] theorem State.steerSignal_kv (s : State) (sl e : Nat) :
    (s.steerSignal sl e).kv = s.kv := by rw [State.steerSignal_frame]
@[simp] theorem State.steerSignal_flash (s : State) (sl e : Nat) :
    (s.steerSignal sl e).flash = s.flash := by rw [State.steerSignal_frame]
@[simp] theorem State.steerSignal_ports (s : State) (sl e : Nat) :
    (s.steerSignal sl e).ports = s.ports := by rw [State.steerSignal_frame]
@[simp] theorem State.steerSignal_net (s : State) (sl e : Nat) :
    (s.steerSignal sl e).net = s.net := by rw [State.steerSignal_frame]
@[simp] theorem State.steerSignal_groups (s : State) (sl e : Nat) :
    (s.steerSignal sl e).groups = s.groups := by rw [State.steerSignal_frame]
@[simp] theorem State.steerSignal_routes (s : State) (sl e : Nat) :
    (s.steerSignal sl e).routes = s.routes := by rw [State.steerSignal_frame]
@[simp] theorem State.steerSignal_attends (s : State) (sl e : Nat) :
    (s.steerSignal sl e).attends = s.attends := by rw [State.steerSignal_frame]
@[simp] theorem State.steerSignal_opt (s : State) (sl e : Nat) :
    (s.steerSignal sl e).opt = s.opt := by rw [State.steerSignal_frame]
@[simp] theorem State.steerSignal_ckpt (s : State) (sl e : Nat) :
    (s.steerSignal sl e).ckpt = s.ckpt := by rw [State.steerSignal_frame]
@[simp] theorem State.steerSignal_routeCache (s : State) (sl e : Nat) :
    (s.steerSignal sl e).routeCache = s.routeCache := by rw [State.steerSignal_frame]
@[simp] theorem State.steerSignal_spBad (s : State) (sl e : Nat) :
    (s.steerSignal sl e).spBad = s.spBad := by rw [State.steerSignal_frame]
@[simp] theorem State.steerSignal_seqs (s : State) (sl e : Nat) :
    (s.steerSignal sl e).seqs = s.seqs := by rw [State.steerSignal_frame]
@[simp] theorem State.steerSignal_share (s : State) (sl e : Nat) :
    (s.steerSignal sl e).share = s.share := by rw [State.steerSignal_frame]
@[simp] theorem State.steerSignal_mgiHold (s : State) (sl e : Nat) :
    (s.steerSignal sl e).mgiHold = s.mgiHold := by rw [State.steerSignal_frame]
@[simp] theorem State.steerSignal_fresh (s : State) (sl e : Nat) :
    (s.steerSignal sl e).fresh = s.fresh := by rw [State.steerSignal_frame]
@[simp] theorem State.steerSignal_pending (s : State) (sl e : Nat) :
    (s.steerSignal sl e).pending = s.pending := by rw [State.steerSignal_frame]
@[simp] theorem State.portEvents_pins (s : State) (sl c a b d : Nat) :
    (s.portEvents sl c a b d).pins = s.pins := by rw [State.portEvents_frame]
@[simp] theorem State.portEvents_mod (s : State) (sl c a b d : Nat) :
    (s.portEvents sl c a b d).mod = s.mod := by rw [State.portEvents_frame]
@[simp] theorem State.portEvents_dict (s : State) (sl c a b d : Nat) :
    (s.portEvents sl c a b d).dict = s.dict := by rw [State.portEvents_frame]
@[simp] theorem State.portEvents_adm (s : State) (sl c a b d : Nat) :
    (s.portEvents sl c a b d).adm = s.adm := by rw [State.portEvents_frame]
@[simp] theorem State.portEvents_launches (s : State) (sl c a b d : Nat) :
    (s.portEvents sl c a b d).launches = s.launches := by rw [State.portEvents_frame]
@[simp] theorem State.portEvents_keys (s : State) (sl c a b d : Nat) :
    (s.portEvents sl c a b d).keys = s.keys := by rw [State.portEvents_frame]
@[simp] theorem State.portEvents_nor (s : State) (sl c a b d : Nat) :
    (s.portEvents sl c a b d).nor = s.nor := by rw [State.portEvents_frame]
@[simp] theorem State.portEvents_firm (s : State) (sl c a b d : Nat) :
    (s.portEvents sl c a b d).firm = s.firm := by rw [State.portEvents_frame]
@[simp] theorem State.portEvents_pow (s : State) (sl c a b d : Nat) :
    (s.portEvents sl c a b d).pow = s.pow := by rw [State.portEvents_frame]
@[simp] theorem State.portEvents_rcd (s : State) (sl c a b d : Nat) :
    (s.portEvents sl c a b d).rcd = s.rcd := by rw [State.portEvents_frame]
@[simp] theorem State.portEvents_mem (s : State) (sl c a b d : Nat) :
    (s.portEvents sl c a b d).mem = s.mem := by rw [State.portEvents_frame]
@[simp] theorem State.portEvents_poison (s : State) (sl c a b d : Nat) :
    (s.portEvents sl c a b d).poison = s.poison := by rw [State.portEvents_frame]
@[simp] theorem State.portEvents_mis (s : State) (sl c a b d : Nat) :
    (s.portEvents sl c a b d).mis = s.mis := by rw [State.portEvents_frame]
@[simp] theorem State.portEvents_kv (s : State) (sl c a b d : Nat) :
    (s.portEvents sl c a b d).kv = s.kv := by rw [State.portEvents_frame]
@[simp] theorem State.portEvents_flash (s : State) (sl c a b d : Nat) :
    (s.portEvents sl c a b d).flash = s.flash := by rw [State.portEvents_frame]
@[simp] theorem State.portEvents_net (s : State) (sl c a b d : Nat) :
    (s.portEvents sl c a b d).net = s.net := by rw [State.portEvents_frame]
@[simp] theorem State.portEvents_groups (s : State) (sl c a b d : Nat) :
    (s.portEvents sl c a b d).groups = s.groups := by rw [State.portEvents_frame]
@[simp] theorem State.portEvents_routes (s : State) (sl c a b d : Nat) :
    (s.portEvents sl c a b d).routes = s.routes := by rw [State.portEvents_frame]
@[simp] theorem State.portEvents_attends (s : State) (sl c a b d : Nat) :
    (s.portEvents sl c a b d).attends = s.attends := by rw [State.portEvents_frame]
@[simp] theorem State.portEvents_opt (s : State) (sl c a b d : Nat) :
    (s.portEvents sl c a b d).opt = s.opt := by rw [State.portEvents_frame]
@[simp] theorem State.portEvents_ckpt (s : State) (sl c a b d : Nat) :
    (s.portEvents sl c a b d).ckpt = s.ckpt := by rw [State.portEvents_frame]
@[simp] theorem State.portEvents_routeCache (s : State) (sl c a b d : Nat) :
    (s.portEvents sl c a b d).routeCache = s.routeCache := by rw [State.portEvents_frame]
@[simp] theorem State.portEvents_spBad (s : State) (sl c a b d : Nat) :
    (s.portEvents sl c a b d).spBad = s.spBad := by rw [State.portEvents_frame]
@[simp] theorem State.portEvents_seqs (s : State) (sl c a b d : Nat) :
    (s.portEvents sl c a b d).seqs = s.seqs := by rw [State.portEvents_frame]
@[simp] theorem State.portEvents_share (s : State) (sl c a b d : Nat) :
    (s.portEvents sl c a b d).share = s.share := by rw [State.portEvents_frame]
@[simp] theorem State.portEvents_mgiHold (s : State) (sl c a b d : Nat) :
    (s.portEvents sl c a b d).mgiHold = s.mgiHold := by rw [State.portEvents_frame]
@[simp] theorem State.portEvents_sent (s : State) (sl c a b d : Nat) :
    (s.portEvents sl c a b d).sent = s.sent := by rw [State.portEvents_frame]
@[simp] theorem State.portEvents_fresh (s : State) (sl c a b d : Nat) :
    (s.portEvents sl c a b d).fresh = s.fresh := by rw [State.portEvents_frame]
@[simp] theorem State.portEvents_pending (s : State) (sl c a b d : Nat) :
    (s.portEvents sl c a b d).pending = s.pending := by rw [State.portEvents_frame]
@[simp] theorem State.ringEvent_pins (s : State) (sl c a b d : Nat) :
    (s.ringEvent sl c a b d).pins = s.pins := by rw [State.ringEvent_frame]
@[simp] theorem State.ringEvent_mod (s : State) (sl c a b d : Nat) :
    (s.ringEvent sl c a b d).mod = s.mod := by rw [State.ringEvent_frame]
@[simp] theorem State.ringEvent_dict (s : State) (sl c a b d : Nat) :
    (s.ringEvent sl c a b d).dict = s.dict := by rw [State.ringEvent_frame]
@[simp] theorem State.ringEvent_adm (s : State) (sl c a b d : Nat) :
    (s.ringEvent sl c a b d).adm = s.adm := by rw [State.ringEvent_frame]
@[simp] theorem State.ringEvent_launches (s : State) (sl c a b d : Nat) :
    (s.ringEvent sl c a b d).launches = s.launches := by rw [State.ringEvent_frame]
@[simp] theorem State.ringEvent_keys (s : State) (sl c a b d : Nat) :
    (s.ringEvent sl c a b d).keys = s.keys := by rw [State.ringEvent_frame]
@[simp] theorem State.ringEvent_nor (s : State) (sl c a b d : Nat) :
    (s.ringEvent sl c a b d).nor = s.nor := by rw [State.ringEvent_frame]
@[simp] theorem State.ringEvent_firm (s : State) (sl c a b d : Nat) :
    (s.ringEvent sl c a b d).firm = s.firm := by rw [State.ringEvent_frame]
@[simp] theorem State.ringEvent_pow (s : State) (sl c a b d : Nat) :
    (s.ringEvent sl c a b d).pow = s.pow := by rw [State.ringEvent_frame]
@[simp] theorem State.ringEvent_rcd (s : State) (sl c a b d : Nat) :
    (s.ringEvent sl c a b d).rcd = s.rcd := by rw [State.ringEvent_frame]
@[simp] theorem State.ringEvent_mem (s : State) (sl c a b d : Nat) :
    (s.ringEvent sl c a b d).mem = s.mem := by rw [State.ringEvent_frame]
@[simp] theorem State.ringEvent_poison (s : State) (sl c a b d : Nat) :
    (s.ringEvent sl c a b d).poison = s.poison := by rw [State.ringEvent_frame]
@[simp] theorem State.ringEvent_mis (s : State) (sl c a b d : Nat) :
    (s.ringEvent sl c a b d).mis = s.mis := by rw [State.ringEvent_frame]
@[simp] theorem State.ringEvent_kv (s : State) (sl c a b d : Nat) :
    (s.ringEvent sl c a b d).kv = s.kv := by rw [State.ringEvent_frame]
@[simp] theorem State.ringEvent_flash (s : State) (sl c a b d : Nat) :
    (s.ringEvent sl c a b d).flash = s.flash := by rw [State.ringEvent_frame]
@[simp] theorem State.ringEvent_net (s : State) (sl c a b d : Nat) :
    (s.ringEvent sl c a b d).net = s.net := by rw [State.ringEvent_frame]
@[simp] theorem State.ringEvent_groups (s : State) (sl c a b d : Nat) :
    (s.ringEvent sl c a b d).groups = s.groups := by rw [State.ringEvent_frame]
@[simp] theorem State.ringEvent_routes (s : State) (sl c a b d : Nat) :
    (s.ringEvent sl c a b d).routes = s.routes := by rw [State.ringEvent_frame]
@[simp] theorem State.ringEvent_attends (s : State) (sl c a b d : Nat) :
    (s.ringEvent sl c a b d).attends = s.attends := by rw [State.ringEvent_frame]
@[simp] theorem State.ringEvent_opt (s : State) (sl c a b d : Nat) :
    (s.ringEvent sl c a b d).opt = s.opt := by rw [State.ringEvent_frame]
@[simp] theorem State.ringEvent_ckpt (s : State) (sl c a b d : Nat) :
    (s.ringEvent sl c a b d).ckpt = s.ckpt := by rw [State.ringEvent_frame]
@[simp] theorem State.ringEvent_routeCache (s : State) (sl c a b d : Nat) :
    (s.ringEvent sl c a b d).routeCache = s.routeCache := by rw [State.ringEvent_frame]
@[simp] theorem State.ringEvent_spBad (s : State) (sl c a b d : Nat) :
    (s.ringEvent sl c a b d).spBad = s.spBad := by rw [State.ringEvent_frame]
@[simp] theorem State.ringEvent_seqs (s : State) (sl c a b d : Nat) :
    (s.ringEvent sl c a b d).seqs = s.seqs := by rw [State.ringEvent_frame]
@[simp] theorem State.ringEvent_share (s : State) (sl c a b d : Nat) :
    (s.ringEvent sl c a b d).share = s.share := by rw [State.ringEvent_frame]
@[simp] theorem State.ringEvent_mgiHold (s : State) (sl c a b d : Nat) :
    (s.ringEvent sl c a b d).mgiHold = s.mgiHold := by rw [State.ringEvent_frame]
@[simp] theorem State.ringEvent_fresh (s : State) (sl c a b d : Nat) :
    (s.ringEvent sl c a b d).fresh = s.fresh := by rw [State.ringEvent_frame]
@[simp] theorem State.ringEvent_pending (s : State) (sl c a b d : Nat) :
    (s.ringEvent sl c a b d).pending = s.pending := by rw [State.ringEvent_frame]
@[simp] theorem State.event_pins (s : State) (r : Recipient) (c a b d : Nat) :
    (s.event r c a b d).pins = s.pins := by rw [State.event_frame]
@[simp] theorem State.event_mod (s : State) (r : Recipient) (c a b d : Nat) :
    (s.event r c a b d).mod = s.mod := by rw [State.event_frame]
@[simp] theorem State.event_dict (s : State) (r : Recipient) (c a b d : Nat) :
    (s.event r c a b d).dict = s.dict := by rw [State.event_frame]
@[simp] theorem State.event_launches (s : State) (r : Recipient) (c a b d : Nat) :
    (s.event r c a b d).launches = s.launches := by rw [State.event_frame]
@[simp] theorem State.event_keys (s : State) (r : Recipient) (c a b d : Nat) :
    (s.event r c a b d).keys = s.keys := by rw [State.event_frame]
@[simp] theorem State.event_nor (s : State) (r : Recipient) (c a b d : Nat) :
    (s.event r c a b d).nor = s.nor := by rw [State.event_frame]
@[simp] theorem State.event_firm (s : State) (r : Recipient) (c a b d : Nat) :
    (s.event r c a b d).firm = s.firm := by rw [State.event_frame]
@[simp] theorem State.event_pow (s : State) (r : Recipient) (c a b d : Nat) :
    (s.event r c a b d).pow = s.pow := by rw [State.event_frame]
@[simp] theorem State.event_rcd (s : State) (r : Recipient) (c a b d : Nat) :
    (s.event r c a b d).rcd = s.rcd := by rw [State.event_frame]
@[simp] theorem State.event_mem (s : State) (r : Recipient) (c a b d : Nat) :
    (s.event r c a b d).mem = s.mem := by rw [State.event_frame]
@[simp] theorem State.event_poison (s : State) (r : Recipient) (c a b d : Nat) :
    (s.event r c a b d).poison = s.poison := by rw [State.event_frame]
@[simp] theorem State.event_mis (s : State) (r : Recipient) (c a b d : Nat) :
    (s.event r c a b d).mis = s.mis := by rw [State.event_frame]
@[simp] theorem State.event_kv (s : State) (r : Recipient) (c a b d : Nat) :
    (s.event r c a b d).kv = s.kv := by rw [State.event_frame]
@[simp] theorem State.event_flash (s : State) (r : Recipient) (c a b d : Nat) :
    (s.event r c a b d).flash = s.flash := by rw [State.event_frame]
@[simp] theorem State.event_net (s : State) (r : Recipient) (c a b d : Nat) :
    (s.event r c a b d).net = s.net := by rw [State.event_frame]
@[simp] theorem State.event_groups (s : State) (r : Recipient) (c a b d : Nat) :
    (s.event r c a b d).groups = s.groups := by rw [State.event_frame]
@[simp] theorem State.event_routes (s : State) (r : Recipient) (c a b d : Nat) :
    (s.event r c a b d).routes = s.routes := by rw [State.event_frame]
@[simp] theorem State.event_attends (s : State) (r : Recipient) (c a b d : Nat) :
    (s.event r c a b d).attends = s.attends := by rw [State.event_frame]
@[simp] theorem State.event_opt (s : State) (r : Recipient) (c a b d : Nat) :
    (s.event r c a b d).opt = s.opt := by rw [State.event_frame]
@[simp] theorem State.event_ckpt (s : State) (r : Recipient) (c a b d : Nat) :
    (s.event r c a b d).ckpt = s.ckpt := by rw [State.event_frame]
@[simp] theorem State.event_routeCache (s : State) (r : Recipient) (c a b d : Nat) :
    (s.event r c a b d).routeCache = s.routeCache := by rw [State.event_frame]
@[simp] theorem State.event_spBad (s : State) (r : Recipient) (c a b d : Nat) :
    (s.event r c a b d).spBad = s.spBad := by rw [State.event_frame]
@[simp] theorem State.event_seqs (s : State) (r : Recipient) (c a b d : Nat) :
    (s.event r c a b d).seqs = s.seqs := by rw [State.event_frame]
@[simp] theorem State.event_share (s : State) (r : Recipient) (c a b d : Nat) :
    (s.event r c a b d).share = s.share := by rw [State.event_frame]
@[simp] theorem State.event_fresh (s : State) (r : Recipient) (c a b d : Nat) :
    (s.event r c a b d).fresh = s.fresh := by rw [State.event_frame]
@[simp] theorem State.event_pending (s : State) (r : Recipient) (c a b d : Nat) :
    (s.event r c a b d).pending = s.pending := by rw [State.event_frame]
@[simp] theorem State.setFn_pins (s : State) (b : Nat) (v : Bool) :
    (s.setFn b v).pins = s.pins := by rw [State.setFn_frame]
@[simp] theorem State.setFn_dict (s : State) (b : Nat) (v : Bool) :
    (s.setFn b v).dict = s.dict := by rw [State.setFn_frame]
@[simp] theorem State.setFn_launches (s : State) (b : Nat) (v : Bool) :
    (s.setFn b v).launches = s.launches := by rw [State.setFn_frame]
@[simp] theorem State.setFn_keys (s : State) (b : Nat) (v : Bool) :
    (s.setFn b v).keys = s.keys := by rw [State.setFn_frame]
@[simp] theorem State.setFn_nor (s : State) (b : Nat) (v : Bool) :
    (s.setFn b v).nor = s.nor := by rw [State.setFn_frame]
@[simp] theorem State.setFn_firm (s : State) (b : Nat) (v : Bool) :
    (s.setFn b v).firm = s.firm := by rw [State.setFn_frame]
@[simp] theorem State.setFn_pow (s : State) (b : Nat) (v : Bool) :
    (s.setFn b v).pow = s.pow := by rw [State.setFn_frame]
@[simp] theorem State.setFn_rcd (s : State) (b : Nat) (v : Bool) :
    (s.setFn b v).rcd = s.rcd := by rw [State.setFn_frame]
@[simp] theorem State.setFn_mem (s : State) (b : Nat) (v : Bool) :
    (s.setFn b v).mem = s.mem := by rw [State.setFn_frame]
@[simp] theorem State.setFn_poison (s : State) (b : Nat) (v : Bool) :
    (s.setFn b v).poison = s.poison := by rw [State.setFn_frame]
@[simp] theorem State.setFn_mis (s : State) (b : Nat) (v : Bool) :
    (s.setFn b v).mis = s.mis := by rw [State.setFn_frame]
@[simp] theorem State.setFn_kv (s : State) (b : Nat) (v : Bool) : (s.setFn b v).kv = s.kv := by rw [State.setFn_frame]
@[simp] theorem State.setFn_flash (s : State) (b : Nat) (v : Bool) :
    (s.setFn b v).flash = s.flash := by rw [State.setFn_frame]
@[simp] theorem State.setFn_net (s : State) (b : Nat) (v : Bool) :
    (s.setFn b v).net = s.net := by rw [State.setFn_frame]
@[simp] theorem State.setFn_groups (s : State) (b : Nat) (v : Bool) :
    (s.setFn b v).groups = s.groups := by rw [State.setFn_frame]
@[simp] theorem State.setFn_routes (s : State) (b : Nat) (v : Bool) :
    (s.setFn b v).routes = s.routes := by rw [State.setFn_frame]
@[simp] theorem State.setFn_attends (s : State) (b : Nat) (v : Bool) :
    (s.setFn b v).attends = s.attends := by rw [State.setFn_frame]
@[simp] theorem State.setFn_opt (s : State) (b : Nat) (v : Bool) :
    (s.setFn b v).opt = s.opt := by rw [State.setFn_frame]
@[simp] theorem State.setFn_ckpt (s : State) (b : Nat) (v : Bool) :
    (s.setFn b v).ckpt = s.ckpt := by rw [State.setFn_frame]
@[simp] theorem State.setFn_routeCache (s : State) (b : Nat) (v : Bool) :
    (s.setFn b v).routeCache = s.routeCache := by rw [State.setFn_frame]
@[simp] theorem State.setFn_spBad (s : State) (b : Nat) (v : Bool) :
    (s.setFn b v).spBad = s.spBad := by rw [State.setFn_frame]
@[simp] theorem State.setFn_seqs (s : State) (b : Nat) (v : Bool) :
    (s.setFn b v).seqs = s.seqs := by rw [State.setFn_frame]
@[simp] theorem State.setFn_share (s : State) (b : Nat) (v : Bool) :
    (s.setFn b v).share = s.share := by rw [State.setFn_frame]
@[simp] theorem State.setFn_fresh (s : State) (b : Nat) (v : Bool) :
    (s.setFn b v).fresh = s.fresh := by rw [State.setFn_frame]
@[simp] theorem State.setFn_pending (s : State) (b : Nat) (v : Bool) :
    (s.setFn b v).pending = s.pending := by rw [State.setFn_frame]
@[simp] theorem State.eventSlices_pins (s : State) (l : List Nat) (c a b d : Nat) :
    (s.eventSlices l c a b d).pins = s.pins := by rw [State.eventSlices_frame]
@[simp] theorem State.eventSlices_mod (s : State) (l : List Nat) (c a b d : Nat) :
    (s.eventSlices l c a b d).mod = s.mod := by rw [State.eventSlices_frame]
@[simp] theorem State.eventSlices_dict (s : State) (l : List Nat) (c a b d : Nat) :
    (s.eventSlices l c a b d).dict = s.dict := by rw [State.eventSlices_frame]
@[simp] theorem State.eventSlices_launches (s : State) (l : List Nat) (c a b d : Nat) :
    (s.eventSlices l c a b d).launches = s.launches := by rw [State.eventSlices_frame]
@[simp] theorem State.eventSlices_keys (s : State) (l : List Nat) (c a b d : Nat) :
    (s.eventSlices l c a b d).keys = s.keys := by rw [State.eventSlices_frame]
@[simp] theorem State.eventSlices_nor (s : State) (l : List Nat) (c a b d : Nat) :
    (s.eventSlices l c a b d).nor = s.nor := by rw [State.eventSlices_frame]
@[simp] theorem State.eventSlices_firm (s : State) (l : List Nat) (c a b d : Nat) :
    (s.eventSlices l c a b d).firm = s.firm := by rw [State.eventSlices_frame]
@[simp] theorem State.eventSlices_pow (s : State) (l : List Nat) (c a b d : Nat) :
    (s.eventSlices l c a b d).pow = s.pow := by rw [State.eventSlices_frame]
@[simp] theorem State.eventSlices_rcd (s : State) (l : List Nat) (c a b d : Nat) :
    (s.eventSlices l c a b d).rcd = s.rcd := by rw [State.eventSlices_frame]
@[simp] theorem State.eventSlices_mem (s : State) (l : List Nat) (c a b d : Nat) :
    (s.eventSlices l c a b d).mem = s.mem := by rw [State.eventSlices_frame]
@[simp] theorem State.eventSlices_poison (s : State) (l : List Nat) (c a b d : Nat) :
    (s.eventSlices l c a b d).poison = s.poison := by rw [State.eventSlices_frame]
@[simp] theorem State.eventSlices_mis (s : State) (l : List Nat) (c a b d : Nat) :
    (s.eventSlices l c a b d).mis = s.mis := by rw [State.eventSlices_frame]
@[simp] theorem State.eventSlices_kv (s : State) (l : List Nat) (c a b d : Nat) :
    (s.eventSlices l c a b d).kv = s.kv := by rw [State.eventSlices_frame]
@[simp] theorem State.eventSlices_flash (s : State) (l : List Nat) (c a b d : Nat) :
    (s.eventSlices l c a b d).flash = s.flash := by rw [State.eventSlices_frame]
@[simp] theorem State.eventSlices_net (s : State) (l : List Nat) (c a b d : Nat) :
    (s.eventSlices l c a b d).net = s.net := by rw [State.eventSlices_frame]
@[simp] theorem State.eventSlices_groups (s : State) (l : List Nat) (c a b d : Nat) :
    (s.eventSlices l c a b d).groups = s.groups := by rw [State.eventSlices_frame]
@[simp] theorem State.eventSlices_routes (s : State) (l : List Nat) (c a b d : Nat) :
    (s.eventSlices l c a b d).routes = s.routes := by rw [State.eventSlices_frame]
@[simp] theorem State.eventSlices_attends (s : State) (l : List Nat) (c a b d : Nat) :
    (s.eventSlices l c a b d).attends = s.attends := by rw [State.eventSlices_frame]
@[simp] theorem State.eventSlices_opt (s : State) (l : List Nat) (c a b d : Nat) :
    (s.eventSlices l c a b d).opt = s.opt := by rw [State.eventSlices_frame]
@[simp] theorem State.eventSlices_ckpt (s : State) (l : List Nat) (c a b d : Nat) :
    (s.eventSlices l c a b d).ckpt = s.ckpt := by rw [State.eventSlices_frame]
@[simp] theorem State.eventSlices_routeCache (s : State) (l : List Nat) (c a b d : Nat) :
    (s.eventSlices l c a b d).routeCache = s.routeCache := by rw [State.eventSlices_frame]
@[simp] theorem State.eventSlices_spBad (s : State) (l : List Nat) (c a b d : Nat) :
    (s.eventSlices l c a b d).spBad = s.spBad := by rw [State.eventSlices_frame]
@[simp] theorem State.eventSlices_seqs (s : State) (l : List Nat) (c a b d : Nat) :
    (s.eventSlices l c a b d).seqs = s.seqs := by rw [State.eventSlices_frame]
@[simp] theorem State.eventSlices_share (s : State) (l : List Nat) (c a b d : Nat) :
    (s.eventSlices l c a b d).share = s.share := by rw [State.eventSlices_frame]
@[simp] theorem State.eventSlices_fresh (s : State) (l : List Nat) (c a b d : Nat) :
    (s.eventSlices l c a b d).fresh = s.fresh := by rw [State.eventSlices_frame]
@[simp] theorem State.eventSlices_pending (s : State) (l : List Nat) (c a b d : Nat) :
    (s.eventSlices l c a b d).pending = s.pending := by rw [State.eventSlices_frame]
@[simp] theorem State.setFns_pins (s : State) (bs : List Nat) (v : Bool) :
    (s.setFns bs v).pins = s.pins := by rw [State.setFns_frame]
@[simp] theorem State.setFns_dict (s : State) (bs : List Nat) (v : Bool) :
    (s.setFns bs v).dict = s.dict := by rw [State.setFns_frame]
@[simp] theorem State.setFns_launches (s : State) (bs : List Nat) (v : Bool) :
    (s.setFns bs v).launches = s.launches := by rw [State.setFns_frame]
@[simp] theorem State.setFns_keys (s : State) (bs : List Nat) (v : Bool) :
    (s.setFns bs v).keys = s.keys := by rw [State.setFns_frame]
@[simp] theorem State.setFns_nor (s : State) (bs : List Nat) (v : Bool) :
    (s.setFns bs v).nor = s.nor := by rw [State.setFns_frame]
@[simp] theorem State.setFns_firm (s : State) (bs : List Nat) (v : Bool) :
    (s.setFns bs v).firm = s.firm := by rw [State.setFns_frame]
@[simp] theorem State.setFns_pow (s : State) (bs : List Nat) (v : Bool) :
    (s.setFns bs v).pow = s.pow := by rw [State.setFns_frame]
@[simp] theorem State.setFns_rcd (s : State) (bs : List Nat) (v : Bool) :
    (s.setFns bs v).rcd = s.rcd := by rw [State.setFns_frame]
@[simp] theorem State.setFns_mem (s : State) (bs : List Nat) (v : Bool) :
    (s.setFns bs v).mem = s.mem := by rw [State.setFns_frame]
@[simp] theorem State.setFns_poison (s : State) (bs : List Nat) (v : Bool) :
    (s.setFns bs v).poison = s.poison := by rw [State.setFns_frame]
@[simp] theorem State.setFns_mis (s : State) (bs : List Nat) (v : Bool) :
    (s.setFns bs v).mis = s.mis := by rw [State.setFns_frame]
@[simp] theorem State.setFns_kv (s : State) (bs : List Nat) (v : Bool) :
    (s.setFns bs v).kv = s.kv := by rw [State.setFns_frame]
@[simp] theorem State.setFns_flash (s : State) (bs : List Nat) (v : Bool) :
    (s.setFns bs v).flash = s.flash := by rw [State.setFns_frame]
@[simp] theorem State.setFns_net (s : State) (bs : List Nat) (v : Bool) :
    (s.setFns bs v).net = s.net := by rw [State.setFns_frame]
@[simp] theorem State.setFns_groups (s : State) (bs : List Nat) (v : Bool) :
    (s.setFns bs v).groups = s.groups := by rw [State.setFns_frame]
@[simp] theorem State.setFns_routes (s : State) (bs : List Nat) (v : Bool) :
    (s.setFns bs v).routes = s.routes := by rw [State.setFns_frame]
@[simp] theorem State.setFns_attends (s : State) (bs : List Nat) (v : Bool) :
    (s.setFns bs v).attends = s.attends := by rw [State.setFns_frame]
@[simp] theorem State.setFns_opt (s : State) (bs : List Nat) (v : Bool) :
    (s.setFns bs v).opt = s.opt := by rw [State.setFns_frame]
@[simp] theorem State.setFns_ckpt (s : State) (bs : List Nat) (v : Bool) :
    (s.setFns bs v).ckpt = s.ckpt := by rw [State.setFns_frame]
@[simp] theorem State.setFns_routeCache (s : State) (bs : List Nat) (v : Bool) :
    (s.setFns bs v).routeCache = s.routeCache := by rw [State.setFns_frame]
@[simp] theorem State.setFns_spBad (s : State) (bs : List Nat) (v : Bool) :
    (s.setFns bs v).spBad = s.spBad := by rw [State.setFns_frame]
@[simp] theorem State.setFns_seqs (s : State) (bs : List Nat) (v : Bool) :
    (s.setFns bs v).seqs = s.seqs := by rw [State.setFns_frame]
@[simp] theorem State.setFns_share (s : State) (bs : List Nat) (v : Bool) :
    (s.setFns bs v).share = s.share := by rw [State.setFns_frame]
@[simp] theorem State.setFns_fresh (s : State) (bs : List Nat) (v : Bool) :
    (s.setFns bs v).fresh = s.fresh := by rw [State.setFns_frame]
@[simp] theorem State.setFns_pending (s : State) (bs : List Nat) (v : Bool) :
    (s.setFns bs v).pending = s.pending := by rw [State.setFns_frame]
@[simp] theorem State.countUe_pins (s : State) (a : Nat) : (s.countUe a).pins = s.pins := by rw [State.countUe_frame]
@[simp] theorem State.countUe_mod (s : State) (a : Nat) : (s.countUe a).mod = s.mod := by rw [State.countUe_frame]
@[simp] theorem State.countUe_adm (s : State) (a : Nat) : (s.countUe a).adm = s.adm := by rw [State.countUe_frame]
@[simp] theorem State.countUe_launches (s : State) (a : Nat) :
    (s.countUe a).launches = s.launches := by rw [State.countUe_frame]
@[simp] theorem State.countUe_keys (s : State) (a : Nat) : (s.countUe a).keys = s.keys := by rw [State.countUe_frame]
@[simp] theorem State.countUe_nor (s : State) (a : Nat) : (s.countUe a).nor = s.nor := by rw [State.countUe_frame]
@[simp] theorem State.countUe_firm (s : State) (a : Nat) : (s.countUe a).firm = s.firm := by rw [State.countUe_frame]
@[simp] theorem State.countUe_pow (s : State) (a : Nat) : (s.countUe a).pow = s.pow := by rw [State.countUe_frame]
@[simp] theorem State.countUe_mem (s : State) (a : Nat) : (s.countUe a).mem = s.mem := by rw [State.countUe_frame]
@[simp] theorem State.countUe_poison (s : State) (a : Nat) :
    (s.countUe a).poison = s.poison := by rw [State.countUe_frame]
@[simp] theorem State.countUe_mis (s : State) (a : Nat) : (s.countUe a).mis = s.mis := by rw [State.countUe_frame]
@[simp] theorem State.countUe_kv (s : State) (a : Nat) : (s.countUe a).kv = s.kv := by rw [State.countUe_frame]
@[simp] theorem State.countUe_flash (s : State) (a : Nat) : (s.countUe a).flash = s.flash := by rw [State.countUe_frame]
@[simp] theorem State.countUe_ports (s : State) (a : Nat) : (s.countUe a).ports = s.ports := by rw [State.countUe_frame]
@[simp] theorem State.countUe_net (s : State) (a : Nat) : (s.countUe a).net = s.net := by rw [State.countUe_frame]
@[simp] theorem State.countUe_groups (s : State) (a : Nat) :
    (s.countUe a).groups = s.groups := by rw [State.countUe_frame]
@[simp] theorem State.countUe_routes (s : State) (a : Nat) :
    (s.countUe a).routes = s.routes := by rw [State.countUe_frame]
@[simp] theorem State.countUe_attends (s : State) (a : Nat) :
    (s.countUe a).attends = s.attends := by rw [State.countUe_frame]
@[simp] theorem State.countUe_opt (s : State) (a : Nat) : (s.countUe a).opt = s.opt := by rw [State.countUe_frame]
@[simp] theorem State.countUe_ckpt (s : State) (a : Nat) : (s.countUe a).ckpt = s.ckpt := by rw [State.countUe_frame]
@[simp] theorem State.countUe_routeCache (s : State) (a : Nat) :
    (s.countUe a).routeCache = s.routeCache := by rw [State.countUe_frame]
@[simp] theorem State.countUe_spBad (s : State) (a : Nat) : (s.countUe a).spBad = s.spBad := by rw [State.countUe_frame]
@[simp] theorem State.countUe_seqs (s : State) (a : Nat) : (s.countUe a).seqs = s.seqs := by rw [State.countUe_frame]
@[simp] theorem State.countUe_share (s : State) (a : Nat) : (s.countUe a).share = s.share := by rw [State.countUe_frame]
@[simp] theorem State.countUe_mgiHold (s : State) (a : Nat) :
    (s.countUe a).mgiHold = s.mgiHold := by rw [State.countUe_frame]
@[simp] theorem State.countUe_sent (s : State) (a : Nat) : (s.countUe a).sent = s.sent := by rw [State.countUe_frame]
@[simp] theorem State.countUe_fresh (s : State) (a : Nat) : (s.countUe a).fresh = s.fresh := by rw [State.countUe_frame]
@[simp] theorem State.countUe_pending (s : State) (a : Nat) :
    (s.countUe a).pending = s.pending := by rw [State.countUe_frame]
@[simp] theorem State.ueEvent_pins (s : State) (a : Nat) : (s.ueEvent a).pins = s.pins := by rw [State.ueEvent_frame]
@[simp] theorem State.ueEvent_mod (s : State) (a : Nat) : (s.ueEvent a).mod = s.mod := by rw [State.ueEvent_frame]
@[simp] theorem State.ueEvent_dict (s : State) (a : Nat) : (s.ueEvent a).dict = s.dict := by rw [State.ueEvent_frame]
@[simp] theorem State.ueEvent_launches (s : State) (a : Nat) :
    (s.ueEvent a).launches = s.launches := by rw [State.ueEvent_frame]
@[simp] theorem State.ueEvent_keys (s : State) (a : Nat) : (s.ueEvent a).keys = s.keys := by rw [State.ueEvent_frame]
@[simp] theorem State.ueEvent_nor (s : State) (a : Nat) : (s.ueEvent a).nor = s.nor := by rw [State.ueEvent_frame]
@[simp] theorem State.ueEvent_firm (s : State) (a : Nat) : (s.ueEvent a).firm = s.firm := by rw [State.ueEvent_frame]
@[simp] theorem State.ueEvent_pow (s : State) (a : Nat) : (s.ueEvent a).pow = s.pow := by rw [State.ueEvent_frame]
@[simp] theorem State.ueEvent_rcd (s : State) (a : Nat) : (s.ueEvent a).rcd = s.rcd := by rw [State.ueEvent_frame]
@[simp] theorem State.ueEvent_mem (s : State) (a : Nat) : (s.ueEvent a).mem = s.mem := by rw [State.ueEvent_frame]
@[simp] theorem State.ueEvent_poison (s : State) (a : Nat) :
    (s.ueEvent a).poison = s.poison := by rw [State.ueEvent_frame]
@[simp] theorem State.ueEvent_mis (s : State) (a : Nat) : (s.ueEvent a).mis = s.mis := by rw [State.ueEvent_frame]
@[simp] theorem State.ueEvent_kv (s : State) (a : Nat) : (s.ueEvent a).kv = s.kv := by rw [State.ueEvent_frame]
@[simp] theorem State.ueEvent_flash (s : State) (a : Nat) : (s.ueEvent a).flash = s.flash := by rw [State.ueEvent_frame]
@[simp] theorem State.ueEvent_net (s : State) (a : Nat) : (s.ueEvent a).net = s.net := by rw [State.ueEvent_frame]
@[simp] theorem State.ueEvent_groups (s : State) (a : Nat) :
    (s.ueEvent a).groups = s.groups := by rw [State.ueEvent_frame]
@[simp] theorem State.ueEvent_routes (s : State) (a : Nat) :
    (s.ueEvent a).routes = s.routes := by rw [State.ueEvent_frame]
@[simp] theorem State.ueEvent_attends (s : State) (a : Nat) :
    (s.ueEvent a).attends = s.attends := by rw [State.ueEvent_frame]
@[simp] theorem State.ueEvent_opt (s : State) (a : Nat) : (s.ueEvent a).opt = s.opt := by rw [State.ueEvent_frame]
@[simp] theorem State.ueEvent_ckpt (s : State) (a : Nat) : (s.ueEvent a).ckpt = s.ckpt := by rw [State.ueEvent_frame]
@[simp] theorem State.ueEvent_routeCache (s : State) (a : Nat) :
    (s.ueEvent a).routeCache = s.routeCache := by rw [State.ueEvent_frame]
@[simp] theorem State.ueEvent_spBad (s : State) (a : Nat) : (s.ueEvent a).spBad = s.spBad := by rw [State.ueEvent_frame]
@[simp] theorem State.ueEvent_seqs (s : State) (a : Nat) : (s.ueEvent a).seqs = s.seqs := by rw [State.ueEvent_frame]
@[simp] theorem State.ueEvent_share (s : State) (a : Nat) : (s.ueEvent a).share = s.share := by rw [State.ueEvent_frame]
@[simp] theorem State.ueEvent_fresh (s : State) (a : Nat) : (s.ueEvent a).fresh = s.fresh := by rw [State.ueEvent_frame]
@[simp] theorem State.ueEvent_pending (s : State) (a : Nat) :
    (s.ueEvent a).pending = s.pending := by rw [State.ueEvent_frame]

end Sys2Proof.Machine
end

