-- ==== Sys2Proof/Laws/Link.lean ====
section
/-!
SUPPORT. What the checks of a terminated Epjor transaction do.
-/
namespace Sys2Proof.Machine

/-- Taking a transaction for its service changes the ports alone. -/
theorem State.accept_frame (s : State) (p : Nat) (t : Txn) : s.accept p t = { s with ports := (s.accept p t).ports } := by
  unfold State.accept
  split
  · unfold State.takeArrived; split <;> rfl
  · split <;> rfl

/-- A transaction that passes every check is served in the accepted state (R249). -/
theorem State.terminate_serves {s : State} {p : Nat} {t : Txn} {ty : Nat} (h : s.serves p t ty) (types : List Nat)
    (k : List Byte → State → State) (ht : ty ∈ types) : s.terminate p t types k = k t.body (s.accepted p t) := by
  obtain ⟨h1, h2, h3, h4, h5, h6, h7, h8, ⟨b, h9, h9'⟩, h10, h11, h12, h13, h14⟩ := h
  have hp : p ≠ tunnelPort := by simp [tunnelPort]; omega
  have hb : s.heldBack p t = false := by simp [State.heldBack, hp]
  have f (f : State → State) (e : f s = { s with ports := (f s).ports }) : (f s).mod = s.mod ∧ ∀ n, (f s).slice n = s.slice n := by
    rw [e]; exact ⟨rfl, fun _ => rfl⟩
  obtain ⟨g1, g2⟩ := f (fun u => State.accept u p t) (State.accept_frame s p t)
  unfold State.terminate
  simp [hb, h2, h3, ht, h4, h7, h5, h8, g1, h6, h9, h10, h12, h11, h13, h9', g2, h14, State.accepted]

end Sys2Proof.Machine
end

