-- ==== Sys2Proof/Laws/Memory.lean ====
section
/-!
SUPPORT. Device memory: what a byte reads as after each operation that stores, and that every one of them keeps the
canonical form of the list of cells.
-/
namespace Sys2Proof.Machine

/-! ### Reading after writing -/

theorem look_storeBytes (m : List Host.Cell) (a : Nat) (bs : List Byte) (x : Nat) :
    look memDflt (storeBytes m a bs) x = if a ≤ x ∧ x < a + bs.length then bs.getD (x - a) 0 else look memDflt m x := by
  induction bs generalizing m a with
  | nil => rw [if_neg (by rw [List.length_nil]; omega)]; rfl
  | cons b bs ih =>
    rw [storeBytes, ih, look_put]
    by_cases h : x = a
    · subst h
      rw [if_neg (by omega), if_pos rfl, if_pos (by simp)]; simp
    · by_cases g : a ≤ x ∧ x < a + (b :: bs).length
      · have hx : x - a = (x - (a + 1)) + 1 := by omega
        have g' : a + 1 ≤ x ∧ x < a + 1 + bs.length := by simp at g; omega
        rw [if_pos g', if_pos g, hx]; simp
      · have g' : ¬ (a + 1 ≤ x ∧ x < a + 1 + bs.length) := by simp at g; omega
        rw [if_neg g', if_neg g, if_neg h]

/-- The bytes of a store lie at their addresses, and every other address reads as before. -/
theorem State.byte_store (s : State) (a : Nat) (bs : List Byte) (x : Nat) :
    (s.store a bs).byte x = if a ≤ x ∧ x < a + bs.length then bs.getD (x - a) 0 else s.byte x :=
  look_storeBytes s.mem a bs x

/-- Outside its bytes a store leaves memory as it was. -/
theorem State.byte_store_out (s : State) (a : Nat) (bs : List Byte) {x : Nat} (h : x < a ∨ a + bs.length ≤ x) :
    (s.store a bs).byte x = s.byte x := by
  rw [State.byte_store, if_neg (by omega)]

/-- The bytes of a store read back. -/
theorem State.bytes_store (s : State) (a : Nat) (bs : List Byte) : (s.store a bs).bytes a bs.length = bs := by
  apply List.ext_getElem
  · simp [State.bytes]
  · intro i h1 h2
    simp [State.bytes, State.byte_store, h2]

theorem look_filter (m : List Host.Cell) (q : Nat → Bool) (x : Nat) :
    look memDflt (m.filter (fun c => q c.1)) x = if q x then look memDflt m x else memDflt := by
  induction m with
  | nil => simp [look]
  | cons c m ih => simp only [List.filter_cons]; grind [look]

/-- A range that is zeroed reads as zero, and every other address as before. -/
theorem State.byte_zeroRange (s : State) (a n x : Nat) :
    (s.zeroRange a n).byte x = if a ≤ x ∧ x < a + n then 0 else s.byte x := by
  change look memDflt (s.mem.filter (fun c => decide (c.1 < a) || decide (a + n ≤ c.1))) x = _
  rw [look_filter s.mem (fun y => decide (y < a) || decide (a + n ≤ y))]
  by_cases h : a ≤ x ∧ x < a + n
  · rw [if_pos h, if_neg (by simp; omega)]; rfl
  · rw [if_neg h, if_pos (by simp; omega)]; rfl

/-! ### The canonical form -/

/-- Stores keep the canonical form. -/
theorem Memory.wf_storeBytes {m : List Host.Cell} (h : Memory.wf m = true) (a : Nat) (bs : List Byte) :
    Memory.wf (storeBytes m a bs) = true := by
  induction bs generalizing m a with
  | nil => exact h
  | cons b bs ih => exact ih (canonical_put _ m a b h) (a + 1)

/-- Zeroing keeps the canonical form. -/
theorem Memory.wf_filter {m : List Host.Cell} (h : Memory.wf m = true) (q : Host.Cell → Bool) :
    Memory.wf (m.filter q) = true := by
  rw [Memory.wf, canonical_iff] at h ⊢
  exact ⟨h.1.filter q, fun e he => h.2 e (List.mem_filter.1 he).1⟩

theorem State.wf_store {s : State} (h : Memory.wf s.mem = true) (a : Nat) (bs : List Byte) :
    Memory.wf (s.store a bs).mem = true := Memory.wf_storeBytes h a bs

theorem State.wf_zeroRange {s : State} (h : Memory.wf s.mem = true) (a n : Nat) :
    Memory.wf (s.zeroRange a n).mem = true := Memory.wf_filter h _

/-- The state after reset has the canonical form: it lists nothing. -/
theorem State.wf_reset : Memory.wf State.reset.mem = true := rfl

@[simp] theorem State.mem_countUe (s : State) (a : Nat) : (s.countUe a).mem = s.mem := by
  simp only [State.countUe]; split <;> simp

/-- Two memories in canonical form that read alike are equal. -/
theorem Memory.ext {m n : List Host.Cell} (hm : Memory.wf m = true) (hn : Memory.wf n = true)
    (h : ∀ a, look memDflt m a = look memDflt n a) : m = n := by
  rw [Memory.wf, canonical_iff] at hm hn
  induction m generalizing n with
  | nil =>
    cases n with
    | nil => rfl
    | cons d n =>
      have := h d.1
      simp only [look, if_true] at this
      exact absurd this.symm (hn.2 d (List.mem_cons_self ..))
  | cons c m ih =>
    have out (l : List Host.Cell) (k : Nat) (hl : ∀ e ∈ l, k < e.1) : look memDflt l k = memDflt := by
      induction l with
      | nil => rfl
      | cons e l il =>
        have h1 : ¬ e.1 = k := Nat.ne_of_gt (hl e (List.mem_cons_self ..))
        simp only [look, if_neg h1]
        exact il (fun x hx => hl x (List.mem_cons_of_mem _ hx))
    cases n with
    | nil =>
      have := h c.1
      simp only [look, if_true] at this
      exact absurd this (hm.2 c (List.mem_cons_self ..))
    | cons d n =>
      have pm := List.pairwise_cons.1 hm.1
      have pn := List.pairwise_cons.1 hn.1
      have hcd : c.1 = d.1 := by
        by_cases l1 : c.1 < d.1
        · have := h c.1
          rw [out (d :: n) c.1 (by intro e he; rcases List.mem_cons.1 he with rfl | he
                                   · exact l1
                                   · exact Nat.lt_trans l1 (pn.1 e he))] at this
          simp only [look, if_true] at this
          exact absurd this (hm.2 c (List.mem_cons_self ..))
        · by_cases l2 : d.1 < c.1
          · have := h d.1
            rw [out (c :: m) d.1 (by intro e he; rcases List.mem_cons.1 he with rfl | he
                                     · exact l2
                                     · exact Nat.lt_trans l2 (pm.1 e he))] at this
            simp only [look, if_true] at this
            exact absurd this.symm (hn.2 d (List.mem_cons_self ..))
          · omega
      have hv : c.2 = d.2 := by
        have := h c.1
        simpa [look, hcd] using this
      have hc : c = d := Prod.ext hcd hv
      subst hc
      congr 1
      refine ih ⟨pm.2, fun e he => hm.2 e (List.mem_cons_of_mem _ he)⟩
        ⟨pn.2, fun e he => hn.2 e (List.mem_cons_of_mem _ he)⟩ (fun a => ?_)
      have := h a
      simp only [look] at this
      by_cases ha : c.1 = a
      · subst ha; rw [out m c.1 pm.1, out n c.1 pn.1]
      · simpa [ha] using this

/-- A write of one sector keeps the canonical form. -/
theorem State.wf_writeSector {s : State} (h : Memory.wf s.mem = true) (a : Nat) (bs : List Byte) (x : Nat) :
    Memory.wf (s.writeSector a bs x).1.mem = true := by
  simp only [State.writeSector]
  repeat' split
  · simpa using h
  · exact State.wf_store h _ _
  · simpa using h
  · exact State.wf_store h _ _

/-- A write's wait for a copy engine changes no byte of memory. -/
@[simp] theorem State.mem_copyFirst (s : State) (a n : Nat) : (s.copyFirst a n).mem = s.mem := by
  simp only [State.copyFirst]; split <;> simp

/-- Where no copy engine has region frames to read, a write waits for nothing. -/
theorem State.copyFirst_eq {s : State} (a n : Nat) (h : ∀ e ∈ s.ckpt.jobs, e.2.unread = []) : s.copyFirst a n = s := by
  have (l : List (Nat × Job)) (hl : ∀ e ∈ l, e.2.unread = []) (q : Nat → Bool) :
      (l.map (fun e => (e.2.unread.filter q).length)).sum = 0 := by
    induction l with
    | nil => rfl
    | cons e l ih => simp [hl e (List.mem_cons_self ..), ih (fun x hx => hl x (List.mem_cons_of_mem _ hx))]
  simp only [State.copyFirst, this s.ckpt.jobs h, if_true]

/-- A write of device memory keeps the canonical form. -/
theorem State.wf_memWrite {s : State} (h : Memory.wf s.mem = true) (a : Nat) (bs : List Byte) :
    Memory.wf (s.memWrite a bs).1.mem = true := by
  have (l : List Nat) (t : State × Bool) (ht : Memory.wf t.1.mem = true) : Memory.wf
      (l.foldl (fun t x => let r := t.1.writeSector a bs x; (r.1, t.2 && r.2)) t).1.mem = true := by
    induction l generalizing t with
    | nil => exact ht
    | cons x l ih => exact ih _ (State.wf_writeSector ht a bs x)
  exact this _ (s.copyFirst a bs.length, true) (by simpa using h)

/-- A write through a slice's page tables keeps the canonical form. -/
theorem State.wf_vwrite {s : State} (h : Memory.wf s.mem = true) (sl pasid va : Nat) (bs : List Byte) :
    Memory.wf (s.vwrite sl pasid va bs).1.mem = true := by
  simp only [State.vwrite]
  split
  · exact h
  · have (l : List (Nat × Nat)) (t : State × Bool) (ht : Memory.wf t.1.mem = true) : Memory.wf
        (l.foldl (fun (t : State × Bool) p => match t.1.xlate sl pasid p.1 true with
          | some a => let w := t.1.memWrite a ((bs.drop (p.1 - va)).take p.2); (w.1, t.2 && w.2)
          | none => (t.1, false)) t).1.mem = true := by
      induction l generalizing t with
      | nil => exact ht
      | cons p l ih =>
        refine ih _ ?_
        dsimp only
        split
        · exact State.wf_memWrite ht _ _
        · exact ht
    exact this _ (s, true) h

/-- A read changes no byte of memory. -/
@[simp] theorem State.mem_memRead (s : State) (a n : Nat) : (s.memRead a n).1.mem = s.mem := by
  simp only [State.memRead]
  split
  · rfl
  · have (l : List Nat) (t : State) : (l.foldl (fun t x => t.countUe x) t).mem = t.mem := by
      induction l generalizing t with
      | nil => rfl
      | cons x l ih => simp [ih]
    exact this _ s

/-- A read that meets no bad sector answers the bytes and changes nothing. -/
theorem State.memRead_good {s : State} {a n : Nat} (h : ∀ x ∈ sectorsOf a n, s.badSector x = false) :
    s.memRead a n = (s, some (s.bytes a n)) := by
  have : (sectorsOf a n).filter s.badSector = [] := List.filter_eq_nil_iff.2 (by simpa using h)
  simp [State.memRead, this]

/-- A write outside the page tables' reach changes nothing. -/
theorem State.vwrite_unmapped {s : State} {sl pasid va : Nat} {bs : List Byte}
    (h : s.mapped sl pasid va bs.length true = false) : s.vwrite sl pasid va bs = (s, .xlate) := by
  simp [State.vwrite, h]

/-- A read outside the page tables' reach changes nothing. -/
theorem State.vread_unmapped {s : State} {sl pasid va n : Nat}
    (h : s.mapped sl pasid va n false = false) : s.vread sl pasid va n = (s, .xlate) := by
  simp [State.vread, h]

/-- No sector is bad where none is poisoned and no stack has failed. -/
theorem State.badSector_clean {s : State} (h : s.poison = []) (m : ∀ i ∈ s.mis, ∀ x ∈ i.stackSt, x ≠ .failed) (x : Nat) :
    s.badSector x = false := by
  have dead (i : MemIsland) (hi : i ∈ s.mis ∨ i.stackSt = []) (k : Nat) : i.stackSt.getD k .ok ≠ .failed := by
    rcases hi with hi | hi
    · by_cases hk : k < i.stackSt.length
      · simpa [List.getD, hk] using m i hi _ (List.getElem_mem hk)
      · simp [List.getD, hk]
    · simp [hi]
  have hi : s.mi (miOf x) ∈ s.mis ∨ (s.mi (miOf x)).stackSt = [] := by
    unfold State.mi
    by_cases hk : miOf x < s.mis.length
    · left; simp [List.getD, hk]
    · right; simp [List.getD, hk]; rfl
  have hd := dead _ hi (stackOf x % 4)
  simp only [List.getD_eq_getElem?_getD] at hd
  simp [State.badSector, State.poisoned, State.deadStack, h, hd]

/-- A read of a mapped range answers bytes and changes nothing where no sector is bad. -/
theorem State.vread_clean {s : State} {sl pasid va n : Nat} (h : ∀ x, s.badSector x = false)
    (m : s.mapped sl pasid va n false = true) : ∃ bs, s.vread sl pasid va n = (s, .ok bs) := by
  simp only [State.vread, m, Bool.not_true, Bool.false_eq_true, if_false]
  have go (l : List (Nat × Nat)) (bs : List Byte) (hl : ∀ p ∈ l, (s.xlate sl pasid p.1 false).isSome = true) :
      ∃ cs, l.foldl (fun t p =>
        match t.2, t.1.xlate sl pasid p.1 false with
        | .ok bs, some a =>
          match t.1.memRead a p.2 with
          | (u, some cs) => (u, .ok (bs ++ cs))
          | (u, none) => (u, .memerr)
        | r, _ => (t.1, r)) (s, Acc.ok bs) = (s, .ok cs) := by
    induction l generalizing bs with
    | nil => exact ⟨bs, rfl⟩
    | cons p l ih =>
      obtain ⟨a, ha⟩ := Option.isSome_iff_exists.1 (hl p (.head l))
      simp only [List.foldl_cons, ha, State.memRead_good (fun x _ => h x)]
      exact ih _ (fun q hq => hl q (.tail p hq))
  exact go _ [] (by simpa [State.mapped] using m)

end Sys2Proof.Machine
end

