-- ==== Sys2Proof/Tests/Slice0.lean ====
section
/-!
SUPPORT. Tests: the well-formedness checks refuse ill-formed commands, states that meet the hypotheses of every statement, and small
single steps worked out by hand from the rules.
-/
namespace Sys2Proof.Tests
open Sys2Proof Sys2Proof.Machine
set_option Elab.async false

/-! ### Well-formedness: each check refuses an ill-formed command and takes one at its bound -/

theorem wf_datagram : Instr.wf (.odpRequest 0 (List.replicate 65528 0) true) = false ∧ Instr.wf (.odpRequest 0 [1] true) = true := by
  refine ⟨?_, by decide⟩
  rw [Instr.wf, udpOk, List.length_replicate]
  rfl

theorem wf_i3c : Instr.wf (.i3cPrivateWrite 0x50 [] true) = false ∧ Instr.wf (.i3cPrivateWrite 0x50 [0] true) = true := by decide

theorem wf_bar4_read : Instr.wf (.bar4Read 3 2 4 []) = false ∧ Instr.wf (.bar4Read 3 0 0 []) = false ∧ Instr.wf (.bar4Read 3 0 6 []) = false ∧
    Instr.wf (.bar4Read 3 0 4100 []) = false ∧ Instr.wf (.bar4Read 3 0x7FFFFFFC 8 []) = false ∧ Instr.wf (.bar4Read 3 0x7FFFFFFC 4 []) = true ∧
    Instr.wf (.bar4Read 511 0 4096 []) = true := by decide

theorem wf_bar4_write : Instr.wf (.bar4Write 3 0 [1, 2] []) = false ∧ Instr.wf (.bar4Write 3 0x7FFFFFFC [1, 2, 3, 4] []) = true := by decide

theorem wf_island_reset : Instr.wf (.islandReset 25) = false ∧ Instr.wf (.islandReset 24) = true := by decide

theorem wf_thermal : Instr.wf (.thermalSample 3 (-27316)) = false ∧ Instr.wf (.thermalSample 3 32768) = false ∧ Instr.wf (.thermalSample 3 (-27315)) = true := by
  decide

theorem wf_rails : Instr.wf (.railReading (List.replicate 30 none)) = false ∧ Instr.wf (.railReading (List.replicate 31 none)) = true := by decide

theorem wf_cap_period : Instr.wf (.capPeriod ⟨[0, 0], [0, 0, 0], [[], [], []], List.replicate 16 0⟩) = false ∧
    Instr.wf (.capPeriod ⟨[0, 0, 0], [0, 0, 0], [[], [], []], List.replicate 15 0⟩) = false ∧
    Instr.wf (.capPeriod ⟨[0, 0, 0], [0, 0, 0], [[], [], []], List.replicate 16 0⟩) = true := by decide

theorem wf_scrub : Instr.wf (.scrubRead 0 [] 0) = false ∧ Instr.wf (.scrubRead 0 (List.replicate 4 default) 0) = true := by decide

theorem wf_flits : ∀ f ∈ [Instr.numberedFlitReceive 0, .lctlFlitReceive 0, .configFlitReceive 0, .idleFlitReceive 0],
    Instr.wf (f (List.replicate 271 0)) = false ∧ Instr.wf (f (List.replicate 272 0)) = true := by decide +kernel

/-- The queue of tag 7 and its descriptor, a tag at an offset and a length. -/
def wfQ : QCtx := ⟨0, 0, 7⟩
def wfD (o v n : Nat) : List Byte := (List.replicate n 0).set o (BitVec.ofNat 8 v)

theorem wf_descriptors : ∀ x ∈ [(44, Instr.callBarrier wfQ), (44, .callArrive wfQ), (44, .allReduce wfQ), (44, .reduceScatter wfQ),
      (44, .allGather wfQ), (44, .broadcast wfQ), (44, .allToAll wfQ), (44, .groupCreate wfQ), (44, .groupDestroy wfQ),
      (8, fun d => .connOpen wfQ d 0), (8, fun d => .connListen wfQ d 0), (8, fun d => .connClose wfQ d 0), (8, fun d => .connReset wfQ d 0),
      (8, .connQuery wfQ), (8, .connModify wfQ), (4, .wrWrite wfQ), (4, .wrRead wfQ), (4, .wrAtomicFadd wfQ), (4, .wrAtomicCas wfQ),
      (4, .wrSend wfQ), (4, .ckJob wfQ), (4, .ckRegion wfQ), (4, .ckUnregion wfQ), (4, .ckRestore wfQ), (4, .ckResume wfQ), (4, .ckLeave wfQ),
      (4, fun d => .ckExport wfQ d false []), (4, fun d => .ckQuery wfQ d false), (4, fun d => .storWrite wfQ d none),
      (4, fun d => .storRead wfQ d false), (4, fun d => .storQuery wfQ d false), (4, .storFlush wfQ), (4, .storTrim wfQ), (12, .kvCreate wfQ), (12, .kvFork wfQ), (12, .kvAppend wfQ), (12, .kvTruncate wfQ),
      (12, .kvPin wfQ), (12, .kvUnpin wfQ), (12, .kvRelease wfQ), (12, .kvQuery wfQ), (12, .kvSetceil wfQ), (8, .optRegister wfQ),
      (8, .optSethyper wfQ), (8, .optSkip wfQ), (8, .optQuery wfQ), (8, .optRelease wfQ), (8, .optLoad wfQ), (8, .optUnload wfQ)],
    Instr.wf (x.2 (wfD x.1 7 63)) = false ∧ Instr.wf (x.2 (wfD x.1 6 64)) = false ∧ Instr.wf (x.2 (wfD x.1 7 64)) = true := by
  decide +kernel

theorem wf_entries : ∀ f ∈ [fun d => Instr.identify d true, fun d => .ctrlRing d none, fun d => .sliceCreate d none, .sliceDestroy, .map, .unmap,
      .pasidBind, .pasidUnbind, .freeze, .thaw, .chanNotify, fun d => .adminNotice d none, fun d => .save d 0 true, fun d => .restore d none,
      fun d => .sliceQuery d false, .hello 0, .queueCreate 0, .queueDestroy 0, .queueReset 0, .spread 0, .keyQuery 0, fun d => .klaunch 0 d true],
    Instr.wf (f (List.replicate 63 0)) = false ∧ Instr.wf (f (List.replicate 64 0)) = true := by decide +kernel

theorem wf_slice_records : Instr.wf (.sliceCreate (List.replicate 64 0) (some (List.replicate 127 0))) = false ∧
    Instr.wf (.sliceCreate (List.replicate 64 0) (some (List.replicate 128 0))) = true ∧
    Instr.wf (.ctrlRing (List.replicate 64 0) (some (List.replicate 63 0))) = false ∧
    Instr.wf (.ctrlRing (List.replicate 64 0) (some (List.replicate 64 0))) = true := by decide +kernel

theorem test_no_table_word (n w : Nat) : decodeTableWord n w = none := rfl

/-! ### Helpers: small states for one step -/

/-- The state after reset in a service state, with the firmware running, an operator key in the protection set-up, every island
ready and every function bit set. -/
def st (v : Service) : State :=
  { State.reset with keys := { State.reset.keys with setup := some { (default : KeyRec) with opk := some 0 } }, mod := { State.reset.mod with
      svc := v, fns := 63, jumped := true, islands := State.reset.mod.islands.map (fun i => { i with ready := true, istate := .ready }) } }

/-- NORMAL. -/
def nrm : State := st .normal

/-- Whether a command answers a next state that has a property. -/
def gives (c : Instr) (s : State) (p : State → Bool) : Bool :=
  match exec c s with
  | .next t => p t
  | _ => false

/-- A state with its pins changed. -/
def withPins (s : State) (f : Pins → Pins) : State := { s with pins := f s.pins }

/-- A state with its module frame changed. -/
def withMod (s : State) (f : Module → Module) : State := { s with mod := f s.mod }

/-! ### The whole block, supply, islands and straits -/

theorem witness_PowerChainKept : State.reset.pins.pwrOk = true ∧ PowerChain State.reset.pins ∧
    (match step State.reset with | .next t => t.pins.pwrOk | _ => false) = true :=
  ⟨rfl, ⟨by decide, by decide, by decide, by decide⟩, rfl⟩

theorem witness_QueueConsumedInOrder : (match step { State.reset with pending := [.vinRise] } with | .next t => t.pending.isEmpty | _ => false) = true := by
  decide +kernel

theorem witness_PinsChangeOnlyFromOutside : gives .perstNAssert State.reset (fun t => t.pins != State.reset.pins) = true := by decide +kernel

theorem witness_MemoryFormKept : Memory.wf (State.reset.store 64 [1, 0, 2]).mem = true ∧
    (match step { State.reset.store 64 [1, 0, 2] with pending := [.vinRise] } with | .next t => Memory.wf t.mem | _ => false) = true := by
  decide +kernel

theorem witness_StoreReadBack : Memory.wf (State.reset.store 0 [0xFF]).mem = true ∧ (State.reset.store 0 [0xFF]).byte 0 = 0xFF := by decide +kernel

theorem witness_SupplyResetAndClocks_supplyAndResetPins :
    State.reset.pins.regs = true ∧ (withPins nrm (fun p => { p with regs := false })).pins.regs = false ∧
    State.reset.pins.pwrOk = true ∧ State.reset.pins.inReset = false ∧
    (let s := withPins State.reset (fun p => { p with inReset := true })
     s.pins.regs = true ∧ s.pins.pwrOk = true ∧ s.pins.perst = true ∧ s.pins.inReset = true ∧ s.mod.islands.length = 26) := by decide +kernel

theorem witness_SupplyResetAndClocks_clocksAndCables :
    (let s : State := { nrm with ports := [(0, { (default : Port) with st := .detect })] }
     (s.port 0).st ≠ .disabled) ∧
    (let s : State := { nrm with ports := [(7, { (default : Port) with st := .active })] }
     (s.port 7).usable = true) ∧ 8 ≤ (11 : Fin 12).val ∧ 8 * (11 - 8) ≤ 31 ∧ 31 < 8 * (11 - 8) + 8 := by decide +kernel

theorem witness_ControlStrait_controlStraitMessages : CsErr.corrected ≠ .uncorrectable ∧
    (26 ≤ (26 : BitVec 5).toNat ∧ (30 : BitVec 5).toNat < 31) ∧ (31 : BitVec 5).toNat = 31 ∧
    ((24 : BitVec 5).toNat < 25 ∧ (nrm.island 24).istate = .ready) ∧
    ((0 : BitVec 5).toNat < 25 ∧ (State.reset.island 0).istate ≠ .ready) ∧
    (withMod nrm (fun m => { m with holding := true })).mod.holding = true ∧
    (nrm.mod.holding = false ∧ nrm.mod.inbox.length < 4096 ∧ nrm.mod.jumped = true ∧ (nrm.island 25).istate = .ready ∧ nrm.mod.svc = .normal) := by
  decide +kernel

theorem witness_ControlStrait_controlStraitUncorrectable : Instr.csReady 3 25 0 .uncorrectable ∈ [Instr.csReady 3 25 0 .uncorrectable] ∧
    (withMod nrm (fun m => { m with holding := true })).mod.holding = true ∧
    ([Service.normal, .bringup, .test, .switching, .boot, .recovery].all (fun v =>
      (st v).mod.svc == v && (st v).mod.holding == false && decide ((st v).mod.inbox.length < 4096))) = true := by decide +kernel

/-- Strait 0 of tensor island 0 to memory island 0 is up, with one direction towards MI set, and every island has risen. -/
def strait0 (d : StraitDir) : State :=
  withMod nrm (fun m => { m with
    islands := m.islands.map (fun i => { i with risen := true })
    straits := [(0, { (default : Strait) with up := true, toMi := d })] })

/-- A unit of a stream of tensor island 0 to a granule of memory island 0. -/
def unit0 (v : BitVec 64) : StraitUnit := ⟨.stream 0 0x3000, v⟩

theorem witness_DataStraitsAndIslands_dataStraits :
    (let s := strait0 ⟨[⟨unit0 1, 2, false⟩], 0, 31⟩
     s.straitOpen 0 = true ∧ s.onStrait 0 true (unit0 2).org = true ∧ ((s.strait 0).dir true).used < 32 ∧
       (∀ c ∈ ((s.strait 0).dir true).copies, c.waits (unit0 2) = false)) ∧
    (let s := strait0 ⟨[⟨unit0 1, 1, false⟩, ⟨unit0 2, 2, false⟩], 0, 2⟩
     s.straitOpen 0 = true ∧ s.onStrait 0 true (unit0 2).org = true ∧
       ((s.strait 0).dir true).copies = [⟨unit0 1, 1, false⟩] ++ ⟨unit0 2, 2, false⟩ :: [] ∧
       (∀ b ∈ [(⟨unit0 1, 1, false⟩ : StraitCopy)], b.waits (unit0 2) = false) ∧ StraitCopy.waits ⟨unit0 2, 2, false⟩ (unit0 2) = true) ∧
    (let s := strait0 ⟨[⟨unit0 1, 1, false⟩, ⟨unit0 2, 2, false⟩], 0, 2⟩
     s.straitOpen 0 = true ∧ (∃ c ∈ ((s.strait 0).dir true).copies, 0 < c.fails) ∧ (∀ c ∈ ((s.strait 0).dir true).copies, c.fails < 3)) ∧
    (let s := strait0 ⟨[⟨unit0 1, 0, true⟩, ⟨unit0 2, 3, false⟩], 0, 2⟩
     s.straitOpen 0 = true ∧ (∃ c ∈ ((s.strait 0).dir true).copies, 3 ≤ c.fails) ∧ s.mod.islands.length = 26) ∧
    (let s := strait0 ⟨[], 1, 1⟩
     0 < ((s.strait 0).dir true).held ∧ 0 < ((s.strait 0).dir true).used) := by decide +kernel

theorem witness_DataStraitsAndIslands_islandsAndServiceState :
    (State.reset.mod.islands.length = 26 ∧ (State.reset.island 25).istate = .selftest ∧ (State.reset.island 23).istate = .selftest ∧
      (withMod State.reset (fun m => { m with svc := .bringup })).mod.svc = .bringup ∧ (1 : BitVec 32) ≠ 0) ∧
    (nrm.fwRuns = true ∧ (nrm.island 24).istate = .ready ∧ (st .recovery).mod.svc = .recovery ∧ (st .recovery).fwRuns = true ∧
      ((st .recovery).island 16).istate = .ready) ∧
    ((st .bringup).mod.svc = .bringup ∧ (st .bringup).coreReady = true ∧ (st .bringup).mod.bootFault = false) ∧
    ((st .recovery).mod.svc = .recovery ∧ (st .recovery).coreReady = true ∧ (st .recovery).mod.jumped = true ∧
      (st .recovery).stackFailed = false) := by decide +kernel

theorem test_ready_message : gives (.csReady 3 25 0b111 .clean) nrm (fun t => t.mod.inbox == [⟨25, 3, 0, 7, 0, 0, 0⟩]) = true ∧
    gives (.csReady 3 25 0b111 .clean) (withMod nrm (fun m => { m with holding := true })) (fun t => t.mod.inbox == [] && t.mgiHold.length == 1) = true := by
  decide +kernel

theorem test_deemed_release : gives (.perstNDeemedRelease 5) (withPins State.reset (fun p => { p with inReset := true }))
    (fun t => t.obj 0x1018 4 == 5 && !t.pins.inReset) = true := by decide +kernel

/-! ### The object dictionary -/

/-- NORMAL with the key record of an operator key whose 48 bytes are zero. -/
def keyed : State := { nrm with keys := { nrm.keys with copyB := { (default : KeyRec) with opk := some 0 } } }

/-- The wrap key of `keyed`. -/
def wrapK : List Byte := kdf (leBytes 48 0) (ascii "wrap") 32

/-- A record for `NEXT_SECRET`: identifier 1, nonce and secret zero. -/
def secretRec : List Byte :=
  let c := gcmCrypt wrapK (leBytes 12 0) (leBytes 32 0)
  leBytes 8 1 ++ (leBytes 12 0 ++ (c ++ (gcmTag wrapK (leBytes 12 0) (leBytes 8 1) c ++ [])))

/-- A record for `NEXT_OPK`: nonce and key zero. -/
def opkRec : List Byte :=
  let c := gcmCrypt wrapK (leBytes 12 0) (leBytes 48 0)
  leBytes 12 0 ++ (c ++ (gcmTag wrapK (leBytes 12 0) [] c ++ []))

/-- A state with a job of slice 3 in a state. -/
def withJob (s : State) (j : JobState) : State :=
  { s with ckpt := { s.ckpt with jobs := [(3, { (default : Job) with id := 77, st := j })] } }

theorem witness_ConfigurationWritesWait :
    let s : State := { nrm with dict := { nrm.dict with obj := [(0x600002, 8 * 2 ^ 40), (0x600004, 0), (0x600005, 0)] } }
    s.serverUp = true ∧ s.dict.queue = [] ∧ s.opk.isSome = true ∧ Path.odp ≠ .mbx ∧ Path.odp ≠ .i3c ∧
    (600 ≤ (600 : BitVec 16).toNat ∧ (2600 : BitVec 16).toNat ≤ 2600) ∧
    s.spaceCheck (2 ^ 40) (2 ^ 40) (s.nextVal 0x6000 5) = 0 ∧ s.spaceCheck (2 ^ 40) (s.nextVal 0x6000 4) (2 ^ 40) = 0 ∧
    s.spaceCheck (7 * 2 ^ 40) (7 * 2 ^ 40) 0 = 0 ∧
    ((leBytes 16 (2 ^ 80 + 511 * 2 ^ 64 + 2 ^ 30)).length = 16 ∧
      s.volCheck (s.obj 0x6100 1) (leNat (leBytes 16 (2 ^ 80 + 511 * 2 ^ 64 + 2 ^ 30)) % 2 ^ 82) = 0) ∧
    ((leBytes 32 (qDflt 0)).length = 32 ∧ s.qConfigCheck (leNat (leBytes 32 (qDflt 0)) % 2 ^ 18 + 2 ^ 32 * bits (leNat (leBytes 32 (qDflt 0))) 159 32) = 0) ∧
    ((leBytes 16 ssDflt).length = 16 ∧ ssConfigCheck (leNat (leBytes 16 ssDflt) % 2 ^ 65) = 0) ∧
    (let r := 9216 * 2 ^ 96 + 2048
     (leBytes 32 r).length = 32 ∧ s.polConfigCheck (s.obj 0x3800 1) (maskReserved 0x3800 2 (leNat (leBytes 32 r))) = 0) ∧
    s.bindCheck 7 15 0 = 0 := by decide +kernel

theorem witness_RequestAndImmediateWrites_requestWrites :
    (nrm.serverUp = true ∧ nrm.opk.isSome = true ∧ nrm.dict.queue = [] ∧ nrm.mod.svc ≠ .boot ∧ nrm.mod.svc ≠ .switching ∧ (nrm.island 24).istate ≠ .resetting ∧
      (nrm.island 15).istate ≠ .resetting ∧ ((st .recovery).island 16).istate ≠ .resetting ∧ (st .recovery).serverUp = true) ∧
    (let s := withMod nrm (fun m => { m with islands := m.islands.map (fun i => { i with istate := .resetting }) })
     s.mod.svc = .normal ∧ (s.island 15).istate = .resetting) ∧
    (nrm.mod.req = none ∧ nrm.sliceIds = [] ∧ nrm.keys.secret = none) ∧
    ({ nrm with host := { nrm.host with slices := [(3, { (default : Slice) with st := .active })] } } : State).sliceIds ≠ [] ∧
    ((st .test).serverUp = true ∧ (st .test).mod.testEnding = false ∧ (st .test).mod.req = none) ∧
    ({ nrm with keys := { nrm.keys with secret := some (1, 2) } } : State).keys.secret.isSome = true := by decide +kernel

theorem witness_RequestAndImmediateWrites_immediateWrites :
    nrm.serverUp = true ∧ nrm.dict.queue = [] ∧ nrm.opk.isSome = true ∧ Path.odp ≠ .i3c ∧
    routeCheck (List.replicate 1024 0) = 0 ∧
    ((leBytes 140 (2 ^ 1056 * (4095 * 2 ^ 26) + 255)).length = 140 ∧ leNat (leBytes 140 (2 ^ 1056 * (4095 * 2 ^ 26) + 255)) = 2 ^ 1056 * (4095 * 2 ^ 26) + 255 ∧
      ({ nrm with dict := { nrm.dict with obj := [(0x360002, 256)] } } : State).clsWriteCheck true (maskReserved 0x3600 3 (2 ^ 1056 * (4095 * 2 ^ 26) + 255)) = 0) ∧
    ({ nrm with dict := { nrm.dict with obj := [(0x360002, 8192)] } } : State).clsValidCheck true 8191 = 0 ∧
    (withJob nrm .armed).noticeCheck (leBytes 16 (3 + 77 * 2 ^ 64)) = 0 ∧
    (withJob nrm .fenced).noticeCheck (leBytes 16 (3 + 77 * 2 ^ 64)) = 3 ∧
    (withJob nrm .fenced).unfenceCheck ((3 : BitVec 16).toNat % 512) = 0 ∧
    ((leBytes 8 78).length = 8 ∧ (withJob nrm .armed).jobSlice (leNat (leBytes 8 78)) = none) ∧
    ((leBytes 8 77).length = 8 ∧ ((withJob nrm .armed).jobSlice (leNat (leBytes 8 77))).isSome = true) ∧
    ((leBytes 68 0).length = 68 ∧ nrm.keys.openSecret (leBytes 68 0) = none) := by decide +kernel

theorem secret_opens : secretRec.length = 68 ∧ keyed.keys.openSecret secretRec = some (1, 0) := by
  have a : bytesAt secretRec 0 8 = leBytes 8 1 := bytesAt_first _ _ (by simp)
  have f : fieldAt secretRec 0 8 = 1 := (fieldAt_first (leBytes 8 1) _ (by simp)).trans (by decide)
  have i : bytesAt secretRec 8 12 = leBytes 12 0 := bytesAt_mid _ _ _ (by simp) (by simp)
  have c : bytesAt secretRec 20 32 = gcmCrypt wrapK (leBytes 12 0) (leBytes 32 0) := by
    rw [secretRec, ← List.append_assoc]
    exact bytesAt_mid _ _ _ (by simp) (by simp)
  have g : bytesAt secretRec 52 16 = gcmTag wrapK (leBytes 12 0) (leBytes 8 1) (gcmCrypt wrapK (leBytes 12 0) (leBytes 32 0)) := by
    rw [secretRec, ← List.append_assoc, ← List.append_assoc]
    exact bytesAt_mid _ _ _ (by simp) (by simp)
  have w : keyed.keys.wrapKey = some wrapK := rfl
  refine ⟨by simp [secretRec], ?_⟩
  simp only [Keys.openSecret, f, w, a, i, c, g, gcmOpen_sealed, Option.map_some]
  decide

theorem opk_opens : opkRec.length = 76 ∧ keyed.keys.openOpk opkRec = some 0 := by
  have i : bytesAt opkRec 0 12 = leBytes 12 0 := bytesAt_first _ _ (by simp)
  have c : bytesAt opkRec 12 48 = gcmCrypt wrapK (leBytes 12 0) (leBytes 48 0) := bytesAt_mid _ _ _ (by simp) (by simp)
  have g : bytesAt opkRec 60 16 = gcmTag wrapK (leBytes 12 0) [] (gcmCrypt wrapK (leBytes 12 0) (leBytes 48 0)) := by
    rw [opkRec, ← List.append_assoc]
    exact bytesAt_mid _ _ _ (by simp) (by simp)
  have w : keyed.keys.wrapKey = some wrapK := rfl
  refine ⟨by simp [opkRec], ?_⟩
  simp only [Keys.openOpk, w, i, c, g, gcmOpen_sealed, Option.map_some]
  decide

theorem witness_FirmwareAndRecorderWrites :
    (nrm.serverUp = true ∧ nrm.opk.isSome = true ∧ nrm.mod.svc = .normal ∧ nrm.ckpt.jobs.any (fun e => decide (e.2.st ≠ .none)) = false ∧ (st .test).mod.svc = .test) ∧
    (let f (x : StageState) : State := { nrm with firm := { nrm.firm with stage := x } }
     (f .loading).firm.stage = .loading ∧ (f .staged).firm.stage ≠ .loading ∧ (f .staged).firm.stage = .staged ∧
     (List.replicate 1024 (0 : Byte)).length = 1024 ∧ (f .loading).stageDataCheck = 0) ∧
    (let s : State := { nrm with nor := { nrm.nor with bankA := [(16, 9)], svnMin := 8 } }
     s.svnCheck 9 = 0 ∧ s.svnCheck 8 ≠ 0) ∧
    (let s : State := { nrm with rcd := { nrm.rcd with freeze := true }, nor := { nrm.nor with log := [default, default] } }
     s.rcd.freeze = true ∧ s.rcd.erasing = false ∧ (1 : BitVec 32).toNat < s.recCount) ∧
    nrm.rcd.freeze = false := by decide +kernel

theorem witness_DeniedWriteChangesNothing :
    (nrm.dict.queue = [] ∧ nrm.serverUp = true ∧ nrm.opk.isSome = true ∧
      nrm.writeCode .odp (ownEntry 0x8000 1 (leBytes 2 599)) = 4 ∧ nrm.writeCode .odp (ownEntry 0x8000 1 (leBytes 2 2601)) ≠ 0 ∧
      nrm.writeCode .mbx (ownEntry 0x200C 0xC (leBytes 1 1)) ≠ 0 ∧ nrm.writeCode .i3c (ownEntry 0x7200 1 [1]) ≠ 0) ∧
    (let s : State := { nrm with keys := { nrm.keys with setup := none } }
     s.serverUp = true ∧ s.opk = none ∧ s.dict.queue = []) ∧
    (State.reset.serverUp = false ∧ State.reset.dict.queue = [] ∧ State.reset.dict.mbx.busy = false ∧ State.reset.barHalted = false) ∧
    (let s := withPins State.reset (fun p => { p with inReset := true })
     s.serverUp = false ∧ s.romServes = false) := by decide +kernel

theorem test_cap_bounds :
    gives (.capWrite .odp 600) nrm (fun t => t.dict.pend.length == 1) = true ∧
    gives (.capWrite .odp 599) nrm (fun t => t.dict.pend.isEmpty) = true := by decide +kernel

/-! ### The control surfaces -/

/-- A datagram that reads `1020`, with a sequence number, before its tag. -/
def odpHead (n : Nat) : List Byte := [0x4F, 0x44, 1, 1] ++ leBytes 4 0 ++ beBytes 8 n ++ beBytes 2 1 ++ beBytes 2 8 ++ leBytes 4 0 ++ leBytes 8 0x1020

/-- The datagram with its tag under the operator key zero. -/
def odpWhole : List Byte := odpHead 1000 ++ hmac384 (leBytes 48 0) (odpHead 1000)

/-- NORMAL with a server and the operator key zero; `n` requests wait. -/
def odpState (high : Option Nat) (n : Nat) : State :=
  { nrm with
    keys := { nrm.keys with setup := some { (default : KeyRec) with opk := some 0 } }
    dict := { nrm.dict with odpHigh := high, queue := List.replicate n { (default : DictReq) with path := .odp } } }

theorem odp_tag : odpTagOk 0 odpWhole = true := by decide +kernel

theorem witness_OdpAndI3c_odpChecks :
    State.reset.serverUp = false ∧
    (let s : State := { nrm with keys := { nrm.keys with setup := none } }
     s.serverUp = true ∧ s.opk = none) ∧
    (nrm.serverUp = true ∧ nrm.opk = some 0 ∧ odpEntries (odpHead 1000) = none ∧ (odpEntries (odpHead 1000 ++ leBytes 48 0)).isSome = true) ∧
    odpTagOk 0 (odpHead 1000 ++ leBytes 48 0) = false ∧
    (odpEntries odpWhole).isSome = true ∧ beNat ((odpWhole.drop 8).take 8) = 1000 ∧
    (odpState (some 1000) 0).dict.odpHigh = some 1000 ∧
    (∀ h ∈ (odpState (some 1065) 0).dict.odpHigh, 1000 + 64 < h) ∧ (odpState (some 1065) 0).dict.odpHigh ≠ none ∧
    (∀ h ∈ (odpState (some 999) 62).dict.odpHigh, h < 1000) ∧
    62 ≤ ((odpState (some 999) 62).dict.queue.filter (fun r => r.path == .odp)).length ∧
    ((odpState (some 999) 61).dict.queue.filter (fun r => r.path == .odp)).length < 62 := by decide +kernel

theorem witness_OdpAndI3c_i3cTarget :
    ([1, 7] : List Byte) ≠ [] ∧ (0x5F : BitVec 7).toNat = 0x50 + ({ nrm with dict := { nrm.dict with obj := [(0x101804, 15)] } } : State).obj 0x1018 4 ∧
    (0x50 : BitVec 7).toNat = 0x50 + nrm.obj 0x1018 4 ∧ (0x51 : BitVec 7) ≠ 0x50 ∧
    (crc8 ([1, 0x20, 0x10, 0, 0] : List Byte) = 14 ∧ crc8 ([1, 0x20, 0x10, 0, 0] : List Byte) ≠ 15) ∧
    (let s : State := { nrm with dict := { nrm.dict with i3cBusy := true } }
     s.dict.i3cBusy = true) ∧
    (nrm.dict.i3cBusy = false ∧ nrm.romServes = false ∧ nrm.serverUp = true ∧ (nrm.romServes || nrm.serverUp) = true ∧
      nrm.dict.i3cResp = none) ∧
    (State.reset.dict.i3cBusy = false ∧ State.reset.romServes = true ∧ crc8 ([1] : List Byte) = 7 ∧ i3cParse [1, 7] = none) ∧
    (let s : State := { nrm with dict := { nrm.dict with i3cResp := some [0, 1] } }
     (s.romServes || s.serverUp) = true ∧ s.dict.i3cResp = some [0, 1]) ∧
    (let s := withPins State.reset (fun p => { p with inReset := true })
     (s.romServes || s.serverUp) = false) := by decide +kernel

theorem witness_MailboxRequests_mailbox :
    (let s : State := { nrm with dict := { nrm.dict with mbx := { nrm.dict.mbx with busy := true } } }
     s.firm.phase ≠ .halted ∧ s.dict.mbx.busy = true) ∧
    (nrm.dict.mbx.busy = false ∧ nrm.host.pf0.msixEnable = false ∧ nrm.host.pf0.intxDisable = false) := by decide +kernel

theorem witness_MailboxRequests_mailboxAnswers :
    (let s : State := { nrm with dict := { nrm.dict with mbx := { nrm.dict.mbx with buf := leBytes 8 0x1020 } } }
     s.firm.phase ≠ .halted ∧ s.serverUp = true ∧ s.dict.queue = [] ∧ s.dict.mbx.busy = false ∧ s.pendingOf 0x1020 0 = none ∧
     s.dict.mbx.buf = leBytes 8 0x1020) := by decide +kernel

/-- NORMAL with slice 3 ACTIVE. -/
def sl3 : State := { nrm with host := { nrm.host with slices := [(3, { (default : Slice) with st := .active })] } }

theorem witness_WideValuesAndBusErrors_wideValues :
    ((sl3.slice 3).st ≠ .free ∧ (sl3.slice 3).st ≠ .destroying ∧ (sget sl3.dict.wmb (1 + 3)).run = false ∧ sl3.wideLive = true) ∧
    (let s : State := { sl3 with dict := { sl3.dict with wmb := [(4, { (default : Wmb) with run := true })] } }
     (sget s.dict.wmb (1 + 3)).run = true) ∧
    (let s : State := { sl3 with dict := { sl3.dict with wideLo := [(4 * 65536 + 0x2000 + 8 * 1023, 7)] } }
     look 0 s.dict.wideLo ((1 + 3) * 65536 + 0x2000 + 8 * 1023) = (7 : BitVec 32).toNat) ∧
    (withMod sl3 (fun m => { m with svc := .recovery })).wideLive = false := by decide +kernel

theorem witness_WideValuesAndBusErrors_busErrors :
    ((sl3.slice 4).st = .free ∧ (3 : BitVec 26).toNat % 4 ≠ 0) ∧
    ({ nrm with firm := { nrm.firm with phase := .halted } } : State).firm.phase = .halted := by decide +kernel

theorem test_mailbox_reads_state :
    gives (.mbxGo 8 1 false true) { nrm with dict := { nrm.dict with mbx := { nrm.dict.mbx with buf := leBytes 8 0x1020 } } }
      (fun t => t.dict.mbx.done && t.dict.mbx.status == 0 && fieldAt t.dict.mbx.buf 8 1 == 2) = true := by decide +kernel

theorem witness_WideValuesAndBusErrors_registerReads :
    nrm.gloveThere 511 = false ∧ ({ nrm with host := { nrm.host with slices := [(511, { (default : Slice) with st := .active })] } } : State).gloveThere 511 = true ∧
    nrm.barHalted = false ∧ ({ nrm with firm := { nrm.firm with phase := .halted } } : State).barHalted = true ∧
    (0x4000 % 4 = 0 ∧ 0x7FFC % 4 = 0 ∧ 0x1FFC < 0x2000) := by decide +kernel

/-! ### Itette sequencers -/

/-- `State.issues` as a check. -/
def issuesOk (s : State) (h : Hdr) (gs : List (BitVec 5)) (ps : List (BitVec 3)) : Bool :=
  s.live h.seq.val && decide ((s.seqr h.seq.val).pfx = none) && decide ((s.seqr h.seq.val).pred (h.guard.toNat % 8) ≠ bit h.guard.toNat 3) &&
  decide (∀ g ∈ gs, g.toNat ∉ (s.seqr h.seq.val).awaited) &&
  decide (isS h.seq.val = true → h.guard.toNat % 8 < 4 ∧ (∀ g ∈ gs, g.toNat < 16) ∧ ∀ p ∈ ps, p.toNat < 4)

theorem issuesOk_sound {s : State} {h : Hdr} {gs ps} (hb : issuesOk s h gs ps = true) : s.issues h gs ps := by
  simp only [issuesOk, Bool.and_eq_true, decide_eq_true_eq] at hb
  exact ⟨hb.1.1.1.1, hb.1.1.1.2, hb.1.1.2, hb.1.2, hb.2⟩

/-- Sequencer `q` runs with code at 0–4095, a trap table, a stack window and some registers. -/
def run (q : Nat) (f : Seqr → Seqr) : State :=
  { nrm with seqs := [(q, f { (default : Seqr) with
      run := .running, codeHi := 4096, winsize := 0x4000000, tvbase := 64, rslo := 0x100000, rshi := 0x101000, rsp := 0x100800
      dslo := 2 ^ 63 + 0x200000, dshi := 2 ^ 63 + 0x201000, g := [(1, 5), (2, 2 ^ 63 + 0x2000), (3, 8), (29, 2 ^ 63 + 0x200800)] })] }

/-- The header of sequencer `q` under p0. -/
def hd (q : Fin 49) : Hdr := ⟨q, 0, 0, .clean, 0⟩

theorem witness_RegisterArithmetic_aluRegister :
    issuesOk (run 15 id) (hd 15) [31, 1, 0] [] = true ∧ issuesOk (run 48 id) (hd 48) [15, 0, 15] [] = true ∧
    Instr.add (hd 15) 31 1 0 ∈ [Instr.add (hd 15) 31 1 0] := by decide +kernel

theorem witness_RegisterArithmetic_countsAndImmediates :
    issuesOk (run 15 id) (hd 15) [31, 1, 0] [] = true ∧ issuesOk (run 0 id) (hd 0) [31, 1] [] = true ∧
    issuesOk (run 0 id) (hd 0) [31] [] = true ∧ (63 : BitVec 11).toNat < 64 := by decide +kernel

theorem witness_ComparesAndPredicates :
    issuesOk (run 15 id) (hd 15) [1, 2] [7, 6] = true ∧ (7 : BitVec 3) ≠ 6 ∧ issuesOk (run 48 id) (hd 48) [] [3, 2, 1] = true ∧
    issuesOk (run 48 id) (hd 48) [1] [0, 0] = true ∧ issuesOk (run 48 id) (hd 48) [15, 0, 0] [] = true ∧
    issuesOk (run 48 id) (hd 48) [0, 15, 0] [] = true := by decide +kernel

theorem witness_GuardPrefixAndUndef :
    (isS 15 = false ∧ (run 15 id).live 15 = true ∧ ((run 15 id).seqr 15).awaited = [] ∧ ((run 15 id).seqr 15).pfx = none ∧
      ((run 15 id).seqr 15).pred ((8 : BitVec 4).toNat % 8) = bit (8 : BitVec 4).toNat 3 ∧ ((run 15 id).seqr 15).inTrap = false ∧
      ((run 15 id).seqr 15).tvbase ≠ 0 ∧ (1 : BitVec 3) ≠ 0 ∧ (1 : BitVec 5) ≠ 0) ∧
    (((run 15 (fun z => { z with pfx := some (2 ^ 21 - 1) })).seqr 15).pfx = some (BitVec.allOnes 21).toNat) ∧
    (isS 17 = true ∧ (run 17 id).live 17 = true ∧ ((run 17 id).seqr 17).awaited = [] ∧ 16 ≤ (16 : BitVec 5).toNat) := by decide +kernel

theorem witness_ControlTransfer :
    (let z := (run 15 id).seqr 15
     issuesOk (run 15 id) (hd 15) [] [] = true ∧ z.target (unsigned 64 ((z.pc : Int) + (1023 : BitVec 21).toInt * 4)) = true ∧
     z.target (unsigned 64 ((z.pc : Int) + (1024 : BitVec 21).toInt * 4)) = false ∧
     z.target (unsigned 64 ((z.pc : Int) + (2 ^ 21 - 1 : BitVec 21).toInt * 4)) = false ∧ z.inTrap = false ∧ z.tvbase ≠ 0 ∧
     issuesOk (run 15 id) (hd 15) [0, 3, 0] [] = true ∧ z.target (z.gpr 3).toNat = true) ∧
    (let z := (run 15 (fun z => { z with rsp := z.rslo + 8 })).seqr 15
     z.rslo + 8 ≤ z.rsp ∧ z.rsp < 2 ^ 64) ∧
    (let z := (run 0 (fun z => { z with rsp := z.rslo })).seqr 0
     z.rsp = z.rslo ∧ 8 ≤ z.rslo ∧ z.rslo < 2 ^ 64) ∧
    (((run 17 id).seqr 17).stkmode = 0 ∧ issuesOk (run 17 id) (hd 17) [] [] = true ∧ issuesOk (run 17 id) (hd 17) [0, 0, 0] [] = true ∧
      ((run 17 (fun z => { z with rets := [(7, 64)] })).seqr 17).target (look 0 [(7, 64)] ((0 + 7) % 8)) = true) ∧
    (let z := (run 48 (fun z => { z with stkmode := 1, rsdepth := 8 })).seqr 48
     z.stkmode = 1 ∧ z.rsdepth = 8 ∧ z.target (unsigned 64 ((z.pc : Int) + (1 : BitVec 21).toInt * 4)) = true) ∧
    (let s := run 15 (fun z => { z with rsp := z.rshi - 8 })
     let z := s.seqr 15
     z.rsp + 8 ≤ z.rshi ∧ z.rsp + 8 < 2 ^ 64 ∧ s.wordBad (localBase 15 + z.rsp % 2 ^ 26) = false ∧
     z.target (leNat (s.bytes (localBase 15 + z.rsp % 2 ^ 26) 8)) = true) ∧
    (let z := (run 15 (fun z => { z with rsp := z.rshi })).seqr 15
     z.rshi < (z.rsp + 8) % 2 ^ 64) := by decide +kernel

theorem witness_LocalLoadsAndStores_localLoads :
    (let s := run 15 (fun z => { z with b := [(3, 2 ^ 32 + 16)] })
     let z := s.seqr 15
     issuesOk s (hd 15) [31] [] = true ∧ bits (look 0 z.b 3) 33 32 = 1 ∧ z.localOk 15 (16 * 65536 + 8191 * 8) 8 false = true ∧
     16 * 65536 + 8191 * 8 + 8 ≤ 2 ^ 26 ∧ s.wordBad (localBase 15 + (16 * 65536 + 8191 * 8)) = false ∧ z.ops = [] ∧
     16 * 65536 + 8191 * 8 = bits (look 0 z.b 3) 31 0 * 65536 + (8191 : BitVec 13).toNat * 8) ∧
    (let s := run 0 (fun z => { z with g := [(2, 2 ^ 63 + 2 ^ 26 - 8)] })
     let z := s.seqr 0
     issuesOk s (hd 0) [31, 2] [] = true ∧ (z.gpr 2 + (0 : BitVec 11).signExtend 64).toNat = 2 ^ 63 + (2 ^ 26 - 8) ∧ (2 ^ 26 - 8) % 8 = 0 ∧
     z.localOk 0 (2 ^ 26 - 8) 8 false = true ∧ s.wordBad (localBase 0 + (2 ^ 26 - 8)) = false ∧ z.ops = []) := by decide +kernel

theorem witness_LocalLoadsAndStores_localStores :
    (let s := run 15 (fun z => { z with b := [(3, 2 ^ 32 + 16)] })
     let z := s.seqr 15
     issuesOk s (hd 15) [31] [] = true ∧ bits (look 0 z.b 3) 33 32 = 1 ∧ z.localOk 15 (16 * 65536 + 8191 * 8) 8 true = true ∧
     16 * 65536 + 8191 * 8 + 8 ≤ 2 ^ 26 ∧ z.ops = [] ∧
     16 * 65536 + 8191 * 8 = bits (look 0 z.b 3) 31 0 * 65536 + (8191 : BitVec 13).toNat * 8) ∧
    (let s := run 0 (fun z => { z with g := [(2, 2 ^ 63 + 2 ^ 26 - 8)] })
     let z := s.seqr 0
     issuesOk s (hd 0) [31, 2] [] = true ∧ (z.gpr 2 + (0 : BitVec 11).signExtend 64).toNat = 2 ^ 63 + (2 ^ 26 - 8) ∧ (2 ^ 26 - 8) % 8 = 0 ∧
     z.localOk 0 (2 ^ 26 - 8) 8 true = true ∧ z.ops = []) := by decide +kernel

theorem witness_AddressTraps :
    (let z := (run 15 id).seqr 15
     z.inTrap = false ∧ z.tvbase ≠ 0 ∧ issuesOk (run 15 id) (hd 15) [31, 1] [] = true ∧ issuesOk (run 15 id) (hd 15) [31] [] = true ∧
     (z.gpr 1 + (0 : BitVec 11).signExtend 64).toNat % 8 ≠ 0 ∧
     (run 15 id).xlate z.slice z.pasid (z.gpr 1 + (0 : BitVec 11).signExtend 64).toNat false = none ∧
     (run 15 id).xlate z.slice z.pasid (z.gpr 1 + (0 : BitVec 11).signExtend 64).toNat true = none) ∧
    (let adr (v : Nat) := (((run 15 (fun z => { z with g := [(1, BitVec.ofNat 64 v)] })).seqr 15).gpr 1 + (0 : BitVec 11).signExtend 64).toNat
     2 ^ 63 + 2 ^ 26 ≤ adr (2 ^ 63 + 2 ^ 26) ∧ (2 ^ 57 ≤ adr (2 ^ 57) ∧ adr (2 ^ 63 - 1) < 2 ^ 63) ∧ adr (2 ^ 57 - 1) < 2 ^ 57 ∧
     (2 ^ 63 ≤ adr (2 ^ 63 + 0x100000) ∧ 0x100000 % 2 ^ 63 ≤ adr (2 ^ 63 + 0x100000) - 2 ^ 63 ∧
       adr (2 ^ 63 + 0x100FFF) - 2 ^ 63 < 0x101000 % 2 ^ 63) ∧ adr (2 ^ 63 + 4095) - 2 ^ 63 < 4096) ∧
    2 ≤ bits (look 0 ((run 15 (fun z => { z with b := [(1, 2 ^ 33)] })).seqr 15).b 1) 33 32 := by decide +kernel

theorem witness_StackAndAtomics :
    (let s := run 15 (fun z => { z with g := [(29, 2 ^ 63 + 0x200008), (1, 5)] })
     let z := s.seqr 15
     issuesOk s (hd 15) [0, 1, 0, 29] [] = true ∧ (z.gpr 29).toNat = 2 ^ 63 + 0x200000 + 8 ∧ z.localOk 15 0x200000 8 true = true ∧
     z.dslo ≤ 2 ^ 63 + 0x200000 ∧ s.wordBad (localBase 15 + 0x200000) = false ∧ z.ops = []) ∧
    (let z := (run 15 (fun z => { z with g := [(29, 2 ^ 63 + 0x200000)] })).seqr 15
     (z.gpr 29).toNat = 2 ^ 63 + 0x1FFFF8 + 8 ∧ z.localOk 15 0x1FFFF8 8 true = true ∧ 2 ^ 63 + 0x1FFFF8 < z.dslo) ∧
    (let s := run 15 (fun z => { z with g := [(29, 2 ^ 63 + 0x200FF8)] })
     let z := s.seqr 15
     issuesOk s (hd 15) [31, 0, 0, 29] [] = true ∧ (z.gpr 29).toNat = 2 ^ 63 + 0x200FF8 ∧ z.localOk 15 0x200FF8 8 false = true ∧
     2 ^ 63 + 0x200FF8 + 8 ≤ z.dshi) ∧
    (let z := (run 15 (fun z => { z with g := [(29, 2 ^ 63 + 0x201000)] })).seqr 15
     (z.gpr 29).toNat = 2 ^ 63 + 0x201000 ∧ z.localOk 15 0x201000 8 false = true ∧ z.dshi < 2 ^ 63 + 0x201000 + 8) ∧
    (let s := run 15 id
     let z := s.seqr 15
     issuesOk s (hd 15) [4, 2, 1] [] = true ∧ (z.gpr 2).toNat = 2 ^ 63 + 0x2000 ∧ z.localOk 15 0x2000 8 true = true ∧
     BitVec.ofNat 64 (leNat (s.bytes (localBase 15 + 0x2000) 8)) = z.gpr 4 ∧
     BitVec.ofNat 64 (leNat (s.bytes (localBase 15 + 0x2000) 8)) ≠ z.gpr 1) := by decide +kernel

theorem witness_SystemInstructions :
    (let s := run 15 id
     let z := s.seqr 15
     issuesOk s (hd 15) [0, 0, 0] [] = true ∧ isMgmt 15 = false ∧ issuesOk s (hd 15) [0] [] = true ∧ z.inTrap = false ∧ z.tvbase ≠ 0 ∧
     z.ops = [] ∧ listed (0x7C * 2 ^ 21 : BitVec 32).toNat = false ∧ (z.gpr 0).toNat ≤ z.evcount ∧ z.evcount < 2 ^ 63 ∧
     z.evcount < (z.gpr 1).toNat ∧ (z.gpr 1).toNat < 2 ^ 63 ∧ issuesOk s (hd 15) [31] [] = true ∧ issuesOk s (hd 15) [] [] = true ∧
     srAccess 15 0x010 ≠ 0 ∧ srAccess 15 0x011 = 2 ∧ z.srReserved 0x011 (z.gpr 1).toNat = false ∧ srAccess 15 0x3FF = 0 ∧
     srAccess 15 0x010 ≠ 2 ∧ (3 : BitVec 5).toNat < 4 ∧ (3 : BitVec 3).toNat < 4 ∧ (1 : BitVec 2).toNat < 2) ∧
    (let z := (run 15 (fun z => { z with inTrap := true })).seqr 15
     z.inTrap = true ∧ z.held = none ∧ z.wdWait = false) ∧
    ((run 15 (fun z => { z with inTrap := true, held := some ⟨0x13, 1, 4⟩ })).seqr 15).held = some ⟨0x13, 1, 4⟩ ∧
    (let z := (run 15 (fun z => { z with ops := [{ num := 0, engine := 6, kind := .dma [], nctl := 0, seed := 0, pre := 0, started := true }] })).seqr 15
     ∃ o ∈ z.ops, o.isStore = true) := by decide +kernel

theorem test_add_wraps : gives (.add (hd 15) 2 2 2) (run 15 (fun z => { z with g := [(2, 2 ^ 63 + 1)] }))
    (fun t => (t.seqr 15).gpr 2 == 2 && (t.seqr 15).pc == 4) = true := by decide +kernel

theorem test_div_by_zero : gives (.div (hd 15) 4 1 0) (run 15 id) (fun t => (t.seqr 15).gpr 4 == -1) = true ∧
    gives (.rem (hd 15) 4 1 0) (run 15 id) (fun t => (t.seqr 15).gpr 4 == 5) = true := by decide +kernel

theorem test_g0_discards : gives (.addi (hd 15) 0 1 7) (run 15 id) (fun t => (t.seqr 15).gpr 0 == 0 && (t.seqr 15).pc == 4) = true := by
  decide +kernel

/-! ### Coprocessor operations and kernels -/

/-- An operation in flight. -/
def op (n e : Nat) (k : CopKind) (on : Bool) : CopOp := { num := n, engine := e, kind := k, nctl := 0, seed := 0, pre := 0, started := on }

/-- `State.takes` as a check. -/
def takesOk (s : State) (q : QCtx) (kind : Nat) : Bool :=
  (s.queue q.slice.val q.slot.val).used && decide ((s.queue q.slice.val q.slot.val).cfg.kind = kind) &&
    !(s.queue q.slice.val q.slot.val).halted && s.doorbellsLive q.slice.val

theorem takesOk_sound {s : State} {q : QCtx} {kind : Nat} (h : takesOk s q kind = true) : s.takes q kind := by
  simp only [takesOk, Bool.and_eq_true, decide_eq_true_eq, Bool.not_eq_true'] at h
  exact ⟨h.1.1.1, h.1.1.2, h.1.2, h.2⟩

/-- NORMAL with slice 3 ACTIVE, a queue of a kind at slot 1, and a page of PASID 9 at slice address 0. -/
def cmd3 (kind : Nat) (f : Slice → Slice) : State := ({ nrm with host := { nrm.host with slices := [(3, f { (default : Slice) with
  st := .active, hello := true, pasids := [9]
  quota := { (default : Quota) with memBytes := 0x4000000, handles := 2, keySlots := 4, conns := 4, queues := 8, pasids := 4 }
  queues := [(1, { (default : Queue) with used := true, cfg := { (default : QueueRec) with kind := kind, pasid := 9, log2Size := 6 } })] })] } } : State).addPages 3 [⟨9, 0, 0, true, false⟩]

/-- The queue of `cmd3` and a tag. -/
def q3 : QCtx := ⟨3, 1, 5⟩

theorem witness_EngineIssue_coprocessorIssue :
    (let s := run 15 id
     issuesOk s (hd 15) [1] [] = true ∧ issuesOk s (hd 15) [29, 30, 31] [] = true ∧ (29 : BitVec 5).toNat ≤ 29 ∧ issuesOk s (hd 15) [] [] = true ∧
     ((s.seqr 15).queued 16).length < 16 ∧ (s.seqr 15).ops.length < 256 ∧
     Instr.vopFadd (hd 15) 0 1 2 3 ∈ [Instr.vopFadd (hd 15) 0 1 2 3]) ∧
    (let s := run 15 (fun z => { z with ops := (List.range 16).map (fun i => op i 16 (.vbcast 0 1 2) false) })
     issuesOk s (hd 15) [] [] = true ∧ 16 ≤ ((s.seqr 15).queued 16).length) := by decide +kernel

theorem witness_EngineIssue_descriptorIssue :
    let s := run 15 (fun z => { z with g := [(1, 0x3000)] })
    (s.seqr 15).ops = [] ∧ issuesOk s (hd 15) [1] [] = true ∧ issuesOk s (hd 15) [1, 2] [] = true ∧
    (s.seqr 15).rangeOk 15 (((s.seqr 15).gpr 1).toNat, 64) = true ∧ s.sramBad (localBase 15 + ((s.seqr 15).gpr 1).toNat) 64 = false ∧
    (s.seqr 15).marked (((s.seqr 15).gpr 1).toNat, 64) = false := by decide +kernel

theorem witness_EngineCompletion_scoreboardStart :
    let z := (run 15 (fun z => { z with ops := [op 4 16 (.vbcast 0 1 2) false, op 5 17 (.vmovg 0 1 7) false, op 6 18 (.vbcast 2 1 2) true] })).seqr 15
    z.ops.find? (fun e => e.num == 4) = some (op 4 16 (.vbcast 0 1 2) false) ∧ z.mayStart 15 (op 4 16 (.vbcast 0 1 2) false) = true ∧
    z.ops.find? (fun e => e.num == 5) = some (op 5 17 (.vmovg 0 1 7) false) ∧
    (∃ e ∈ z.ops, e.num < 5 ∧ (CopKind.vmovg 0 1 7).waitsFor e.kind 15 = true) ∧
    z.ops.find? (fun e => e.num == 6) = some (op 6 18 (.vbcast 2 1 2) true) := by decide +kernel

/-- Sequencer 15 of slice 3 under PASID 9 with one operation in flight, which the scoreboard finds. -/
def busy (k : CopKind) (f : Seqr → Seqr) : State :=
  { cmd3 1 id with seqs := (run 15 (fun z => f { z with slice := 3, pasid := 9, ops := [op 4 16 k true] })).seqs }

/-- Whether the scoreboard of `busy` finds its operation. -/
def finds (k : CopKind) (f : Seqr → Seqr) : Bool := ((busy k f).seqr 15).ops.find? (fun e => e.num == 4) == some (op 4 16 k true)

theorem witness_EngineCompletion_vectorOperations :
    [CopKind.vop 0 3 31 1 2, .vop 15 3 31 1 2, .vop 13 3 31 1 0, .vfma 3 31 1 2, .vbcast 3 31 9, .vmovg 3 31 7, .sfu 6 3 31 1].all
      (fun k => finds k id) = true ∧ (op 4 16 (.vop 12 3 31 1 2) true).started = true := by decide +kernel

theorem witness_EngineCompletion_engineStatuses :
    [CopKind.mma 11 1 5 true 0 0, .mzero 11 1, .mzero 12 1, .stream (leBytes 64 2) 0,
      .cipher true 0 (leBytes 64 (4194305 * 2 ^ 64)) default].all (fun k => finds k id) = true ∧
    (let z := (busy (.mma 11 1 5 true 0 0) id).seqr 15
     z.run = .running ∧ tdRows 0 = 0 ∧ z.inTrap = false ∧ z.arriving = none ∧ z.wdWait = false ∧ z.held = none ∧ z.tvbase ≠ 0) ∧
    (let z := (busy (.mzero 12 1) (fun z => { z with inTrap := true })).seqr 15
     z.inTrap = true ∧ z.held = none ∧ z.run = .running) ∧
    (1 < fieldAt (leBytes 64 2) 0 1 ∧ (op 4 24 (.stream (leBytes 64 2) 0) true).pre = 0) ∧
    (4194304 < fieldAt (leBytes 64 (4194305 * 2 ^ 64)) 8 4 ∧ ((run 15 id).seqr 15).operr % 256 = 0) := by decide +kernel

/-- Nothing met. -/
def quiet : Met := ⟨[], [], 0, [], 0⟩

/-- A tile of one row of 32 E5M2 elements without scales, and a LINEAR one of 256 bytes, at offset 0x8000. -/
def tile1 : Nat := 0x8000 + 4 * 2 ^ 64 + 2 ^ 72 + 32 * 2 ^ 81
def tileL : Nat := 0x8000 + 4 * 2 ^ 64 + 2 ^ 71 + 2 ^ 72 + 256 * 2 ^ 96

/-- A stream descriptor: one row of 256 bytes at address 0 of PASID 9. -/
def sd1 (o : Nat) : List Byte := leBytes 64 (o + 4 * 2 ^ 8 + 9 * 2 ^ 192 + 256 * 2 ^ 224 + 2 ^ 256)

/-- A cipher descriptor: `n` bytes at 0x8000 to 0x9000. -/
def cd1 (n : Nat) : List Byte := leBytes 64 (0x8000 + 0x9000 * 2 ^ 32 + n * 2 ^ 64)

/-- An ACTIVE slot with the key zero. -/
def slot1 : KeySlot := { (default : KeySlot) with st := .active, limit := 100 }

/-- Slot 0 of the device, of slice 3, holds that key. -/
def keyed3 (s : State) : State := { s with keys := { s.keys with slots := [(0, slot1)] } }

theorem witness_EngineCompletion_engineCompletions_matrix :
    (let k := CopKind.mma 11 1 0 true tile1 tile1
     let s := busy k id
     finds k id = true ∧ s.meetWords 15 (k.reads 15) quiet = s ∧ s.mmaStatus 15 11 1 0 true tile1 tile1 = 0 ∧
     s.srcStatus 15 (k.reads 15) = (s, 0)) ∧
    (let f (z : Seqr) : Seqr := { z with planes := [(23, ⟨true, 1, 32, false, []⟩)] }
     let k := CopKind.mdrain 11 1 tile1 0 0
     finds k f = true ∧ (busy k f).drainStatus 15 11 1 tile1 = 0) ∧
    (let k := CopKind.vld 3 31 0x8000
     finds k id = true ∧ ((busy k id).seqr 15).vecStatus 15 (k.reads 15) = 0 ∧ (busy k id).srcStatus 15 (k.reads 15) = (busy k id, 0)) ∧
    (let k := CopKind.vst 3 31 0x8000
     finds k id = true ∧ ((busy k id).seqr 15).vecStatus 15 (k.writes 15) = 0) := by decide +kernel

theorem witness_EngineCompletion_engineCompletions_stream :
    (let d := sd1 0
     let k := CopKind.stream d tileL
     let s := busy k id
     finds k id = true ∧ s.meetWords 15 (k.reads 15) quiet = s ∧ s.streamStatus 15 d tileL = 0 ∧ fieldAt d 0 1 = 0 ∧
     (∀ x ∈ sdUnits d tileL, s.unitFailed 15 d x.1 = false ∧ s.unitBad 15 d x = []) ∧ tdLinear tileL = true ∧ sdMoved d tileL = 1 ∧
     256 = sdRowLen d tileL 0 ∧ sdVaddr d / 256 = (sdVaddr d + 256 - 1) / 256 ∧ s.xlate 3 (sdPasid d) (sdVaddr d) false = some 0) ∧
    (let d := sd1 1
     let k := CopKind.stream d tileL
     let s := busy k id
     finds k id = true ∧ s.streamStatus 15 d tileL = 0 ∧ fieldAt d 0 1 = 1 ∧ s.srcStatus 15 (k.reads 15) = (s, 0) ∧
     (∀ x ∈ sdUnits d tileL, s.unitFailed 15 d x.1 = false) ∧
     ((List.range (sdMoved d tileL)).foldl (fun (w : State × Bool) r =>
        let x := w.1.storeRow 15 (op 4 16 k true) d tileL (fun _ => true) r
        (x.1, w.2 && x.2)) (s, true)).2 = true) ∧
    finds (.dma (leBytes 64 0)) id = true := by decide +kernel

theorem witness_EngineCompletion_engineCompletions_cipher :
    (let k := CopKind.cipher false 0 (cd1 16) slot1
     let s := keyed3 (busy k id)
     finds k id = true ∧ s.ciRange 15 (op 4 16 k true) (cd1 16) true = false ∧ s.slotStatus 15 0 (s.opSlot 0 slot1) = 0 ∧
     s.srcStatus 15 (k.reads 15) = (s, 0)) ∧
    (let k := CopKind.cipher true 0 (cd1 0) slot1
     let tag := gcmTag (slot1.keyBytes) (slotNonce 0 false 0) [] []
     let s := (keyed3 (busy k id)).store (localBase 15 + 0x8008) tag
     s.ciRange 15 (op 4 16 k true) (cd1 0) true = false ∧ s.slotStatus 15 0 (s.opSlot 0 slot1) = 0 ∧ s.srcStatus 15 (k.reads 15) = (s, 0) ∧
     gcmOpen slot1.keyBytes (slotNonce 0 false (beNat (s.bytes (localBase 15 + 0x8000) 8))) (s.bytes (localBase 15) 0)
       (s.bytes (localBase 15 + 0x8008) 0) (s.bytes (localBase 15 + 0x8008) 16) = some []) ∧
    (let k := CopKind.cipher true 0 (cd1 0) slot1
     let s := keyed3 (busy k id)
     gcmOpen slot1.keyBytes (slotNonce 0 false (beNat (s.bytes (localBase 15 + 0x8000) 8))) (s.bytes (localBase 15) 0)
       (s.bytes (localBase 15 + 0x8008) 0) (s.bytes (localBase 15 + 0x8008) 16) = none) ∧
    (let k (hm : Bool) := CopKind.digest hm 0 (cd1 16) slot1
     let s (hm : Bool) := keyed3 (busy (k hm) id)
     finds (k true) id = true ∧ finds (k false) id = true ∧ (s false).ciRange 15 (op 4 16 (k false) true) (cd1 16) false = false ∧
     (s true).slotStatus 15 0 ((s true).opSlot 0 slot1) = 0 ∧ (s true).srcStatus 15 ((k true).reads 15) = (s true, 0)) := by decide +kernel

/-- NORMAL with slice 3 ACTIVE, its HELLO passed, a share of island 15 and a control ring. -/
def ctl3 : State := ({ nrm with host := { nrm.host with slices := [(3, { (default : Slice) with
  st := .active, hello := true, pasids := [9], windows := [(15, 1)], quota := { (default : Quota) with islands := List.replicate 16 2, queues := 4 }
  queues := [(0, { (default : Queue) with used := true, cfg := { (default : QueueRec) with kind := 9, log2Size := 6 } })] })] } } : State).addPages 3 [⟨9, 0, 0, true, false⟩]

/-- A launch of slice 3 on an island, with its other fields. -/
def launchD (isl x : Nat) : List Byte := leBytes 64 (6 + 2 ^ 8 + isl * 2 ^ 16 + 1 * 2 ^ 32 + 9 * 2 ^ 448 + x)

/-- The launch as it is queued. -/
def queued1 (on : Bool) : Launch := ⟨3, 15, 1, 9, true, 0, 7, 0, 0, none, none, none, on⟩

/-- An image of one word of code, without its CRC. -/
def imgBare : List Byte := [0x49, 0x49, 0x54, 0x4B, 3, 0, 0, 0] ++ leBytes 4 4 ++ leBytes 12 0 ++ leBytes 2 8 ++ leBytes 42 0

/-- The image with its CRC. -/
def img : List Byte := splice imgBare 48 (leBytes 4 (crc32c imgBare))

theorem witness_KernelLifetime_kernelLaunch :
    (let x := ctl3.slice 3
     let k := kCmdOf (launchD 15 0)
     fieldAt (launchD 15 0) 0 1 = 6 ∧ ctl3.doorbellsLive 3 = true ∧ x.hello = true ∧ (ctl3.queue 3 0).used = true ∧ (ctl3.queue 3 0).halted = false ∧
     k.reserved = false ∧ (kCmdOf (launchD 15 (2 ^ 24))).reserved = true ∧ (kCmdOf (launchD 15 (2 ^ 448))).pasid.toNat ∉ x.pasids ∧
     k.pasid.toNat ∈ x.pasids ∧ 16 ≤ (kCmdOf (launchD 16 0)).island.toNat ∧ k.island.toNat < 16 ∧ x.quota.islands.getD 15 0 ≠ 0 ∧
     ctl3.isReady 15 = true ∧ ctl3.kReach 3 k true = true ∧ ctl3.kReach 3 k false = false ∧
     (withMod ctl3 (fun m => { m with islands := State.reset.mod.islands })).isReady 15 = false) ∧
    (({ ctl3 with host := { ctl3.host with slices := [(3, { ctl3.slice 3 with quota := { (default : Quota) with islands := [1] } })] } } : State).slice
      3).quota.islands.getD 15 0 = 0 := by decide +kernel

theorem witness_KernelLifetime_kernelEntryAndEnd :
    (let s : State := { ctl3 with launches := [queued1 false] }
     s.nextLaunch 15 = some (queued1 false) ∧ (queued1 false).host = true ∧ (queued1 false).argblk = 0 ∧
     loadStatus img false (s.kernelWindow 3 15).2 = 0 ∧ img.length = 64 + imgCode img + imgData img ∧
     loadStatus imgBare false (s.kernelWindow 3 15).2 ≠ 0) ∧
    ctl3.nextLaunch 15 = none ∧
    (let s : State := { ctl3 with launches := [queued1 true], seqs := (run 15 (fun z => { z with run := .ending })).seqs }
     (s.seqr 15).run = .ending ∧ (s.seqr 15).ops = [] ∧ s.launches.find? (fun e => e.island == 15 && e.running) = some (queued1 true) ∧
     (s.slice 3).st ≠ .destroying) ∧
    (({ ctl3 with host := { ctl3.host with slices := [(3, { ctl3.slice 3 with st := .destroying })] } } : State).slice 3).st = .destroying ∧
    ((run 15 (fun z => { z with run := .ending, ops := [op 4 16 (.vbcast 0 1 2) true] })).seqr 15).ops ≠ [] ∧
    ((run 15 id).seqr 15).run = .running := by decide +kernel

theorem witness_KernelLifetime_watchdogArrivalTimeshare :
    (let z := (run 15 (fun z => { z with klimit := 100, cycle := 100 })).seqr 15
     z.run = .running ∧ z.klimit ≠ 0 ∧ z.klimit ≤ z.cycle ∧ z.fired = none ∧ z.inTrap = false ∧ z.arriving = none ∧ z.tvbase ≠ 0) ∧
    (let z := (run 15 (fun z => { z with klimit := 100, cycle := 100, inTrap := true })).seqr 15
     z.inTrap = true ∧ z.klimit ≤ z.cycle) ∧
    (let z := (run 15 (fun z => { z with klimit := 100, cycle := 99 })).seqr 15
     ¬ (z.run = .running ∧ z.klimit ≠ 0 ∧ z.klimit ≤ z.cycle ∧ z.fired = none)) ∧
    (let z := (run 15 (fun z => { z with fired := some 100, cycle := 65636 })).seqr 15
     z.fired = some 100 ∧ z.run = .running ∧ isMgmt 15 = false ∧ 100 + 65536 ≤ z.cycle) ∧
    (let z := (run 15 (fun z => { z with fired := some 100, cycle := 65635 })).seqr 15
     z.cycle < 100 + 65536) ∧
    (let z := (run 15 (fun z => { z with arriving := some 4, ops := [op 3 16 (.vbcast 0 1 2) true, op 4 30 (.coll 1 6 0) false] })).seqr 15
     z.arriving = some 4 ∧ ∃ o ∈ z.ops, o.num ≠ 4) ∧
    (let s : State := { run 15 (fun z => { z with slice := 3, inTrap := true, arriving := some 4, ops := [op 4 30 (.coll 1 6 0) false] }) with
       groups := [(2, { (default : Group) with st := .active, slice := 3, step := true, members := [⟨0, false, 0, 6, 0, 9⟩] })] }
     s.stepMember 3 6 = some (2, 0) ∧ (s.group 2).st = .active ∧ 0 % 2 ^ 32 = (s.group 2).epoch ∧ (s.job (s.group 2).slice).st ≠ .fenced) ∧
    (let s : State := { ctl3 with launches := [queued1 true] }
     s.launches.any (fun l => l.island == 15 && l.running) = true) ∧
    ctl3.launches.any (fun l => l.island == 15 && l.running) = false ∧ ctl3.chunkRuns 15 = false := by decide +kernel

theorem test_mma_unset_tile : gives (.matrixOpComplete 15 4 quiet) (run 15 (fun z => { z with ops := [op 4 0 (.mma 0 0 0 true 0 0) true] }))
    (fun t => (t.seqr 15).trapcause == 0xC && (t.seqr 15).trapinfo == 4 * 2 ^ 32 + 3) = true := by decide +kernel

/-! ### Stacked memory and the KV cache manager -/

/-- NORMAL with one poisoned sector, the last of the stacks. -/
def poison1 : State := { nrm with poison := [(0x00BFFFFFFFC0 / 64, true)] }

/-- NORMAL with memory island `m` changed. -/
def withMi (m : Nat) (f : MemIsland → MemIsland) : State := nrm.setMi m f

theorem witness_SectorsAndBar4_memorySectors :
    (inStacks 0x00C000000000 = false ∧ inStacks 0x00BFFFFFFFC0 = true ∧ nrm.badSector 0x00BFFFFFFFC0 = false ∧ miOf 0x00BFFFFFFFC0 < nrm.mis.length) ∧
    (poison1.badSector 0x00BFFFFFFFC1 = true ∧ ((List.replicate 64 (0 : Byte)).take (64 - 0x00BFFFFFFFC1 % 64)).length ≠ 64 ∧
      poison1.deadStack 0x00BFFFFFFFC0 = false ∧ 0x00BFFFFFFFC0 % 64 = 0 ∧ (List.replicate 64 (0 : Byte)).length = 64) ∧
    (nrm.badSector 0x3F = false ∧ nrm.deadStack (0x3F / 64 * 64) = false ∧ nrm.poisoned (0x3F / 64 * 64) = false ∧ 0x3F % 64 + 1 ≤ 64) ∧
    (let s := withMi 0 (fun x => { x with stackSt := [.failed, .ok, .ok, .ok] })
     s.deadStack 0 = true ∧ s.deadStack (0 / 64 * 64) = true) ∧
    (region 0x00D000000000 = .hole ∧ region 0x010000000000 ≠ .hole ∧ inStacks 0x010000000000 = false) := by decide +kernel

/-- NORMAL with slice 3 ACTIVE, a page of PASID 9 at page 4, and an aperture entry to it. -/
def win3 (w : Bool) (b : Store Bool) : State := ({ nrm with poison := b, host := { nrm.host with slices := [(3, { (default : Slice) with
  st := .active, apert := [(1023, 4 * 2 ^ 21 + 9 * 2 + 1)] })] } } : State).addPages 3 [⟨9, 4, 7, w, false⟩]

theorem witness_SectorsAndBar4_bar4Window :
    (nrm.bar4 3 0 false = none ∧ nrm.bar4 3 0 true = none) ∧
    (let s := win3 true []
     let va := 4 * 0x200000 + 0x1FFFFC
     let e := 7 * 0x200000 + 3
     s.sliceExists 3 = true ∧ s.aperture 3 (1023 * 0x200000 + 0x1FFFFC) = some (va, 9) ∧ s.leaf 3 9 va = some e ∧
     (1023 * 0x200000 + 0x1FFFFC) % 0x200000 + 4 ≤ 0x200000 ∧ bit e 1 = true ∧
     (sectorsOf (leafAddr e va) 4).any s.badSector = false ∧ (∀ j ∈ s.ckpt.jobs, j.2.unread = []) ∧
     (∃ x ∈ sectorsOf (leafAddr e va) 4, x / 64 ∈ ([BitVec.ofNat 34 (x / 64)] : List (BitVec 34)).map BitVec.toNat ∧ s.deadStack x = false)) ∧
    (let s := win3 false [((8 * 0x200000 - 4) / 64, true)]
     let va := 4 * 0x200000 + 0x1FFFFC
     let e := 7 * 0x200000 + 1
     s.leaf 3 9 va = some e ∧ bit e 1 = false ∧ (sectorsOf (leafAddr e va) 4).any s.badSector = true) := by decide +kernel

theorem witness_ScrubTrainingRetirement :
    (nrm.mis.length = 4 ∧ (st .test).scrubRuns = false ∧ nrm.scrubRuns = true ∧
      (∀ l < 4, nrm.badSector (dpaOf (4 * 3 + l) (nrm.mi 3).scrubPos) = false) ∧ (nrm.mi 3).scrubPos + 64 < 48 * 2 ^ 30) ∧
    (let s := withMi 3 (fun x => { x with scrubPos := 48 * 2 ^ 30 - 64 })
     (∀ l < 4, s.badSector (dpaOf (4 * 3 + l) (s.mi 3).scrubPos) = false) ∧ 48 * 2 ^ 30 ≤ (s.mi 3).scrubPos + 64) ∧
    (nrm.mod.svc ≠ .boot ∧ nrm.mod.svc ≠ .test ∧ nrm.fwRuns = true) ∧
    (let s := withMi 3 (fun x => { x with ceNow := 1000000 })
     s.obj 0x4200 2 < (((s.mi 3).ceNow :: (s.mi 3).ceHist).take 60).sum) ∧
    (let s := withMi 3 (fun x => { x with minutes := 59 })
     (((s.mi 3).ceNow :: (s.mi 3).ceHist).take 60).sum ≤ s.obj 0x4200 2 ∧ ((s.mi 3).minutes + 1) % 60 = 0) ∧
    ((nrm.mi 3).minutes + 1) % 60 ≠ 0 ∧
    ((withMi 3 (fun x => { x with stackSt := [.ok, .ok, .ok, .failed] })).mi 3).stackSt.getD 3 .ok = .failed ∧
    ((nrm.mi 3).trainFails.length = 4 ∧ (nrm.mi 3).stackSt.getD 3 .ok ≠ .failed ∧ (nrm.mi 3).trainFails.getD 3 0 < 2 ∧ (nrm.mi 3).stackSt.length = 4) ∧
    (let s := { withMi 3 (fun x => { x with trainFails := [0, 0, 0, 2] }) with mod := (st .boot).mod }
     2 ≤ (s.mi 3).trainFails.getD 3 0 ∧ s.mod.svc = .boot) ∧
    (nrm.qualifies 376831 = false) ∧
    (let q : State := { nrm with poison := [(376831 * 0x200000 / 64, true)], nor := { nrm.nor with retired := [(0, false)] } }
     q.fwRuns = true ∧ q.qualifies 376831 = true ∧ (∀ r ∈ q.nor.retired, r.1 ≠ 376831) ∧ q.nor.retired.length < 4096) := by decide +kernel

theorem witness_ScrubTrainingRetirement_full :
    let q : State := { nrm with nor := { nrm.nor with retired := List.replicate 4096 (0, false) } }
    (∀ r ∈ q.nor.retired, r.1 ≠ 376831) ∧ 4096 ≤ q.nor.retired.length := by
  refine ⟨fun r hr => ?_, ?_⟩
  · rw [List.eq_of_mem_replicate hr]; decide
  · exact Nat.le_of_eq (List.length_replicate ..).symm

/-- A KV sequence of slice 3 with one layer of one group of 64, at handle index 0. -/
def seq0 : Seq := { (default : Seq) with live := true, slice := 3, layers := 1, groups := 1, elem := 4 }

/-- A state with that sequence, a ceiling and the first page of the KV window. -/
def kv3 (x : Seq) (bl : Store KvBlock) : State :=
  let s := (cmd3 1 id).addPages 3 [⟨0, kvWindow / 0x200000, 1, true, true⟩]
  { s with kv := { s.kv with seqs := [(0, x)], blocks := bl, ceil := [(3, 0x400000)], next := 7 } }

/-- A KV descriptor: E5M2 source, one position, one layer and one group, and other fields. -/
def kvd (o x : Nat) : List Byte := leBytes 64 (o + 4 * 2 ^ 8 + 1 * 2 ^ 160 + 1 * 2 ^ 256 + 1 * 2 ^ 272 + x)

/-- A resident block of slice 3. -/
def blk1 : KvBlock := { (default : KvBlock) with slice := 3, size := 0x8000, refs := 1, va := kvWindow, loc := .hbm }

/-- How a KV command part-way ends. -/
def kvEnds (r : KvRun) : Nat :=
  match r with
  | .ok (_, .none) => 0
  | .ok (_, .lost) => 1
  | .ok (_, .memErr _) => 2
  | .error .full => 3
  | .error .stopped => 4

/-- A state with the ceiling of slice 3 at a value. -/
def capped (s : State) (c : Nat) : State := { s with kv := { s.kv with ceil := [(3, c)] } }

theorem witness_KvCacheManager_kvCommands_checks :
    (let s := kv3 seq0 []
     takesOk s q3 1 = true ∧ fieldAt (kvd 10 0) 0 1 = 10 ∧ fieldAt (kvd 9 0) 0 1 = 9 ∧ s.kv.waiting = [] ∧ s.kv.pinning = [] ∧
     (let w : KvWait := ⟨q3, .append, kvCmdOf (kvd 3 0)⟩
      let t : State := { s with kv := { s.kv with waiting := [w] } }
      takesOk t q3 1 = true ∧ t.kvBlocked t.kv.waiting w = true) ∧
     (kvCmdOf (kvd 4 (2 ^ 32))).reserved = false ∧ s.handleOk 3 (kvCmdOf (kvd 4 (2 ^ 32))).handle.toNat = false ∧
     (let k := kvCmdOf (kvd 2 (2 ^ 32 + 2 ^ 64 + 2 ^ 296))
      k.reserved = true ∧ s.handleOk 3 k.handle.toNat = false ∧ s.handleOk 3 k.src.toNat = false) ∧
     (let k := kvCmdOf (kvd 1 0)
      fieldAt (kvd 1 0) 0 1 = 1 ∧ k.reserved = false ∧ 1 ≤ k.layers.toNat ∧ k.layers.toNat ≤ 256 ∧ 1 ≤ k.groups.toNat ∧ k.groups.toNat ≤ 64 ∧
      k.dim.toNat ≤ 2 ∧ k.fmt.toNat ≤ 6 ∧ s.handlesUsed 3 < (s.slice 3).quota.handles) ∧
     (let k := kvCmdOf (kvd 1 (255 * 2 ^ 256 + 63 * 2 ^ 272 + 2 * 2 ^ 280 + 6 * 2 ^ 288))
      k.layers.toNat = 256 ∧ k.groups.toNat = 64 ∧ k.dim.toNat = 2 ∧ k.fmt.toNat = 6)) ∧
    (let s := cmd3 1 (fun x => { x with quota := default })
     takesOk s q3 1 = true ∧ (s.slice 3).quota.handles ≤ s.handlesUsed 3) := by decide +kernel

theorem witness_KvCacheManager_kvCommands_fork :
    (let x := { seq0 with lens := [(0, 256)], blocks := [(0, 2)] }
     let f (s : State) (pos : Nat) : Nat := kvEnds ((s.forkSeq s.freeIndex 0 pos).forkAll s.freeIndex 0 pos)
     let s := kv3 x [(1, blk1)]
     (kvCmdOf (kvd 2 0)).reserved = false ∧ s.handleOk 3 (kvCmdOf (kvd 2 0)).src.toNat = true ∧ s.handlesUsed 3 < (s.slice 3).quota.handles ∧
     (∀ l < x.layers, 256 ≤ x.len l) ∧ s.freeIndex = 1 ∧ f s 256 = 0 ∧ f (kv3 x [(1, { blk1 with loc := .lost })]) 5 = 1 ∧ f (capped s 0) 5 = 3) := by
  decide +kernel

theorem witness_KvCacheManager_kvCommands_pins :
    (let x := { seq0 with lens := [(0, 256)], blocks := [(0, 2)] }
     let s := kv3 x [(1, blk1)]
     let p (t : State) := [1].foldl (fun u b => (u.stayBlock b).setKvb b (fun y => { y with pins := insSet y.pins 0 })) t
     (kvCmdOf (kvd 5 0)).reserved = false ∧ s.handleOk 3 0 = true ∧ x.layerList 0 = [0] ∧ x.rangeOk [0] 0 256 = true ∧ x.rangeBlocks [0] 0 256 = [1] ∧
     x.rangeOk [0] 0 1 = true ∧
     (∀ b ∈ [1], (s.kvb b).loc = .hbm) ∧ (s.kvb 1).pins.Nodup ∧ (s.kvb 2).pins.Nodup ∧ (p s).kvFloor 3 ≤ s.kvCeil 3 ∧
     (capped s 0).kvCeil 3 < (p (capped s 0)).kvFloor 3 ∧
     (let t (c : Nat) := capped (kv3 x [(1, { blk1 with loc := .flash, va := 0, lba := 1 }), (2, { blk1 with va := kvWindow + 0x8000 })]) c
      (p (t 0x8000)).kvFloor 3 ≤ (t 0x8000).kvCeil 3 ∧ ((t 0).kvb 1).loc ≠ .lost ∧ [1].filter (fun b => ((t 0).kvb b).away) = [1] ∧
      kvEnds ((p (t 0x8000)).reserveAll [1]) = 3 ∧ kvEnds ((p (t 0x400000)).reserveAll [1]) = 0)) ∧
    (let s := kv3 seq0 []
     let used := ((s.slice 3).pages.filter (fun p => !p.kv)).length * 0x200000
     (kvCmdOf (kvd 9 (0x400000 * 2 ^ 320))).reserved = false ∧ (kvCmdOf (kvd 9 (0x400000 * 2 ^ 320))).bytes.toNat = 0x400000 ∧
     s.kvFloor 3 ≤ 0x400000 ∧ 0x400000 % 0x200000 = 0 ∧ used + 0x400000 ≤ (s.slice 3).quota.memBytes ∧
     (s.slice 3).quota.memBytes < used + 0x4000000 ∧ s.kvFloor 3 ≤ 0x4000000 ∧
     (let t := kv3 { seq0 with lens := [(0, 256)], blocks := [(0, 2)] } [(1, { blk1 with pins := [0] })]
      0 < t.kvFloor 3)) ∧
    (let s := kv3 seq0 []
     s.handleOk 3 0 = true ∧ 0 < seq0.layers ∧ seq0.layers ≤ 1 ∧
     (match (s.vwrite 3 (s.qPasid q3) 0 (s.kvRecord 0 0)).2 with | .ok _ => true | _ => false) = true) := by decide +kernel

theorem witness_KvCacheManager_kvCommands_lengths :
    (let s := kv3 seq0 []
     let k := kvCmdOf (kvd 3 0)
     s.tailHeld 0 0 = false ∧ k.srcfmt.toNat = 4 ∧ k.count.toNat = 1 ∧ (65536 : BitVec 32).toNat ≤ 65536 ∧ k.pos.toNat = s.kvLen q3 k ∧
     s.kvLen q3 k + 1 ≤ 4194304 ∧ 4194304 < (kv3 { seq0 with lens := [(0, 4194304)] } []).kvLen q3 k + 1 ∧
     (let n := 1 * 2 * 1 * seq0.d * (elemWidth 4 / 8)
      s.mapped 3 (s.qPasid q3) 0 n false = true ∧ s.mapped 3 (s.qPasid q3) 0x200000 n false = false ∧
      (match (s.vread 3 (s.qPasid q3) 0 n).2 with | .ok bs => bs == List.replicate n 0 | _ => false) = true ∧
      kvEnds (s.appendAll 0 0 0 4 1 (List.replicate n 0)) = 0 ∧ kvEnds ((capped s 0).appendAll 0 0 0 4 1 (List.replicate n 0)) = 3 ∧
      (let t := capped (kv3 seq0 [(2, blk1)]) 0x8000
       kvEnds (({ t with kv := { t.kv with victims := [(3, [2])] }, flash := { t.flash with tier := .readOnly } } : State).appendAll 0 0 0 4 1
         (List.replicate n 0)) = 4))) := by decide +kernel

theorem witness_KvCacheManager_kvCommands_truncate :
    (let x := { seq0 with lens := [(0, 256)], blocks := [(0, 2)] }
     let s (b : KvBlock) (c : Nat) : State := capped (kv3 x [(1, b)]) c
     (∀ l ∈ x.layerList 0, l < x.layers ∧ 5 ≤ x.len l) ∧ (∃ l ∈ x.layerList 0, l < x.layers ∧ x.len l < 257) ∧
     kvEnds ((s blk1 0x400000).cutAll 0 5 [0]) = 0 ∧ kvEnds ((s { blk1 with loc := .lost } 0x400000).cutAll 0 5 [0]) = 1 ∧
     kvEnds ((s { blk1 with refs := 2 } 0).cutAll 0 5 [0]) = 3 ∧
     kvEnds (({ s blk1 0x400000 with poison := [(0x200000 / 64, true)] } : State).cutAll 0 5 [0]) = 2) := by decide +kernel

theorem witness_KvCacheManager_kvTiering :
    (State.reset.fwRuns = false ∧ nrm.fwRuns = true ∧ (kv3 seq0 []).kv.waiting = [] ∧ ((kv3 seq0 [(1, blk1)]).kvb 1).loc ≠ .demoting ∧
      ((kv3 seq0 [(1, blk1)]).kvb 1).loc ≠ .fetching) ∧
    (let s := kv3 seq0 [(1, { blk1 with loc := .demoting, size := 64, lba := 1 })]
     (s.kvb 1).loc = .demoting ∧ s.demotable 3 1 = true ∧ (s.kvRead 3 (s.kvb 1).va (s.kvb 1).size).2.isSome = true) ∧
    (let s := kv3 seq0 [(1, { blk1 with loc := .demoting, pins := [0] })]
     (s.kvb 1).loc = .demoting ∧ s.demotable 3 1 = false) ∧
    (let s := kv3 seq0 [(1, { blk1 with loc := .fetching, caught := 1 })]
     (s.kvb 1).loc = .fetching ∧ s.kv.pinning = [] ∧ (s.kvb 1).caught ≠ 0) ∧
    (let s := kv3 seq0 [(1, { blk1 with loc := .fetching, va := 0, lba := 1 })]
     let back (c : Nat) := (capped s c).setKvb 1 (fun x => { x with loc := .fetched })
     let w : PinWait := { (default : PinWait) with q := q3, idx := 0, waits := [1] }
     (s.kvb 1).loc = .fetching ∧ (s.kvb 1).caught = 0 ∧ (match (back 0x400000).bringBack 1 with | .ok _ => true | _ => false) = true ∧
     (match (back 0).bringBack 1 with | .error .full => true | _ => false) = true ∧ w.waits = [1] ∧ w.lost = false) := by decide +kernel

theorem test_kv_create_handle : gives (.kvCreate q3 (kvd 1 (3 * 2 ^ 280))) (kv3 seq0 []) (fun t => !(t.seq 1).live) = true ∧
    gives (.kvCreate q3 (kvd 1 (2 * 2 ^ 280))) (kv3 seq0 []) (fun t => (t.seq 1).live && (t.seq 1).dim == 2) = true := by decide +kernel

/-! ### Number formats, cache-side attention and the optimizer -/

theorem witness_ExactReductions :
    ([[Val.fin false 0 1], [Val.fin true 0 1]].Perm [[Val.fin true 0 1], [Val.fin false 0 1]]) ∧ (∀ c ∈ [(1, [0]), (2, [5])], c.2.length = 1) ∧
    (exactByte (vals32 [0x3F800000, 0xBF800000]) ≤ 0xFE ∧ (0x3F800000 : Nat) ∈ [0x3F800000, 0xBF800000] ∧ 0xFE < 0xFF) :=
  ⟨.swap _ _ _, by decide, by decide +kernel⟩

/-- `State.serves` as a check. -/
def servesOk (s : State) (p : Nat) (t : Txn) (ty : Nat) : Bool :=
  decide (p < 8) && (s.port p).usable && decide (t.hat.typ.toNat = ty) && decide (s.selfEp = some t.hat.dest.toNat) &&
  decide (t.hat.src.toNat = s.partnerEp p) && decide (s.mod.svc = .normal) && s.myTurn p t && !(s.arrivalOf p t).abort &&
  (match (s.arrivalOf p t).bind with | some b => !(bit b 30) | none => false) && !(s.arrivalOf p t).dup &&
  !t.hat.enc && t.hatOk && bodyOk ty t.body && !(s.slice t.hat.stag.toNat).st.isBusy

theorem servesOk_sound {s : State} {p : Nat} {t : Txn} {ty : Nat} (h : servesOk s p t ty = true) : s.serves p t ty := by
  simp only [servesOk, Bool.and_eq_true, decide_eq_true_eq, Bool.not_eq_true'] at h
  obtain ⟨⟨⟨⟨⟨⟨⟨⟨⟨⟨⟨⟨⟨h1, h2⟩, h3⟩, h4⟩, h5⟩, h6⟩, h7⟩, h8⟩, h9⟩, h10⟩, h11⟩, h12⟩, h13⟩, h14⟩ := h
  refine ⟨h1, h2, h3, h4, h5, h6, h7, h8, ?_, h10, h11, h12, h13, h14⟩
  split at h9
  · rename_i b hb
    exact ⟨b, hb, by simpa using h9⟩
  · simp at h9

/-- Port 7 is active, partner 77, this module endpoint 66, slice 3 bound under PASID 9. -/
def linked (s : State) : State :=
  { s with ports := [(7, { (default : Port) with st := .active })]
           dict := { s.dict with obj := [(0x300703, 77), (0x300720, 2 ^ 31 + 3 * 2 ^ 20 + 9), (0x310001, 2 ^ 31 + 66)] } }

/-- A transaction of a type from the partner to this module for slice 3. -/
def txn (ty vc : Nat) (body : List Byte) : Txn :=
  ⟨{ (default : Hat) with ver := 1, typ := BitVec.ofNat 5 ty, vc := BitVec.ofNat 2 vc, dest := 66, src := 77, stag := 3, pasid := 9, ttag := 4095 }, body, true⟩

/-- The body of an ATTEND of one head and one row of the first layer. -/
def attBody : List Byte :=
  leBytes 4 0 ++ leBytes 2 0 ++ [0, 1] ++ leBytes 4 0 ++ leBytes 4 0xFFFFFFFF ++ [4, 1, 1, 0] ++ leBytes 4 0x3F800000 ++ leBytes 6 0 ++ leBytes 2 0 ++
    leBytes 32 0 ++ List.replicate 64 0

theorem witness_CacheSideAttention_request :
    servesOk (linked (kv3 seq0 [])) 7 (txn 0x0A 2 attBody) 0x0A = true ∧ (linked (kv3 seq0 [])).attends.length < 2048 ∧
    (linked (kv3 seq0 [])).handleOk 3 (fieldAt attBody 0 4) = true ∧ (linked (kv3 default [])).handleOk 3 (fieldAt attBody 0 4) = false ∧
    attFormatOk attBody seq0.d = true ∧ fieldAt attBody 4 2 < seq0.layers ∧ fieldAt attBody 6 1 + fieldAt attBody 7 1 ≤ seq0.groups ∧
    fieldAt attBody 8 4 = 0 ∧ fieldAt attBody 12 4 = 0xFFFFFFFF ∧ seq0.len (fieldAt attBody 4 2) = 0 ∧
    (linked (kv3 seq0 [])).serving 3 = [] ∧
    (let s := linked { kv3 seq0 [] with host := ctl3.host }
     s.serving 3 ≠ []) ∧
    (let x := { seq0 with lens := [(0, 256)], blocks := [(0, 2)] }
     let s := linked { kv3 x [(1, { blk1 with loc := .lost })] with host := ctl3.host }
     servesOk s 7 (txn 0x0A 2 attBody) 0x0A = true ∧ s.handleOk 3 0 = true ∧ s.serving 3 ≠ [] ∧ (0 : Nat) < 256 ∧
     (s.kvb (x.blk 0 0 0)).loc = .lost) := by decide +kernel

theorem witness_CacheSideAttention_full : 2048 ≤ ({ nrm with attends := List.replicate 2048 default } : State).attends.length :=
  Nat.le_of_eq (List.length_replicate ..).symm

/-- An ATTEND in flight at index 2047 with one chunk. -/
def att1 (c : Chunk) (f : Attend → Attend) : State :=
  let s := linked (kv3 { seq0 with lens := [(0, 256)], blocks := [(0, 2)] } [(1, { blk1 with caught := 1, size := 64 })])
  { s with attends := [(2047, f { (default : Attend) with
      port := 7, hat := (txn 0x0A 2 []).hat, elem := 4, len := 256, rows := 1, heads := 1, qfmt := 4, ngrp := 1, blocks := [(0, 1)], chunks := [c] })]
           share := [(15, ⟨some 3, []⟩)] }

theorem witness_CacheSideAttention_work :
    (let k : Chunk := ⟨0, 0, 256, 15, .queued, [], []⟩
     let s := att1 k id
     (s.att 2047).chunks[0]? = some k ∧ k.st = .queued ∧ s.isReady 15 = true ∧ s.chunkRuns 15 = false ∧
     s.launches.any (fun l => l.island == 15 && l.running) = false ∧ (sget s.share 15).cur = some 3 ∧ s.chunkReady (s.att 2047) k = true) ∧
    (let k : Chunk := ⟨0, 0, 256, 15, .running, [], []⟩
     let s := att1 k id
     (s.att 2047).chunks[0]? = some k ∧ k.st = .running ∧ ((s.chunkData (s.att 2047) k).2).isSome = true ∧
     (((s.chunkData (s.att 2047) k).1.chunkTail (s.att 2047) k).2).isSome = true) ∧
    (let k : Chunk := ⟨0, 0, 256, 15, .running, [], []⟩
     let s := att1 k id
     let bad : State := { s with poison := [(0x200000 / 64, true)] }
     ((bad.chunkData (bad.att 2047) k).2).isNone = true) ∧
    (let s0 := att1 ⟨0, 0, 256, 15, .done, [], []⟩ (fun a => { a with blocks := [] })
     let s : State := { s0 with ports := [(7, { (default : Port) with st := .active, tags := [(txn 0x0A 2 []).hat] })] }
     s.attends.any (fun e => e.1 == 2047) = true ∧ (∀ z ∈ (s.att 2047).chunks, z.st = .done) ∧ (s.att 2047).blocks = [] ∧ s.kv.waiting = [] ∧
     (s.att 2047).hat.enc = false ∧ (s.att 2047).hat ∈ (s.port 7).tags) ∧
    (let s0 := att1 ⟨0, 0, 256, 15, .queued, [], []⟩ (fun a => { a with deadline := 5 })
     let s : State := { s0 with kv := { s0.kv with blocks := [(1, { blk1 with loc := .fetching })] } }
     (s.att 2047).deadline ≠ 0 ∧ (∃ b ∈ (s.att 2047).held, (s.kvb b).loc = .fetching) ∧ (∀ b ∈ (s0.att 2047).held, (s0.kvb b).loc = .hbm)) ∧
    ((att1 ⟨0, 0, 256, 15, .queued, [], []⟩ id).att 2047).deadline = 0 ∧ (elemVal 9 0).isZero = true ∧ (elemVal 9 0x3F800000).isZero = false := by
  decide +kernel

/-- A set descriptor: built-in kernel 1, two slots, BF16 gradients, one contributor, one unit. -/
def setDesc (fmt : Nat) : List Byte :=
  leBytes 4 7 ++ [1, 2, 0, BitVec.ofNat 8 fmt, 4, 0] ++ leBytes 2 0 ++ leBytes 4 1 ++ leBytes 8 256 ++ leBytes 8 0 ++ leBytes 8 256 ++ leBytes 8 0x1000 ++
    leBytes 192 0 ++ leBytes 16 0

/-- A state in which slice address 0 of slice 3 holds bytes. -/
def opt3 (bs : List Byte) (sets : Store OptSet) : State :=
  let s := cmd3 2 id
  { (s.store 0 bs) with opt := { s.opt with sets := sets } }

/-- A registered set of one unit at index 4095. -/
def set1 : OptSet := { (default : OptSet) with
  slice := 3, pasid := 9, id := 7, kernel := 1, slots := 2, gfmt := 7, efmt := 4, contrib := 1, elems := 256, hi := 256, stateVa := 0x1000, gen := 4 }

/-- An optimizer descriptor of an operation. -/
def optd (o x : Nat) : List Byte := leBytes 64 (o + x)

theorem witness_OptimizerInFabric_descriptor :
    fieldAt (optd 8 0) 0 1 = 8 ∧ fieldAt (optd 1 0) 2 2 = 0 ∧ fieldAt (optd 1 0) 32 32 = 0 ∧ fieldAt (optd 5 (2 ^ 256)) 32 32 ≠ 0 ∧
    fieldAt (optd 7 0) 0 1 = 7 ∧ fieldAt (optd 3 (5 * 2 ^ 96)) 12 4 = 5 := by decide +kernel

theorem witness_OptimizerInFabric_commands :
    (takesOk (opt3 [] []) q3 2 = true ∧ (opt3 [] []).setIdx 3 4095 = none ∧ (opt3 [] [(4095, set1)]).setIdx 3 4095 = some 4095) ∧
    (match (opt3 (setDesc 7) []).vread 3 9 0 256 with | (t, .ok d) => t.setFormatOk 3 d && t.mapped 3 9 0x1000 (1 * 4096) true | _ => false) = true ∧
    (match (opt3 (setDesc 6) []).vread 3 9 0 256 with | (t, .ok d) => !(t.setFormatOk 3 d) | _ => false) = true ∧
    (let x := setOfDesc 3 9 0 (setDesc 7)
     x.lo ≤ x.hi ∧ x.hi ≤ (x.elems + x.u - 1) / x.u * x.u ∧ x.units = 1 ∧ x.stateVa = 0x1000 ∧ x.emitVa = 0 ∧ lowestFree ([] : List Nat) 4096 0 < 4096) ∧
    (let s := opt3 [] [(4095, set1)]
     (s.optSet 4095).releasing = none ∧ set1.stalled = false ∧ (4 : BitVec 32).toNat ≤ set1.gen ∧ set1.gen < (5 : BitVec 32).toNat ∧ s.setRuns 4095 = false ∧
     (match s.vread 3 9 0 64 with | (_, .ok bs) => decide (bs.length = 64) | _ => false) = true ∧
     (match s.vwrite 3 9 0 (OptSet.record set1) with | (_, .ok bs) => bs.isEmpty | _ => false) = true) ∧
    ({ set1 with stalled := true } : OptSet).stalled = true := by decide +kernel

theorem witness_OptimizerInFabric_kernels :
    (let s : State := { opt3 [] [(4095, set1)] with opt := { (opt3 [] [(4095, set1)]).opt with nm := [(31, { (default : NmSeq) with run := some ⟨4095, 0, 1⟩ })] } }
     s.setRuns 4095 = true) ∧
    ((([] : Store (Nat × List Byte)).filter (fun e => e.1 / 256 == 3)).length < 64 ∧ loadStatus (leBytes 64 0) true 0 ≠ 0 ∧
      (match (opt3 [] []).vread 3 9 0 64 with | (_, .ok bs) => loadStatus bs true 0 != 0 | _ => false) = true) ∧
    (let im : List Byte := splice ([0x49, 0x49, 0x54, 0x4B, 3, 0, 1, 0] ++ leBytes 4 4 ++ leBytes 56 0) 48
       (leBytes 4 (crc32c ([0x49, 0x49, 0x54, 0x4B, 3, 0, 1, 0] ++ leBytes 4 4 ++ leBytes 56 0)))
     loadStatus im true 0 = 0 ∧ (match (opt3 im []).vread 3 9 0 68 with | (_, .ok bs) => decide (loadStatus bs true 0 = 0) | _ => false) = true) ∧
    (∀ e ∈ (opt3 [] []).opt.kernels, e.1 ≠ 3 * 256 + 128) ∧
    (let s : State := { opt3 [] [(4095, { set1 with kernel := 128 })] with opt := { (opt3 [] [(4095, { set1 with kernel := 128 })]).opt with kernels := [(896, (9, [])), (897, (9, []))] } }
     (∃ e ∈ s.opt.kernels, e.1 = 3 * 256 + 129) ∧ (∀ e ∈ s.setsOf 3, e.2.kernel ≠ 129) ∧ (∃ e ∈ s.opt.kernels, e.1 = 3 * 256 + 128) ∧
     (∃ e ∈ s.setsOf 3, e.2.kernel = 128)) := by decide +kernel

/-- A GRAD of 32 BF16 elements from the first for generation 5. -/
def gradBody : List Byte := leBytes 4 7 ++ leBytes 4 5 ++ leBytes 8 0 ++ leBytes 2 32 ++ [7, 0] ++ leBytes 4 0 ++ leBytes 8 0 ++ List.replicate 64 0

theorem witness_OptimizerInFabric_units :
    (let s := linked (opt3 [] [(4095, set1)])
     let t := txn 0x0C 2 gradBody
     servesOk s 7 t 0x0C = true ∧ (s.setsOf 3).find? (fun e => e.2.id == fieldAt t.body 0 4) = some (4095, set1) ∧
     (s.accepted 7 t).gradStatus 7 t.hat t.body set1 = 0 ∧ (s.accepted 7 t).gradStatus 7 t.hat t.body { set1 with gen := 5 } ≠ 0 ∧
     (∀ e ∈ (linked (opt3 [] [])).setsOf 3, e.2.id ≠ fieldAt t.body 0 4)) ∧
    (let r : UnitRun := ⟨4095, 0, 1⟩
     let s0 := opt3 [] [(4095, set1)]
     let s : State := { s0 with opt := { s0.opt with queue := [r] } }
     (sget s.opt.nm 31).run = none ∧ s.isReady (16 + 0 / 8) = true ∧ (s.seqr 17).run = .idle ∧ s.opt.queue.find? (fun e => s.unitMi e == some (0 / 8)) = some r ∧
     r.pass = 1 ∧ (s.optSet r.set).kernel < 128 ∧
     (match (s.setOpt (fun o => { o with queue := o.queue.erase r })).vread 3 9 (0x1000 + 0 * 4096 + 0 * 2048) 2048 with
      | (_, .ok bs) => decide (bs.length = 2048) | _ => false) = true ∧
     (let z : State := { s0 with opt := { s0.opt with nm := [(31, { (default : NmSeq) with run := some r })] } }
      (sget z.opt.nm 31).run ≠ none ∧ (sget z.opt.nm 31).run = some r ∧ (z.optSet r.set).releasing = none ∧ (set1.kernel ≠ 4 ∨ r.pass ≠ 1) ∧
       (match (z.vwrite 3 9 0x1800 (List.replicate 2048 0)).2 with | .ok _ => true | _ => false) = true)) ∧
    (let x := { set1 with kernel := 4, slots := 4, sums := [(0, (0, 0)), (1, (0, 0))] }
     let s := opt3 [] [(4095, x)]
     set1.wantsRatio = false ∧ x.wantsRatio = true ∧ ([] : List (BitVec 64 × BitVec 32 × BitVec 32)).length + 1 = (s.optNode x).1) ∧
    (set1.stalled = false ∧ set1.gen + 1 = 5 ∧ set1.applied.length ≠ set1.units ∧
      ({ set1 with applied := [0], emitted := [0] } : OptSet).applied.length = set1.units ∧ ¬ (5 ∈ set1.skips ∨ (bit set1.flags 0 = true ∧ set1.nonfin ≠ [])) ∧
      5 ∈ ({ set1 with skips := [5] } : OptSet).skips) := by decide +kernel

/-! ### The Epjor link -/

/-- Slice 3 with a page of PASID 9 at address 0 of frame 7 and a queue of device number 6 at slot 1, bound at port 7. -/
def ep3 (w : Bool) (f : Port → Port) : State :=
  let s := linked { (cmd3 1 (fun x => { x with
    queues := [(1, { (default : Queue) with used := true, dev := 6, cfg := { (default : QueueRec) with kind := 1, pasid := 9, log2Size := 6 } })] })).addPages 3 [⟨9, 0, 7, w, false⟩] with sent := [] }
  { s with ports := [(7, f { (default : Port) with st := .active })] }

/-- The body of a request for `n` bytes at an address. -/
def reqBody (va n k : Nat) : List Byte := leBytes 8 va ++ leBytes 4 n ++ leBytes 4 k

theorem witness_EpjorTransactions_checks :
    (let s := ep3 true id
     let t := txn 0x03 0 (reqBody 0 8 0)
     t.hat.typ.toNat = 0x03 ∧ (s.port 7).usable = true ∧ s.selfEp = some t.hat.dest.toNat ∧ t.hat.src.toNat = s.partnerEp 7 ∧
     ({ t.hat with src := 78 } : Hat).src.toNat ≠ s.partnerEp 7 ∧ s.mod.svc = .normal ∧ (withMod s (fun m => { m with svc := .recovery })).mod.svc ≠ .normal ∧
     s.myTurn 7 t = true ∧ s.writesBefore 7 t = [] ∧ (s.arrivalOf 7 t).abort = false ∧ (s.arrivalOf 7 t).dup = false ∧
     (s.arrivalOf 7 { t with hat := { t.hat with pasid := 8 } }).bind = none ∧ (s.arrivalOf 7 t).bind = some (2 ^ 31 + 3 * 2 ^ 20 + 9) ∧ t.hatOk = true ∧
     bodyOk 0x03 t.body = true ∧ bit (2 ^ 30 + 3) 30 = true ∧
     (let u := ep3 true (fun x => { x with tags := [t.hat] })
      (u.arrivalOf 7 t).dup = true ∧ (u.arrivalOf 7 t).abort = false ∧ (u.arrivalOf 7 t).bind = some (2 ^ 31 + 3 * 2 ^ 20 + 9)) ∧
     (let u := ep3 true (fun x => { x with arrived := [⟨t, 7, some (2 ^ 31 + 2 ^ 30 + 3 * 2 ^ 20 + 9), false, false⟩] })
      u.myTurn 7 t = true ∧ (u.arrivalOf 7 t).bind = some (2 ^ 31 + 2 ^ 30 + 3 * 2 ^ 20 + 9)) ∧
     (let u := ep3 true (fun x => { x with arrived := [⟨t, 7, none, false, true⟩] })
      u.myTurn 7 t = true ∧ (u.arrivalOf 7 t).abort = true ∧ (u.arrivalOf 7 t).dup = false) ∧ ({ t with seg := false } : Txn).hatOk = false) ∧
    (let w := txn 0x05 2 (reqBody 0 1 0 ++ [7])
     let t := txn 0x06 2 (reqBody 64 1 0 ++ [7])
     let u := ep3 true (fun x => { x with arrived := [⟨w, 7, some (2 ^ 31 + 3 * 2 ^ 20 + 9), false, false⟩, ⟨t, 7, some (2 ^ 31 + 3 * 2 ^ 20 + 9), false, false⟩] })
     u.writesBefore 7 t = [w] ∧ w.hat.typ = 0x05 ∧ gives (.epjorWrite 7 w) u (fun v => v.writesBefore 7 t == []) = true) := by decide +kernel

theorem witness_EpjorTransactions_memory :
    (let s := ep3 true id
     let g := 7 * 0x200000 + 3
     servesOk s 7 (txn 0x03 0 (reqBody 4092 4 0)) 0x03 = true ∧ servesOk s 7 (txn 0x03 0 (reqBody 4092 5 0)) 0x03 = true ∧
     servesOk s 7 (txn 0x03 0 (reqBody 0x200000 4 0)) 0x03 = true ∧
     servesOk s 7 (txn 0x05 2 (reqBody 0 1 0 ++ [7])) 0x05 = true ∧ servesOk s 7 (txn 0x06 2 (reqBody 0 1 0 ++ [7])) 0x06 = true ∧
     servesOk s 7 (txn 0x08 0 (reqBody 0x1FFFF8 8 0 ++ leBytes 16 1)) 0x08 = true ∧ servesOk s 7 (txn 0x08 0 (reqBody 4 8 1 ++ leBytes 16 1)) 0x08 = true ∧
     servesOk s 7 (txn 0x10 3 (leBytes 4 6 ++ leBytes 4 64)) 0x10 = true ∧ servesOk s 7 (txn 0x11 3 (leBytes 24 0)) 0x11 = true ∧
     s.leaf 3 9 4092 = some g ∧ s.leaf 3 9 (4092 + 5 - 1) = some g ∧ 4092 % 4096 + 4 ≤ 4096 ∧ 4096 < 4092 % 4096 + 5 ∧
     (sectorsOf (7 * 0x200000 + 4092) 4).any s.badSector = false ∧ s.leaf 3 9 0x200000 = none ∧
     s.leaf 3 9 (0x1FFFF8 + 8 - 1) = some g ∧ 0x1FFFF8 % 8 = 0 ∧ s.badSector ((7 * 0x200000 + 0x1FFFF8) / 64 * 64) = false ∧
     (ep3 false id).leaf 3 9 0 = some (7 * 0x200000 + 1) ∧ bit g 1 = true ∧ bit (7 * 0x200000 + 1) 1 = false ∧
     leafAddr g 4092 = 7 * 0x200000 + 4092 ∧
     ([txn 0x03 0 (reqBody 4092 4 0), txn 0x05 2 (reqBody 0 1 0 ++ [7]), txn 0x06 2 (reqBody 0 1 0 ++ [7])].all (fun t =>
       (((s.accepted 7 t).port 7).tags.contains t.hat) && (s.writesBefore 7 t).isEmpty)) = true) := by decide +kernel

theorem witness_EpjorTransactions_doorbell :
    (let s := ep3 true id
     s.slotOfDev 3 5 = none ∧ s.slotOfDev 3 6 = some 1 ∧ 2 ^ (s.queue 3 1).cfg.log2Size < (65 + 2 ^ 32 - (s.queue 3 1).dqHead) % 2 ^ 32 ∧
     (64 + 2 ^ 32 - (s.queue 3 1).dqHead) % 2 ^ 32 ≤ 2 ^ (s.queue 3 1).cfg.log2Size) := by decide +kernel

/-- NORMAL with port 7 in a state. -/
def port7 (st : LinkState) (f : Port → Port) : State :=
  let s := linked nrm
  { s with ports := [(7, f { (default : Port) with st := st })] }

/-- The CONFIG flit of the partner as a block. -/
def config77 : List Byte := fecEncode (linkFlit 2 3 (configBody 77 255))

/-- What a block holds: its flit, where its code and its CRC are good. -/
def good (bl f : List Byte) (n : Nat) : Bool := fecDecode bl == some (f, n) && crc64 (bytesAt f 0 248) == fieldAt f 248 8

theorem witness_PortsAndLinkLayer_training :
    ((port7 .detect id).port 7).st = .detect ∧ (port7 .detect id).pins.ref156 = true ∧ bit (port7 .detect id).pins.cables 7 = true ∧
    7 ≤ (laneList 0x7F).length ∧ (laneList 0x3F).length < 7 ∧
    (let x := (port7 .equalise id).port 7
     let out (m : Nat) := (x.excluded.toList ++ [] ++ laneList m).eraseDups
     x.st = .equalise ∧ x.excluded = none ∧ out 0 = [] ∧ out 128 = [7] ∧ 2 ≤ (out 3).length) ∧
    ((port7 .align id).port 7).st = .align ∧
    (let x := (port7 .retrain id).port 7
     let y := (port7 .retrain (fun x => { x with excluded := some 7 })).port 7
     x.st = .retrain ∧ x.excluded = none ∧ x.ownReqs = [] ∧ x.queued = [] ∧ (port7 .retrain id).attends = [] ∧
     (x.excluded.toList ++ x.failing ++ laneList 0).eraseDups = [] ∧ (x.excluded.toList ++ x.failing ++ laneList 128).eraseDups = [7] ∧
     (y.excluded.toList ++ y.failing ++ laneList 128).eraseDups = [7] ∧ y.excluded = some 7) ∧
    (let s0 := port7 .down id
     let s : State := { s0 with dict := { s0.dict with obj := [(0x300702, 1), (0x300708, 1)] } }
     (s.port 7).st = .down ∧ s.obj 0x3007 8 = 1 ∧ s.obj 0x3007 2 = 1) ∧
    (let x := (port7 .active id).port 7
     x.st = .active ∧ x.excluded = none ∧ x.failing = [] ∧ x.retrains = [] ∧ x.sinceMark = 0) ∧
    (((port7 .active (fun x => { x with excluded := some 0 })).port 7).excluded = some 0 ∧ 0 ≠ 7) := by decide +kernel

theorem witness_PortsAndLinkLayer_config :
    good config77 (linkFlit 2 3 (configBody 77 255)) 0 = true ∧
    flitType (linkFlit 2 3 (configBody 77 255)) = 2 ∧
    (let s := port7 .config id
     (s.port 7).st = .config ∧ s.selfEp = some 66 ∧ (s.port 7).ownReqs = [] ∧
     configCause { configOf (linkFlit 2 3 (configBody 77 255)) with role := 1 } (s.partnerEp 7) = 0 ∧
     (let v : State := { s with dict := { s.dict with obj := [(0x300703, 78), (0x310001, 2 ^ 31 + 66)] } }
      v.selfEp = some 66 ∧ configCause (configOf (linkFlit 2 3 (configBody 77 255))) (v.partnerEp 7) ≠ 0)) := by decide +kernel

/-- A numbered flit: the first and last of a request, with a sequence number, and its block with a byte changed. -/
def flitN (n : Nat) : List Byte :=
  { (default : Flit) with seq := n, hat := (txn 0x03 0 []).hat, body := reqBody 0 8 0, final := true }.bytes
def blockN (n : Nat) : List Byte := (fecEncode (flitN n)).set 9 0xA5

theorem witness_PortsAndLinkLayer_flits :
    good (blockN 0) (flitN 0) 1 = true ∧ 3 ≤ flitType (flitN 0) ∧
    bits (fieldAt (flitN 0) 0 16) 20 9 = 0 ∧ bits (fieldAt (flitN 0) 0 16) 20 9 ≠ ((port7 .active (fun x => { x with rxSeq := 1 })).port 7).rxSeq ∧ bit (fieldAt (flitN 0) 0 16) 112 = true ∧
    (let s := port7 .active (fun x => { x with grant := [(0, 1)] })
     let h := hatOf (fieldAt (flitN 0) 0 16)
     h.vc = 0 ∧ (s.port 7).rxSeq = 0 ∧ look 0 (s.port 7).grant 0 ≠ 0 ∧ look none (s.port 7).part 0 = none ∧ isRequest h.typ.toNat = true ∧
     s.selfEp = some h.dest.toNat ∧ h.src.toNat = s.partnerEp 7 ∧ (s.port 7).inFlight h = false ∧
     ((port7 .active (fun x => { x with tags := [h] })).port 7).inFlight h = true ∧ (s.port 7).nak = false) ∧
    look 0 ((port7 .active id).port 7).grant 0 = 0 := by decide +kernel

theorem witness_PortsAndLinkLayer_bad_blocks :
    (fecDecode ((List.range 272).map (fun i => BitVec.ofNat 8 (if i % 4 = 0 then i * i else 0)))).isNone = true ∧
    (let f := (flitN 0).set 20 0xFF
     fecDecode (fecEncode f) = some (f, 0) ∧ crc64 (bytesAt f 0 248) ≠ fieldAt f 248 8) := by decide +kernel

/-- An LCTL flit: acknowledgement and NAK words. -/
def lctlN (ack nak : Nat) : List Byte := linkFlit 1 0 (leBytes 2 ack ++ leBytes 2 nak ++ leBytes 8 0 ++ [0, 255])

theorem witness_PortsAndLinkLayer_link_flits :
    (let f := lctlN (0x8000 + 4095) 0
     let b := lctlOf f
     good (fecEncode f) f 0 = true ∧ flitType f = 1 ∧ b.ack = some 4095 ∧ b.nak = none ∧ b.lreq = 0) ∧
    (let f := lctlN 0 (0x8000 + 4095)
     let b := lctlOf f
     good (fecEncode f) f 0 = true ∧ flitType f = 1 ∧ b.ack = none ∧ b.nak = some 4095 ∧ b.lreq = 0) ∧
    (good (fecEncode (linkFlit 0 0 [])) (linkFlit 0 0 []) 0 = true ∧ flitType (linkFlit 0 0 []) = 0) := by decide +kernel

theorem witness_PortsAndLinkLayer_slots :
    (let f : Flit := ⟨default, 4095, [], true, 0⟩
     let x := (port7 .active (fun x => { x with replay := [f] })).port 7
     x.replay = f :: [] ∧ (4095 : BitVec 12).toNat = f.seq ∧ x.replay ≠ [] ∧ ∀ y ∈ x.replay, y.tries < 7) ∧
    (let x := (port7 .active id).port 7
     x.st = .active ∧ x.replay = [] ∧ x.mustIdle = false ∧ ¬ (x.nakOwed = true ∨ x.owed = true ∨ (x.rxSince = true ∧ 63 ≤ x.quiet)) ∧
     x.resend = [] ∧ x.turn = none) ∧
    ((port7 .active (fun x => { x with owed := true })).port 7).owed = true ∧ ((port7 .active (fun x => { x with busy := 2047 })).port 7).mustIdle = true ∧
    ((port7 .active (fun x => { x with busy := 2046 })).port 7).mustIdle = true ∧
    ((port7 .active (fun x => { x with busy := 2046, nakOwed := true })).port 7).mustIdle = false ∧
    ((port7 .active (fun x => { x with resend := [⟨default, 0, [], true, 0⟩] })).port 7).resend = ⟨default, 0, [], true, 0⟩ :: [] ∧
    (let g : Flit := ⟨default, 0, [], true, 0⟩
     let x := (port7 .active (fun x => { x with cred := [(1, 1)], out := [(1, { (default : Egress) with cur := [g] })] })).port 7
     x.turn = some 1 ∧ ((sget x.out 1).load).cur = g :: []) := by decide +kernel

theorem witness_PortsAndLinkLayer_requests :
    (let r : OwnReq := { (default : OwnReq) with slice := 3, pasid := 9, len := 8 }
     let s := ep3 true (fun x => { x with own := [(4095, .used r)] })
     let t := txn 0x04 1 (leBytes 8 0)
     (s.port 7).usable = true ∧ isAnswer t.hat.typ.toNat = true ∧ s.selfEp = some t.hat.dest.toNat ∧ t.hat.src.toNat = s.partnerEp 7 ∧
     s.myTurn 7 t = true ∧ (s.arrivalOf 7 t).bind.isSome = true ∧ sget (s.port 7).own 4095 = .used r ∧ r.answer t = some (some (leBytes 8 0)) ∧ t.hat.typ ≠ 0x12 ∧
     r.answer { t with body := leBytes 7 0 } = none ∧ sget (s.port 7).own 0 = .free ∧ sget (s.port 7).own 4095 ≠ .quarantined) ∧
    (let x := (ep3 true (fun x => { x with own := [(4095, .quarantined)] })).port 7
     sget x.own 4095 = .quarantined ∧ x.ownWait = []) ∧
    (let s0 := ep3 true id
     let o : List (Nat × Nat) := (0x300603, 55) :: (0x300620, 2 ^ 31 + 3 * 2 ^ 20 + 9) :: s0.dict.obj
     let s : State := { s0 with ports := (6, { (default : Port) with st := .active }) :: s0.ports, dict := { s0.dict with obj := o } }
     let t := txn 0x03 0 (reqBody 0 8 0)
     s.selfEp ≠ some 55 ∧ t.hat.enc = false ∧ s.myTurn 7 t = true ∧ (s.arrivalOf 7 t).bind = some (2 ^ 31 + 3 * 2 ^ 20 + 9) ∧
     (List.range 8).find? (fun j => s.partnerEp j == 55 && (s.port j).usable) = some 6 ∧ (s.binding 6 3 9).isSome = true ∧
     ({ s with dict := { s.dict with obj := (0x300603, 55) :: s0.dict.obj } } : State).binding 6 3 9 = none ∧ isRequest t.hat.typ.toNat = true) ∧
    (let s : State := { ep3 true id with routeCache := [99] }
     s.selfEp ≠ some 99 ∧ (∀ j < 8, s.partnerEp j = 99 → (s.port j).usable = false) ∧ look 0 s.routes 99 = 0 ∧ 99 ∈ s.routeCache) ∧
    (let s0 := ep3 true id
     let s : State := { s0 with routeCache := [99], routes := [(99, 2 ^ 31 + 55)], dict := { s0.dict with obj := (0x350002, 0xFD) :: s0.dict.obj } }
     let t := txn 0x03 0 (reqBody 0 8 0)
     look 0 s.routes 99 = 2 ^ 31 + 55 ∧ 55 < 2 ^ 21 ∧ s.selfEp ≠ some 55 ∧
     (∃ peer, ((s.dropArrived 7 t).fabric 55) = some peer ∧ ((s.dropArrived 7 t).tunnel 7 peer t).2 = true)) := by decide +kernel

/-! ### Collectives, barriers and step boundaries -/

/-- Group 40 of slice 3 in slot 2: an accelerator at port 7 and the queue with device number 6. -/
def grp : Group := { (default : Group) with
  st := .active, slice := 3, id := 40, ranks := 2, nodes := [(66, 0)], epoch := 5, done := true
  members := [⟨0, true, 7, 8, 77, 9⟩, ⟨1, false, 0, 6, 0, 9⟩] }

/-- Slice 3 with a collective queue of device number 6 at slot 1, bound at port 7, and a group. -/
def coll3 (g : Group) : State :=
  let s := linked (cmd3 3 (fun x => { x with
    queues := [(1, { (default : Queue) with used := true, dev := 6, cfg := { (default : QueueRec) with kind := 3, pasid := 9, log2Size := 6 } })] }))
  { s with groups := [(2, g)] }

/-- A descriptor of rank 1 on group 40, with `ROOT_EPOCH` and other fields, and its command. -/
def cdesc (o root x : Nat) : List Byte := leBytes 64 (o + 9 * 2 ^ 16 + 40 * 2 ^ 32 + 1 * 2 ^ 96 + root * 2 ^ 320 + x)
def ccmd (root : Nat) : CollCmd := collOf (cdesc 0 root 0)

theorem witness_BarrierArrivals_calls :
    takesOk (coll3 grp) q3 3 = true ∧ (coll3 grp).isReady 20 = true ∧ fieldAt (cdesc 0x16 5 0) 0 1 = 0x16 ∧
    (coll3 grp).groupSlot 3 40 = some 2 ∧ (coll3 grp).groupSlot 3 41 = none ∧ (ccmd 5).group.toNat = 40 ∧ (ccmd 5).root.toNat = 5 ∧
    grp.memberOfQueue ((coll3 grp).queue 3 1).dev = some 1 ∧ ({ grp with members := [] } : Group).memberOfQueue 6 = none ∧
    ((ccmd 5).reserved = false ∧ (ccmd 5).mode = 0 ∧ (ccmd 5).cseq = 0 ∧ (grp.members.getD 1 default).rank = (ccmd 5).rank.toNat) ∧
    (collOf (cdesc 0x15 5 (2 ^ 500))).reserved = false ∧ (collOf (cdesc 0x15 5 (2 ^ 400))).reserved = true ∧
    (grp.members.getD 1 default).rank ≠ (collOf (cdesc 0x15 5 (2 ^ 97))).rank.toNat ∧
    (4 + 1 = grp.epoch ∧ grp.done = true) ∧ (3 < grp.epoch ∧ ¬ (3 + 1 = grp.epoch ∧ grp.done = true)) ∧ grp.epoch < 6 ∧
    ({ grp with st := .failed } : Group).st = .failed ∧
    (let s : State := { coll3 { grp with step := true } with ckpt := { nrm.ckpt with jobs := [(3, { (default : Job) with st := .fenced })] } }
     (s.group 2).step = true ∧ (s.job (s.group 2).slice).st = .fenced) ∧
    parentOf grp.index = none ∧ parentOf 1 = some 0 ∧
    (let g : Group := { grp with index := 1, nodes := [(66, 0), (65, 2)], arrived := [0, 1] }
     let s0 := coll3 g
     let s : State := { s0 with net := { s0.net with conns := [(12, { (default : Conn) with group := some (2, 0) })] } }
     g.complete = true ∧ g.passed = false ∧ s.nodeConn 2 0 = some 12) := by decide +kernel

theorem witness_BarrierArrivals_sync :
    servesOk (coll3 grp) 7 (txn 0x0E 3 (leBytes 4 40 ++ leBytes 4 5 ++ leBytes 8 0)) 0x0E = true ∧
    servesOk (coll3 grp) 7 (txn 0x0E 3 (leBytes 4 41 ++ leBytes 4 5 ++ leBytes 8 1)) 0x0E = true ∧
    grp.accelOf 7 (txn 0x0E 3 []).hat = some 0 ∧ ({ grp with members := [] } : Group).accelOf 7 (txn 0x0E 3 []).hat = none := by decide +kernel

/-- A packet of node `n` about epoch 5. -/
def cpkt (n : Nat) : CollPkt := { (default : CollPkt) with slice := 3, node := BitVec.ofNat 18 n, group := 40, seq := 5 }

theorem witness_BarrierArrivals_packets :
    (coll3 grp).groupSlot (cpkt 1).slice.val (cpkt 1).group.toNat = some 2 ∧ (cpkt 1).seq.toNat = grp.epoch ∧
    (cpkt 1).node.toNat ∈ childrenOf 2 0 ∧ (cpkt 2).node.toNat ∉ childrenOf 2 0 ∧ (cpkt 63).node.toNat ∈ childrenOf 64 0 ∧
    parentOf 1 = some (cpkt 0).node.toNat ∧ parentOf 0 ≠ some (cpkt 0).node.toNat ∧ grp.release = none ∧ grp.step = false ∧ (cpkt 0).code = 0 ∧
    ({ cpkt 0 with code := 4 } : CollPkt).code = 4 ∧
    ({ grp with index := 64, nodes := List.replicate 65 (0, 0), kids := [], arrived := [0, 1] } : Group).complete = true := by decide +kernel

theorem witness_BarrierArrivals_step :
    (coll3 grp).timeoutRuns 2 = false ∧ (coll3 { grp with arrived := [0] }).timeoutRuns 2 = true ∧ grp.waiting = [] ∧ grp.allHere = false ∧
    (let g := { grp with step := true, arrived := [0, 1] }
     let s := coll3 g
     g.raised = false ∧ g.release = none ∧ g.allHere = true ∧ (s.sendMarks 3).stepDone 3 = true ∧ (s.sendMarks 3).setsHeard 3 = true ∧
     (s.sendMarks 3).withholds 3 = false) ∧
    (let s : State := { coll3 { grp with step := true, arrived := [0, 1] } with ckpt := { nrm.ckpt with jobs := [(3, { (default : Job) with st := .census })] } }
     (s.sendMarks 3).withholds 3 = true ∧ (s.job (s.group 2).slice).st = .census) ∧
    ((coll3 { grp with release := some 5 }).group 2).release = some 5 ∧ ((coll3 grp).job 3).st ≠ .census ∧ ((coll3 grp).job 3).st ≠ .fenced := by decide +kernel

/-- `coll3` with kernel 15 of slice 3, whose operations are given. -/
def kern3 (g : Group) (f : Seqr → Seqr) : State :=
  { coll3 g with seqs := (run 15 (fun z => f { z with slice := 3, inTrap := true })).seqs }

theorem witness_BarrierArrivals_kernels :
    (let pl := 2 * 2 ^ 38 + 5 * 2 ^ 22
     CsErr.corrected ≠ .uncorrectable ∧ bits pl 49 38 = 2 ∧ bits pl 37 22 = 5 ∧ bits pl 21 20 = 0 ∧ bits (pl + 2 ^ 20) 21 20 = 1 ∧ bits (pl + 2 ^ 21) 21 20 = 2) ∧
    (let o := op 4 30 (.coll 2 6 5) true
     let s := kern3 grp (fun z => { z with ops := [o] })
     let t := s.csSend (csm 20 15 2 (2 * 2 ^ 38 + 5 * 2 ^ 22)) .corrected
     s.csTakes 20 2 = true ∧ s.csTakes 15 2 = true ∧ t.barrierOp 15 2 5 = some (o, 1, (t.group 2).epoch) ∧ (t.group 2).st = .active ∧
     (t.group 2).step = false ∧ (t.group 2).waiting = []) ∧
    (let o := op 4 30 (.coll 1 6 5) false
     let s := kern3 { grp with step := true } (fun z => { z with arriving := some 4, ops := [o] })
     let t := s.csSend (csm 20 15 3 (2 * 2 ^ 38 + 5 * 2 ^ 22)) .clean
     s.csTakes 20 3 = true ∧ (t.seqr 15).arriving = some 4 ∧ (t.seqr 15).ops = [o] ∧ t.stepMember (t.seqr 15).slice 6 = some (2, 1) ∧
     (t.group 2).st = .active ∧ 5 % 2 ^ 32 = (t.group 2).epoch ∧ (t.job (t.group 2).slice).st ≠ .fenced) ∧
    (let s := kern3 { grp with step := true } (fun z => { z with stepHold := true, stepEpoch := 5 })
     let t := s.csSend (csm 15 20 3 (2 * 2 ^ 38 + 5 * 2 ^ 22 + 2 ^ 20)) .clean
     s.csTakes 15 3 = true ∧ (t.seqr 15).stepHold = true ∧ (t.seqr 15).slice = (t.group 2).slice ∧ (t.seqr 15).stepEpoch % 2 ^ 16 = 5) ∧
    (bits (3 * 2 ^ 20) 21 20 ≠ 0 ∧ bits (3 * 2 ^ 20) 21 20 ≠ 1 ∧ bits (3 * 2 ^ 20) 21 20 ≠ 2 ∧ (st .boot).csTakes 3 2 = true ∧ State.reset.csTakes 3 2 = false) := by
  decide +kernel

/-- A group descriptor of one node and one rank, with its tables, at slice address 0. -/
def grpDesc : List Byte :=
  leBytes 4 41 ++ leBytes 4 0 ++ leBytes 4 1 ++ leBytes 4 1 ++ leBytes 8 0 ++ leBytes 2 1 ++ leBytes 2 0 ++ leBytes 4 0 ++ leBytes 8 64 ++ leBytes 8 128 ++
    leBytes 8 0x200000 ++ leBytes 8 0 ++ leBytes 8 66 ++ leBytes 56 0 ++ leBytes 4 0 ++ leBytes 2 1 ++ leBytes 2 6 ++ leBytes 4 0 ++ leBytes 4 9

/-- The descriptor of GROUP_CREATE for group 41 at address 0. -/
def createD : List Byte := leBytes 64 (1 + 41 * 2 ^ 32)

/-- What GROUP_CREATE finds of `grpDesc`: whether the group is well formed, its slot, the connections taken and its peers. -/
def created (s : State) : Option (Bool × Nat × Nat × Nat) :=
  match s.vread 3 (s.qPasid q3) (fieldAt createD 16 8) 64 with
  | (t, .ok b) => match t.vread 3 (s.qPasid q3) (fieldAt b 32 8) (8 * min 262144 (fieldAt b 12 4)) with
    | (u, .ok nt) => match u.vread 3 (s.qPasid q3) (fieldAt b 40 8) (16 * min 64 (fieldAt b 24 2)) with
      | (v, .ok lt) =>
        let g := v.groupOf 3 q3 b nt lt
        if groupCmdOk createD = true ∧ g.id = fieldAt createD 4 4 ∧ fieldAt b 12 4 ≤ 262144 ∧ fieldAt b 24 2 ≤ 64 ∧ g.st = .creating then
          some (v.groupOk 3 b nt lt g, lowestFree (v.groups.map Prod.fst) 4096 0, v.connsUsed 3, g.peers.length) else none
      | _ => none
    | _ => none
  | _ => none

/-- A quota of one connection for slice 3. -/
def collP (s : State) : State :=
  { s with host := { s.host with slices := s.host.slices.map (fun e => (e.1, { e.2 with quota := { e.2.quota with conns := 1 } })) } }

/-- Two nodes with one rank each in place of one. -/
def grpDesc2 : List Byte := splice (splice grpDesc 8 (leBytes 4 2 ++ leBytes 4 2)) 72 (leBytes 4 65 ++ leBytes 4 1)

theorem witness_GroupsAndCalls_rows : fieldAt (cdesc 0x03 0 0) 0 1 ∉ [0x01, 0x02, 0x10, 0x11, 0x12, 0x13, 0x14, 0x15, 0x16] ∧
    fieldAt (cdesc 0x10 0 0) 0 1 = 0x10 := by decide +kernel

theorem witness_GroupsAndCalls_groups :
    (let s0 := coll3 { grp with st := .creating, creator := some q3, nodes := [(66, 0), (65, 2)] }
     let s : State := { s0 with net := { s0.net with conns := [(12, { (default : Conn) with group := some (2, 1), st := .listen })] } }
     (s.group 2).st = .creating ∧ (s.group 2).creator = some q3 ∧ 1 ∈ (s.group 2).peers ∧ s.nodeConn 2 1 = some 12 ∧ (s.group 2).index < 1 ∧
     (s.conn 12).st = .listen) ∧
    (groupCmdOk (leBytes 64 (2 + 40 * 2 ^ 32)) = true ∧ groupCmdOk (leBytes 64 (2 + 2 ^ 8)) = false ∧ fieldAt (leBytes 64 (2 + 40 * 2 ^ 32)) 4 4 = 40 ∧
      (coll3 grp).groupSlot 3 40 = some 2 ∧ (coll3 grp).groupSlot 3 0 = none ∧ grp.calls = [] ∧ grp.waiting = []) ∧
    created ((coll3 { grp with id := 41 }).store 0 grpDesc) = some (false, 0, 0, 0) ∧
    created ((coll3 grp).store 0 grpDesc) = some (true, 0, 0, 0) ∧
    created ((collP (coll3 grp)).store 0 grpDesc2) = some (true, 0, 0, 1) ∧ ((collP (coll3 grp)).slice 3).quota.conns = 1 ∧
    (let s0 := collP (coll3 grp)
     let s : State := { s0 with net := { s0.net with conns := [(12, { (default : Conn) with slice := 3, st := .established })] } }
     created (s.store 0 grpDesc2) = some (true, 0, 1, 1)) := by decide +kernel

/-- A call of group 40 with one post of each rank. -/
def call1 : Call := { (default : Call) with
  cseq := 7, seg := 262144
  posts := [⟨q3, 0x10, { ccmd 0 with cseq := 7, rank := 0, count := 1 }, false⟩, ⟨q3, 0x10, { ccmd 0 with cseq := 7, count := 1 }, false⟩] }

theorem witness_GroupsAndCalls_calls :
    (callOk 0x10 (ccmd 0) = true ∧ callOk 0x13 (ccmd 1) = true ∧ (ccmd 1).root.toNat < grp.ranks ∧ callOk 0x10 (collOf (cdesc 0x10 0 (2 ^ 22))) = false ∧
      grp.only = false ∧ (ccmd 0).cseq.toNat = look 0 grp.next 1 ∧ (collOf (cdesc 0x10 0 (2 ^ 64))).cseq.toNat ≠ look 0 grp.next 1 ∧
      grp.ended ≤ (ccmd 0).cseq.toNat ∧ (ccmd 0).cseq.toNat < ({ grp with ended := 1 } : Group).ended ∧ grp.call 0 = none) ∧
    (let g (f : Call → Call) : Group := { grp with calls := [f call1] }
     (g id).call 7 = some call1 ∧ call1.posts.length = grp.members.length ∧ call1.started = false ∧
     ((g id).calls.filter (fun y => y.started && !(y.ended 2))).length < 16 ∧ call1.agree = true ∧
     ({ call1 with posts := [⟨q3, 0x10, ccmd 0, false⟩, ⟨q3, 0x11, ccmd 0, false⟩] } : Call).agree = false ∧
     ({ call1 with posts := [] } : Call).posts.length ≠ grp.members.length ∧
     call1.posts.all ((coll3 (g id)).recvOk 2 (call1.recvBytes 2)) = true ∧
     ({ call1 with posts := [⟨q3, 0x10, { ccmd 0 with recv := 0x200000, count := 1 }, false⟩] } : Call).posts.all ((coll3 (g id)).recvOk 2 4) = false ∧
     call1.ended 2 = false ∧ ({ call1 with fail := some 9 } : Call).ended 2 = true ∧ 7 = ({ grp with ended := 7 } : Group).ended ∧ 7 ≠ grp.ended ∧
     ({ call1 with started := true } : Call).started = true ∧ ({ call1 with started := true } : Call).ended 2 = false) := by decide +kernel

theorem witness_GroupsAndCalls_packets :
    (let s := coll3 { grp with step := true, raised := true }
     s.stepGroup 3 = some 2 ∧ s.holding 3 = true) ∧
    (coll3 grp).holding 3 = false ∧ (cpkt 1).set = none ∧
    (let g : Group := { grp with nodes := [(66, 0), (65, 2)], calls := [call1] }
     let s := coll3 g
     let p := { cpkt 1 with seq := 7 }
     s.groupSlot p.slice.val p.group.toNat = some 2 ∧ (s.group 2).call p.seq.toNat = some call1 ∧ call1.fail = none ∧ call1.started = false ∧
     p.node.toNat ≠ (s.group 2).index ∧ p.node.toNat < (s.group 2).nodes.length ∧ (s.group 2).ended ≤ p.seq.toNat ∧
     (let x := { call1 with started := true }
      x.started = true ∧ reduces x.op = true ∧ p.run.toNat < x.runs 2 ∧ x.next ≤ p.run.toNat)) ∧
    (let x := { set1 with group := 40 }
     let s0 := coll3 { grp with nodes := [(66, 0), (65, 2)] }
     let s : State := { s0 with opt := { s0.opt with sets := [(4095, x)] } }
     let p := { cpkt 1 with set := some 7, seq := 5 }
     p.set = some 7 ∧ (s.setsOf 3).find? (fun e => e.2.id == 7) = some (4095, x) ∧ p.node.toNat ≠ (s.optNode x).2.1 ∧
     p.node.toNat < (s.optNode x).1 ∧ x.stalled = false ∧ p.seq.toNat = x.gen + 1) := by decide +kernel

/-! ### Ethernet ports and traffic scheduling -/

/-- NORMAL with objects given and the network state changed. -/
def netSt (o : List (Nat × Nat)) (f : Net → Net) : State := { nrm with dict := { nrm.dict with obj := o }, net := f nrm.net }

/-- A frame of 60 bytes before its FCS: destination, source 0, type, then what follows, padded. -/
def raw (dst etype : Nat) (b : List Byte) : List Byte :=
  let h := beBytes 6 dst ++ beBytes 6 0 ++ beBytes 2 etype ++ b
  h ++ List.replicate (60 - h.length) 0

/-- An IPv4 packet: protocol, header checksum changed by `bad`, and what follows. -/
def ip4 (bad proto : Nat) (b : List Byte) : List Byte :=
  let h (c : Nat) : List Byte := beBytes 2 0x4500 ++ beBytes 2 (20 + b.length) ++ beBytes 4 0 ++ beBytes 1 64 ++ beBytes 1 proto ++ beBytes 2 c ++
    beBytes 4 1 ++ beBytes 4 2
  h (inetSum (h 0) + bad) ++ b

/-- A transport packet in UDP with a version, and a checksum field. -/
def xp4 (ver sum : Nat) : List Byte :=
  ip4 0 17 (beBytes 2 0xC000 ++ beBytes 2 6940 ++ beBytes 2 40 ++ beBytes 2 sum ++ beBytes 1 ver ++ beBytes 1 1 ++ beBytes 30 0)

/-- Logical port 0 up; address 2 is a device address; port 6940 is the transport's. -/
def up0 : State := netSt [] (fun n => { n with up := 1, addrs := [(0, 2 * 2 ^ 152 + 128 * 2 ^ 184 + 2 * 2 ^ 224)] })

/-- `up0` with an entry that takes every packet: its action in bits 2–0, no meter, nothing else. -/
def up1 (a : Nat) : State :=
  netSt [(0x360002, 1)] (fun n => { n with up := 1, cls := [(0, ⟨0, 0, 2 ^ 63 + 0xFFF * 2 ^ 26 + a, 0⟩)] })

/-- A whole frame to everybody. -/
def bcast (etype : Nat) (b : List Byte) : List Byte := withFcs (raw 0xFFFFFFFFFFFF etype b)

/-- What is found of a frame at logical port 0 of `s`: its length in range, its FCS, a group address, and its parsing. -/
def seen (s : State) (f : List Byte) : Bool × Bool × Bool × Option Parsed :=
  (decide (64 ≤ f.length) && decide (f.length ≤ s.obj 0x3400 4), fieldAt f (f.length - 4) 4 == crc32 (f.take (f.length - 4)), netAt f 0 1 % 2 == 1, parse f)

theorem witness_EthernetAndScheduling_ethernetFrames_links :
    (nrm.lportExists 0 = true ∧ nrm.obj 0x3400 1 = 1 ∧ nrm.isReady 21 = true ∧ nrm.pins.ref156 = true ∧
      bit (withPins nrm (fun p => { p with cables := 256 })).pins.cables 8 = true) ∧
    nrm.lportExists 31 = false ∧ (netSt [(0x340001, 0)] id).obj 0x3400 1 ≠ 1 ∧ nrm.lportUp 0 = false ∧ up0.lportUp 0 = true := by decide +kernel

theorem witness_EthernetAndScheduling_ethernetFrames_lengths :
    up0.lportUp 0 = true ∧ (raw 0 0 []).length < 64 ∧
    (let f := raw 0 0 [] ++ leBytes 4 0
     64 ≤ f.length ∧ f.length ≤ up0.obj 0x3400 4 ∧ fieldAt f 60 4 ≠ crc32 (f.take 60)) := by decide +kernel

theorem witness_EthernetAndScheduling_ethernetFrames_address : ∃ f : List Byte, 64 ≤ f.length ∧ f.length ≤ up0.obj 0x3400 4 ∧
    fieldAt f (f.length - 4) 4 = crc32 (f.take (f.length - 4)) ∧ ¬ (netAt f 0 1 % 2 = 1 ∨ netAt f 0 6 = macOf 0) := by
  by_cases h : macOf 0 = 0
  · exact ⟨withFcs (raw 2 0 []), by decide +kernel, by decide +kernel, by decide +kernel, by rw [h]; decide +kernel⟩
  · exact ⟨withFcs (raw 0 0 []), by decide +kernel, by decide +kernel, by decide +kernel, fun g => g.elim (by decide +kernel)
      (fun e => h (e.symm.trans (by decide +kernel)))⟩

theorem witness_EthernetAndScheduling_ethernetFrames_kinds :
    seen up0 (bcast 0x88A8 []) = (true, true, true, none) ∧
    (match seen up0 (bcast 0x8808 []) with | (true, true, true, some p) => p.etype == 0x8808 | _ => false) = true ∧
    (match seen up0 (bcast 0x0800 (ip4 1 6 (beBytes 20 0))) with | (true, true, true, some p) => p.etype != 0x8808 && p.badSum | _ => false) = true ∧
    (match seen up0 (bcast 0x1234 []) with
      | (true, true, true, some p) => p.etype != 0x8808 && !p.badSum && !up0.isTransport p && (up0.classify (up0.clsKey 0 (bcast 0x1234 []) p)).isNone
      | _ => false) = true := by decide +kernel

/-- Whether a frame is a transport packet at `s` that passes its header's check, with the sum field `sum`, version `v` and no matching entry. -/
def isXp (s : State) (f : List Byte) (good v1 : Bool) : Bool :=
  match seen s f with
  | (true, true, true, some p) =>
    let sum := netAt f (p.l4 + 6) 2
    p.etype != 0x8808 && !p.badSum && s.isTransport p && (!(sum == 0 && p.v6) && (sum == 0 || udpSum f p == 0)) == good &&
      (netAt f (p.l4 + 8) 1 == 1) == v1 && (s.classify (s.clsKey 0 f p)).isNone && (xpOf 0 f p).isSome == v1
  | _ => false

theorem witness_EthernetAndScheduling_ethernetFrames_transport :
    isXp up0 (bcast 0x0800 (xp4 1 1)) false true = true ∧ isXp up0 (bcast 0x0800 (xp4 2 0)) true false = true ∧
    isXp up0 (bcast 0x0800 (xp4 1 0)) true true = true := by decide +kernel

theorem witness_EthernetAndScheduling_ethernetFrames_entry :
    ∀ a ∈ [0, 3], (match seen (up1 a) (bcast 0x1234 []) with
      | (true, true, true, some p) => (match (up1 a).classify ((up1 a).clsKey 0 (bcast 0x1234 []) p) with
        | some (0, e) => !(up1 a).isTransport p && !bit e.action 38 && bits e.action 37 26 == 0xFFF && bits e.action 2 0 == a
        | _ => false)
      | _ => false) = true := by decide +kernel

/-- An ARP request for IPv4 address 2. -/
def arpReq : List Byte := bcast 0x0806 (beBytes 8 0x0001080006040001 ++ beBytes 10 1 ++ beBytes 6 0 ++ beBytes 4 2)

theorem witness_EthernetAndScheduling_ethernetFrames_answers :
    nrm.net.exc = [] ∧
    (let s := netSt [] (fun n => { n with up := 1, exc := [⟨0, bcast 0x1234 []⟩] })
     s.net.exc = ⟨0, bcast 0x1234 []⟩ :: [] ∧ s.fwRuns = true ∧ (s.excAnswer 0 (bcast 0x1234 [])).isNone = true) ∧
    (let s := netSt [] (fun n => { n with up := 1, exc := [⟨0, arpReq⟩], addrs := [(0, 2 * 2 ^ 152 + 2 ^ 192 + 2 * 2 ^ 224)] })
     s.lportUp 0 = true ∧ ((parse arpReq).map (fun p => (p.etype, p.l4)) = some (0x0806, 14)) ∧ netAt arpReq 14 8 = 0x0001080006040001 ∧
     s.answersFor 0 (mapped4 (netAt arpReq 38 4)) = true) := by decide +kernel

/-- Slice 3 whose control ring uses PASID 9. -/
def ring3 : State := cmd3 1 (fun x => { x with queues := [(0, { (default : Queue) with used := true, cfg := { (default : QueueRec) with pasid := 9 } })] })

theorem bytes_zeros (a n : Nat) : ring3.bytes a n = List.replicate n 0 := by
  have h (x : Nat) : ring3.byte x = 0 := rfl
  rw [State.bytes]
  simp only [h, List.map_const']
  simp

theorem spreadOk_zeros (n : Nat) : spreadOk (List.replicate n 0) = true := by
  simp only [spreadOk, fieldAt_zeros]; decide +kernel

theorem witness_EthernetAndScheduling_ethernetFrames_spread :
    (ring3.queue 3 0).used = true ∧ (ring3.queue 3 0).halted = false ∧ (ring3.slice 3).hello = true ∧ ring3.doorbellsLive 3 = true ∧
    (fieldAt (leBytes 64 (4 + 0x1FF3F8 * 2 ^ 64)) 0 1 = 4 ∧ fieldAt (leBytes 64 (4 + 0x1FF3F8 * 2 ^ 64)) 8 8 = 0x1FF3F8) ∧
    ring3.vread 3 (ring3.queue 3 0).cfg.pasid 0x1FF3F8 3080 = (ring3, .ok (List.replicate 3080 0)) ∧ spreadOk (List.replicate 3080 0) = true ∧
    ring3.vread 3 (ring3.queue 3 0).cfg.pasid 0x1FF3F9 3080 = (ring3, .xlate) ∧ spreadOk (0 :: 1 :: List.replicate 3078 0) = false := by
  have m : ring3.mapped 3 9 0x1FF3F8 3080 false = true := by decide +kernel
  have p : pieces (pieceFuel 3080) 0x1FF3F8 3080 = [(0x1FF3F8, 3080)] := by decide +kernel
  have x : ring3.xlate 3 9 0x1FF3F8 false = some 0x1FF3F8 := by decide +kernel
  have r := State.memRead_good (s := ring3) (a := 0x1FF3F8) (n := 3080) (by decide +kernel)
  rw [bytes_zeros] at r
  refine ⟨by decide +kernel, by decide +kernel, by decide +kernel, by decide +kernel, by decide +kernel, ?_, spreadOk_zeros _, State.vread_unmapped (by decide +kernel), by rfl⟩
  change ring3.vread 3 9 0x1FF3F8 3080 = _
  rw [State.vread, m, p]
  simp only [Bool.not_true, Bool.false_eq_true, if_false, List.foldl_cons, List.foldl_nil, x, r, List.nil_append]

/-- Logical port 0 with frames of 64 bytes in queues, each a queue number and a tag. -/
def txq0 (l : List (Nat × Nat)) : State :=
  netSt [] (fun n => { n with up := 1, txq := l.map (fun e => (e.1, { (default : TxQueue) with pkts := [⟨List.replicate 64 0, none, 0⟩], tag := e.2 })) })

theorem witness_EthernetAndScheduling_queueSelection :
    (txq0 [(0, 7), (2, 4), (2047, 5)]).chosen 0 = some 0 ∧ (txq0 [(2, 4), (2047, 5)]).chosen 0 = some 2 ∧
    canonical default (txq0 [(2, 4), (2047, 5)]).net.txq = true ∧ 2047 ∈ (txq0 [(2, 4), (2047, 5)]).eligible 0 ∧
    (let s := txq0 [(0, 7), (2, 4)]
     (∃ x ∈ s.eligible 0, qRank (s.qcfg 0 x) = 0 ∧ s.guarOpen 0 x = true)) ∧
    (let s := txq0 [(2, 4)]
     (∀ x ∈ s.eligible 0, ¬ (qRank (s.qcfg 0 x) = 0 ∧ s.guarOpen 0 x = true)) ∧ ∃ x ∈ s.eligible 0, qRank (s.qcfg 0 x) = 1 ∧ s.guarOpen 0 x = true) ∧
    (let s : State := { txq0 [(2, 4)] with net := { (txq0 [(2, 4)]).net with qcfg := [(2, qDflt 1 + 2 ^ 64)] } }
     2 ∈ s.eligible 0 ∧ qMax (s.qcfg 0 2) ≠ 0) ∧
    nrm.lportUp 0 = false ∧ (netSt [] (fun n => { n with up := 1 })).chosen 0 = none ∧
    (((txq0 [(2047, 4)]).at 9).chosen 0 = some 2047 ∧ ((txq0 [(2047, 4)]).txq 0 2047).pkts = ⟨List.replicate 64 0, none, 0⟩ :: []) ∧
    ((txq0 [(2047, 5)]).txq 0 2047).pkts ≠ [] ∧ (txq0 [(2047, 5)]).lportUp 0 = true ∧
    (netSt [] (fun _ => { (txq0 [(2047, 5)]).net with up := 0 })).lportUp 0 = false ∧
    (withMod nrm (fun m => { m with tick := 1 })).mod.tick % nrm.obj 0x3700 7 ≠ 0 ∧ nrm.mod.tick % nrm.obj 0x3700 7 = 0 ∧
    (netSt [] (fun n => { n with winEnd := 9 })).net.winEnd ≠ nrm.mod.tick ∧ (netSt [] (fun n => { n with winEnd := 0 })).net.winEnd = nrm.mod.tick ∧
    (txq0 [(2047, 5)]).background = true ∧ (st .test).background = false := by decide +kernel

/-! ### The remote memory transport -/

/-- Slice 3 with a queue of a kind at slot 1, a SEND queue of device number 6 at slot 2, a RECV queue of device number 7 at slot 3, and connections. -/
def conn3 (kind : Nat) (l : List (Nat × Conn)) : State :=
  let r (k : Nat) : QueueRec := { (default : QueueRec) with kind := k, pasid := 9, log2Size := 6 }
  let s := cmd3 kind (fun x => { x with queues := [(1, { (default : Queue) with used := true, dev := 5, cfg := r kind }),
    (2, { (default : Queue) with used := true, dev := 6, cfg := r 7 }), (3, { (default : Queue) with used := true, dev := 7, cfg := r 8 })] })
  { s with net := { s.net with conns := l } }

/-- A connection of slice 3 in a state. -/
def con (st : ConnState) : Conn := { (default : Conn) with st := st, slice := 3, cls := 1, pasid := 9, sq := 6, rq := 7, allow := 7, peer := 77, incarn := 4 }

/-- A connection descriptor: class, queues, PASID, address entry, and other fields; and OPEN's or LISTEN's command. -/
def cnd (o cls x : Nat) : List Byte := leBytes 64 (o + cls * 2 ^ 8 + 6 * 2 ^ 96 + 7 * 2 ^ 112 + 9 * 2 ^ 320 + 1023 * 2 ^ 368 + x)
def open3 : ConnCmd := connCmdOf (cnd 1 15 0)

/-- A packet of an operation for connection 5. -/
def pkt (op : Nat) (data : List Byte) : XpPkt :=
  { (default : XpPkt) with op := BitVec.ofNat 4 op, incarn := 4, dconn := 5, src := 77, last := true, data := data }

/-- `conn3` with a device address at entry 1023 of the address table. -/
def open3s (l : List (Nat × Conn)) : State :=
  let s := conn3 4 l
  { s with net := { s.net with addrs := [(1023, 128 * 2 ^ 184 + 2 ^ 224)] } }

theorem witness_Connections_open :
    takesOk (open3s []) q3 4 = true ∧ fieldAt (cnd 7 15 0) 0 1 = 7 ∧ fieldAt (cnd 1 15 0) 0 1 = 1 ∧ (open3s []).isReady (21 + (open3s []).freeConn % 2) = true ∧
    open3.laddr ≠ 0xFFFF ∧ (open3s []).connFieldsOk 3 open3 true = true ∧ (open3s []).connFieldsOk 3 open3 false = true ∧
    (open3s []).connFieldsOk 3 (connCmdOf (cnd 1 16 0)) true = false ∧
    (let e := connCmdOf (cnd 1 15 (2 ^ 16 + 9 * 2 ^ 352))
     (open3s []).connFieldsOk 3 e true = true ∧ (connOf 3 e true).enc = true ∧ (open3s []).ownsSlot 3 9 = false) ∧
    (connOf 3 open3 true).enc = false ∧ ¬ ((open3s []).slice 3).quota.conns ≤ (open3s []).connsUsed 3 ∧ (open3s []).net.conns.length < 131072 ∧
    (let s := open3s ((List.range 4).map (fun k => (k, { con .established with sq := 0, rq := 0 })))
     s.connFieldsOk 3 open3 true = true ∧ (s.slice 3).quota.conns ≤ s.connsUsed 3) ∧
    (let e := connCmdOf (cnd 1 15 ((0xFFFF - 1023) * 2 ^ 368))
     (open3s []).connFieldsOk 3 e true = true ∧ (open3s []).ownFabric (open3s []).selfEp = none) ∧
    (let s0 := open3s []
     let s : State := { s0 with dict := { s0.dict with obj := [(0x310001, 2 ^ 31 + 66), (0x350002, 1)] } }
     s.connFieldsOk 3 (connCmdOf (cnd 1 15 ((0xFFFF - 1023) * 2 ^ 368))) false = true ∧ (s.ownFabric s.selfEp).isSome = true) := by decide +kernel

theorem witness_Connections_states :
    takesOk (conn3 4 [(5, con .established)]) q3 4 = true ∧ (connCmdOf (cnd 3 15 (2 ^ 24))).reserved = true ∧ (connCmdOf (cnd 3 15 (5 * 2 ^ 32))).reserved = false ∧
    ((conn3 4 []).conn 5).st = .closed ∧ ((conn3 4 [(5, { con .established with device := true })]).conn 5).device = true ∧
    ((conn3 4 [(5, { con .established with slice := 4 })]).conn 5).slice ≠ 3 ∧
    (let c := (conn3 4 [(5, con .connecting)]).conn (connCmdOf (cnd 3 15 (5 * 2 ^ 32))).conn.toNat
     c.st = .connecting ∧ c.device = false ∧ c.slice = 3 ∧ c.tries < 16) ∧
    ((conn3 4 [(5, con .listen)]).conn 5).st = .listen ∧ ((conn3 4 [(5, con .error)]).conn 5).st = .error ∧
    ((conn3 4 [(131071, con .closing)]).conn 131071).st = .closing ∧
    (let c := (conn3 4 [(5, { con .established with recs := [(0, default)] })]).conn 5
     c.st = .established ∧ c.quiet = false) ∧
    (let c := (conn3 4 [(5, con .established)]).conn 5
     c.quiet = true ∧ c.closeRx = false ∧ c.cls ≠ 0) ∧
    (match (conn3 4 [(5, con .established)]).vwrite 3 9 0x1FFFC0 (List.replicate 64 7) with | (_, .ok []) => true | _ => false) = true ∧
    (1 ≤ open3.cls.toNat ∧ open3.cls.toNat ≤ 15 ∧ bits open3.flags.toNat 7 6 = 0) ∧ (connCmdOf (cnd 6 0 0)).cls = 0 ∧
    (let c := (conn3 4 [(5, { con .connecting with tries := 16 })]).conn 5
     c.st = .connecting ∧ 16 ≤ c.tries ∧ c.device = false) := by decide +kernel

theorem witness_Connections_packets :
    (conn3 4 []).isFor (pkt 1 []) [.connecting] = false ∧ (conn3 4 [(5, { con .established with incarn := 3 })]).isFor (pkt 4 []) [.established, .closing] = false ∧
    (pkt 4 []).op.toNat = 4 ∧ (conn3 4 [(5, con .connecting)]).isFor (pkt 1 []) [.connecting] = true ∧
    ((conn3 4 [(5, { con .connecting with opener := some q3 })]).conn 5).opener = some q3 ∧
    (conn3 4 [(5, con .established)]).isFor (pkt 3 []) [.established] = true ∧ (con .established).wrs = [] ∧ (con .established).opener = none ∧
    (let s := conn3 4 [(5, { con .closing with closeTx := true })]
     s.isFor (pkt 3 []) [.closing] = true ∧ (s.conn 5).quiet = true ∧ (s.conn 5).closeTx = true) := by decide +kernel

theorem witness_Connections_connect :
    let d (c r : Nat) : List Byte := beBytes 4 9 ++ beBytes 1 4 ++ beBytes 1 c ++ beBytes 2 0 ++ beBytes 8 r
    let p := pkt 0 (d 1 55)
    let l (f : Conn → Conn) : State := conn3 4 [(5, f { con .listen with rdv := 55 })]
    let twin (e : Nat × Conn) := e.2.st == .established && !e.2.starter && e.2.pconn == payAt p.data 0 4 && e.2.pincarn == payAt p.data 4 1 &&
      e.2.peerKey == p.src.toNat
    let fits (e : Nat × Conn) := e.2.st == .listen && e.2.group.isNone && e.2.rdv == payAt p.data 8 8 && (e.2.anyPeer || e.2.peerKey == p.src.toNat)
    payAt p.data 5 1 % 16 ≠ 0 ∧ (l id).net.conns.find? twin = none ∧
    ((l id).net.conns.find? (fun e => fits e && e.2.enc == (payAt p.data 6 1 == 1))).map Prod.fst = some 5 ∧
    (l (fun c => { c with rdv := 54 })).net.conns.find? (fun e => fits e && e.2.enc == (payAt p.data 6 1 == 1)) = none ∧
    (l (fun c => { c with rdv := 54 })).net.conns.any fits = false ∧ (l (fun c => { c with enc := true })).net.conns.any fits = true ∧
    ((l (fun c => { c with st := .established, pconn := 9, pincarn := 4 })).net.conns.find? twin).map Prod.fst = some 5 ∧
    (payAt (d 0 55) 5 1 % 16 = 0 ∧ payAt (d 0 55) 8 8 ≠ 0 ∧
      ((l (fun c => { c with group := some (2, 0) })).net.conns.find? (fun e => e.2.st == .listen && e.2.group.isSome && e.2.rdv == payAt (d 0 55) 8 8 &&
        e.2.peerKey == p.src.toNat)).map Prod.fst = some 5) ∧
    (let s0 := open3s []
     let s : State := { s0 with dict := { s0.dict with obj := [(0x310001, 2 ^ 31 + 66), (0x350002, 1)] } }
     (∃ a ∈ s.ownFabric s.selfEp, ({ pkt 0 (d 0 0) with dst := BitVec.ofNat 128 a } : XpPkt).dst.toNat = a) ∧ payAt (d 0 0) 8 8 = 0 ∧
     s.deviceConns < s.obj 0x3500 7 ∧ s.freeConn < 131072) := by decide +kernel

/-- A state with one connection, number 5, for packets. -/
def est (f : Conn → Conn) : State := conn3 4 [(5, f (con .established))]

theorem witness_TransportPackets_window :
    (∀ e ∈ (est id).net.conns, e.2.enc = true → ((est id).kslot e.2.kslot).st ≠ .exhausted) ∧
    (let s := est (fun c => { c with cum := 1 })
     s.isFor (pkt 4 []) [.established] = true ∧ (s.conn 5).enc = false ∧ (pkt 4 []).enc = false ∧ (pkt 4 []).ce = false ∧
     2 ^ 31 ≤ ((pkt 4 []).psn.toNat + 2 ^ 32 - (s.conn 5).cum) % 2 ^ 32) ∧
    (let d := ({ pkt 4 [] with psn := 65536 } : XpPkt).psn.toNat
     65536 ≤ (d + 2 ^ 32 - ((est id).conn 5).cum) % 2 ^ 32 ∧ (d + 2 ^ 32 - ((est id).conn 5).cum) % 2 ^ 32 < 2 ^ 31) ∧
    (let s := est (fun c => { c with got := [65535] })
     (65535 + 2 ^ 32 - (s.conn 5).cum) % 2 ^ 32 < 65536 ∧ ({ pkt 4 [] with psn := 65535 } : XpPkt).psn.toNat ∈ (s.conn 5).got) ∧
    (let s : State := { est (fun c => { c with heldPsns := [2] }) with groups := [(0, { (default : Group) with slice := 3, st := .active, step := true, raised := true })] }
     s.holding (s.conn 5).slice = true ∧ (s.conn 5).device = false ∧ [4, 7, 0xA].contains 4 = true ∧ 2 ∈ (s.conn 5).heldPsns ∧ 0 ∉ (s.conn 5).heldPsns ∧
     0 ∉ (s.conn 5).got) := by decide +kernel

/-- What a packet in order meets at connection 5. -/
def inOrder (s : State) (p : XpPkt) : Bool :=
  let c := s.conn 5
  s.isFor p [.established] && !c.enc && !p.enc && !p.ce && p.psn.toNat == c.cum && c.got.isEmpty && c.finals.isEmpty && !p.final && !p.ackreq &&
    decide (c.unacked + 1 < s.cls c 0xD) && !(s.holding c.slice) && decide (p.addr.toNat < 2 ^ 63)

theorem witness_TransportPackets_effects :
    (let p := { pkt 4 [7] with addr := 0x1FFFFF }
     inOrder (est id) p = true ∧ bit ((est id).conn 5).allow 0 = true ∧ (match (est id).vwrite 3 9 0x1FFFFF p.data with | (_, .ok []) => true | _ => false) = true ∧
     bit ((est (fun c => { c with allow := 6 })).conn 5).allow 0 = false) ∧
    (let p := { pkt 5 [] with addr := 0x1FFFFF, aux := 1 }
     inOrder (est id) p = true ∧ bit ((est id).conn 5).allow 1 = true ∧ (match (est id).vread 3 9 0x1FFFFF 1 with | (_, .ok [0]) => true | _ => false) = true ∧
     (est id).paySize 1 ≠ 0) ∧
    (let p := { pkt 7 (beBytes 16 1) with addr := 0x1FFFF8, aux := 1 }
     inOrder (est id) p = true ∧ bit ((est id).conn 5).allow 2 = true ∧ p.addr.toNat % 8 = 0 ∧ (est id).mapped 3 9 0x1FFFF8 8 true = true ∧
     (match (est id).vread 3 9 0x1FFFF8 8 with | (r, .ok [0, 0, 0, 0, 0, 0, 0, 0]) => (match r.vwrite 3 9 0x1FFFF8 (leBytes 8
       (atomicNew (p.aux == 1) (leNat (List.replicate 8 0)) (payAt p.data 0 8) (payAt p.data 8 8))) with | (_, .ok []) => true | _ => false) | _ => false) = true) := by
  decide +kernel

theorem witness_TransportPackets_answers :
    (let s0 := est id
     let s : State := { s0 with net := { s0.net with recv := [(recvKey 3 3, ⟨[(0, ⟨0, 1, 3⟩)], 1⟩)] } }
     let p := pkt 9 [7]
     inOrder s p = true ∧ s.queueOfKind 3 7 8 = some 3 ∧ (est (fun c => { c with rq := 8 })).queueOfKind 3 8 8 = none ∧ p.addr.toNat = 0 ∧ p.last = true ∧ p.data ≠ [] ∧
     look default (s.conn 5).rxSends 0 = default ∧ (sget s.net.recv (recvKey 3 3)).bufs.find? (fun e => e.1 == (s.conn 5).rqBase) = some (0, ⟨0, 1, 3⟩) ∧
     (match s.vwrite 3 9 0 p.data with | (_, .ok []) => true | _ => false) = true) ∧
    (let w : Wr := { (default : Wr) with op := 2, msn := 0, cmd := { (default : WrCmd) with len := 1 } }
     let s := est (fun c => { c with wrs := [w] })
     inOrder s (pkt 6 [7]) = true ∧ (s.conn 5).wrOf 0 2 = some w ∧ (match s.vwrite 3 9 0 [7] with | (_, .ok []) => true | _ => false) = true) ∧
    (let w : Wr := { (default : Wr) with op := 3, msn := 0, cmd := { (default : WrCmd) with len := 8 } }
     let s := est (fun c => { c with wrs := [w] })
     inOrder s (pkt 8 (beBytes 8 7)) = true ∧ (s.conn 5).wrOf 0 3 = some w ∧ (pkt 8 (beBytes 8 7)).data.length = 8 ∧
     (match s.vwrite 3 9 0 (beBytes 8 7).reverse with | (_, .ok []) => true | _ => false) = true) ∧
    (let s := est (fun c => { c with device := true })
     let p := pkt 0xA (List.replicate 16 0)
     inOrder s p = true ∧ p.aux = 0 ∧ 16 ≤ p.data.length ∧ look default (s.conn 5).rxSends 0 = default ∧ look [] (s.conn 5).part 0 = [] ∧
     (s.conn 5).inMsn = 0 ∧ (s.conn 5).ready = []) ∧
    inOrder (est id) (pkt 0xD (beBytes 8 0)) = true ∧ inOrder (est (fun c => { c with device := true })) (pkt 9 []) = true ∧
    ((est (fun c => { c with allow := 6 })).conn 5).wrs = [] ∧ ((est (fun c => { c with allow := 6 })).conn 5).opener = none ∧
    (let s := est (fun c => { c with una := 2 ^ 32 - 1, psn := 0, recs := [(2 ^ 32 - 1, default)] })
     let d : List Byte := List.replicate 48 0
     s.isFor (pkt 0xC d) [.established] = true ∧ payAt d 0 4 = ((s.conn 5).una + 1) % 2 ^ 32 ∧ (s.conn 5).una < 2 ^ 32 ∧
     ((s.conn 5).psn + 2 ^ 32 - (s.conn 5).una) % 2 ^ 32 ≠ 0 ∧ payAt d 4 4 = (s.conn 5).peerCe ∧ payAt d 8 1 = 0 ∧ payAt d 16 32 = 0 ∧ (s.conn 5).hold = false) := by
  decide +kernel

theorem witness_TransportPackets_timers :
    (con .established).unacked = 0 ∧ ((est (fun c => { c with unacked := 1 })).conn 5).unacked ≠ 0 ∧ ((est id).conn 5).recs = [] ∧
    (let s := est (fun c => { c with recs := [(0, default)], hold := true })
     (s.conn 5).recs ≠ [] ∧ (s.conn 5).hold = true) ∧
    (let s := est (fun c => { c with recs := [(0, default)] })
     (s.conn 5).hold = false ∧ (s.conn 5).timeouts < s.cls (s.conn 5) 9 ∧ (s.conn 5).st ≠ .closed) ∧
    (let s := est (fun c => { c with recs := [(0, default)], timeouts := 255 })
     s.cls (s.conn 5) 9 ≤ (s.conn 5).timeouts ∧ (s.conn 5).device = false ∧ (s.conn 5).st = .established) ∧
    (let s := est (fun c => { c with device := true, cls := 0, starter := true })
     let c := s.conn 5
     c.device = true ∧ c.starter = true ∧ c.cls = 0 ∧ c.st = .established ∧ c.quiet = true ∧ c.closeRx = false ∧
     c.lastUse + s.obj 0x3500 8 * 1000000 ≤ (s.at (2 ^ 40)).net.now) ∧
    (let w : Wr := { (default : Wr) with op := 1, q := q3 }
     let s := est (fun c => { c with wrs := [w] })
     (s.conn 5).wrs = w :: [] ∧ (s.conn 5).wrDone w = true ∧ (s.conn 5).wrDone { w with cmd := { w.cmd with len := 1 } } = false) ∧
    ((conn3 4 []).conn 5).st = .closed ∧ 0 < ((est (fun c => { c with pace := 1 })).conn 5).pace ∧
    (let w : Wr := { (default : Wr) with op := 1, q := q3, cmd := { (default : WrCmd) with len := 1 } }
     let s (n p u : Nat) := est (fun c => { c with wrs := [w], psn := n, una := u, recs := if n = 2 ^ 31 then [(p, { (default : Sent) with acked := true })] else [] })
     ((s 0 0 0).conn 5).pace ≤ (s 0 0 0).net.now ∧ (((s 0 0 0).conn 5).nextNew ((s 0 0 0).paySize (5 % 2))).isSome = true ∧
     ((s (2 ^ 31) 0 0).conn 5).recs.find? (fun e => e.2.queued && !e.2.acked) = none ∧ ((s 0 0 0).conn 5).admits ((s 0 0 0).cls ((s 0 0 0).conn 5) 0xC) = 0 ∧
     (s (2 ^ 31 - 1) 0 0).cls (con .established) 0xC ≤ (((s (2 ^ 31 - 1) 0 0).conn 5).psn + 2 ^ 32 - 0) % 2 ^ 32 ∧
     ((s (2 ^ 31) 0 (2 ^ 31 - 1)).conn 5).admits ((s 0 0 0).cls (con .established) 0xC) = 2) := by decide +kernel

/-- A device connection with a tunnelled transaction to send, over logical port 0. -/
def dev5 : State :=
  let s0 := open3s [(5, { con .established with device := true, cls := 0, slice := 0, laddr := 0xFFFF, outs := [(0, .epjor 0 [1] true true)] })]
  { s0 with dict := { s0.dict with obj := [(0x310001, 2 ^ 31 + 66), (0x340406, 5), (0x350002, 1)] }, net := { s0.net with up := 2 ^ 16, addrs := [(1023, 16 * 2 ^ 184 + 2 ^ 224)] } }

theorem witness_TransportPackets_transmit :
    (let s := dev5
     let c := s.conn 5
     c.st = .established ∧ c.pace ≤ s.net.now ∧ c.recs.find? (fun e => e.2.queued && !e.2.acked) = none ∧ c.admits (s.cls c 0xC) = 0 ∧
     (match c.nextNew (s.paySize 1) with
      | some (m, b, _) => (s.pathOf 5 c c.psn 1).isSome && !b.gated && (match s.bodyOut c b with
        | (v, .inr (op, fl, a, x, y)) => (match v.sendXp 5 c ⟨op, fl, c.psn, m, a, x, y⟩ 1 (some (5, c.psn)) with | (_, .sent _) => true | _ => false)
        | _ => false)
      | none => false) = true) := by decide +kernel

theorem witness_TransportPackets_requests :
    (let s := conn3 7 [(5, { con .established with sq := 5 })]
     let d (o x : Nat) : List Byte := leBytes 64 (o + 8 * 2 ^ 192 + x)
     takesOk s q3 7 = true ∧ fieldAt (d 5 0) 0 1 = 5 ∧ fieldAt (d 3 0) 2 1 ≠ 1 ∧ s.connOfQueue q3 = some 5 ∧ (conn3 7 []).connOfQueue q3 = none ∧
     s.wrCheck (s.conn 5) 1 (wrCmdOf (d 1 (2 ^ 400))) ≠ 0 ∧ s.wrCheck (s.conn 5) 1 (wrCmdOf (d 1 0)) = 0 ∧ s.wrCheck (s.conn 5) 3 (wrCmdOf (d 3 0)) = 0 ∧
     s.isReady 22 = true ∧ (withMod s (fun m => { m with islands := State.reset.mod.islands })).isReady 22 = false ∧
     (s.conn 5).wrs = []) ∧ takesOk (conn3 8 []) q3 8 = true := by decide +kernel

/-! ### Checkpoint and recovery -/

/-- Slice 3 with a CKPT queue, a STEP group of two nodes at slot 2 of which this is node `i`, and a job. -/
def job3 (i : Nat) (j : Job) : State :=
  let s := linked (cmd3 5 id)
  { s with
    groups := [(2, { (default : Group) with st := .active, slice := 3, id := 40, step := true, index := i, nodes := [(66, 0), (67, 1)], epoch := 5 })]
    ckpt := ⟨[(3, j)], []⟩ }

/-- A job of two nodes in a state, at node `i`. -/
def job (st : JobState) (i : Nat) : Job := { (default : Job) with id := 9, bytes := 0x200000, st := st, index := i, nodes := [66, 67] }

/-- A descriptor of a CKPT command: OP, and other fields. -/
def ckd (o x : Nat) : List Byte := leBytes 64 (o + x)

/-- A region of `n` elements at virtual address `va`. -/
def regionD (va n : Nat) : List Byte :=
  leBytes 4 7 ++ leBytes 1 9 ++ leBytes 3 1 ++ leBytes 8 va ++ leBytes 16 9 ++ leBytes 8 n ++ (List.range 5).flatMap (fun _ => leBytes 8 1) ++
    leBytes 48 0 ++ leBytes 8 n ++ (List.range 5).flatMap (fun _ => leBytes 8 1) ++ leBytes 16 0

/-- A running RESTORE of generation 4 over one old node. -/
def rest4 : CkRestore := ⟨q3, 4, [66]⟩

theorem witness_CheckpointCommands_job :
    takesOk (job3 0 (job .armed 0)) q3 5 = true ∧ (fieldAt (ckd 0 0) 0 1 = 0 ∧ 8 < fieldAt (ckd 9 0) 0 1) ∧
    ({ job .recovering 0 with restore := some rest4 } : Job).restore.isSome = true ∧ (job .armed 0).restore = none ∧
    (∀ o ∈ [1, 2, 3, 4, 5, 6, 7, 8], ckZeros (ckd o (2 ^ 16)) = false ∧ ckZeros (ckd o 0) = true ∧ fieldAt (ckd o 0) 0 1 = o) ∧
    (job3 0 default |>.job 3).st = .none ∧ (job3 0 default).stepGroup 3 = some 2 ∧ (cmd3 5 id).stepGroup 3 = none ∧
    ((job .armed 0).st ≠ .none ∧ ¬ ((job .armed 0).st = .recovering ∧ (job .armed 0).id = 9)) ∧
    (let fits (d : List Byte) : Prop := let bytes := fieldAt d 40 8
       bytes % 0x200000 = 0 ∧ bytes ≠ 0 ∧ bytes ≤ 384 * 2 ^ 30 ∧ fieldAt d 48 4 < 2 ∧ fieldAt d 8 8 ≠ 0
     let d := ckd 1 (9 * 2 ^ 64 + 0x200000 * 2 ^ 320 + 2 ^ 384)
     ckZeros d = true ∧ ((job3 0 default).group 2).nodes.length = 2 ∧ fits d ∧ ¬ fits (ckd 1 (9 * 2 ^ 64 + 0x200001 * 2 ^ 320)) ∧
       ¬ fits (ckd 1 (9 * 2 ^ 64 + (384 * 2 ^ 30 + 0x200000) * 2 ^ 320)) ∧ ¬ fits (ckd 1 (9 * 2 ^ 64 + 0x200000 * 2 ^ 320 + 2 * 2 ^ 384)) ∧
       ¬ fits (ckd 1 (0x200000 * 2 ^ 320))) ∧
    (job3 0 default).jobRoom 3 (0x4000000 - 0x200000) 0 = true ∧ (job3 0 default).jobRoom 3 0x4000000 0 = false ∧
    ((job .recovering 0).id = 9 ∧ (job3 0 (job .recovering 0)).jobRoom 3 0x4000000 (job .recovering 0).bytes = true) := by decide +kernel

theorem witness_CheckpointCommands_regions :
    (match ((job3 0 (job .armed 0)).store 0x1000 (regionD 0 4)).vread 3 9 (fieldAt (ckd 2 (0x1000 * 2 ^ 192)) 24 8) 192 with
      | (t, .ok d) => t.regionOk 3 d && t.mapped 3 9 (regionOf d).va (regionOf d).size true &&
          decide (copyBytes (t.shardSizes 3 [regionOf d]) ≤ 0x2000000) && decide ((t.setsOf 3).length = 0)
      | _ => false) = true ∧
    (match (job3 0 (job .armed 0)).vread 3 9 0x1000 192 with
      | (t, .ok d) => !(t.regionOk 3 d)
      | _ => false) = true ∧
    (let r := regionD 0x200000 4
     (job3 0 (job .armed 0)).regionOk 3 r = true ∧ (job3 0 (job .armed 0)).mapped 3 9 (regionOf r).va (regionOf r).size true = false) ∧
    (let j : Job := { job .armed 0 with bytes := 0x2000000, regions := [regionOf (regionD 0 4)] }
     ((∀ x ∈ j.regions, x.id ≠ fieldAt (ckd 3 (8 * 2 ^ 64)) 8 4) ∧ ∃ x ∈ j.regions, x.id = fieldAt (ckd 3 (7 * 2 ^ 64)) 8 4) ∧
     copyBytes ((job3 0 j).shardSizes 3 (j.regions ++ [regionOf (regionD 0 4)])) ≤ j.bytes ∧
     j.regions.length + 1 + ((job3 0 j).setsOf 3).length ≤ 65536 ∧
     ((j.regions ++ [regionOf (regionD 0 4)]).map CkRegion.id ++ ((job3 0 j).setsOf 3).map (fun e => e.2.id)).eraseDups.length ≤ 16384) := by decide +kernel

theorem witness_CheckpointCommands_states :
    (job .stopped 0).st = .stopped ∧ (job .armed 0).st ≠ .stopped ∧ (job .census 0).st = .census ∧ (job .fenced 0).st = .fenced ∧
    ((job .armed 0).phase.open = false ∧ (job .armed 0).attached = none ∧ (job .armed 0).notice = none ∧ (job .armed 0).noticeC = none ∧
      (job .armed 0).waiting = [] ∧ (job .armed 0).restore = none) ∧
    (match (job3 0 (job .armed 0)).vwrite 3 9 0 (job .armed 0).bytesOf with | (_, .ok []) => true | _ => false) = true ∧
    (fieldAt (ckd 4 0) 32 8 = 0 ∧ 262144 < fieldAt (ckd 4 (262145 * 2 ^ 256)) 32 8) ∧
    (let d := ckd 4 (4 * 2 ^ 128 + 0x1FFFF8 * 2 ^ 192 + 2 ^ 256)
     ckZeros d = true ∧ 1 ≤ fieldAt d 32 8 ∧ fieldAt d 32 8 ≤ 262144 ∧ fieldAt d 1 1 = 0 ∧ fieldAt d 16 8 = 4 ∧
      (match (job3 0 (job .recovering 0)).vread 3 9 (fieldAt d 24 8) (fieldAt d 32 8 * 8) with | (_, .ok _) => true | _ => false) = true) ∧
    (∀ e ∈ (job3 0 (job .armed 0)).setsOf 3, e.2.gen = 4) ∧ ((job .stopped 0).st ≠ .armed ∧ (job .stopped 0).st ≠ .recovering) ∧
    (fieldAt (ckd 5 0) 16 8 = 0 ∧ fieldAt (ckd 5 (4 * 2 ^ 128)) 16 8 ≠ (job .armed 0).genC ∧ 4 ≠ (job .armed 0).genS) ∧
    (let j : Job := { job .armed 0 with genC := 4 }
     (job3 0 j).holderCopies j j.nodes 4 j.index [] = [] ∧ (job3 0 j).holderCopies j j.nodes 4 j.index [⟨0, 0, [7]⟩] = [7] :: [] ∧
     (fieldAt (ckd 5 (4 * 2 ^ 128)) 32 8 < 1 ∧ 1 ≤ fieldAt (ckd 5 (4 * 2 ^ 128 + 2 ^ 256)) 32 8)) := by decide +kernel

/-- Slice 3 with a job and 16 MiB mapped from virtual address 0. -/
def wide3 : State := (job3 0 (job .armed 0)).addPages 3 ((List.range 7).map (fun i => ⟨9, i + 1, i + 1, true, false⟩))

theorem witness_CheckpointCommands_import :
    let d := ckd 4 (2 ^ 8 + 4 * 2 ^ 128 + 2 ^ 256)
    takesOk wide3 q3 5 = true ∧ ckZeros d = true ∧ fieldAt d 1 1 = 1 ∧ (wide3.job 3).st = .armed ∧ (wide3.setsOf 3).length = 0 ∧
      (∃ tab, wide3.vread 3 (wide3.qPasid q3) (fieldAt d 24 8) (fieldAt d 32 8 * 8) = (wide3, .ok tab)) ∧
      ∃ b, wide3.readImage q3 (fieldAt d 56 8) = (wide3, .ok b) := by
  have clean : ∀ x, wide3.badSector x = false := State.badSector_clean (by decide +kernel) (by decide +kernel)
  refine ⟨by decide +kernel, by decide +kernel, by decide +kernel, by decide +kernel, by decide +kernel, ?_, ?_⟩
  · exact State.vread_clean clean (by decide +kernel)
  · have h : ∃ h, wide3.vread 3 (wide3.qPasid q3) 0 64 = (wide3, .ok h) ∧ fieldAt h 56 8 = 0 := by
      refine ⟨wide3.bytes 0 64, ?_, by decide +kernel⟩
      obtain ⟨bs, hb⟩ := State.vread_clean clean (show wide3.mapped 3 (wide3.qPasid q3) 0 64 false = true by decide +kernel)
      have : (wide3.vread 3 (wide3.qPasid q3) 0 64).2 = .ok (wide3.bytes 0 64) := by decide +kernel
      rw [hb] at this ⊢
      exact congrArg _ this
    obtain ⟨h, hv, hz⟩ := h
    have ha : fieldAt (ckd 4 (2 ^ 8 + 4 * 2 ^ 128 + 2 ^ 256)) 56 8 = 0 := by decide +kernel
    have hs : q3.slice.val = 3 := rfl
    simp only [State.readImage, ha, hs, hv, hz]
    exact State.vread_clean clean (by decide +kernel)

theorem witness_CheckpointCommands_complete :
    (job .armed 0).restore = none ∧
    (let j : Job := { job .recovering 0 with restore := some rest4 }
     (job3 0 j).boxesMapped 3 = true ∧ (∀ k < 1, manVersion (((job3 0 j).oldImages j rest4 [] k).headD []) ≠ 1) ∧
     restoreStatus ((List.range 1).map (fun k => (job3 0 j).oldCopy j.id 4 k ((job3 0 j).oldImages j rest4 [] k))) [] = 0) ∧
    (let j : Job := { job .recovering 0 with restore := some rest4, regions := [regionOf (regionD 0 4)] }
     (job3 0 j).boxesMapped 3 = true ∧ restoreStatus ((List.range 1).map (fun k => (job3 0 j).oldCopy j.id 4 k ((job3 0 j).oldImages j rest4 [] k)))
       ((j.regions.map CkRegion.target).flatMap (fun y => y.cells (oldShards [.lost]))) ≠ 0) ∧
    (let j : Job := { job .recovering 0 with restore := some rest4, regions := [regionOf (regionD 0x200000 4)] }
     (job3 0 j).boxesMapped 3 = false) := by decide +kernel

/-- A cohort message of a kind from a node about generation 4 of job 9: incident, count and body. -/
def coh (kind n inc cnt : Nat) (body : List Byte) : List Byte :=
  (leBytes 40 (kind * 2 ^ 312 + n * 2 ^ 256 + 9 * 2 ^ 192 + inc * 2 ^ 160 + cnt * 2 ^ 128 + 4 * 2 ^ 64 + body.length * 2 ^ 32)).reverse ++ body

theorem witness_CohortMessages_arrive :
    ((cohortOf (coh 12 1 0 0 [])).kind = 12 ∧ ∀ k ∈ List.range 12, (cohortOf (coh k 1 0 0 [])).kind = k) ∧
    (job3 0 default).jobSlice (cohortOf (coh 1 1 0 0 [])).job = none ∧ (job3 0 (job .armed 0)).jobSlice (cohortOf (coh 1 1 0 0 [])).job = some 3 ∧
    canonical default (job3 0 (job .armed 0)).ckpt.jobs = true ∧ (job .armed 0).incident < (cohortOf (coh 1 1 1 0 [])).incident ∧ (job .armed 0).st ≠ .fenced ∧
    ((cohortOf (coh 1 1 0 0 [])).incident < ({ job .armed 0 with incident := 1 } : Job).incident ∧ (job .fenced 0).incident < (cohortOf (coh 1 1 1 0 [])).incident) ∧
    (job .armed 0).incident = (cohortOf (coh 1 1 0 0 [])).incident ∧
    ((job .armed 0).index = 0 ∧ (job .armed 1).index ≠ 0 ∧ parentOf (job .armed 1).index = some 0) ∧
    ((job .armed 1).mark = 0 ∧ (job .armed 1).phase.open = false ∧ parentOf (job .armed 1).index = some (cohortOf (coh 4 0 0 0 [])).sender) ∧
    (parentOf (job .armed 1).index ≠ some (cohortOf (coh 4 1 0 0 [])).sender ∧ ¬ ((job .census 1).st = .armed ∨ (job .census 1).st = .stopped)) := by decide +kernel

theorem witness_CohortMessages_phases :
    (let j : Job := { job .armed 0 with mark := 5 }
     j.mark = (cohortOf (coh 5 1 0 0 [])).gen + 1 ∧ (cohortOf (coh 5 1 0 0 [])).sender ∈ j.kids) ∧
    (let j : Job := { job .armed 0 with genP := 4, phase := .copying }
     j.genP = (cohortOf (coh 6 1 0 0 [])).gen ∧ j.phase = .copying ∧ (cohortOf (coh 6 1 0 0 [])).count = 0 ∧ (cohortOf (coh 6 1 0 0 [])).sender = j.succ ∧
     j.phase.open = true ∧ (cohortOf (coh 6 1 0 7 [])).count ≠ 0 ∧ 1 ∈ j.kids ∧ j.verified = false ∧ (job .armed 0).genP ≠ 4) ∧
    (let j : Job := { job .armed 0 with genP := 4, phase := .copied, verified := true }
     j.verified = true ∧ j.index = 0 ∧ ∀ c ∈ j.kids, c ≠ 1 → look 0 j.ups c ≠ 0) ∧
    (let j : Job := { job .armed 1 with genP := 4, phase := .copied }
     j.genP = (cohortOf (coh 7 0 0 0 [])).gen ∧ j.phase.open = true ∧ parentOf j.index = some (cohortOf (coh 7 0 0 0 [])).sender ∧ j.index ≠ 0) ∧
    (let j : Job := { job .armed 0 with genC := 4 }
     let m := cohortOf (coh 8 1 0 1 [])
     j.genC = m.gen ∧ j.genS < j.genC ∧ m.sender ∈ j.kids ∧ look 0 j.secs j.index = 0 ∧ m.count ≠ 0 ∧ m.sender ≠ j.index ∧
     look 0 ({ j with secs := [(0, 1)] } : Job).secs j.index ≠ 0 ∧ ∀ c ∈ j.kids, c ≠ m.sender → look 0 j.secs c ≠ 0) ∧
    (let j : Job := { job .armed 1 with genC := 4 }
     j.genC = (cohortOf (coh 9 0 0 0 [])).gen ∧ j.genS < j.genC ∧ parentOf j.index = some (cohortOf (coh 9 0 0 0 [])).sender) ∧
    (let j : Job := { job .census 0 with view := ⟨[0], []⟩ }
     let n := j.nodes.length
     let v := j.view.join n (viewOf n (cohortOf (coh 10 1 0 0 (leBytes 16 0 ++ leBytes 1 2 ++ leBytes 2 0))).body)
     ({ v with gens := v.gens.map (fun g => (g.1, sortNodes n (g.2 ++ (job3 0 j).holds 3 g.1))) } : View) ≠ j.view.join n j.view) ∧
    (job .armed 0).st ≠ .census := by decide +kernel

/-- A fabric prefix and device connections of class 2 to endpoint 67 on both islands. -/
def fab3 (s : State) : State :=
  let c : Conn := { (default : Conn) with device := true, st := .established, cls := 2, peer := 2 ^ 120 + 67 }
  { s with dict := { s.dict with obj := s.dict.obj ++ [(0x350002, 1)] }, net := { s.net with conns := [(4, c), (5, c)] } }

theorem witness_CohortMessages_timers :
    ((job3 0 default).job 3).st = .none ∧ 7 ∉ linksOf 2 0 ∧ 1 ∈ linksOf 2 0 ∧ (job3 0 (job .armed 0)).linkLive 3 1 = false ∧
    (job3 0 { job .armed 0 with beats := [(1, 1)] }).linkLive 3 1 = true ∧ 1 ∉ (job .recovering 0).missing ∧
    (let s := { job3 0 (job .census 0) with mod := { nrm.mod with tick := 100000 } }
     s.obj 0x5100 3 ≤ s.mod.tick - (s.job 3).viewTick) ∧
    (2 = 2 * ({ job .census 0 with view := ⟨[0], []⟩ } : Job).view.side.length ∧ (job .census 0).tie ∈ [0]) ∧
    ¬ (2 < 2 * ([1] : List Nat).length ∨ (2 * ([1] : List Nat).length = 2 ∧ (job .census 0).tie ∈ [1])) ∧ (cmd3 5 id).stepGroup 3 = none ∧
    (let j : Job := { job .armed 0 with phase := .cut, nodes := [66] }
     j.phase = .cut ∧ j.genC ≤ j.genS ∧ j.nodes.length ≤ 1) ∧ (job .armed 0).phase ≠ .cut ∧
    (let j : Job := { job .armed 0 with phase := .cut }
     1 < j.nodes.length ∧ j.succ ∉ j.heard ∧ j.succ ∈ ({ j with heard := [1] } : Job).heard ∧ (let s := fab3 (job3 0 j)
      s.fabric (j.nodes.getD j.succ 0) = some (2 ^ 120 + 67) ∧ s.deviceConn (2 ^ 120 + 67) (s.obj 0x5000 3) 0 = some 4 ∧
      s.deviceConn (2 ^ 120 + 67) (s.obj 0x5000 3) 1 = some 5 ∧ 0 < s.paySize 0)) ∧
    ((job .armed 0).taking = false ∧ ({ job .armed 0 with taking := true, phase := .copying } : Job).phase.open = true) ∧
    nrm.flash.tier ≠ .rw ∧
    (let j : Job := { job .armed 0 with genC := 4 }
     ({ nrm.flash with tier := .rw } : Flash).tier = .rw ∧ ¬ (j.phase = .copying ∧ j.nodes.length = 1) ∧ j.genS < j.genC ∧ look 0 j.secs j.index = 0 ∧
       (job .armed 0).genC ≤ (job .armed 0).genS) ∧
    (let j : Job := { job .armed 0 with phase := .copying, nodes := [66] }
     j.phase = .copying ∧ j.nodes.length = 1 ∧ j.index = 0) := by decide +kernel

/-- The checkpoint MAC key of the tests' states. -/
def ckm0 : List Byte := kdf (leBytes 32 0) (ascii "ckpt-mac" ++ idBytes 0) 48

theorem ckm_eq {s : State} (h : s.keys = nrm.keys) : s.ckm = ckm0 := by
  have hs : s.keys.setup = some { (default : KeyRec) with opk := some 0 } := by rw [h]; rfl
  rw [State.ckm, hs]
  rfl

/-- The fields of a manifest without shards of node 0 of job 9 at generation 4, and the manifest under that key. -/
def man4h : List Byte :=
  leBytes 4 0x4D4E4B43 ++ leBytes 4 2 ++ leBytes 8 9 ++ leBytes 4 2 ++ leBytes 4 0 ++ leBytes 8 4 ++ leBytes 4 0 ++ leBytes 4 0 ++ leBytes 24 0
def man4 : List Byte := man4h ++ (hmac384 ckm0 man4h ++ [])

theorem witness_CohortMessages_copy :
    (let j : Job := { job .armed 1 with taking := true, phase := .copying, genP := 4, buddy := man4 }
     (job3 1 j).manOk j.buddy j.id j.genP j.pred = true ∧ manVersion j.buddy = 2 ∧ (manShards j.buddy).all (shardOk j.buddy) = true ∧ j.index ≠ 0 ∧
     (job3 1 j).manOk [] j.id j.genP j.pred = false) := by
  have fields : fieldAt man4 0 4 = 0x4D4E4B43 ∧ manVersion man4 = 2 ∧ fieldAt man4 8 8 = 9 ∧ fieldAt man4 24 8 = 4 ∧ fieldAt man4 20 4 = 0 ∧
      manTagAt man4 = 64 ∧ man4.take 64 = man4h ∧ fieldAt man4 40 4 = 0 := by decide +kernel
  obtain ⟨f0, fv, f8, f24, f20, ft, fh, f40⟩ := fields
  have tag : bytesAt man4 64 48 = hmac384 ckm0 man4h := bytesAt_mid _ _ _ (by decide) (by simp)
  refine ⟨?_, fv, ?_, by decide, by decide +kernel⟩
  · have key : (job3 1 { job .armed 1 with taking := true, phase := .copying, genP := 4, buddy := man4 }).ckm = ckm0 := ckm_eq rfl
    simp only [State.manOk, f0, fv, f8, f24, f20, ft, fh, tag, key]
    decide +kernel
  · simp only [manShards, f40]
    rfl

/-- The manifest of node 1 under the same key, for node 0 as its holder. -/
def man5h : List Byte :=
  leBytes 4 0x4D4E4B43 ++ leBytes 4 2 ++ leBytes 8 9 ++ leBytes 4 2 ++ leBytes 4 1 ++ leBytes 8 4 ++ leBytes 4 0 ++ leBytes 4 0 ++ leBytes 24 0
def man5 : List Byte := man5h ++ (hmac384 ckm0 man5h ++ [])

theorem witness_CohortMessages_root :
    (let j : Job := { job .armed 0 with taking := true, phase := .copying, genP := 4, buddy := man5, ups := [(1, 1)] }
     (job3 0 j).manOk j.buddy j.id j.genP j.pred = true ∧ manVersion j.buddy = 2 ∧ (manShards j.buddy).all (shardOk j.buddy) = true ∧ j.index = 0 ∧
     ∀ c ∈ j.kids, look 0 j.ups c ≠ 0) := by
  have fields : fieldAt man5 0 4 = 0x4D4E4B43 ∧ manVersion man5 = 2 ∧ fieldAt man5 8 8 = 9 ∧ fieldAt man5 24 8 = 4 ∧ fieldAt man5 20 4 = 1 ∧
      manTagAt man5 = 64 ∧ man5.take 64 = man5h ∧ fieldAt man5 40 4 = 0 := by decide +kernel
  obtain ⟨f0, fv, f8, f24, f20, ft, fh, f40⟩ := fields
  have tag : bytesAt man5 64 48 = hmac384 ckm0 man5h := bytesAt_mid _ _ _ (by decide) (by simp)
  refine ⟨?_, fv, ?_, by decide, by decide +kernel⟩
  · have key : (job3 0 { job .armed 0 with taking := true, phase := .copying, genP := 4, buddy := man5, ups := [(1, 1)] }).ckm = ckm0 := ckm_eq rfl
    simp only [State.manOk, f0, fv, f8, f24, f20, ft, fh, tag, key]
    decide +kernel
  · simp only [manShards, f40]
    rfl

/-- `State.admits` as a check. -/
def admitsOk (s : State) (op : Nat) (d : List Byte) : Bool :=
  decide (s.adm.st = .running) && s.fwRuns && decide (fieldAt d 0 1 = op) && !(admCmdOf d).reserved &&
    decide ((admCmdOf d).tag ≠ 0xFFFFFFFF) && s.slicesOk

theorem admitsOk_sound {s : State} {op : Nat} {d : List Byte} (h : admitsOk s op d = true) : s.admits op d := by
  simp only [admitsOk, Bool.and_eq_true, decide_eq_true_eq, Bool.not_eq_true'] at h
  exact ⟨h.1.1.1.1.1, h.1.1.1.1.2, h.1.1.1.2, h.1.1.2, h.1.2, h.2⟩

/-- The admin ring runs. -/
def ringed (s : State) : State := { s with adm := { s.adm with st := .running } }

theorem witness_CohortMessages_notice :
    (let s := ringed (job3 0 (job .armed 0))
     admitsOk s 0x03 (leBytes 64 (3 + 3 * 2 ^ 16)) = true ∧ s.mod.svc = .normal ∧
     s.noticeCheck (leBytes 8 3 ++ leBytes 8 9) = 0 ∧ s.noticeCheck (leBytes 8 3 ++ leBytes 8 8) ≠ 0) ∧
    (let g (f : Group → Group) : Group := f ((job3 0 (job .armed 0)).group 2)
     (g id).st = .active ∧ (g id).index = 0 ∧ (g id).complete = false ∧
     (let h := g (fun x => { x with kids := [1], raised := true })
      h.complete = true ∧ h.release = none ∧ h.step = true ∧ (g (fun x => { x with kids := [1], step := false })).complete = true)) ∧
    (let j : Job := { job .armed 0 with notice := some ⟨false, 0, 1, [], false⟩ }
     j.mark = 0 ∧ j.eligible = true ∧ j.kids ≠ [] ∧ (job .armed 0).eligible = false ∧ (job .armed 0).mark = 0) ∧
    (let j : Job := { job .armed 0 with mark := 6 }
     j.mark ≠ 0 ∧ (∃ c ∈ j.kids, c ∉ j.acks) ∧ ∀ c ∈ j.kids, c ∈ ({ j with acks := [1] } : Job).acks) := by decide +kernel

/-! ### The flash tier -/

/-- Slice 3 with a STOR queue and a mounted volume 1023 of one block, read-write, and the tier changed. -/
def stor3 (f : Flash → Flash) : State :=
  let s := cmd3 6 id
  { s with flash := f { s.flash with tier := .rw, vols := [(1023, ⟨4096, 3, true, false, 0, 0⟩)] } }

/-- A descriptor: OP, `FLAGS`, block `lba` of volume 1023, count and buffer address. -/
def sdd (o fl lba n buf : Nat) : List Byte := leBytes 64 (o + fl * 2 ^ 8 + 1023 * 2 ^ 16 + lba * 2 ^ 64 + n * 2 ^ 128 + buf * 2 ^ 192)

/-- The command of such a descriptor. -/
def sd (fl lba n buf : Nat) : StorDesc := storDescOf (sdd 1 fl lba n buf)

/-- A command in progress, number 5. -/
def sc (op : StorOp) (count : Nat) : StorCmd :=
  { (default : StorCmd) with id := 5, q := q3, op := op, vol := 1023, count := count }

theorem witness_StorageCommands_checks :
    takesOk (stor3 id) q3 6 = true ∧ (stor3 id).flash.cmds.length < 65536 ∧ (stor3 id).flash.queued = [] ∧ (∀ e ∈ (stor3 id).flash.cmds, e.op ≠ .trim) ∧
    (fieldAt (sdd 0 0 0 0 0) 0 1 = 0 ∧ 5 < fieldAt (sdd 6 0 0 0 0) 0 1 ∧ ∀ o ∈ [1, 2, 3, 4, 5], fieldAt (sdd o 0 0 0 0) 0 1 = o) ∧
    (sd 0 0 1 0).ok 1 1024 true = true ∧ (sd 0 0 1024 0x1000).ok 1 1024 true = true ∧ (sd 0 0 1 0x800).ok 1 1024 true = false ∧
    (sd 0 0 1025 0).ok 1 1024 true = false ∧ (sd 0 0 (2 ^ 24) 0).ok 1 (2 ^ 24) false = true ∧ (sd 0 0 0 0).ok 0 0 false = true ∧ (sd 0 0 1 0).ok 0 0 false = false ∧
    (stor3 id).isReady 24 = true ∧ (stor3 id).flash.tier = .rw ∧ ¬ ((stor3 (fun f => { f with tier := .failed })).flash.tier = .rw ∨
      (stor3 (fun f => { f with tier := .failed })).flash.tier = .readOnly) ∧
    ((sd 0 0 1 0).vol.toNat = 1023 ∧ ((stor3 id).vol 1023).valid = true ∧ ((stor3 id).vol 1023).owner = 3) ∧ ((stor3 id).vol 1022).valid = false ∧
    ((sd 0 0 1 0).lba.toNat + (sd 0 0 1 0).count.toNat ≤ ((stor3 id).vol 1023).size / 4096) ∧
    ¬ ((sd 0 0 2 0).lba.toNat + (sd 0 0 2 0).count.toNat ≤ ((stor3 id).vol 1023).size / 4096) ∧
    (stor3 (fun f => { f with tier := .readOnly })).flash.tier = .readOnly := by decide +kernel

theorem witness_StorageCommands_busy : 65536 ≤ (stor3 (fun f => { f with cmds := List.replicate 65536 (sc .read 1) })).flash.cmds.length ∧
    ∀ e ∈ (stor3 (fun f => { f with cmds := List.replicate 65536 (sc .read 1) })).flash.cmds, e.op ≠ .trim :=
  ⟨Nat.le_of_eq (List.length_replicate ..).symm, fun e he => by rw [List.eq_of_mem_replicate he]; decide⟩

theorem witness_StorageCommands_buffers :
    ((stor3 id).vol 1023).ro = false ∧ (sd 0 0 1 0).bufSpace = .slice ∧ (sd 1 0 1 0).bufSpace = .host ∧ (sd 1 0 1 0).ok 1 1024 true = true ∧
    (stor3 id).bufOk q3 .slice 0x1FF000 4096 false true = true ∧
    (stor3 id).bufOk q3 .slice 0x200000 4096 false true = false ∧ (stor3 id).bufOk q3 .slice 0x200000 4096 true true = false ∧
    (stor3 id).bufOk q3 .slice 0 4096 true true = true ∧ (stor3 id).bufOk q3 .slice 0 64 true true = true ∧
    (stor3 id).bufOk q3 .slice 0x1FFFC1 64 true true = false ∧
    (match (stor3 id).vwrite 3 9 0x1FFFC0 ((stor3 id).volRecord 1023) with | (_, .ok []) => true | _ => false) = true ∧
    (match (stor3 id).readBlocks 3 ((stor3 id).qPasid q3) (sd 0 0 1 0x1FF000).buf.toNat 1 with | (_, bs, b) => b && bs.all (fun x => !x.isEmpty)) = true ∧
    (stor3 id).flash.buf.length + 1 ≤ 2097152 ∧ (∀ d ∈ (stor3 id).flash.cmds, d.op ≠ .write ∨ d.vol ≠ 1023) ∧ canonical default (stor3 id).flash.map = true ∧
    ((stor3 id).flash.cmds = [] ∧ (stor3 id).flash.waiting = [] ∧ (stor3 id).flash.flushed 1023 (stor3 id).flash.seq = true) ∧
    (let s := stor3 (fun f => { f with buf := [(blockKey 1023 0, ⟨[7], 0, 0, false, false⟩)] })
     s.flash.flushed 1023 s.flash.seq = false) := by decide +kernel

theorem witness_StorageCommands_dies : ∀ e, (stor3 id).eraseOn e = none := fun _ => rfl

theorem witness_StorageCommands_complete :
    (stor3 id).cmd 5 = none ∧
    (let c := { sc .write 1 with data := [[7]] }
     let s := stor3 (fun f => { f with cmds := [c] })
     s.cmd 5 = some c ∧ c.op = .write ∧ c.op ≠ .read ∧ s.behind c.q 5 c.vol c.lba c.count = false ∧ c.done + 1 = c.count ∧ c.data.length = c.count ∧
     c.data.getD c.done [] = [7] ∧ s.flash.buf.length < 2097152) ∧
    (let c := sc .read 1
     let s (b : Bool) := stor3 (fun f => { f with cmds := [c], buf := [(blockKey 1023 0, ⟨[7], 0, 0, false, b⟩)] })
     (s true).cmd 5 = some c ∧ c.want = 0 ∧ c.fail = none ∧ c.held = false ∧ c.space = .slice ∧ (s true).blockData (blockKey c.vol (c.lba + 0)) = none ∧
     (s true).behind c.q 5 c.vol c.lba c.count = false ∧
     (s false).blockData (blockKey c.vol (c.lba + 0)) = some [7] ∧
     (match ((((s false).readPages c).foldl (fun w p => w.setPblk (p / 2048) (fun y => { y with reads := y.reads + 1 })) (s false)).mediaRead
         [(63, 4)] [(15, 1)]).vwrite 3 9 (c.buf + 0 * 4096) [7] with | (_, .ok []) => true | _ => false) = true ∧
     (let t := stor3 (fun f => { f with cmds := [c], map := [(1023 * 2 ^ 32, ⟨2048 + 1, []⟩)] })
      t.flash.buf.any (fun e => e.1 == blockKey 1023 0) = false ∧ t.flash.pageOf (blockKey 1023 0) = some 2048)) := by decide +kernel

/-- A mounted tier with one block being erased, one unit mapped and one record waiting. -/
def fl (f : Flash → Flash) : State :=
  stor3 (fun x => f { x with blks := [(1, { (default : PBlk) with st := .erasing, erases := 8 })], map := [(7, ⟨4096 + 1, []⟩)], waiting := [.volume 1 false] })

theorem witness_FlashMaintenance_units :
    nrm.flash.mounted = false ∧ (fl id).flash.mounted = true ∧ (fl id).flash.first = false ∧
    (let s := fl (fun f => { f with first := true, blks := [(1, { (default : PBlk) with st := .used })], pages := [(2048, default)], map := [] })
     s.flash.first = true ∧ s.flash.gcWork = true) ∧ (fl id).flash.queued = [] ∧ (∀ e ∈ (fl id).flash.cmds, e.op ≠ .trim) ∧ (fl id).flash.pageFree 2047 = false ∧ (fl id).flash.pageFree 0 = true ∧
    (let s := fl (fun f => { f with buf := [(3, ⟨[7], 0, 0, false, false⟩)] })
     s.flash.buf.any (fun e => e.1 / 4 == 0 && !e.2.prog) = true ∧ (∀ e ∈ s.flash.map, e.2.page ≠ 0 + 1) ∧ canonical default s.flash.buf = true ∧
     s.flash.buf.find? (fun e => e.1 == 3) = some (3, ⟨[7], 0, 0, false, false⟩)) ∧
    ((fl id).flash.waiting ≠ [] ∧ (fl id).flash.flight = [] ∧ (fl (fun f => { f with flight := [.volume 2 false] })).flash.flight ≠ []) ∧
    ((sget (fl id).flash.map 7).page ≠ 0 ∧ (sget (fl id).flash.map 8).page = 0 ∧ (fl id).flash.moving 7 = false ∧
      (fl (fun f => { f with spare := 10 ^ 9 })).gcRuns = true) ∧
    (((fl id).pblk 1).st = .erasing ∧ ((fl id).pblk 0).st ≠ .erasing ∧ ((fl id).pblk 1).erases + 1 < (fl id).obj 0x6000 0xC) := by decide +kernel

theorem witness_FlashMaintenance_mount :
    (nrm.flash.tier = .unmounted ∧ nrm.keys.stage = 0 ∧ ∀ n ∈ [16, 17, 18, 19, 24], nrm.isReady n = true) ∧
    (∃ n ∈ [16, 17, 18, 19, 24], State.reset.isReady n = false) ∧ (fl id).flash.tier ≠ .unmounted ∧
    (fl (fun f => { f with tier := .mounting })).flash.tier = .mounting ∧ (fl (fun f => { f with worn := true })).flash.worn = true := by decide +kernel

theorem witness_FlashMaintenance_scans :
    nrm.flash.mounted = false ∧ (fl id).background = true ∧ (st .test).background = false ∧
    (let s := fl (fun f => { f with cols := [(blkGroup 1, [4])] })
     s.flash.mounted = true ∧ 4 ∈ sget s.flash.cols (blkGroup 1) ∧ 5 ∉ sget s.flash.cols (blkGroup 1) ∧ blkGroup 127 = blkGroup 1 ∧ 127 ≠ 1 ∧
     (sget s.flash.cols (blkGroup 1)).length < 32) ∧
    (((fl id).pblk 1).reads < 100000 ∧ ((fl id).pblk 1).cell = false) ∧
    100000 ≤ ((fl (fun f => { f with blks := [(1, { (default : PBlk) with reads := 100000 })] })).pblk 1).reads ∧
    (fl id).flash.eraseSpread.2 - (fl id).flash.eraseSpread.1 ≤ (fl id).obj 0x6000 0xA ∧
    (let s := fl (fun f => { f with blks := [(1, { (default : PBlk) with erases := 10 ^ 6 })] })
     s.obj 0x6000 0xA < s.flash.eraseSpread.2 - s.flash.eraseSpread.1) := by decide +kernel

/-! ### Host endpoint and slices -/

/-- NORMAL with the host's link up and a slice 3. -/
def host3 (h : HostSide → HostSide) (f : Slice → Slice) : State :=
  { nrm with host := h { nrm.host with up := true, slices := [(3, f { (default : Slice) with st := .active })] } }

/-- A host request of queue 1 of slice 3. -/
def hreq : HostReq := ⟨7, 3, 1, 0, 9, 4, false, false⟩

/-- A queue in the host, with 16 entries. -/
def hq : Queue := { (default : Queue) with used := true, dev := 6, cfg := { (default : QueueRec) with host := true, log2Size := 4, pasid := 9 } }

theorem witness_HostSide_hostLinkAndDoorbells_link :
    (let s := host3 (fun h => { h with l1Enable := true, l0pEnable := true, l11Enable := true, l12Enable := true }) id
     s.host.up = true ∧ s.host.l1Enable = true ∧ s.hostBusy = false ∧ s.host.l11Enable = true ∧ s.host.l12Enable = true ∧ s.host.l0pEnable = true ∧
     s.host.power = .l0) ∧
    (nrm.host.l1Enable = false ∧ nrm.host.l11Enable = false ∧ nrm.host.l12Enable = false) ∧ (host3 (fun h => { h with power := .l1 }) id).host.power = .l1 ∧
    (host3 (fun h => { h with power := .l12 }) id).host.power = .l12 ∧ (host3 (fun h => { h with power := .l0p }) id).host.power = .l0p ∧
    nrm.gloveThere 3 = false ∧ (host3 id (fun x => { x with st := .destroying })).gloveThere 3 = false ∧ (host3 id id).gloveThere 3 = true ∧ nrm.sliceExists 3 = false ∧
    (let s := host3 (fun h => { h with pf1 := ⟨true, false, false, false, [40], [41]⟩ })
       (fun x => { x with msixBase := 40, quota := { x.quota with msix := 1 }, steer := [(255, { (default : Steer) with enable := true, pending := true })] })
     let e := sget (s.slice 3).steer 255
     s.sliceExists 3 = true ∧ e.enable = true ∧ e.pending = true ∧ s.host.pf1.msixEnable = true ∧ e.vector < (s.slice 3).quota.msix ∧
     (s.slice 3).msixBase + e.vector ∈ s.host.pf1.masked ∧ (sget (s.slice 3).steer 0).enable = false ∧ 41 ∈ s.host.pf1.pba ∧ 41 ∉ s.host.pf1.masked) ∧
    (let s := host3 (fun h => { h with reqs := [hreq] }) id
     (∃ r ∈ s.host.reqs, r.pasid = 9 ∧ r.page = 4) ∧ ∀ r ∈ s.host.reqs, r.pasid ≠ 9 ∨ r.page ≠ 5) := by decide +kernel

theorem witness_HostSide_hostLinkAndDoorbells_requests :
    nrm.host.reqs.find? (fun r => r.id == 7) = none ∧
    (let s := host3 (fun h => { h with reqs := [hreq], ats := true }) (fun x => { x with queues := [(1, hq)] })
     s.host.reqs.find? (fun r => r.id == 7) = some hreq ∧ s.host.reqs.length < 4096 ∧ hreq.abandoned = false ∧ hreq.head = false ∧ (s.queue 3 1).halted = false ∧
     (s.queue 3 1).cfg.host = true ∧ s.host.up = true ∧ s.host.ats = true ∧ (hreq.pasid, hreq.page) ∉ s.host.invals ∧
     ({ hreq with abandoned := true } : HostReq).abandoned = true) ∧
    (let c : Compl := default
     let q := { hq with cqTail := 16, waiting := [c] }
     let s := host3 (fun h => { h with reqs := [{ hreq with head := true }] }) (fun x => { x with queues := [(1, q)] })
     s.host.reqs.find? (fun r => r.id == 7) = some { hreq with head := true } ∧ ({ s.queue 3 1 with cqHead := (0 : BitVec 32).toNat }).full = true ∧
     ({ s.queue 3 1 with cqHead := (1 : BitVec 32).toNat }).full = false ∧ (s.queue 3 1).waiting = [c]) ∧
    ((host3 id (fun x => { x with queues := [(1, { hq with halted := true })] })).queue 3 1).halted = true := by decide +kernel

theorem witness_HostSide_hostLinkAndDoorbells_doorbell :
    (nrm.slice 3).st = .free ∧ ((host3 id (fun x => { x with st := .destroying })).slice 3).st = .destroying ∧
    (let s := host3 id (fun x => { x with queues := [(1, { hq with dqHead := 2 ^ 32 - 1 })] })
     (s.slice 3).st ≠ .free ∧ (s.slice 3).st ≠ .destroying ∧ (s.queue 3 0).used = false ∧ (s.queue 3 1).used = true ∧ (s.queue 3 1).halted = false ∧
     s.doorbellsLive 3 = true ∧ (s.queue 3 1).cfg.host = true ∧ (s.queue 3 1).waiting = [] ∧ (s.queue 3 1).dqHead < 2 ^ 32 ∧
     (0 : BitVec 32).toNat = ((s.queue 3 1).dqHead + 1) % 2 ^ 32 ∧
     (s.queue 3 1).full = false ∧ s.host.reqs.length < 4096 ∧ ∀ r ∈ s.host.reqs, r.slice ≠ 3 ∨ r.slot ≠ 1) ∧
    ((host3 id (fun x => { x with queues := [(1, { hq with halted := true })] })).queue 3 1).used = true ∧
    (host3 id (fun x => { x with st := .frozen })).doorbellsLive 3 = false := by decide +kernel

theorem witness_HostSide_hostResets : nrm.hostSlices = [] ∧ (host3 id id).hostSlices = [3] ∧
    3 ∈ (host3 id (fun x => { x with queues := [(1, hq)] })).hostSlices ∧ ((host3 id (fun x => { x with queues := [(1, hq)] })).queue 3 1).used = true := by
  decide +kernel

/-- NORMAL with the admin ring running and slice 3. -/
def adm3 (f : Slice → Slice) : State := ringed (host3 id f)

/-- An admin entry: OP, slice, and other fields. -/
def ae (op sl x : Nat) : List Byte := leBytes 64 (op + sl * 2 ^ 16 + x)

/-- A quota record. -/
def quota1 : Quota := { (default : Quota) with memBytes := 0x200000, keySlots := 256, msix := 256, pasids := 1, cls := 1, islands := List.replicate 16 0 }

theorem witness_SliceCommands_checks :
    nrm.adm.st ≠ .running ∧ (adm3 id).adm.st = .running ∧ (adm3 id).fwRuns = true ∧ (admCmdOf (ae 0x2C 3 0)).op ∉ admOps ∧
    (∀ o ∈ (List.range 12).map (0x20 + ·), (admCmdOf (ae o 3 0)).op = o ∧ o ∈ admOps) ∧
    (admCmdOf (ae 0x21 3 (2 ^ 96))).reserved = true ∧ (admCmdOf (ae 0x21 512 0)).reserved = true ∧ (admCmdOf (ae 0x20 0xFFFF 0)).reserved = false ∧
    (admCmdOf (ae 0x21 3 (0xFFFFFFFF * 2 ^ 32))).tag = 0xFFFFFFFF ∧ (∀ o ∈ (List.range 12).map (0x20 + ·), admitsOk (adm3 id) o (ae o 3 0) = true) ∧
    (admCmdOf (ae 0x21 3 0)).reserved = false ∧ (admCmdOf (ae 0x21 3 0)).tag ≠ 0xFFFFFFFF ∧
    ({ adm3 id with mod := (st .recovery).mod } : State).slicesOk = false ∧ (adm3 id).slicesOk = true ∧
    (adm3 id).sliceExists (admCmdOf (ae 0x21 511 0)).slice.toNat = false ∧ (adm3 id).sliceExists (admCmdOf (ae 0x21 3 0)).slice.toNat = true := by decide +kernel

theorem witness_SliceCommands_create :
    Quota.ok quota1 = true ∧ Quota.ok { quota1 with memBytes := 1 } = false ∧ (adm3 id).createNumber 0xFFFF = 0 ∧ (adm3 id).createNumber 511 = 511 ∧
    (adm3 id).createNumber 512 = 512 ∧ (adm3 id).mod.req ≠ some .enterTest ∧ (adm3 id).sliceExists 511 = false ∧ (adm3 id).sliceExists ((adm3 id).createNumber 3) = true ∧
    ((adm3 id).newSlice quota1).isSome = true ∧ ((adm3 id).newSlice { quota1 with memBytes := 0x00BFFFFFFFFFFE00000 }).isNone = true ∧
    (let s := adm3 (fun x => { x with quota := quota1 })
     ∃ e ∈ s.host.slices, e.2.quota.keySlots ≠ 0) := by decide +kernel

theorem lowestFree_full (l : List Nat) (n i : Nat) (h : ∀ j, i ≤ j → j < i + n → j ∈ l) : lowestFree l n i = i + n := by
  induction n generalizing i with
  | zero => rfl
  | succ n ih =>
    rw [lowestFree, if_pos (List.contains_iff_mem.2 (h i (by omega) (by omega))), ih (i + 1) (fun j a b => h j (by omega) (by omega))]
    omega

theorem witness_SliceCommands_full : 512 ≤ ({ adm3 id with host := { (adm3 id).host with
    slices := (List.range 512).map (fun k => (k, { (default : Slice) with st := .active })) } } : State).createNumber 0xFFFF := by
  rw [State.createNumber, if_pos rfl]
  refine Nat.le_of_eq (lowestFree_full _ 512 0 fun j _ hj => ?_).symm
  simp only [State.sliceIds, List.mem_map, List.mem_filter, List.mem_range]
  exact ⟨_, ⟨⟨j, by omega, rfl⟩, rfl⟩, rfl⟩

theorem witness_SliceCommands_map :
    (let x : Slice := { (default : Slice) with st := .active, pasids := [9], pages := [⟨9, 0, 7, true, false⟩], memUsed := 0x200000, quota := { quota1 with memBytes := 0x400000 } }
     let s := adm3 (fun _ => x)
     let c := admCmdOf (ae 0x22 3 (9 * 2 ^ 64 + 0x01FBFFFFFFE00000 * 2 ^ 128 + 2 ^ 192))
     (s.slice 3).st = .active ∧ c.pasid.toNat ∈ x.pasids ∧ 8 ∉ x.pasids ∧ c.count.toNat = 1 ∧ (admCmdOf (ae 0x22 3 0)).count.toNat = 0 ∧
     (c.va.toNat % 0x200000 = 0 ∧ c.va.toNat + 1 * 0x200000 ≤ 0x01FC000000000000 ∧
       ∀ g ∈ x.pages, g.pasid = 9 → g.vpn < c.va.toNat / 0x200000 ∨ c.va.toNat / 0x200000 + 1 ≤ g.vpn) ∧
     ¬ (0x01FC000000000000 + 1 * 0x200000 ≤ 0x01FC000000000000) ∧
     (x.memUsed + 1 * 0x200000 ≤ x.quota.memBytes ∧ (s.freeFrames 1).length = 1) ∧ x.quota.memBytes < x.memUsed + 2 * 0x200000 ∧
     (x.pages.filter (fun g => g.pasid == 9 && !g.kv && decide (0 ≤ g.vpn) && decide (g.vpn < 0 + 1))).length = 1 ∧
     (x.pages.filter (fun g => g.pasid == 9 && !g.kv && decide (1 ≤ g.vpn) && decide (g.vpn < 1 + 1))).length ≠ 1 ∧
     (∃ g ∈ x.pages, (7 * 0x200000 + 0x1FFFFF) / 0x200000 = g.frame) ∧ (∀ g ∈ x.pages, 8 * 0x200000 / 0x200000 ≠ g.frame)) ∧
    ((adm3 (fun x => { x with st := .frozen })).slice 3).st ≠ .active ∧ ((adm3 (fun x => { x with st := .destroying })).slice 3).st = .destroying := by
  decide +kernel

theorem witness_SliceCommands_pasids :
    (let s (k : Nat) : State := { adm3 id with host := { (adm3 id).host with
       slices := [(2, { (default : Slice) with st := .active, pasids := [k] }), (3, { (default : Slice) with st := .active, quota := { quota1 with pasids := 1 } })] } }
     (∃ e ∈ (s 9).host.slices, e.1 ≠ 3 ∧ 9 ∈ e.2.pasids) ∧ (∀ e ∈ (s 8).host.slices, e.1 = 3 ∨ 9 ∉ e.2.pasids) ∧
     ((s 8).slice 3).pasids.length < ((s 8).slice 3).quota.pasids) ∧
    (let s := adm3 (fun x => { x with pasids := [8], quota := { quota1 with pasids := 1 } })
     (s.slice 3).quota.pasids ≤ (s.slice 3).pasids.length ∧ s.pasidBusy 3 8 = false) ∧
    (adm3 (fun x => { x with pages := [⟨8, 0, 7, true, false⟩] })).pasidBusy 3 8 = true := by decide +kernel

theorem witness_SliceCommands_destroy :
    ((adm3 id).slice 3).st ≠ .destroying ∧
    (let x : Slice := { (default : Slice) with st := .destroying, destroyTag := some 5, pages := [⟨9, 0, 7, true, false⟩] }
     ((adm3 (fun _ => x)).slice 3).st = .destroying ∧ ((adm3 (fun _ => x)).slice 3).destroyTag = some 5) ∧
    ((adm3 (fun x => { x with st := .destroying })).slice 3).destroyTag = none ∧ (adm3 id).sliceExists 511 = false := by decide +kernel

/-- Slice 3 in a state, with nothing. -/
def slIn (x : SliceState) : State := adm3 (fun y => { y with st := x })

theorem witness_SliceMigration_save :
    (∀ o ∈ [0x26, 0x27, 0x28, 0x29], admitsOk (slIn .frozen) o (ae o 3 0) = true) ∧ (slIn .frozen).sliceExists 3 = true ∧ ((slIn .active).slice 3).st = .active ∧ ((slIn .frozen).slice 3).st = .frozen ∧
    ((adm3 (fun y => { y with st := .frozen, queues := [(1023, { hq with held := some 5 })] })).queue 3 1023).held = some 5 ∧
    (slIn .frozen).cohortBound 3 = false ∧ ({ slIn .frozen with groups := [(0, { (default : Group) with slice := 3 })] } : State).cohortBound 3 = true ∧
    ¬ (1 % 4096 = 0) ∧ ({ (default : Slice) with blobId := some 7 } : Slice).blobId.isSome = true := by decide +kernel

theorem witness_SliceMigration_range :
    0 % 4096 = 0 ∧ 0 + 4096 ≤ (slIn .frozen).blobBytes 3 ((slIn .frozen).clsSection 3) ((slIn .frozen).spreadSection 3) ∧ 4096 % 4096 = 0 := by
  refine ⟨rfl, ?_, rfl⟩
  generalize (slIn .frozen).clsSection 3 = c
  generalize (slIn .frozen).spreadSection 3 = p
  rw [State.blobBytes]
  omega

/-- A blob's header before its MAC: format, version and length of the stream; and the header. -/
def blobH (n : Nat) : List Byte := leBytes 4 0x4C424C53 ++ (leBytes 2 1 ++ (leBytes 10 0 ++ (leBytes 8 n ++ List.replicate 4024 0)))
def blobHead (n : Nat) : List Byte := blobH n ++ (hmac384 ckm0 (blobH n) ++ [])

theorem blobHead_length (n : Nat) : (blobHead n).length = 4096 := by
  simp only [blobHead, blobH, List.length_append, leBytes_length, List.length_replicate, hmac384_length, List.length_nil]

theorem blobHead_fields (n : Nat) : fieldAt (blobHead n) 0 4 = 0x4C424C53 ∧ fieldAt (blobHead n) 4 2 = 1 ∧ fieldAt (blobHead n) 16 8 = n % 256 ^ 8 := by
  refine ⟨?_, ?_, ?_⟩
  · rw [blobHead, blobH, List.append_assoc, fieldAt_first _ _ (by simp), leNat_leBytes]
    try rfl
  · rw [blobHead, blobH, List.append_assoc, List.append_assoc, fieldAt_mid _ _ _ (by simp) (by simp), leNat_leBytes]
    try rfl
  · rw [blobHead, blobH, List.append_assoc, List.append_assoc, List.append_assoc, List.append_assoc, ← List.append_assoc, ← List.append_assoc,
      fieldAt_mid _ _ _ (by simp) (by simp), leNat_leBytes]

theorem blobHead_ok (n : Nat) : (slIn .restoring).blobHeaderOk (blobHead n) = true := by
  have h := blobHead_fields n
  have l : (blobH n).length = 4048 := by
    simp only [blobH, List.length_append, leBytes_length, List.length_replicate]
  have t : (blobHead n).take 4048 = blobH n := by rw [blobHead, ← l, List.take_left]
  have m : bytesAt (blobHead n) 4048 48 = hmac384 ckm0 (blobH n) := bytesAt_mid _ _ _ l (by simp)
  have k : (slIn .restoring).ckm = ckm0 := ckm_eq rfl
  simp only [State.blobHeaderOk, h.1, h.2.1, t, m, k, BEq.rfl, Bool.and_true]

theorem witness_SliceMigration_restore :
    ((slIn .restoring).slice 3).st = .restoring ∧ ((slIn .restoring).slice 3).blobBad = false ∧ ((slIn .restoring).slice 3).blob.length = 0 ∧
    ((adm3 (fun y => { y with st := .restoring, blobBad := true })).slice 3).blobBad = true ∧ ([] : List Byte).length < 4096 ∧
    (blobHead 0).length = blobTotal (blobHead 0) ∧ blobTotal (blobHead 0) < (blobHead 0 ++ [7]).length ∧ (blobHead 1).length < blobTotal (blobHead 1) ∧
    openChunks (slIn .restoring).cke (leBytes 8 0) (0 / 0x400000 + 1) 0 0 [] = some [] ∧ (slIn .restoring).blobFits 3 (blobHead 0) [] = true ∧
    (slIn .restoring).blobHeaderOk (List.replicate 4096 0) = false := by
  have h (n : Nat) := (blobHead_fields n).2.2
  refine ⟨by decide +kernel, by decide +kernel, by decide +kernel, by decide +kernel, by decide, ?_, ?_, ?_, by decide +kernel, by decide +kernel, by decide +kernel⟩
  · rw [blobHead_length, blobTotal, h]
    try rfl
  · rw [List.length_append, blobHead_length, blobTotal, h]; decide
  · rw [blobHead_length, blobTotal, h]; decide

/-- Of two tags one is refused: a chunk that does not open. -/
theorem witness_SliceMigration_tag : ∃ c : List Byte, 1 + 16 ≤ c.length ∧
    openChunks (slIn .restoring).cke (leBytes 8 0) (1 / 0x400000 + 1) 0 1 c = none := by
  have e (t : List Byte) (ht : t.length = 16) (hn : gcmTag (slIn .restoring).cke (leBytes 8 0 ++ leBytes 4 0) (leBytes 4 0) [7] ≠ t) :
      openChunks (slIn .restoring).cke (leBytes 8 0) (1 / 0x400000 + 1) 0 1 (7 :: (t ++ [])) = none := by
    have b : bytesAt (7 :: (t ++ [])) 1 16 = t := bytesAt_mid [7] t [] rfl ht
    have k : 1 / 0x400000 + 1 = 1 := rfl
    have m : min 1 0x400000 = 1 := rfl
    have l : ¬ ((7 :: (t ++ [])).length < 1 + 16) := by simp [ht]
    have g : (7 :: (t ++ [])).take 1 = [(7 : Byte)] := rfl
    rw [k, openChunks]
    simp only [m, b, g]
    rw [if_neg (by simp [ht]), gcmOpen, if_neg hn]
  by_cases h : gcmTag (slIn .restoring).cke (leBytes 8 0 ++ leBytes 4 0) (leBytes 4 0) [7] = List.replicate 16 0
  · exact ⟨7 :: (List.replicate 16 1 ++ []), by simp, e _ rfl (h ▸ by decide)⟩
  · exact ⟨7 :: (List.replicate 16 0 ++ []), by simp, e _ rfl h⟩

theorem witness_SliceMigration_fit :
    (slIn .restoring).blobFits 3 (bytesAt (leBytes 24 0 ++ leBytes 8 1 ++ leBytes 128 0 ++ leBytes 8 6 ++ leBytes 8 0 ++ leBytes 8 140) 0 4096)
      (List.replicate 140 0) = false := by decide +kernel

theorem witness_SliceMigration_frozen :
    ((slIn .active).slice 3).st ≠ .freezing ∧ (adm3 (fun y => { y with st := .freezing, queues := [(1, { hq with inflight := 1 })] })).sliceBusy 3 = true ∧
    (slIn .freezing).sliceBusy 3 = false ∧ ((slIn .freezing).slice 3).freezeTag = none ∧
    ((adm3 (fun y => { y with st := .freezing, freezeTag := some 5 })).slice 3).freezeTag = some 5 := by decide +kernel

/-- Slice 3 with a control ring and a mapped page, after a HELLO or before. -/
def ctl (f : Slice → Slice) : State :=
  (host3 id (fun x => f { x with
    hello := true, pasids := [9], quota := { quota1 with queues := 2, keySlots := 2 }
    queues := [(0, { hq with cfg := { hq.cfg with host := false } }), (1023, hq)] })).addPages 3 [⟨9, 0, 0, true, false⟩]

/-- A queue record of a kind, steering entry 2, PASID 9 and 16 entries. -/
def qrec (kind : Nat) : List Byte := leBytes 1 kind ++ leBytes 1 0 ++ leBytes 1 4 ++ leBytes 1 2 ++ leBytes 4 9 ++ leBytes 56 0

/-- A control descriptor: OP, number and address. -/
def crd (op j a : Nat) : List Byte := leBytes 64 (op + j * 2 ^ 16 + 5 * 2 ^ 32 + a * 2 ^ 64)

theorem witness_ControlCommands_states :
    (nrm.queue 3 0).used = false ∧ (((ctl id).queue 3 0).used = true ∧ ((ctl id).queue 3 0).halted = false ∧ (ctl id).doorbellsLive 3 = true) ∧
    (∀ o ∈ [0, 1, 2, 3, 5], fieldAt (crd o 0 0) 0 1 = o) ∧ 6 < fieldAt (crd 7 0 0) 0 1 ∧
    ((ctl (fun x => { x with hello := false })).slice 3).hello = false ∧
    fieldAt (crd 0 0 0) 8 4 / 65536 = bankVersion nrm.bootedBank 12 / 65536 ∧ fieldAt (crd 0 0 65536) 8 4 / 65536 ≠ bankVersion nrm.bootedBank 12 / 65536 ∧
    ((ctl id).slice 3).hello = true ∧
    ((ctl id).queue 3 1022).used = false ∧ 1024 ≤ fieldAt (crd 2 1024 0) 2 2 ∧ fieldAt (crd 2 1023 0) 2 2 = 1023 ∧ ((ctl id).queue 3 1023).used = true ∧
    (ctl id).queueNamed 3 1023 = false ∧ ((ctl id).queue 3 1023).halted = false ∧
    ({ ctl id with net := { (ctl id).net with conns := [(0, { (default : Conn) with slice := 3, sq := 6 })] } } : State).queueNamed 3 1023 = true ∧
    ((ctl (fun x => { x with queues := [(0, hq), (1023, { hq with halted := true })] })).queue 3 1023).halted = true := by decide +kernel

theorem witness_ControlCommands_memory :
    (match ((ctl (fun x => { x with quota := { x.quota with queues := 3 } })).store 0x1FFFC0 (qrec 8)).vread 3 9 (fieldAt (crd 1 0 0x1FFFC0) 8 8) 64 with
      | (t, .ok b) => QueueRec.ok (queueRecOf b) && decide (1 ≤ (queueRecOf b).kind) && decide ((queueRecOf b).kind ≤ 8) && (t.slice 3).pasids.contains (queueRecOf b).pasid &&
          decide ((t.slice 3).queuesUsed < (t.slice 3).quota.queues) &&
          decide (lowestFree (((t.slice 3).queues.filter (fun e => e.2.used)).map Prod.fst) 1024 0 = 1)
      | _ => false) = true ∧
    (match ((ctl id).store 0x1FFFC0 (qrec 8)).vread 3 9 0x1FFFC0 64 with
      | (t, .ok b) => QueueRec.ok (queueRecOf b) && decide ((t.slice 3).quota.queues ≤ (t.slice 3).queuesUsed)
      | _ => false) = true ∧ (queueRecOf (qrec 9)).kind = 9 ∧
    (match (ctl id).vread 3 9 0x1FFFC1 64 with | (_, .xlate) => true | _ => false) = true ∧
    ((ctl id).slice 3).quota.keySlots ≤ 2 ∧ 1 < ((ctl id).slice 3).quota.keySlots ∧
    (match (ctl id).vwrite 3 9 0x1FFFE0 (leBytes 32 0) with | (_, .ok []) => true | _ => false) = true ∧
    (match (ctl id).vwrite 3 9 0x1FFFE1 (leBytes 32 0) with | (_, .xlate) => true | _ => false) = true := by decide +kernel

/-! ### Compartments, keys and firmware -/

/-- The state after reset in which the boot ROM waits for a first operator key, with the two halves held. -/
def prov (l h : Option Nat) : State :=
  { State.reset with firm := { State.reset.firm with phase := .provisionWait }, keys := { State.reset.keys with opkLo := l, opkHi := h } }

theorem witness_KeyStoreAndSlots :
    nrm.provisioning = false ∧ nrm.romServes = false ∧ (nrm.fn 0 = true ∧ nrm.mod.stopped = false) ∧ (prov none none).provisioning = true ∧
    State.reset.romServes = true ∧ (withMod nrm (fun m => { m with stopped := true })).mod.stopped = true ∧
    (prov (some 5) (some 6)).keys.opkLo = some 5 ∧ (prov (some 5) (some 6)).keys.opkHi = some 6 ∧ (prov (some 5) none).keys.opkHi = none ∧
    (nrm.slice 3).st = .free ∧ ((host3 id (fun x => { x with st := .destroying })).slice 3).st = .destroying ∧
    (let s : State := host3 id (fun x => { x with quota := { x.quota with keySlots := 1 }, keyBase := 4095 })
     (s.slice 3).st ≠ .free ∧ (s.slice 3).st ≠ .destroying ∧ (s.slice 3).quota.keySlots ≤ 1 ∧ 0 < (s.slice 3).quota.keySlots ∧
     (s.kslot ((s.slice 3).keyBase + 0)).st ≠ .needsKey) ∧
    (let s : State := { nrm with keys := { nrm.keys with slots := [(4095, { (default : KeySlot) with st := .needsKey })] } }
     (s.kslot 4095).st = .needsKey) := by decide +kernel

theorem leNat_lt8 (b : List Byte) (l : b.length ≤ 8) : leNat b < 2 ^ 64 :=
  Nat.lt_of_lt_of_le (leNat_lt b) (Nat.le_trans (Nat.pow_le_pow_right (n := 256) (by decide) l) (by decide))

theorem opkId_lt (o : Nat) : opkId o < 2 ^ 64 := by
  rw [opkId]
  apply leNat_lt8
  rw [kdf]
  exact List.length_take_le ..

/-- For every key the value whose commit is right, and one that is not. -/
theorem witness_KeyStoreAndSlots_commit (o : Nat) : (∃ v : BitVec 64, opkId o = v.toNat) ∧ ∃ v : BitVec 64, opkId o ≠ v.toNat := by
  have h := opkId_lt o
  generalize opkId o = n at h
  refine ⟨⟨BitVec.ofNat 64 n, by rw [BitVec.toNat_ofNat, Nat.mod_eq_of_lt h]⟩, ?_⟩
  by_cases z : n = 0
  · exact ⟨1, by rw [z]; decide⟩
  · exact ⟨0, z⟩

/-- SWITCHING at a stage. -/
def sw (n : Nat) (f : Keys → Keys) : State := { st .switching with keys := f { nrm.keys with stage := n } }

/-- The clearing that ends TEST at a stage. -/
def te (n : Nat) : State := { st .test with mod := { (st .test).mod with testEnding := true }, keys := { nrm.keys with stage := n } }

theorem witness_SwitchStages :
    nrm.inStage 1 = false ∧ nrm.inStage 4 = false ∧ nrm.keys.stage ≠ 6 ∧ (sw 1 id).inStage 1 = true ∧ (sw 1 id).mod.svc = .switching ∧ (te 1).inStage 1 = true ∧
    (sw 2 id).inStage 2 = true ∧ (sw 3 id).inStage 3 = true ∧ ((te 3).inStage 3 = true ∧ (te 3).mod.svc ≠ .switching) ∧
    ((sw 4 (fun k => { k with secret := some (1, 7) })).inStage 4 = true ∧ (sw 4 id).keys.rngBad = false) ∧
    ((sw 4 (fun k => { k with rngBad := true })).inStage 4 = true ∧ (sw 4 (fun k => { k with rngBad := true })).keys.rngBad = true) ∧
    ((sw 6 id).keys.stage = 6 ∧ (sw 6 id).keys.committed = false ∧
      (sw 6 (fun k => { k with committed := true })).mod.swFault = false ∧ (sw 6 (fun k => { k with committed := true })).firm.other = false ∧
      (sw 6 (fun k => { k with committed := true })).keys.committed = true ∧ (te 6).keys.stage = 6 ∧ (te 6).mod.svc ≠ .switching) ∧
    ((withMod nrm (fun m => { m with flushing := true })).mod.flushing = true ∧ nrm.flash.allFlushed = true ∧ nrm.mod.flushing = false) := by decide +kernel

/-- The header of a bank of version 0 for an image of 4 KiB of zeros and no payload, with the public key and the signature of a test key,
and the bank that holds it. -/
def bankHead : List Byte :=
  leBytes 4 0x4A584657 ++ leBytes 2 1 ++ leBytes 18 0 ++ leBytes 4 4096 ++ leBytes 20 0 ++
  beBytes 48 0xC0E59A3E3FFBD3B5C75428FB36432FACABC745944296FF515F737C4FEF4EFC64586809F7A16F56354A1EAECF2AA8D774 ++
  beBytes 48 0x38B060A751AC96384CD9327EB1B1E36A21FDB71114BE07434C0CC7BF63F6E1DA274EDEBFE76F65FBD51AD2F14898B95B ++
  beBytes 49 (4 * 2 ^ 384 + 0xE11A13C176223AF905D2DD9A433A4DF6606738AD6E20EC1B5D8E2169DEDEB319FC247E9E317CFEB959088ECEA8B38861) ++
  beBytes 48 0xB59C61FF3854831FB19D48927A72F167B58C97A2EED93AD266F4F7887CE6BD56240A9E2AC0A764B1845EA9628F7E39AD ++ leBytes 15 0 ++
  beBytes 48 0x4E47A237CC608F03D38BF953C2C25C8CB99DE4BBADA9288A6B43656520B2559143F1FD344DDE210802BBC630315996BE ++
  beBytes 48 0xAB560C21B0AF1CF550C50274A4375A8A4DF05F1D198EEC0C520FAB5E3EB457A23B092810B1FA7D68F3A2BE72FA47C8E5
@[irreducible] def bank : Store Byte := storeBytes [] 0 bankHead

/-- The digest of the test key, as fused. -/
def testDigest : List Byte := sha384 (bytesAt bankHead 144 97)

theorem bankHead_length : bankHead.length = 352 := by
  simp only [bankHead, List.length_append, leBytes_length, beBytes_length]

theorem look_bank (a : Nat) : look 0 bank a = bankHead.getD a 0 := by
  unfold bank
  refine (look_storeBytes [] 0 bankHead a).trans ?_
  split
  · rfl
  · next h => rw [List.getD_eq_getElem?_getD, List.getElem?_eq_none (by omega)]; rfl

theorem bankBytes_bank (o n : Nat) : bankBytes bank o n = bytesAt bankHead o n := by
  rw [bytesAt_eq_map, bankBytes]
  exact List.map_congr_left fun i _ => look_bank _

theorem bankBytes_zero (o n : Nat) (h : 352 ≤ o) : bankBytes bank o n = List.replicate n 0 := by
  rw [bankBytes_bank, bytesAt, List.drop_eq_nil_of_le (by rw [bankHead_length]; exact h)]
  simp

theorem bankField_bank (o n : Nat) : bankField bank o n = leNat (bytesAt bankHead o n) := (congrArg leNat (bankBytes_bank o n))

theorem bank_signed : signatureOk (bytesAt bankHead 144 97) (bytesAt bankHead 256 96) (bytesAt bankHead 0 256) = true := by decide +kernel

theorem bank_image : sha384 (List.replicate 4096 0) = bytesAt bankHead 48 48 := by decide +kernel

theorem bank_payload : sha384 (List.replicate 0 0) = bytesAt bankHead 96 48 := by decide +kernel

/-- The bank passes every check of Table 16-3, or all but that of its version. -/
theorem verify_bank (m : Nat) : verifyBank bank m testDigest ⟨true, true⟩ = if 0 < m then 6 else 0 := by
  have f (o n v : Nat) (e : leNat (bytesAt bankHead o n) = v) : bankField bank o n = v := (bankField_bank o n).trans e
  have z (o n : Nat) (h : 352 ≤ o) : bankField bank o n = 0 := by rw [bankField_bank, ← bankBytes_bank, bankBytes_zero o n h, leNat_zeros]
  have ok : bankHeaderOk bank = true := by
    simp only [bankHeaderOk, f 24 4 4096 (by decide +kernel), f 4 2 1 (by decide +kernel), f 6 2 0 (by decide +kernel),
      f 17 7 0 (by decide +kernel), f 36 12 0 (by decide +kernel), f 28 4 0 (by decide +kernel),
      f 32 4 0 (by decide +kernel), f 241 15 0 (by decide +kernel), z 352 160 (by omega)]
    decide
  simp only [verifyBank, f 0 4 0x4A584657 (by decide +kernel), f 24 4 4096 (by decide +kernel), f 16 1 0 (by decide +kernel), f 32 4 0 (by decide +kernel),
    ok, testDigest, bankBytes_zero 512 4096 (by omega), bankBytes_zero (512 + 4096) _ (by omega), bankBytes_bank, bank_signed, Nat.min_zero, bank_image, bank_payload]
  simp only [Bool.not_true, Bool.false_eq_true, if_false, ne_eq, not_true_eq_false]

/-- The state after reset with two banks, a minimum version, and MGI ready. -/
def boots (a b : Store Byte) (m : Nat) : State :=
  { st .boot with
    mod := { (st .boot).mod with jumped := false }
    nor := { nrm.nor with bankA := a, bankB := b, svnMin := m, keyDigest := testDigest } }

theorem verify_blank (m : Nat) : verifyBank [] m testDigest ⟨true, true⟩ = 1 := by
  have : bankField [] 0 4 = 0 := by decide
  simp only [verifyBank, this]
  rfl

theorem witness_BootUpdateAndAdminRing_bootAndUpdate_rom :
    nrm.mod.jumped = true ∧ (prov none none).firm.phase = .provisionWait ∧
    (∀ a b m, (boots a b m).mod.jumped = false ∧ (boots a b m).firm.phase = .start ∧ (boots a b m).isReady 25 = true ∧
      (boots a b m).nor.pendKind = 0 ∧ (boots a b m).keys.stage = 0 ∧ (boots a b m).mgiHold = [] ∧ (boots a b m).nor.prefB = false ∧
      (boots a b m).nor.bankA = a ∧ (boots a b m).nor.bankB = b ∧ (boots a b m).nor.svnMin = m ∧ (boots a b m).nor.keyDigest = testDigest) ∧
    verifyBank bank 0 testDigest ⟨true, true⟩ = 0 ∧ verifyBank [] 0 testDigest ⟨true, true⟩ = 1 ∧ verifyBank bank 1 testDigest ⟨true, true⟩ = 6 ∧
    (let s : State := { sw 5 id with nor := { nrm.nor with pendKind := 2, pendB := true }, mod := { (sw 5 id).mod with jumped := false } }
     s.nor.pendKind = 2 ∧ s.keys.stage = 5 ∧ s.mod.svc = .switching) :=
  ⟨by decide +kernel, by decide +kernel, fun _ _ _ => ⟨rfl, rfl, rfl, rfl, rfl, rfl, rfl, rfl, rfl, rfl, by simp only [boots]⟩, verify_bank 0, verify_blank 0,
    verify_bank 1,
    by decide +kernel⟩

theorem witness_BootUpdateAndAdminRing_bootAndUpdate_stage :
    (let f (x : StageState) : State := { nrm with firm := { nrm.firm with stage := x } }
     (f .erasing).firm.stage = .erasing ∧ (f .verifying).firm.stage ≠ .erasing ∧ (f .verifying).firm.stage = .verifying ∧ (f .loading).firm.stage ≠ .verifying) ∧
    nrm.fwRuns = true := by decide +kernel

theorem witness_BootUpdateAndAdminRing_adminRing_ring :
    ((host3 id id).slice 3).st ≠ .free ∧ ((host3 id id).slice 3).st ≠ .destroying ∧ nrm.adm.st ≠ .running ∧
    (withMod nrm (fun m => { m with fns := 0 })).fn 1 = false ∧ nrm.fn 1 = true ∧ nrm.adm.version / 65536 = bankVersion nrm.bootedBank 12 / 65536 ∧
    ¬ (({ nrm with adm := { nrm.adm with version := 65536 } } : State).adm.version / 65536 = bankVersion nrm.bootedBank 12 / 65536) ∧
    (∀ e ∈ nrm.host.slices, e.2.chanDb = none) ∧ State.reset.fwRuns = false ∧
    (let s (f : Admin → Admin) : State := { nrm with adm := f { nrm.adm with st := .running, sqHead := 2 ^ 32 - 1 } }
     (s id).fwRuns = true ∧ (s id).adm.st = .running ∧ (s id).adm.full = false ∧ (s id).adm.sqHead < 2 ^ 32 ∧ (0 : BitVec 32).toNat = ((s id).adm.sqHead + 1) % 2 ^ 32 ∧
     look 0 (s id).adm.sub ((s id).adm.sqHead % 32 * 16 + 1) ≠ 0xFFFFFFFF ∧
     look 0 (s (fun a => { a with sub := [(497, 0xFFFFFFFF)] })).adm.sub ((2 ^ 32 - 1) % 32 * 16 + 1) = 0xFFFFFFFF ∧
     (s (fun a => { a with cqTail := 32 })).adm.full = true ∧ (s (fun a => { a with waiting := [7] })).adm.waiting = [7] ∧ (s id).adm.waiting = [] ∧
     ¬ (s (fun a => { a with sqHead := 0 })).adm.sqHead ≠ (s (fun a => { a with sqHead := 0 })).adm.sqTail ∧
     ((s (fun a => { a with waiting := [7], sqHead := 0 })).setAdm (fun a => { a with cqHead := 0 })).syncPf0.adm.full = false) := by decide +kernel

/-- A CTRL_RING entry for slice 3 under a PASID. -/
def cr (p : Nat) : List Byte := ae 2 3 (p * 2 ^ 64)

/-- A control ring's record of PASID 9 with 2^`n` entries, steering entry 255. -/
def cring (n : Nat) : List Byte := leBytes 1 9 ++ leBytes 1 0 ++ leBytes 1 n ++ leBytes 1 255 ++ leBytes 4 9 ++ leBytes 56 0

theorem witness_BootUpdateAndAdminRing_adminRing_commands :
    ((admCmdOf (ae 4 3 0)).op ∉ admOps ∧ (admCmdOf (ae 1 3 0)).op = 1 ∧ (admCmdOf (cr 9)).op = 2 ∧ 2 ∈ admOps ∧ 1 ∈ admOps) ∧
    ((admCmdOf (ae 1 3 (2 ^ 448))).reserved = true ∧ (admCmdOf (ae 2 3 (0xFFFFFFFF * 2 ^ 32))).tag = 0xFFFFFFFF) ∧
    (let s := adm3 (fun x => { x with pasids := [9], quota := { quota1 with queues := 1 } })
     let c := admCmdOf (cr 9)
     let r := queueRecOf (cring 16)
     s.adm.st = .running ∧ s.fwRuns = true ∧ c.reserved = false ∧ c.tag ≠ 0xFFFFFFFF ∧ s.mod.svc = .normal ∧ c.slice.toNat = 3 ∧ (s.slice 3).st ≠ .free ∧
     c.pasid.toNat ∈ (s.slice 3).pasids ∧ (admCmdOf (cr 8)).pasid.toNat ∉ (s.slice 3).pasids ∧ (∀ e ∈ (s.slice 3).queues, e.1 ≠ 0 ∨ e.2.used = false) ∧
     (QueueRec.ok r = true ∧ r.kind = 9 ∧ r.pasid = c.pasid.toNat) ∧ QueueRec.ok (queueRecOf (cring 17)) = false ∧
     (s.slice 3).queuesUsed < (s.slice 3).quota.queues ∧ (s.slice 4).st = .free) ∧
    ((adm3 id).slice 3).quota.queues ≤ ((adm3 id).slice 3).queuesUsed ∧
    (∃ e ∈ ((adm3 (fun x => { x with queues := [(0, hq)] })).slice 3).queues, e.1 = 0 ∧ e.2.used = true) ∧
    ((st .test).mod.svc ≠ .normal ∧ (st .test).mod.svc ≠ .recovery ∧ (st .recovery).mod.svc = .recovery) := by decide +kernel

/-! ### Power, thermal control, telemetry and the management tick -/

/-- NORMAL with its power controller and objects changed. -/
def pw (o : List (Nat × Nat)) (f : PowerCtl → PowerCtl) : State := { nrm with pow := f nrm.pow, dict := { nrm.dict with obj := o } }

/-- 31 failed readings but for the supply's. -/
def rails (w : Nat) : List (Option (BitVec 16 × BitVec 16)) := some (1000, BitVec.ofNat 16 w) :: List.replicate 30 none

theorem witness_PowerCapping :
    (rails 0).length = 31 ∧ (rails 7)[0]? = some (some (1000, 7)) ∧ (rails 7)[30]? = some none ∧
    ((pw [] (fun p => { p with rails := [(30, ⟨0, 0, 0, 2⟩)] })).rail 30).fails = 2 ∧
    (([100, 100, 100] : List Nat).length = 3 ∧ ([100, 100, 100] : List Nat).sum ≤ 300) ∧
    (nrm.fwRuns = true ∧ nrm.mod.svc ≠ .boot ∧ nrm.mod.svc ≠ .test ∧ nrm.mod.islands.length = 26) ∧ State.reset.fwRuns = false ∧
    (let pr : Predict := ⟨[0, 0, 0], [1, 1, 1], [[0], [0], [0]], [0]⟩
     pr.lo.getD 0 0 + pr.lo.getD 1 0 + pr.lo.getD 2 0 ≤ nrm.obj 0x8000 1 - nrm.railSum [28, 29, 30]) ∧
    nrm.obj 0x8000 1 - nrm.railSum [28, 29, 30] < ([0, 0, 100000] : List Nat).sum ∧
    (let s := pw [] (fun p => { p with duty := 1, memLimit := 1, linkStep := 1, rails := [(0, ⟨60000, 1, 1, 0⟩)] })
     (s.pow.descend (decide (s.obj 0x8000 1 < s.modulePower)) 1).capState = 5 ∧ s.obj 0x8000 1 * 105 < s.modulePower * 100) ∧
    nrm.pow.capState ≠ 5 ∧ ¬ (nrm.obj 0x8000 1 * 105 < nrm.modulePower * 100) ∧
    ({ nrm.pow with guard := 3 } : PowerCtl).guard + 1 = 4 ∧
    (1 ≤ 16 ∧ 1 < ({ nrm.pow with duty := 2 } : PowerCtl).duty ∧ 1 ≤ nrm.pow.memLimit ∧ 1 ≤ nrm.pow.linkStep ∧ 1 < ({ nrm.pow with memLimit := 2 } : PowerCtl).memLimit ∧
      1 < ({ nrm.pow with linkStep := 2 } : PowerCtl).linkStep) := by decide +kernel

theorem test_guard_halves_duty : gives (.railReading (rails 60000)) (pw [] (fun p => { p with guard := 3, duty := 16 }))
    (fun t => t.pow.duty == 8 && t.pow.guard == 0) = true := by decide +kernel

theorem witness_TelemetryAndRecorder :
    CsErr.clean ≠ .uncorrectable ∧ (State.reset.island 25).istate ≠ .ready ∧ (nrm.island 25).istate = .ready ∧
    14 ≤ bits (14 * 2 ^ 45) 48 45 ∧ bits (13 * 2 ^ 45) 48 45 < 14 ∧ nrm.mod.holding = false ∧ nrm.mod.inbox.length < 4096 ∧ (withMod nrm (fun m => { m with holding := true })).mod.holding = true ∧
    ((eventTo 0x0E01).1 = true ∧ (eventTo 0x0E01).2.1 = true ∧ (eventTo 0x0104).2.2 = true ∧ bit (0x0104 * 2 ^ 33) 23 = false ∧ eventTo 0 = (false, false, false)) ∧
    nrm.mod.svc = .normal ∧
    (let s := withMod (pw [(0x910001, 1)] id) (fun m => { m with tick := 60000 })
     s.mod.svc ≠ .boot ∧ s.mod.svc ≠ .test ∧ s.mod.tick ≠ 0 ∧ s.mod.tick % (s.obj 0x9100 1 * 60000) = 0 ∧ s.fwRuns = true ∧ s.rcd.pending = none ∧ s.rcd.acc.startTick ≠ s.mod.tick) ∧
    nrm.mod.tick = 0 ∧ ({ nrm with rcd := { nrm.rcd with pending := some default } } : State).rcd.pending = some default ∧ ({ nrm with rcd := { nrm.rcd with freeze := true } } : State).rcd.freeze = true ∧
    (let s : State := { nrm with rcd := { nrm.rcd with pending := some default } }
     s.fwRuns = true ∧ s.rcd.freeze = false ∧ s.rcd.erasing = false ∧ s.rcd.pending = some default ∧ s.nor.log.length < 8191) ∧
    (let s := withMod { nrm with rcd := { nrm.rcd with freeze := true } } (fun m => { m with tick := 2 ^ 32 })
     s.rcd.freezeTick + s.obj 0x9100 3 * 60000 ≤ s.mod.tick) ∧
    nrm.mod.tick < nrm.rcd.freezeTick + nrm.obj 0x9100 3 * 60000 ∧ ({ nrm with rcd := { nrm.rcd with erasing := true } } : State).rcd.erasing = true ∧
    (host3 id id).sliceExists 3 = true ∧ (host3 id id).gloveThere 3 = true ∧ nrm.gloveThere 3 = false ∧ ((host3 id id).wideLive = true ∧ 22 ≤ 22 ∧ (0 : BitVec 64) = 0) ∧ (56 ≤ 58 ∧ 58 ≤ 58) ∧
    ¬ (23 ≤ 22 ∨ (56 ≤ 23 ∧ 23 ≤ 58)) ∧ (st .recovery).wideLive = false := by decide +kernel

theorem witness_TelemetryAndRecorder_log : (List.replicate 8192 (default : Rec)).length = 8192 ∧ (List.replicate 8191 (default : Rec)).length = 8191 :=
  ⟨List.length_replicate .., List.length_replicate ..⟩

theorem witness_ManagementTick :
    (withPins nrm (fun p => { p with inReset := true })).pins.inReset = true ∧ (State.reset.pins.pwrOk = true ∧ State.reset.pins.inReset = false ∧ State.reset.fwRuns = false) ∧
    (∀ e ∈ nrm.host.slices, ∀ q ∈ e.2.queues, q.2.full = false) ∧
    (let s : State := { nrm with dict := { nrm.dict with pend := [⟨.tick, 0x800001, 0, 2600⟩] } }
     s.pins.pwrOk = true ∧ s.pins.inReset = false ∧ s.fwRuns = true ∧ s.mgiHold = [] ∧ s.host.slices = [] ∧ s.ckpt.jobs = [] ∧ s.dict.queue = [] ∧ s.mod.req = none ∧ s.mod.resetReq = 0 ∧
     s.dict.pend = [⟨.tick, 0x800001, 0, 2600⟩]) := by decide +kernel

/-! ### Single rules -/

theorem witness_CanonicalNaNs :
    (hasNan 4 = true ∧ elemVal 9 0xFFFFFFFF = .nan) ∧ (4 ≤ 9 ∧ elemVal 4 (convert 4 default .nan).1 = .nan) ∧
    (∀ x ∈ [add32 0x7F800000 0xFF800000, sub32 0x7F800000 0x7F800000, mul32 0 0x7F800000, fma32 0 0x7F800000 0],
      x < 2 ^ 32 ∧ elemVal 9 x = .nan) := by decide +kernel

theorem witness_DegradedLinkTraining : (15 : BitVec 5).toNat < 16 ∧ (63 : BitVec 8).toNat < 64 := by decide

theorem witness_ManagerChannel :
    (nrm.slice 3).st = .free ∧ ((adm3 (fun x => { x with st := .destroying })).slice 3).st = .destroying ∧
    (let s := adm3 (fun x => { x with st := .frozen })
     let s : State := { s with adm := { s.adm with waiting := [admEntry 3 0xF0 1 0xFFFFFFFF] } }
     (s.slice 3).st ≠ .free ∧ (s.slice 3).st ≠ .destroying ∧ s.adm.st = .running ∧ s.adm.waiting.any (isChan 3) = true ∧ s.adm.waiting.any (isChan 2) = false) ∧
    ((adm3 id).adm.full = false ∧ (adm3 id).adm.waiting = []) ∧ (∀ k ∈ [3, 4], admitsOk (adm3 id) 0x2A (ae 0x2A k (5 * 2 ^ 192)) = true) ∧ (adm3 id |>.slice 4).st = .free := by decide +kernel

/-- Entries 0, 5 and 9 of the operator, of which 5 and 9 take every packet. -/
def cls3 : State :=
  netSt [(0x360002, 16)] (fun n => { n with cls := [(0, ⟨1, 1, 2 ^ 63, 0⟩), (5, ⟨0, 0, 2 ^ 63, 0⟩), (9, ⟨0, 0, 2 ^ 63, 0⟩)] })

theorem witness_FirstMatchClassifies :
    canonical default cls3.net.cls = true ∧ (cls3.classify 2).map Prod.fst = some 5 ∧ nrm.classify 2 = none ∧
    (2 < 2 ^ 512 ∧ ∀ e ∈ cls3.net.cls, e.2.key < 2 ^ 512 ∧ e.2.mask < 2 ^ 512) ∧ (bit (sget cls3.net.cls 0).mask 0 = true ∧ bit 2 0 ≠ bit (sget cls3.net.cls 0).key 0) := by
  decide +kernel

end Sys2Proof.Tests
end

section
/-!
PROOFS. The canonical NaNs of R90: which codes of a format read as NaN, and that conversion and FP32 arithmetic deliver no
NaN but the canonical one.
-/
namespace Sys2Proof.Machine

/-! ### Codes that read as NaN -/

/-- A code reads as NaN exactly where the format is no integer format and the magnitude lies past the largest finite one
and is not that of an infinity. -/
theorem elemVal_eq_nan_iff (e c : Nat) :
    elemVal e c = .nan ↔ isInt e = false ∧ maxCode e < c % 2 ^ (elemWidth e - 1) ∧
      ¬ (ieee e = true ∧ c % 2 ^ (elemWidth e - 1) = infCode e) := by
  simp only [elemVal]
  split
  next hi => simp [hi]
  next hi =>
    split
    next hle => simp [Nat.not_lt.mpr hle]
    next hgt =>
      split
      next hinf =>
        have : ieee e = true ∧ c % 2 ^ (elemWidth e - 1) = infCode e := by simpa using hinf
        simp [this]
      next hninf =>
        have : ¬ (ieee e = true ∧ c % 2 ^ (elemWidth e - 1) = infCode e) := by simpa using hninf
        exact iff_of_true rfl ⟨by simpa using hi, Nat.not_le.mp hgt, this⟩

/-- The largest finite magnitude leaves the sign bit free. -/
theorem maxCode_lt_signBit {e : Nat} (he : e ≤ 9) : maxCode e < 2 ^ (elemWidth e - 1) := by
  have hall : ∀ e < 10, maxCode e < 2 ^ (elemWidth e - 1) := by decide
  exact hall e (Nat.lt_succ_of_le he)

/-- So does the magnitude of an infinity, where the format has one. -/
theorem infCode_lt_signBit {e : Nat} (h : ieee e = true) : infCode e < 2 ^ (elemWidth e - 1) := by
  obtain rfl | rfl | rfl | rfl : e = 5 ∨ e = 7 ∨ e = 8 ∨ e = 9 := by simpa [ieee, or_assoc] using h
  all_goals decide

theorem withSign_mod_signBit {e c : Nat} (neg : Bool) (hc : c < 2 ^ (elemWidth e - 1)) :
    withSign e neg c % 2 ^ (elemWidth e - 1) = c := by
  cases neg <;> simp [withSign, Nat.mod_eq_of_lt hc]

/-! ### Codes that are no NaN but the canonical one -/

/-- R90 for one code of a format: if it reads as NaN, it is the canonical NaN. -/
def NanIsCanonical (e c : Nat) : Prop := elemVal e c = .nan → c = nanCode e

theorem nanIsCanonical_nanCode (e : Nat) : NanIsCanonical e (nanCode e) := fun _ => rfl

theorem nanIsCanonical_of_isInt {e : Nat} (c : Nat) (hi : isInt e = true) : NanIsCanonical e c := by
  intro hnan
  obtain ⟨hni, -, -⟩ := (elemVal_eq_nan_iff e c).mp hnan
  simp [hi] at hni

/-- A finite magnitude, whatever stands above it, is no NaN. -/
theorem nanIsCanonical_of_mod_le_maxCode {e c : Nat} (h : c % 2 ^ (elemWidth e - 1) ≤ maxCode e) :
    NanIsCanonical e c := by
  intro hnan
  obtain ⟨-, hlt, -⟩ := (elemVal_eq_nan_iff e c).mp hnan
  omega

theorem nanIsCanonical_withSign {e c : Nat} (neg : Bool) (he : e ≤ 9) (hc : c ≤ maxCode e) :
    NanIsCanonical e (withSign e neg c) := by
  apply nanIsCanonical_of_mod_le_maxCode
  rwa [withSign_mod_signBit neg (Nat.lt_of_le_of_lt hc (maxCode_lt_signBit he))]

theorem nanIsCanonical_withSign_infCode {e : Nat} (neg : Bool) (h : ieee e = true) :
    NanIsCanonical e (withSign e neg (infCode e)) := by
  intro hnan
  obtain ⟨-, -, hninf⟩ := (elemVal_eq_nan_iff e _).mp hnan
  exact absurd ⟨h, withSign_mod_signBit neg (infCode_lt_signBit h)⟩ hninf

/-! ### Conversion (Table 3-7) -/

theorem nanIsCanonical_overflowCode {e : Nat} (r : Rnd) (neg : Bool) (he : e ≤ 9) :
    NanIsCanonical e (overflowCode e r neg) := by
  unfold overflowCode
  split
  next hi => exact nanIsCanonical_of_isInt _ hi
  next =>
    split
    next => exact nanIsCanonical_nanCode e
    next => exact nanIsCanonical_withSign neg he (Nat.le_refl _)

theorem convert_nan {e : Nat} (r : Rnd) (h : hasNan e = true) : (convert e r .nan).1 = nanCode e := by
  simp [convert, h]

theorem nanIsCanonical_convert_nan (e : Nat) (r : Rnd) : NanIsCanonical e (convert e r .nan).1 := by
  cases h : hasNan e
  case true => rw [convert_nan r h]; exact nanIsCanonical_nanCode e
  case false =>
    apply nanIsCanonical_of_mod_le_maxCode
    simp [convert, h]

theorem nanIsCanonical_convert_inf {e : Nat} (r : Rnd) (neg : Bool) (he : e ≤ 9) :
    NanIsCanonical e (convert e r (.inf neg)).1 := by
  simp only [convert]
  split
  next h => exact nanIsCanonical_withSign_infCode neg h
  next => exact nanIsCanonical_overflowCode r neg he

theorem nanIsCanonical_convert_fin {e : Nat} (r : Rnd) (neg : Bool) (n d : Nat) (he : e ≤ 9) :
    NanIsCanonical e (convert e r (.fin neg n d)).1 := by
  cases hi : isInt e
  case true => exact nanIsCanonical_of_isInt _ hi
  case false =>
    simp only [convert, hi]
    split
    next => exact nanIsCanonical_withSign neg he (Nat.zero_le _)
    next =>
      simp only [Bool.false_eq_true, if_false]
      split
      next => exact nanIsCanonical_withSign neg he (Nat.zero_le _)
      next =>
        split
        next => exact nanIsCanonical_overflowCode r neg he
        next hle => exact nanIsCanonical_withSign neg he (Nat.not_lt.mp hle)

theorem nanIsCanonical_convert {e : Nat} (r : Rnd) (v : Val) (he : e ≤ 9) : NanIsCanonical e (convert e r v).1 := by
  cases v with
  | nan => exact nanIsCanonical_convert_nan e r
  | inf neg => exact nanIsCanonical_convert_inf r neg he
  | fin neg n d => exact nanIsCanonical_convert_fin r neg n d he

/-! ### FP32 arithmetic -/

/-- A magnitude up to infinity, the range to which `to32` clamps, is no NaN. -/
theorem nanIsCanonical_withSign_le_infCode {c : Nat} (neg : Bool) (hc : c ≤ infCode 9) :
    NanIsCanonical 9 (withSign 9 neg c) := by
  obtain rfl | hlt := Nat.eq_or_lt_of_le hc
  · exact nanIsCanonical_withSign_infCode neg (by decide)
  · have hinf : infCode 9 = maxCode 9 + 1 := by decide
    exact nanIsCanonical_withSign neg (Nat.le_refl 9) (by omega)

theorem nanIsCanonical_to32 (v : Val) : NanIsCanonical 9 (to32 v) := by
  cases v with
  | nan => exact nanIsCanonical_nanCode 9
  | inf neg => exact nanIsCanonical_withSign_le_infCode neg (Nat.le_refl _)
  | fin neg n d =>
    simp only [to32]
    split
    next => exact nanIsCanonical_withSign_le_infCode neg (Nat.zero_le _)
    next => exact nanIsCanonical_withSign_le_infCode neg (Nat.min_le_left ..)

theorem nanIsCanonical_nan32 (c : Nat) : NanIsCanonical 9 (nan32 c) := by
  unfold nan32
  split
  next => exact nanIsCanonical_nanCode 9
  next h => exact fun hnan => absurd hnan h

/-- Neither side of a strict order is a NaN. -/
theorem ne_nan_of_lt {a b : Val} (h : a.lt b = true) : a ≠ .nan ∧ b ≠ .nan := by
  cases a <;> cases b <;> simp_all [Val.lt]

/-- Whichever of two ordered operands is chosen, it is no NaN. -/
theorem nanIsCanonical_choice_of_lt {a b : Nat} (second : Bool) (h : (elemVal 9 a).lt (elemVal 9 b) = true) :
    NanIsCanonical 9 (if second then b else a) := by
  obtain ⟨ha, hb⟩ := ne_nan_of_lt h
  cases second
  · exact fun hnan => absurd hnan ha
  · exact fun hnan => absurd hnan hb

theorem nanIsCanonical_minmax32 (mx : Bool) (a b : Nat) : NanIsCanonical 9 (minmax32 mx a b) := by
  simp only [minmax32]
  by_cases hab : (elemVal 9 a).lt (elemVal 9 b) = true
  · rw [if_pos hab]
    exact nanIsCanonical_choice_of_lt mx hab
  rw [if_neg hab]
  by_cases hba : (elemVal 9 b).lt (elemVal 9 a) = true
  · rw [if_pos hba]
    exact nanIsCanonical_choice_of_lt mx hba
  rw [if_neg hba]
  split
  next hsame => exact fun hnan => by simp [hnan] at hsame
  next => exact nanIsCanonical_nan32 _

/-- Under the sign of one code, any magnitude clamped to the largest finite one is no NaN. -/
theorem nanIsCanonical_clamp (c k : Nat) : NanIsCanonical 9 (c - c % 2 ^ 31 + min (maxCode 9) k) := by
  apply nanIsCanonical_of_mod_le_maxCode
  have hmax : maxCode 9 = 0x7F7FFFFF := by decide
  have hwidth : elemWidth 9 - 1 = 31 := by decide
  rw [hmax, hwidth]
  omega

theorem nanIsCanonical_sfu (f x : Nat) : NanIsCanonical 9 (sfu f x) := by
  simp only [sfu]
  split
  next =>
    split
    next =>
      split
      next => exact nanIsCanonical_nan32 _
      next =>
        split
        next => exact nanIsCanonical_to32 _
        next => exact nanIsCanonical_clamp _ _
    next => exact nanIsCanonical_nan32 _
  next => exact nanIsCanonical_nan32 _

end Sys2Proof.Machine

open Sys2Proof Sys2Proof.Machine

/-- Settles O57: conversion delivers a signed magnitude up to infinity's or the canonical NaN (Table 3-7), and so does every
FP32 operation, the results that the manual leaves open included. -/
theorem canonicalNaNs : Obligations.CanonicalNaNs := by
  unfold Obligations.CanonicalNaNs
  refine ⟨by decide, by decide, by decide, by decide, by decide, ?_, ?_, ?_⟩
  · intro e e2 c r he hnan
    rw [hnan, convert_nan r he]
  · intro e r v he
    exact nanIsCanonical_convert r v he
  · intro a b c f mx x hx _ hnan _ _
    have hcan : NanIsCanonical 9 x := by
      simp only [List.mem_cons, List.not_mem_nil, or_false] at hx
      obtain rfl | rfl | rfl | rfl | rfl | rfl := hx
      · exact nanIsCanonical_to32 _
      · exact nanIsCanonical_to32 _
      · exact nanIsCanonical_to32 _
      · exact nanIsCanonical_to32 _
      · exact nanIsCanonical_minmax32 mx a b
      · exact nanIsCanonical_sfu f a
    exact hcan hnan
end

section
/-!
PROOFS. Classification of R313 and R314: what a search of a canonical table finds, the masked comparison bit by bit, and
the packets on which an entry acts.
-/
namespace Sys2Proof.Machine

/-! ### The search of a canonical table -/

section
variable {α : Type}

/-- Where keys rise, the first entry that passes a test is the passing entry of the lowest key. -/
theorem find?_eq_some_iff_lowest {m : Store α} (hrise : m.Pairwise (fun a b => a.1 < b.1)) (p : Nat × α → Bool)
    (e : Nat × α) : m.find? p = some e ↔ e ∈ m ∧ p e = true ∧ ∀ f ∈ m, f.1 < e.1 → p f = false := by
  induction m with
  | nil => simp
  | cons a m ih =>
    obtain ⟨hhead, htail⟩ := List.pairwise_cons.1 hrise
    cases hpa : p a with
    | true =>
      rw [List.find?_cons_of_pos hpa, Option.some_inj]
      constructor
      · rintro rfl
        refine ⟨List.mem_cons_self .., hpa, fun f hf hlt => ?_⟩
        obtain rfl | hf := List.mem_cons.1 hf
        · exact absurd hlt (Nat.lt_irrefl _)
        · exact absurd hlt (Nat.lt_asymm (hhead f hf))
      · rintro ⟨he, -, hlow⟩
        obtain rfl | he := List.mem_cons.1 he
        · rfl
        · have hfail := hlow a (List.mem_cons_self ..) (hhead e he)
          simp [hpa] at hfail
    | false =>
      rw [List.find?_cons_of_neg (by simp [hpa]), ih htail]
      constructor
      · rintro ⟨he, hpe, hlow⟩
        exact ⟨List.mem_cons_of_mem _ he, hpe, List.forall_mem_cons.2 ⟨fun _ => hpa, hlow⟩⟩
      · rintro ⟨he, hpe, hlow⟩
        have hne : e ≠ a := by
          rintro rfl
          simp [hpa] at hpe
        exact ⟨(List.mem_cons.1 he).resolve_left hne, hpe, (List.forall_mem_cons.1 hlow).2⟩

variable [Inhabited α]

/-- A listed entry is what its key reads as, since no other entry has that key. -/
theorem sget_eq_of_mem {m : Store α} (hrise : m.Pairwise (fun a b => a.1 < b.1)) {e : Nat × α} (he : e ∈ m) :
    sget m e.1 = e.2 := by
  induction m with
  | nil => cases he
  | cons f m ih =>
    obtain ⟨hhead, htail⟩ := List.pairwise_cons.1 hrise
    obtain rfl | hmem := List.mem_cons.1 he
    · exact if_pos rfl
    · exact (if_neg (Nat.ne_of_lt (hhead e hmem))).trans (ih htail hmem)

/-- A key that reads as something else than the default is listed. -/
theorem mem_of_sget_ne_default {m : Store α} {i : Nat} (h : sget m i ≠ default) : (i, sget m i) ∈ m := by
  induction m with
  | nil => exact absurd rfl h
  | cons f m ih =>
    obtain ⟨j, v⟩ := f
    by_cases hij : j = i
    · have hread : sget ((j, v) :: m) i = v := if_pos hij
      rw [hread, ← hij]
      exact List.mem_cons_self ..
    · have hread : sget ((j, v) :: m) i = sget m i := if_neg hij
      rw [hread] at h ⊢
      exact List.mem_cons_of_mem _ (ih h)

variable {m : Store α} {p : Nat → α → Bool} (hrise : m.Pairwise (fun a b => a.1 < b.1)) (hp : ∀ i, p i default = false)
include hrise hp

/-- A test that the default fails holds of the listed entries as it holds of what the keys read as. -/
theorem forall_mem_iff_forall_sget (q : Nat → Prop) :
    (∀ e ∈ m, q e.1 → p e.1 e.2 = false) ↔ ∀ i, q i → p i (sget m i) = false := by
  constructor
  · intro h i hi
    by_cases hd : sget m i = default
    · rw [hd, hp]
    · exact h _ (mem_of_sget_ne_default hd) hi
  · intro h e he hq
    rw [← sget_eq_of_mem hrise he]
    exact h e.1 hq

/-- The search of a table for a test that the default fails, in terms of what the keys read as. -/
theorem find?_eq_some_iff_sget (i : Nat) (v : α) : m.find? (fun e => p e.1 e.2) = some (i, v) ↔
    v = sget m i ∧ p i (sget m i) = true ∧ ∀ j < i, p j (sget m j) = false := by
  rw [find?_eq_some_iff_lowest hrise, forall_mem_iff_forall_sget hrise hp (· < i)]
  constructor
  · rintro ⟨hmem, hpass, hlow⟩
    obtain rfl : sget m i = v := sget_eq_of_mem hrise hmem
    exact ⟨rfl, hpass, hlow⟩
  · rintro ⟨rfl, hpass, hlow⟩
    refine ⟨mem_of_sget_ne_default fun hd => ?_, hpass, hlow⟩
    simp [hd, hp] at hpass

theorem find?_eq_none_iff_sget : m.find? (fun e => p e.1 e.2) = none ↔ ∀ i, p i (sget m i) = false := by
  simpa using forall_mem_iff_forall_sget hrise hp (fun _ => True)

end

/-! ### The masked comparison -/

theorem bit_eq_testBit (v i : Nat) : bit v i = v.testBit i := Nat.testBit_eq_decide_div_mod_eq.symm

/-- R313: (key xor entry key) and mask is zero exactly where key and entry agree at every bit of the mask. -/
theorem masked_xor_eq_zero_iff {w mask : Nat} (k key : Nat) (hmask : mask < 2 ^ w) :
    (k ^^^ key) &&& mask = 0 ↔ ∀ b < w, bit mask b = true → bit k b = bit key b := by
  have hbit (b : Nat) : ((k ^^^ key) &&& mask).testBit b = false ↔ (bit mask b = true → bit k b = bit key b) := by
    simp only [bit_eq_testBit, Nat.testBit_and, Nat.testBit_xor]
    cases mask.testBit b <;> simp
  constructor
  · intro hzero b _
    rw [← hbit, hzero, Nat.zero_testBit]
  · intro hagree
    refine Nat.eq_of_testBit_eq fun b => ?_
    rw [Nat.zero_testBit]
    by_cases hb : b < w
    · exact (hbit b).2 (hagree b hb)
    · have hhigh : mask.testBit b = false :=
        Nat.testBit_lt_two_pow (Nat.lt_of_lt_of_le hmask (Nat.pow_le_pow_right (by decide) (Nat.le_of_not_lt hb)))
      rw [Nat.testBit_and, hhigh, Bool.and_false]

/-- A bound on the listed masks is one on the mask of every index: an index that lists no entry has an empty mask. -/
theorem mask_sget_lt {m : Store ClsEntry} {w : Nat} (hwide : ∀ e ∈ m, e.2.mask < 2 ^ w) (i : Nat) :
    (sget m i).mask < 2 ^ w := by
  by_cases hd : sget m i = default
  · rw [hd]
    exact Nat.two_pow_pos w
  · exact hwide _ (mem_of_sget_ne_default hd)

/-! ### The packets on which an entry acts -/

/-- R314: an entry of owner `o`, coded as `clsOwner` answers it, is valid for packets with key `k`. -/
def OwnerAdmits (o k : Nat) : Prop :=
  o = 1 ∨ ∃ sl, o = 2 + sl ∧ bit k 490 = true ∧ bit k 491 = false ∧ bits k 500 492 = sl

theorem not_ownerAdmits_zero (k : Nat) : ¬ OwnerAdmits 0 k := by
  rintro (h | ⟨sl, h, -⟩) <;> omega

theorem ownerAdmits_one (k : Nat) : OwnerAdmits 1 k := Or.inl rfl

theorem ownerAdmits_slice (sl k : Nat) :
    OwnerAdmits (sl + 2) k ↔ bit k 490 = true ∧ bit k 491 = false ∧ bits k 500 492 = sl := by
  constructor
  · rintro (h | ⟨sl', h, hadmits⟩)
    · omega
    · obtain rfl : sl' = sl := by omega
      exact hadmits
  · exact fun hadmits => Or.inr ⟨sl, Nat.add_comm .., hadmits⟩

/-- R313 and R314 for one entry, with the masked comparison still on whole words. -/
theorem clsMatch_iff (s : State) (i : Nat) (e : ClsEntry) (k : Nat) : s.clsMatch i e k = true ↔
    (bit e.action 63 = true ∧ OwnerAdmits (s.clsOwner i) k) ∧ (k ^^^ e.key) &&& e.mask = 0 := by
  rw [State.clsMatch, and_right_comm]
  match s.clsOwner i with
  | 0 => simp [not_ownerAdmits_zero]
  | 1 => simp [ownerAdmits_one]
  | sl + 2 => simp [ownerAdmits_slice, and_assoc]

/-- An index that lists no entry acts on nothing: its valid bit reads as clear. -/
theorem clsMatch_default (s : State) (i k : Nat) : s.clsMatch i default k = false := by
  have hvalid : bit (default : ClsEntry).action 63 = false := by decide
  simp [State.clsMatch, hvalid]

end Sys2Proof.Machine

open Sys2Proof Sys2Proof.Machine

/-- Settles O60: the classifier searches a table whose keys rise, and an index that lists no entry acts on nothing. -/
theorem firstMatchClassifies : Obligations.FirstMatchClassifies := by
  unfold Obligations.FirstMatchClassifies
  intro s k hcanon valid meets wide hfits
  obtain ⟨-, hwide⟩ := hfits
  obtain ⟨hrise, -⟩ := (canonical_iff _ _).1 hcanon
  have hmask (i : Nat) : (sget s.net.cls i).mask < 2 ^ 512 := mask_sget_lt (fun e he => (hwide e he).2) i
  have hmeets (i : Nat) : s.clsMatch i (sget s.net.cls i) k = true ↔ meets i := by
    rw [clsMatch_iff, masked_xor_eq_zero_iff _ _ (hmask i)]
    rfl
  have hmeetsNot (i : Nat) : s.clsMatch i (sget s.net.cls i) k = false ↔ ¬ meets i := by
    rw [← hmeets, Bool.not_eq_true]
  have hnone (i : Nat) : s.clsMatch i default k = false := clsMatch_default s i k
  constructor
  · intro i e
    rw [State.classify, find?_eq_some_iff_sget (p := fun i e => s.clsMatch i e k) hrise hnone]
    simp only [hmeets, hmeetsNot]
  · rw [State.classify, find?_eq_none_iff_sget (p := fun i e => s.clsMatch i e k) hrise hnone]
    simp only [hmeetsNot]
end

section
/-!
PROOFS. The PCIe link of R420: what `LINK_STATUS` shows after training, and that the events to the operator and the manager
leave the host endpoint as it was but for the function PF0, through which the manager is interrupted.
-/
namespace Sys2Proof.Machine

/-! ### The host endpoint but for PF0 -/

/-- The host endpoint of `t` is that of `s` but for PF0. -/
def SameHostButPf0 (s t : State) : Prop := ∃ p, t.host = { s.host with pf0 := p }

theorem SameHostButPf0.of_host_eq {s t : State} (h : t.host = s.host) : SameHostButPf0 s t := ⟨s.host.pf0, h⟩

theorem SameHostButPf0.trans {s t u : State} (hst : SameHostButPf0 s t) (htu : SameHostButPf0 t u) : SameHostButPf0 s u := by
  obtain ⟨p, hp⟩ := hst
  obtain ⟨q, hq⟩ := htu
  exact ⟨q, by rw [hq, hp]⟩

theorem SameHostButPf0.slices_eq {s t : State} (h : SameHostButPf0 s t) : t.host.slices = s.host.slices := by
  obtain ⟨p, hp⟩ := h
  rw [hp]

theorem SameHostButPf0.linkStatus_eq {s t : State} (h : SameHostButPf0 s t) : t.linkStatus = s.linkStatus := by
  obtain ⟨p, hp⟩ := h
  simp only [State.linkStatus, hp]

theorem sameHostButPf0_syncPf0 (s : State) : SameHostButPf0 s s.syncPf0 := by
  simp only [State.syncPf0]
  split
  · exact .of_host_eq rfl
  · exact ⟨_, rfl⟩

theorem sameHostButPf0_msixSend (s : State) (v : Nat) : SameHostButPf0 s (s.msixSend false v) := by
  simp only [State.msixSend, Bool.false_eq_true, if_false]
  split
  · exact ⟨_, rfl⟩
  · exact .of_host_eq rfl

theorem sameHostButPf0_signalPf0 (s : State) (v : Nat) : SameHostButPf0 s (s.signalPf0 v) := by
  rw [State.signalPf0]
  split
  · exact (sameHostButPf0_msixSend s v).trans (sameHostButPf0_syncPf0 _)
  · exact sameHostButPf0_syncPf0 s

theorem sameHostButPf0_admPush (s : State) (e : Nat) : SameHostButPf0 s (s.admPush e) := by
  rw [State.admPush]
  split
  · exact .of_host_eq rfl
  · exact .trans (.of_host_eq rfl) (sameHostButPf0_signalPf0 _ 1)

/-- An event reaches the rest of the host endpoint only as the event of a slice (R550). -/
theorem sameHostButPf0_event (s : State) {r : Recipient} (hr : ∀ n, r ≠ .slice n) (c a b d : Nat) :
    SameHostButPf0 s (s.event r c a b d) := by
  have hemit : SameHostButPf0 s (s.emit (.event r c a b d)) := .of_host_eq (State.emit_host s _)
  rw [State.event]
  split
  · exact .of_host_eq rfl
  · cases r with
    | operator => exact hemit
    | manager =>
      dsimp only
      split
      · exact hemit.trans (sameHostButPf0_admPush _ _)
      · exact hemit
    | slice n => exact absurd rfl (hr n)

/-! ### The trained link -/

/-- The state in which the link has come up at a rate, a width and a mode. -/
def State.linkUp (s : State) (rate width : Nat) (flit : Bool) : State :=
  s.setHost (fun h => { h with up := true, rate := rate, width := width, flit := flit, power := .l0 })

/-- PCIE_LINK_DEGRADED to the operator and the manager, each with `LINK_STATUS`. -/
def State.linkDegraded (s : State) : State :=
  (s.event .operator 0x0E01 s.linkStatus 0 0).event .manager 0x0E01 s.linkStatus 0 0

theorem exec_pcieLinkTrained_eq (s : State) (rate : BitVec 8) (width : BitVec 5) (flit : Bool) :
    exec (.pcieLinkTrained rate width flit) s = .next (if width.toNat < 16 ∨ rate.toNat < 64 then
      (s.linkUp rate.toNat width.toNat flit).linkDegraded else s.linkUp rate.toNat width.toNat flit) := rfl

theorem linkStatus_linkUp (s : State) (rate width : Nat) (flit : Bool) :
    (s.linkUp rate width flit).linkStatus = rate % 256 + 256 * (width % 32) + 8192 * b2n flit := rfl

/-- The fields of `LINK_STATUS` in L0, whose own code in bits 15 and 14 is 0. -/
theorem linkStatus_linkUp_fields (s : State) {rate width : Nat} (flit : Bool) (hrate : rate < 256) (hwidth : width < 32) :
    let v := (s.linkUp rate width flit).linkStatus
    bits v 7 0 = rate ∧ bits v 12 8 = width ∧ bit v 13 = flit ∧ bits v 15 14 = 0 := by
  rw [linkStatus_linkUp, Nat.mod_eq_of_lt hrate, Nat.mod_eq_of_lt hwidth]
  simp only [bits, bit]
  have hmode : b2n flit ≤ 1 ∧ decide (b2n flit = 1) = flit := by cases flit <;> decide
  obtain ⟨hle, hflit⟩ := hmode
  refine ⟨by omega, by omega, ?_, by omega⟩
  rw [show (rate + 256 * width + 8192 * b2n flit) / 2 ^ 13 % 2 = b2n flit by omega, hflit]

theorem sameHostButPf0_linkDegraded (s : State) : SameHostButPf0 s s.linkDegraded :=
  (sameHostButPf0_event s (by simp) ..).trans (sameHostButPf0_event _ (by simp) ..)

@[simp] theorem State.linkDegraded_mod (s : State) : s.linkDegraded.mod = s.mod := by simp [State.linkDegraded]

@[simp] theorem State.linkDegraded_mem (s : State) : s.linkDegraded.mem = s.mem := by simp [State.linkDegraded]

/-- While MGI's port holds nothing, both events go out, and they name what `LINK_STATUS` then shows. -/
theorem linkDegraded_sent (s : State) (hfree : s.mod.holding = false) :
    .event .operator 0x0E01 s.linkStatus 0 0 ∈ s.linkDegraded.sent ∧ .event .manager 0x0E01 s.linkStatus 0 0 ∈ s.linkDegraded.sent :=
  ⟨State.sent_event _ _ _ _ _ _ _ (State.event_mem_sent s _ _ _ _ _ hfree),
    State.event_mem_sent _ _ _ _ _ _ (by rw [State.event_mod, hfree])⟩

end Sys2Proof.Machine

open Sys2Proof Sys2Proof.Machine

/-- Settles O58: training sets the link's own fields, and the two events, raised after it, leave `LINK_STATUS` and the
functions as they are. -/
theorem degradedLinkTraining : Obligations.DegradedLinkTraining := by
  unfold Obligations.DegradedLinkTraining
  intro s rate width flit
  have hfields := linkStatus_linkUp_fields s flit rate.isLt width.isLt
  rw [exec_pcieLinkTrained_eq]
  split
  next hslow =>
    have hsame := sameHostButPf0_linkDegraded (s.linkUp rate.toNat width.toNat flit)
    refine ⟨_, rfl, ?_⟩
    rw [hsame.linkStatus_eq, hsame.slices_eq, State.linkDegraded_mod, State.linkDegraded_mem]
    exact ⟨fun _ hfree => linkDegraded_sent _ hfree, rfl, rfl, rfl, hfields⟩
  next hfull =>
    exact ⟨_, rfl, fun hslow => absurd hslow hfull, rfl, rfl, rfl, hfields⟩
end

section
/-!
PROOFS. The tenant–manager channel of R438: a `CHAN_DB` notification on the admin completion ring, and CHAN_NOTIFY, whose
signal of steering entry 1 leaves `CHAN_IN`.
-/
namespace Sys2Proof.Machine

/-! ### CHAN_DB -/

/-- A slice that is FREE or being destroyed has no `CHAN_DB` (R66). -/
theorem exec_chanDbWrite_absent (s : State) (sl : Fin 512) (v : BitVec 32)
    (h : (s.slice sl.val).st = .free ∨ (s.slice sl.val).st = .destroying) :
    exec (.chanDbWrite sl v) s = .next (s.emit (.busError .pcieWrite)) := by
  rw [exec_chanDbWrite, execChanDbWrite, if_pos h]

theorem exec_chanDbWrite_live (s : State) (sl : Fin 512) (v : BitVec 32)
    (hfree : (s.slice sl.val).st ≠ .free) (hdest : (s.slice sl.val).st ≠ .destroying) :
    exec (.chanDbWrite sl v) s = .next (s.chanDb sl.val v.toNat) := by
  rw [exec_chanDbWrite, execChanDbWrite, if_neg (not_or.2 ⟨hfree, hdest⟩)]

/-- On a running ring a notification takes the place of the slice's unwritten one, which is counted in `CHAN_MERGED`. -/
theorem chanDb_merge (s : State) (sl v : Nat) (hrun : s.adm.st = .running) (hw : s.adm.waiting.any (isChan sl) = true) :
    s.chanDb sl v = (s.count 0xA000 0x0D 1).setAdm (fun a => { a with
      waiting := a.waiting.map (fun w => if isChan sl w then admEntry sl 0xF0 v 0xFFFFFFFF else w) }) := by
  rw [State.chanDb, if_neg (fun hoff => hoff hrun), if_pos hw]

theorem chanDb_push (s : State) (sl v : Nat) (hrun : s.adm.st = .running) (hw : s.adm.waiting.any (isChan sl) = false) :
    s.chanDb sl v = s.admPush (admEntry sl 0xF0 v 0xFFFFFFFF) := by
  rw [State.chanDb, if_neg (fun hoff => hoff hrun), if_neg (by simp [hw])]

/-- With a place free and nothing held, an entry is written at `CQ_TAIL`, which advances (R485). -/
theorem admPush_adm_of_room (s : State) (e : Nat) (hroom : s.adm.full = false) (hnone : s.adm.waiting = []) :
    (s.admPush e).adm = { s.adm with
      comp := put 0 s.adm.comp (s.adm.cqTail % 32) e, cqTail := (s.adm.cqTail + 1) % 2 ^ 32 } := by
  rw [State.admPush, if_neg (by simp [hroom, hnone]), State.signalPf0_adm]

/-! ### Admitted slice commands -/

/-- An admitted entry is checked for nothing further, but that its slice exists (R427). -/
theorem sliceRun_of_admits {s : State} {op : Nat} {d : List Byte} (h : s.admits op d) (hop : op ∈ admOps)
    (k : AdmCmd → Nat → State → State) : s.sliceRun op d k =
      if (s.slice (admCmdOf d).slice.toNat).st = .free then s.admDone 0 2 0 (admCmdOf d).tag
      else k (admCmdOf d) (admCmdOf d).slice.toNat s := by
  obtain ⟨hring, hruns, hfield, hform, htag, hslices⟩ := h
  have hcmd : (admCmdOf d).op = op := hfield
  have hserved : ¬ (s.adm.st ≠ .running ∨ !s.fwRuns ∨ (admOps.contains (admCmdOf d).op ∧ (admCmdOf d).op ≠ op)) := by
    simp [hring, hruns, hcmd]
  have hwell : ¬ (!(admOps.contains (admCmdOf d).op) ∨ (admCmdOf d).reserved ∨ (admCmdOf d).tag = 0xFFFFFFFF) := by
    simpa [hcmd, hop, hform] using htag
  rw [State.sliceRun, State.admRun, if_neg hserved, if_neg hwell]
  simp [hslices, State.sliceExists]

/-! ### A signal of a steering entry -/

theorem slice_congr {s t : State} (h : t.host.slices = s.host.slices) (n : Nat) : t.slice n = s.slice n := by
  rw [State.slice, State.slice, h]

theorem syncPf1_slices (s : State) : s.syncPf1.host.slices = s.host.slices := by
  simp only [State.syncPf1]
  split <;> rfl

theorem msixSend_slices (s : State) (pf1 : Bool) (v : Nat) : (s.msixSend pf1 v).host.slices = s.host.slices := by
  cases pf1 with
  | false =>
    simp only [State.msixSend, Bool.false_eq_true, if_false]
    split <;> rfl
  | true =>
    simp only [State.msixSend, if_true]
    split <;> rfl

theorem setSteer_chanIn (s : State) (sl e n : Nat) (f : Steer → Steer) :
    ((s.setSteer sl e f).slice n).chanIn = (s.slice n).chanIn := by
  rw [State.setSteer, State.slice_setSlice]
  split
  next h => rw [h]
  next => rfl

theorem steerFire_chanIn (s : State) (sl e n : Nat) : ((s.steerFire sl e).slice n).chanIn = (s.slice n).chanIn := by
  simp only [State.steerFire]
  split
  · rw [slice_congr (syncPf1_slices _)]
    split
    · rw [slice_congr (msixSend_slices ..), setSteer_chanIn]
    · rw [setSteer_chanIn]
  · rw [slice_congr (syncPf1_slices s)]

/-- A signal of a steering entry leaves `CHAN_IN` of every slice (R424). -/
theorem steerSignal_chanIn (s : State) (sl e n : Nat) : ((s.steerSignal sl e).slice n).chanIn = (s.slice n).chanIn := by
  rw [State.steerSignal, steerFire_chanIn, setSteer_chanIn]

/-! ### CHAN_NOTIFY -/

/-- An admitted CHAN_NOTIFY, by the state of its slice. -/
theorem exec_chanNotify_of_admits {s : State} {d : List Byte} (h : s.admits 0x2A d) :
    exec (.chanNotify d) s = .next (
      let c := admCmdOf d
      let sl := c.slice.toNat
      if (s.slice sl).st = .free then s.admDone 0 2 0 c.tag
      else if (s.slice sl).st = .destroying then s.admDone sl 3 0 c.tag
      else ((s.setSlice sl (fun x => { x with chanIn := c.count.toNat % 2 ^ 32 })).steerSignal sl 1).admDone sl 0 0 c.tag) := by
  rw [exec_chanNotify, execChanNotify, sliceRun_of_admits h (by decide)]

end Sys2Proof.Machine

open Sys2Proof Sys2Proof.Machine

/-- Settles O59: each notification by the state of its slice; CHAN_DB merges with a notification that waits for the ring or
is pushed onto it, and CHAN_NOTIFY sets `CHAN_IN`, which its own signal leaves. -/
theorem managerChannel : Obligations.ManagerChannel := by
  unfold Obligations.ManagerChannel
  constructor
  · intro s sl v x e
    refine ⟨exec_chanDbWrite_absent s sl v, fun hfree hdest => ?_⟩
    rw [exec_chanDbWrite_live s sl v hfree hdest]
    refine ⟨fun hrun hw => ?_, fun hrun hw => ?_⟩
    · rw [chanDb_merge s _ _ hrun hw]
      exact ⟨_, rfl, rfl, State.obj_count_same s 0xA000 0xD 1⟩
    · refine ⟨by rw [chanDb_push s _ _ hrun hw], fun hroom hnone => ?_⟩
      rw [admPush_adm_of_room s e hroom hnone]
      exact ⟨look_put_same 0 s.adm.comp (s.adm.cqTail % 32) e, rfl⟩
  · intro s d hadmits c sl x put
    rw [exec_chanNotify_of_admits hadmits]
    refine ⟨fun hfree => ?_, fun hdest => ?_, fun hfree hdest => ⟨?_, ?_⟩⟩
    · exact congrArg _ (if_pos hfree)
    · have hfree : x.st ≠ .free := by simp [hdest]
      exact congrArg _ ((if_neg hfree).trans (if_pos hdest))
    · exact congrArg _ ((if_neg hfree).trans (if_neg hdest))
    · rw [steerSignal_chanIn, State.slice_setSlice_same]
end
